-- ==== Sys2Proof/Word.lean ====
section
/-! DEFINITION. The word types of the block: one byte, and the values software sees as words. Multi-byte data is little-endian (R10),
so a run of bytes is held as the natural number whose byte k is its k-th byte in memory order. -/

namespace Sys2Proof

/-- One byte of memory, of a message or of an object value. -/
abbrev Byte := BitVec 8

end Sys2Proof
end

