-- ==== Sys2Proof/Syntax.lean ====
section
/-! DEFINITION. The commands the block takes (Instr, one constructor per row of spec/opcode_table.json) and the types of their operands.
The table gives the rows no operands and no bits: the operands are the fields of the messages, the object values, and the measured
values that the row's rule names (notes/assumptions 8). -/

namespace Sys2Proof

/-- The variant a part's fuses make it (Table 0.3, R2). -/
inductive Variant where
  | hn8f | hn8s | hn4sWest | hn4sEast
  deriving DecidableEq, Repr

/-- The four routes to the object dictionary (R332). VF number v is 0 for VF1. -/
inductive Route where
  | hostPf | hostVf (v : Fin 16) | phildofel | internal
  deriving DecidableEq, Repr

/-- A value on its way to or from an object: its length in bytes and its bytes as a little-endian number (R330). -/
structure OdVal where
  len : Nat
  val : Nat
  deriving DecidableEq, Repr

/-- A write of an object: the route it arrives on and the value (R332). -/
structure OdWrite where
  route : Route
  val : OdVal
  deriving DecidableEq, Repr

/-- Index, instance and subindex of an object (Table 13.9). -/
structure ObjAddr where
  index : BitVec 16
  inst : BitVec 16
  sub : BitVec 8
  deriving DecidableEq, Repr

/-- A message of an attach port or a link: the header chunk, the deadline extension chunk (used when DLX = 1) and the payload chunks
as a little-endian number (R259, R296). -/
structure Msg where
  hdr : BitVec 128
  ext : BitVec 128
  payload : Nat
  deriving DecidableEq, Repr

/-- Where a command comes from when several interfaces carry it: an attach message, a host command slot (function, slot, header of
Table 12.5, payload), a write of its object, or a transfer descriptor of a ring (RANGE only). -/
inductive CmdSrc where
  | attach (i : Fin 512) (m : Msg)
  | host (f : Fin 17) (slot : Fin 16) (hdr : BitVec 64) (payload : Nat)
  | object (inst : Nat) (w : OdWrite)
  | descriptor (ring : Fin 1048576)
  deriving DecidableEq, Repr

/-- A bindable resource that is re-bound (R48). -/
inductive Resource where
  | port (i : Fin 512) | te (t : Fin 512) | pf
  deriving DecidableEq, Repr

/-- Parity of the two copies of the tag entries of a lookup (R64, R65). -/
inductive TagChk where
  | good | copyABad | copyBBad | bothBad
  deriving DecidableEq, Repr

/-- SEC-DED outcome of a data-array read: sector k of the line has a single-bit or a double-bit error (R63). -/
inductive DataChk where
  | good | single | double (sector : Fin 2)
  deriving DecidableEq, Repr

/-- Outcome of reading a codeword back, the one re-read included (R157). -/
inductive Ecc where
  | clean | corrected | retried | retriedCorrected | failed
  deriving DecidableEq, Repr

/-- What a stack reports and how its training ended (R147, R160 to R163). `failedPcs` has bit 2k+h for pseudo-channel k.h. -/
structure TrainOutcome where
  supported : Bool
  serial : BitVec 128
  config : BitVec 8
  actTiming : BitVec 32
  rfmThreshold : Nat
  rfmReduce : Nat
  celsius : Int
  verifies : Bool
  failedPcs : BitVec 64
  record : OdVal
  deriving DecidableEq, Repr

/-- A PTP message as the management-port tap timestamps it (R221, Table 8.3). -/
inductive PtpMsg where
  | announce (domain : BitVec 8) (priority : Nat) (identity : Nat)
  | syncOneStep (domain : BitVec 8) (identity : Nat) (t1 t2 : Nat)
  | syncTwoStep (domain : BitVec 8) (identity : Nat) (t2 : Nat)
  | followUp (domain : BitVec 8) (identity : Nat) (t1 : Nat)
  | delayResp (domain : BitVec 8) (identity : Nat) (t3 t4 : Nat)
  deriving DecidableEq, Repr

/-- The end of equalisation: the engine's temperature band, the FOM of each lane after the saved settings and after full equalisation,
the taps, and the settings a record would hold (R288). -/
structure EqOutcome where
  band : Fin 4
  fastFoms : List Nat
  fullFoms : List Nat
  coefs : List (BitVec 32)
  record : OdVal
  deriving DecidableEq, Repr

/-- The end of a MEASURE run: pre-FEC BER per lane and projected frame loss ratio, as binary32 (R290). -/
structure MeasureOutcome where
  bers : List (BitVec 32)
  flr : BitVec 32
  deriving DecidableEq, Repr

/-- One lane's statistics over a 1 s interval (R295). -/
structure LaneStat where
  ber : BitVec 32
  uncorrectable : Nat
  deriving DecidableEq, Repr

/-- How a live retraining ended at this end: whether its phases completed, this receiver's lanes, the partner's control block, the
lanes' BER in the verification, and what its equalisation found (R288, R295). -/
structure RetrainOutcome where
  completes : Bool
  lanesOk : BitVec 8
  partner : BitVec 256
  bers : List (BitVec 32)
  band : Fin 4
  foms : List Nat
  coefs : List (BitVec 32)
  record : OdVal
  deriving DecidableEq, Repr

/-- The messages that follow a SCHED_START chunk (R305). -/
structure SchedUnit where
  msgs : List Msg
  deriving DecidableEq, Repr

/-- BAR a host memory request names (Table 12.2). -/
inductive HostBar where
  | bar0 | bar2 | bar4
  deriving DecidableEq, Repr

/-- A host memory request (R313): posted when it is a write. -/
structure HostReq where
  write : Bool
  bar : HostBar
  offset : Nat
  len : Nat
  data : Nat
  relaxed : Bool
  tag : Nat
  deriving DecidableEq, Repr

/-- PCIe AtomicOps of R317. -/
inductive PcieAtomic where
  | fetchAdd32 | fetchAdd64 | swap32 | swap64 | cas32 | cas64 | cas128
  deriving DecidableEq, Repr

/-- Registers of a fault ring set (R321). -/
inductive FrReg where
  | base | shadow | sizeLog2 | cons
  deriving DecidableEq, Repr

/-- The three ways GATE_NOW is read (R324). -/
inductive GateHalf where
  | whole | low | high
  deriving DecidableEq, Repr

/-- How host link training ends (R310): up with a rate, a width and the bridge's identity, or 1 s passed. -/
inductive HostTrain where
  | up (rate : BitVec 8) (width : BitVec 8) (bridge : BitVec 128)
  | timeout
  deriving DecidableEq, Repr

/-- An Ethernet frame at the management port (R348, R349). -/
structure EthFrame where
  dst : BitVec 48
  src : BitVec 48
  tagged : Bool
  etype : BitVec 16
  payload : OdVal
  deriving DecidableEq, Repr

/-- The source of a staged segment: its route, with the source MAC address for Phildofel (R350). -/
structure SegSrc where
  route : Route
  mac : BitVec 48
  deriving DecidableEq, Repr

/-- How far a store commit got: header written, read-back wrong once or twice, or still in its body (R339, R342, R343). -/
inductive CommitOutcome where
  | done | retriedOnce | failedTwice | inBody | inHeader
  deriving DecidableEq, Repr

/-- A unit whose power state changes (Table 14.6, Table 14.7). -/
inductive PowerUnit where
  | slice (s : Fin 1024) | field (f : Fin 8) | spare (j : Fin 64) | channel (c : Fin 1024) | link (n : Fin 64) | glide (f : Fin 8)
  deriving DecidableEq, Repr

/-- Manifest data of a firmware bank (Table 15.5): SVN, version, digest of bytes 0 to 399, and per kind the image digest, the handover
version it writes and the oldest it accepts. -/
structure BankImage where
  svn : BitVec 32
  version : BitVec 32
  manifestDigest : Nat
  digests : List Nat
  handover : List Nat
  handoverMin : List Nat
  deriving DecidableEq, Repr

/-- What a boot stage found (Table 15.1): always-on time, the units that failed with their causes, and the checks that halt a stage. -/
structure StageOutcome where
  aoTime : BitVec 32
  fails : List (Nat × Nat)
  fuseCopiesAgree : Bool
  railsSettle : Bool
  inputMv : BitVec 16
  chargeUs : BitVec 16
  bankOk : List Bool
  factoryOk : Bool
  defectStoreOk : Bool
  imageBad : Bool
  startMs : BitVec 16
  deriving DecidableEq, Repr

/-- State of the 1000BASE-X management link (R348). -/
inductive MgmtLink where
  | down | negotiating | up
  deriving DecidableEq, Repr


/-- The commands of the block: one constructor per row of spec/opcode_table.json; those without operands come last. -/
inductive Instr where
  /-- READ (R260). An attach READ request enters a port and is checked against the partition's SITE windows under Table 2.5 before it is sent to the owner slice. -/
  | read (i : Fin 512) (m : Msg)
  /-- WRITE (R260). An attach WRITE request, a doorbell write included, is checked at the port and sent to its owner slice or ring engine. -/
  | write (i : Fin 512) (m : Msg)
  /-- ATOMIC (R116). An attach ATOMIC request is checked for type and alignment, then checked against the windows and sent to the owner slice. -/
  | atomic (i : Fin 512) (m : Msg)
  /-- PREFETCH (R260). An attach software PREFETCH of one line is checked against the windows and sent to the owner slice. -/
  | prefetch (i : Fin 512) (m : Msg)
  /-- FMT_READ (R96). A format-on-read request names a descriptor, a unit, a first block and a count; it is checked whole and sent to the unit's owner slice. -/
  | fmtRead (i : Fin 512) (m : Msg)
  /-- FMT_WRITE (R96). A format-on-write request is checked against its descriptor and windows and sent to the unit's owner slice. -/
  | fmtWrite (i : Fin 512) (m : Msg)
  /-- SCALED_ACC (R96). A scaled accumulate request is checked against its descriptor and target rules and sent to the owner slice of the target region. -/
  | scaledAcc (i : Fin 512) (m : Msg)
  /-- RANGE (R73). A range operation (from an attach port, the host or a descriptor) is split by the hash and each owner slice is sent its part. -/
  | range (src : CmdSrc)
  /-- FENCE (R266). An attach FENCE holds every later request of the port until every earlier request has been answered, and is then answered itself. -/
  | fence (i : Fin 512) (m : Msg)
  /-- FORMAT_SET (R94). A format descriptor is installed through FORMAT_DESC, the host command or the attach message, and checked under R95. -/
  | formatSet (src : CmdSrc)
  /-- RING_WRITE (R127). A ring context write through RING_CONTEXT, the host command or the attach command, including enable, disable, restart and NOTIFY-only changes. -/
  | ringWrite (src : CmdSrc)
  /-- RING_READ (R126). A ring context is read whole, including HEAD and COMP_INDEX held in the engine, after a partition check. -/
  | ringRead (src : CmdSrc)
  /-- SWEEP (R137). A sweep command is written through SWEEP_COMMAND, the host command or the attach command and checked under Table 5.10; if accepted, the sweep is armed. -/
  | sweep (src : CmdSrc)
  /-- LAUNCH (R224). A launch record is submitted through GATE_LAUNCH, the host command or the attach command, checked under Table 8.5, then queued locally or forwarded. -/
  | launch (src : CmdSrc)
  /-- LAUNCH_CANCEL (R228). A cancel through GATE_CANCEL, the host command or the attach command withdraws a launch from every queue if T is at least 1 µs ahead. -/
  | launchCancel (src : CmdSrc)
  /-- GATE_READ (R212). A gate-time read command returns the gate time held by the requester's tap. -/
  | gateRead (src : CmdSrc)
  /-- ATTACH_DATA_FLIT (R255). An attach DATA flit is received; it is checked for CRC and sequence, then accepted or discarded with a NAK, and its ACK and CREDIT fields are applied. -/
  | attachDataFlit (i : Fin 512) (flit : BitVec 2048)
  /-- ATTACH_PARAM_FLIT (R257). A PARAM flit is received during the parameter exchange; when both sides agree, the port enters ACTIVE, otherwise DOWN with cause 7. -/
  | attachParamFlit (i : Fin 512) (flit : BitVec 2048)
  /-- ATTACH_NULL_FLIT (R255). A NULL flit is received, and its ACK and CREDIT running values are applied when its CRC is correct. -/
  | attachNullFlit (i : Fin 512) (flit : BitVec 2048)
  /-- ATTACH_RESET_TIMER (R257). 1 µs after a port enters RESET, it moves to TRAIN. -/
  | attachResetTimer (i : Fin 512)
  /-- ATTACH_TRAIN_DONE (R257). UCIe-3D link initialisation completes and the port moves to PARAM. -/
  | attachTrainDone (i : Fin 512)
  /-- ATTACH_TRAIN_TIMEOUT (R257). TRAIN exceeds 100 µs and the port goes DOWN with cause 1. -/
  | attachTrainTimeout (i : Fin 512)
  /-- ATTACH_PARAM_TIMEOUT (R257). PARAM exceeds 10 µs and the port goes DOWN with cause 1. -/
  | attachParamTimeout (i : Fin 512)
  /-- ATTACH_PORT_RESET (R258). A write of TRUE to ATTACH_PORT_RESET stops credits and drains an ACTIVE port, or re-enters RESET from the other states. -/
  | attachPortReset (i : Fin 512) (w : OdWrite)
  /-- ATTACH_RESET_DRAIN_END (R258). An ACTIVE port being reset has every accepted request answered, or reaches 3 ms, and enters RESET. -/
  | attachResetDrainEnd (i : Fin 512)
  /-- NTF_SEND (R256). A held notification is sent on the NTF channel once the device holds NTF credit for the whole message. -/
  | ntfSend (i : Fin 512)
  /-- VF_REQ (R272). A die sideband VF_REQ starts an operating-point transition; rails are raised, or the request is refused with VF_NAK. -/
  | vfReq (n : Fin 8) (frame : BitVec 64)
  /-- VF_DONE (R272). A die VF_DONE lets the device lower rails and finish the transition, or is answered with VF_NAK reason 5. -/
  | vfDone (n : Fin 8) (frame : BitVec 64)
  /-- VF_DONE_TIMEOUT (R272). No VF_DONE arrives within 1 ms of VF_GRANT; the transition ends without lowering rails and SITE_VF_TIMEOUT is raised. -/
  | vfDoneTimeout (n : Fin 8)
  /-- RAIL_QUERY (R271). A die RAIL_QUERY is answered with RAIL_STATUS. -/
  | railQuery (n : Fin 8) (frame : BitVec 64) (mv : BitVec 16) (deciAmp : BitVec 16)
  /-- PORT_QUERY (R271). A die PORT_QUERY is answered with PORT_STATE for half of the port mask. -/
  | portQuery (n : Fin 8) (frame : BitVec 64)
  /-- SIDEBAND_ACK (R271). A die ACK acknowledges an unsolicited device sideband frame. -/
  | sidebandAck (n : Fin 8) (frame : BitVec 64)
  /-- SIDEBAND_RESEND (R271). An unacknowledged device sideband frame is resent after 10 µs, up to 8 times, then counted in SITE_SB_LOST. -/
  | sidebandResend (n : Fin 8)
  /-- RAIL_SETTLED (R269). A ramping site rail settles within ±1 % of its target, allowing the next step of a transition or sequence. -/
  | railSettled (n : Fin 8) (k : Fin 8)
  /-- SITE_SEQ_GAP_EXPIRY (R380). SITE_SEQ_GAP after the previous rail has settled or fallen, the next rail of the site starts to rise or fall. -/
  | siteSeqGapExpiry (n : Fin 8)
  /-- RAIL_DROOP (R273). A site rail falls more than RAIL_DROOP_MV below its setpoint; SDROOP is asserted within 20 ns and counted. -/
  | railDroop (n : Fin 8) (k : Fin 8) (mv : BitVec 16)
  /-- SDROOP_RELEASE (R273). 1 µs after every rail is again within RAIL_DROOP_MV / 2, SDROOP is released. -/
  | sdroopRelease (n : Fin 8) (mvs : List (BitVec 16))
  /-- CURRENT_LIMIT_HOLD (R274). A rail has limited for SITE_CL_HOLD; CURRENT_LIMIT is sent and SITE_LIMIT_COUNT incremented. -/
  | currentLimitHold (n : Fin 8) (k : Fin 8) (us : BitVec 32)
  /-- SITE_FAULT (R275). A site fault condition of Table 10.12 turns the whole site off, takes its ports DOWN and sets SITE_POWER to 2. -/
  | siteFault (n : Fin 8) (conditions : BitVec 4)
  /-- SITE_POWER (R269). A write of SITE_POWER powers the site up at OPP 0, or powers it down in an orderly way. -/
  | sitePower (n : Fin 8) (w : OdWrite)
  /-- SITE_OPP (R268). A write of an operating-point record is checked against the rail limits and SITE_PMAX. -/
  | siteOpp (j : Fin 128) (w : OdWrite)
  /-- SITE_PMAX (R268). A write of SITE_PMAX is refused when it lies below the current operating point's sum. -/
  | sitePmax (n : Fin 8) (w : OdWrite)
  /-- SITE_RAILS (R377). A write of the rail set of a site is checked against the 24 J stored-energy model and the lock. -/
  | siteRails (n : Fin 8) (w : OdWrite)
  /-- RAIL_VMIN (R277). A write of a rail's minimum voltage is refused when it invalidates the current operating point. -/
  | railVmin (j : Fin 64) (w : OdWrite)
  /-- RAIL_VMAX (R377). A write of a rail's maximum voltage is checked against the current operating point and the stored-energy model. -/
  | railVmax (j : Fin 64) (w : OdWrite)
  /-- RAIL_DIE_CAP (R377). A write of the die capacitance of a rail is checked against the stored-energy model. -/
  | railDieCap (j : Fin 64) (w : OdWrite)
  /-- SLICE_READ (R66). A read passes the owner slice's ordering point; on a hit data returns, on a miss a register is allocated, and a conflict joins a waiter list. -/
  | sliceRead (rid : Nat) (tag : TagChk) (data : DataChk)
  /-- SLICE_WRITE (R67). A write passes the ordering point and is merged on a hit, allocated on a miss, or handled under the race rules. -/
  | sliceWrite (rid : Nat) (tag : TagChk)
  /-- SLICE_ATOMIC (R118). An atomic passes the ordering point and is applied by the atomic engine, or it waits, combines or is collected into a hot-line buffer. -/
  | sliceAtomic (rid : Nat) (tag : TagChk) (data : DataChk)
  /-- SLICE_PREFETCH (R66). A software prefetch at the slice fetches the line with PREFETCHED = 1 on a miss, and does nothing otherwise. -/
  | slicePrefetch (rid : Nat) (tag : TagChk)
  /-- FORMAT_ON_READ (R102). The owner slice reads a unit's blocks in consecutive cycles and decodes them into the delivered format. -/
  | formatOnRead (rid : Nat)
  /-- FORMAT_ON_WRITE (R103). The owner slice quantises wide blocks and writes their data, scale and tag under atomic-busy. -/
  | formatOnWrite (rid : Nat)
  /-- SCALED_ACCUMULATE (R108). The atomic engine adds decoded source blocks into FP32 or INT32 target lines under one atomic-busy period. -/
  | scaledAccumulate (rid : Nat)
  /-- RANGE_PART (R74). An owner slice acts on each line of its part of a range operation as it reaches the line. -/
  | rangePart (rid : Nat)
  /-- RANGE_PART_DONE (R76). A slice's part of a range completes; when all parts have completed, the ingress returns one completion and record. -/
  | rangePartDone (rid : Nat)
  /-- LINE_FILL (R68). A fill arrives at a miss register; merged writes are applied and the waiters are served in order. -/
  | lineFill (s : Fin 1024) (line : Nat)
  /-- REPLAY_RETRY (R70). A request in the replay queue is retried when a miss register frees. -/
  | replayRetry (s : Fin 1024)
  /-- WRITEBACK_ISSUED (R82). The channel controller moves a writeback into its write queue and signals the slice. -/
  | writebackIssued (s : Fin 1024) (line : Nat)
  /-- WRITEBACK_ACK (R82). The channel acknowledges a writeback; the victim entry frees and requests waiting on it proceed as misses. -/
  | writebackAck (s : Fin 1024) (line : Nat)
  /-- ATOMIC_BUSY_CLEAR (R119). Atomic-busy clears on a line and the busy queue's waiting requests take effect in arrival order. -/
  | atomicBusyClear (s : Fin 1024) (line : Nat)
  /-- HOT_LINE_INTERVAL (R122). Every 4,096 cycles the hot-line counts are cleared. -/
  | hotLineInterval (s : Fin 1024)
  /-- HOT_BUFFER_APPLY (R123). A hot-line buffer is applied as one operation 64 cycles after its first request was collected. -/
  | hotBufferApply (s : Fin 1024) (line : Nat)
  /-- SLICE_FAIL (R84). A slice fails; it stops accepting requests, its dirty sectors are poisoned and spare adoption or a hole follows. -/
  | sliceFail (s : Fin 1024)
  /-- SPARE_ADOPTION_SWITCH (R401). Once the spare is in Run, the channel switch and routing tables switch, and SPARE_ADOPTED is raised. -/
  | spareAdoptionSwitch (s : Fin 1024)
  /-- SLICE_RETIRE (R61). A write of SLICE_RETIRE starts moving a working slice's share to a new owner. -/
  | sliceRetire (s : Fin 1024) (w : OdWrite)
  /-- RETIRE_WALK_END (R61). The retirement walk ends with no forwarded request outstanding; the tables name only the new owner and SLICE_RETIRED is raised. -/
  | retireWalkEnd (s : Fin 1024)
  /-- TAG_PEEK_SELECT (R64). A write of TAG_PEEK_SELECT captures both copies of a tag entry into TAG_PEEK_VALUE. -/
  | tagPeekSelect (s : Fin 1024) (w : OdWrite)
  /-- REDUCTION_UNIT_APPLY (R201). The owner slice applies a reduction unit as one operation per line and completes every request it lists. -/
  | reductionUnitApply (s : Fin 1024)
  /-- WIN_INSTALL (R42). A window entry is written through the host command or WINDOW_ENTRY; it is installed or withdrawn and parked requests are re-checked. -/
  | winInstall (src : CmdSrc)
  /-- WIN_WITHDRAW (R45). A window entry's VALID is cleared; the epoch advances and the withdrawal waits for the drain. -/
  | winWithdraw (src : CmdSrc)
  /-- FAULT_DENY (R42). Every request parked on a fault record completes with WINDOW_FAULT, and the record is resolved. -/
  | faultDeny (src : CmdSrc)
  /-- FAULT_STALL_EXPIRY (R40). FAULT_STALL_LIMIT elapses for a parked request, and it completes with WINDOW_FAULT. -/
  | faultStallExpiry (rid : Nat)
  /-- WITHDRAWAL_ACK (R45). The previous epoch's in-flight count reaches zero and the withdrawal is acknowledged. -/
  | withdrawalAck (p : Fin 16)
  /-- DRAIN_LIMIT_EXPIRY (R46). DRAIN_LIMIT expires; the remaining epoch-E requests complete with WINDOW_REVOKED and a type 0x25 record is written. -/
  | drainLimitExpiry (p : Fin 16)
  /-- PART_ENABLE (R32). A write of PART_ENABLE enables a partition, or disables it after withdrawing all its windows. -/
  | partEnable (p : Fin 16) (w : OdWrite)
  /-- PART_DOMAIN (R33). A write of a partition's hash domain is accepted only while the partition is disabled. -/
  | partDomain (p : Fin 16) (w : OdWrite)
  /-- PORT_PARTITION (R48). A write that changes an attach port's partition starts a re-binding under Table 2.9. -/
  | portPartition (i : Fin 512) (w : OdWrite)
  /-- TE_PARTITION (R48). A write that changes a transfer engine's partition starts a re-binding, stopping the old partition's rings. -/
  | tePartition (t : Fin 512) (w : OdWrite)
  /-- PF_DATA_PARTITION (R48). A write that changes the PF's data partition starts a re-binding of the host function. -/
  | pfDataPartition (w : OdWrite)
  /-- REBIND_DRAIN_EXPIRY (R48). 3 ms into a re-binding, the in-flight requests that remain complete with WINDOW_REVOKED. -/
  | rebindDrainExpiry (r : Resource)
  /-- REBIND_STAMP_SWITCH (R48). After the drain, the resource's stamp switches to the new partition and the resource resumes. -/
  | rebindStampSwitch (r : Resource)
  /-- LINK_PART_MASK (R49). A write of a link's partition mask sets bits at once and withdraws cleared bits under R45. -/
  | linkPartMask (n : Fin 64) (w : OdWrite)
  /-- SR_SEED (R107). A write of SR_SEED re-seeds every slice's stochastic-rounding generator. -/
  | srSeed (w : OdWrite)
  /-- FLOW_SNAPSHOT (R111). A write of FLOW_SNAPSHOT starts a device-wide snapshot of one flow's counters and flags. -/
  | flowSnapshot (w : OdWrite)
  /-- FLOW_CLEAR (R112). A write of FLOW_CLEAR zeroes one flow's counters, flags and amax in every slice. -/
  | flowClear (w : OdWrite)
  /-- DOORBELL (R128). An 8-byte doorbell write to a ring slot updates TAIL, or is refused with a ring status. -/
  | doorbell (rid : Nat)
  /-- DESCRIPTOR_FETCH (R130). A transfer engine fetches a group of up to 8 descriptors of a ring as one TE-group read. -/
  | descriptorFetch (r : Fin 1048576)
  /-- DESCRIPTOR_START (R129). An engine checks a descriptor and starts it, subject to the limit of 4 in flight and FENCE. -/
  | descriptorStart (r : Fin 1048576)
  /-- TE_REQUEST_DONE (R132). A request of a descriptor completes; on error, the descriptor stops issuing and the ring is stopped. -/
  | teRequestDone (r : Fin 1048576)
  /-- DESCRIPTOR_COMPLETE (R134). A descriptor finishes; its completion entry is written in index order and a notification is sent if asked. -/
  | descriptorComplete (r : Fin 1048576)
  /-- GATE_WAIT_DONE (R129). Local gate time reaches the IMM of a GATE_WAIT descriptor, which completes. -/
  | gateWaitDone (r : Fin 1048576)
  /-- ENGINE_FAIL (R419). A transfer engine reaches TE_STATE 3; its rings stop and an ENGINE_FAIL record is written. -/
  | engineFail (t : Fin 512)
  /-- SWEEP_LAUNCH (R138). At gate time T, every slice of the domain starts on its share of an armed sweep. -/
  | sweepLaunch (p : Fin 16)
  /-- SWEEP_SLICE_LINE (R138). A slice issues its sweep request for its next line, which passes the ordering point like any other request. -/
  | sweepSliceLine (p : Fin 16) (s : Fin 1024)
  /-- SWEEP_COMPLETE (R144). The last slice finishes or stops; SWEEP_STATE becomes 3, SWEEP_RESULT is filled and a notification is sent if asked. -/
  | sweepComplete (p : Fin 16)
  /-- SWEEP_ABORT (R143). A write of SWEEP_ABORT stops each slice before its next line. -/
  | sweepAbort (p : Fin 16) (w : OdWrite)
  /-- SWEEP_TIMEOUT_EXPIRY (R143). SWEEP_TIMEOUT expires after T and the sweep completes with SWEEP_TIMEOUT. -/
  | sweepTimeoutExpiry (p : Fin 16)
  /-- SWEEP_PROGRESS_REFRESH (R143). Every 10 µs the field controllers refresh SWEEP_PROGRESS. -/
  | sweepProgressRefresh (p : Fin 16)
  /-- SWEEP_GROUP (R145). A write of an ALL_GATHER group list is refused while a sweep is armed, running or aborting. -/
  | sweepGroup (p : Fin 16) (w : OdWrite)
  /-- GATHER_WRITE (R141). A received ALL_GATHER contribution is written and counted per sender, or counted as stray. -/
  | gatherWrite (n : Fin 64) (m : Msg)
  /-- PSEUDO_CHANNEL_ISSUE (R240). A pseudo-channel scheduler chooses the next request by the steps of Table 9.3 within R151 and issues it. -/
  | pseudoChannelIssue (pc : Fin 2048)
  /-- HBM_READ_RETURN (R157). A codeword is read back; it is corrected, re-read, or poisoned and reported. -/
  | hbmReadReturn (pc : Fin 2048) (e : Ecc)
  /-- ROW_CLOSE_TIMEOUT (R151). A row is closed after 100 ns without a hit. -/
  | rowCloseTimeout (pc : Fin 2048) (bank : Fin 64)
  /-- STACK_TEMP_SAMPLE (R154). Every 100 µs a stack's temperature is sampled and its refresh and throttling band is updated. -/
  | stackTempSample (m : Fin 32) (celsius : Int)
  /-- SCRUB_STEP (R158). The sequencer reads the next sector of the scrub and applies R157. -/
  | scrubStep (c : Fin 1024) (e : Ecc)
  /-- INIT_STEP (R159). The sequencer writes zero codewords to the next unit and advances the initialisation pointer. -/
  | initStep (c : Fin 1024)
  /-- STACK_TRAIN (R161). A stack's fast or full training completes in boot stage 6. -/
  | stackTrain (m : Fin 32) (o : TrainOutcome)
  /-- READ_TIMING_CHECK (R162). Every 1 ms a pseudo-channel's read timing is checked and adjusted, or fully retrained. -/
  | readTimingCheck (pc : Fin 2048) (inRange : Bool)
  /-- PD_IDLE_EXPIRY (R164). Both pseudo-channels are idle for PD_IDLE and the channel enters power-down. -/
  | pdIdleExpiry (c : Fin 1024)
  /-- SELF_REFRESH_EXIT_DONE (R165). A channel finishes its exit from self-refresh and waiting requests are served. -/
  | selfRefreshExitDone (c : Fin 1024)
  /-- HBM_SELF_REFRESH (R164). A write of HBM_SELF_REFRESH holds a channel in self-refresh or releases it. -/
  | hbmSelfRefresh (c : Fin 1024) (w : OdWrite)
  /-- CHANNEL_RETIRE (R167). A write of a donor code to CHANNEL_RETIRE is checked and starts migration. -/
  | channelRetire (c : Fin 1024) (w : OdWrite)
  /-- MIGRATION_UNIT_COPY (R169). The sequencer copies one unit to the donor and advances MIG_PROGRESS when the donor write is accepted. -/
  | migrationUnitCopy (c : Fin 1024) (unreadable : BitVec 8)
  /-- MIGRATION_END (R169). After the last unit, backing switches to the donor, the channel goes Off and CHANNEL_RETIRED is raised. -/
  | migrationEnd (c : Fin 1024)
  /-- CHANNEL_FAIL (R170). A channel controller or PHY fails; it is retired with poison, or becomes FAILED with CHANNEL_FAILED raised. -/
  | channelFail (c : Fin 1024)
  /-- LAP_LOAD (R185). A write of LAP_LOAD starts reading a Tlaund file into the shadow copy. -/
  | lapLoad (w : OdWrite)
  /-- LAP_SWITCH (R189). A write of LAP_SWITCH arms a switch to the shadow table at gate time T. -/
  | lapSwitch (w : OdWrite)
  /-- LAP_UNLOAD (R191). A write of LAP_UNLOAD arms the removal of the active table at T. -/
  | lapUnload (w : OdWrite)
  /-- LAP_RESUME (R192). A write of LAP_RESUME arms the re-application of a suspended table at T. -/
  | lapResume (w : OdWrite)
  /-- ROUTER_FAIL (R203). A router fails; requests crossing it complete with ROUTER_FAILED and its node's units fail. -/
  | routerFail (r : Fin 1024)
  /-- RED_FLAGS_CLEAR (R202). A write of RED_FLAGS_CLEAR clears a reduction flow's sticky flags. -/
  | redFlagsClear (f : Fin 64) (w : OdWrite)
  /-- SYNC_WORD (R208). At each multiple of 1,024 ticks the sync word reaches every tap, which checks or reloads its copy. -/
  | syncWord (disagreeing : List (Fin 1024))
  /-- GATE_SOURCE (R213). A write of GATE_SOURCE sets the device's time role and returns synchronisation to UNSYNC. -/
  | gateSource (w : OdWrite)
  /-- TIMEX_DUE (R215). Every 250 µs a link sends a time-exchange request at the next lane-0 flit boundary. -/
  | timexDue (n : Fin 64)
  /-- TIMEX_REQUEST (R215). A received TIMEX request is timestamped and answered with a reply carrying the state and hop count. -/
  | timexRequest (n : Fin 64) (m : BitVec 256)
  /-- TIMEX_REPLY (R216). A received TIMEX reply gives offset and delay; upstream choice, slew, lock and step checks follow. -/
  | timexReply (n : Fin 64) (m : BitVec 256)
  /-- TIMEX_FOLLOW_UP (R300). A received TIMEX follow-up supplies t3 of the reply. -/
  | timexFollowUp (n : Fin 64) (m : BitVec 256)
  /-- PTP_MESSAGE (R221). A PTP message arrives on the management port and updates the time receiver. -/
  | ptpMessage (m : PtpMsg)
  /-- LAUNCH_WAKE (R226). Ahead of T by the wake time plus 5 µs, the device asks the chairlift to wake a launch target. -/
  | launchWake (id : Nat)
  /-- LAUNCH_ACT (R225). At T, or at the first ready edge, each target of a launch acts. -/
  | launchAct (id : Nat) (lateNs : Nat)
  /-- LAUNCH_FRAME (R227). A forwarded launch frame is received and checked by the receiving device, which answers. -/
  | launchFrame (n : Fin 64) (m : Msg)
  /-- LAUNCH_RESPONSE (R227). The receiver's answer to a forwarded launch arrives, and the sender's launch completes. -/
  | launchResponse (n : Fin 64) (m : Msg)
  /-- LAUNCH_CANCEL_FRAME (R228). A forwarded cancel frame is applied by the remote device on its own gate time and answered. -/
  | launchCancelFrame (n : Fin 64) (m : Msg)
  /-- LAUNCH_CANCEL_ANSWER (R228). The remote answer to a cancel arrives and the cancel write completes with its status. -/
  | launchCancelAnswer (n : Fin 64) (m : Msg)
  /-- MEM_GUARANTEE (R237). A write of a class's memory guarantee passes the admission check, or is refused. -/
  | memGuarantee (c : Fin 64) (w : OdWrite)
  /-- MEM_GROUP_MASK (R237). A write of a class's memory group mask passes the admission check, or is refused. -/
  | memGroupMask (c : Fin 64) (w : OdWrite)
  /-- LINK_GUARANTEE (R237). A write of a class's link guarantee passes the admission check, or is refused. -/
  | linkGuarantee (c : Fin 64) (w : OdWrite)
  /-- LINK_MASK (R237). A write of a class's link mask passes the admission check, or is refused. -/
  | linkMask (c : Fin 64) (w : OdWrite)
  /-- MEM_EFFICIENCY (R237). A write of MEM_EFFICIENCY changes every channel's capacity and passes the admission check. -/
  | memEfficiency (w : OdWrite)
  /-- LINK_EFFICIENCY (R237). A write of LINK_EFFICIENCY changes every link's capacity and passes the admission check. -/
  | linkEfficiency (w : OdWrite)
  /-- CLASS_MISS_MIN (R250). A write of a class's reserved miss registers is refused when the sum exceeds 96 or exceeds the maximum. -/
  | classMissMin (c : Fin 64) (w : OdWrite)
  /-- CLASS_MISS_MAX (R250). A write of a class's miss register maximum is refused when it lies below the minimum. -/
  | classMissMax (c : Fin 64) (w : OdWrite)
  /-- LINK_POWER (R294). A write of LINK_POWER starts bring-up, allows idle, or takes the link off after draining. -/
  | linkPower (n : Fin 64) (w : OdWrite)
  /-- LINK_OFF_DRAIN_END (R294). The outstanding requests of a link being turned off complete, or 3 ms pass, and the link enters OFF. -/
  | linkOffDrainEnd (n : Fin 64)
  /-- LINK_BEACON (R285). A valid partner beacon is decoded; a link in DETECT enters TRAIN, or one in DOWN re-enters DETECT. -/
  | linkBeacon (n : Fin 64) (word : BitVec 128) (crc : BitVec 16)
  /-- LINK_PATTERN_DONE (R284). The PATTERN phase completes and the link moves to LOCK. -/
  | linkPatternDone (n : Fin 64)
  /-- LINK_LOCK_DONE (R287). Every lane has locked or the phase limit has passed; LOCK ends, or the link goes DOWN with cause 2. -/
  | linkLockDone (n : Fin 64) (locked : BitVec 8)
  /-- LANE_BITSLIP (R287). A write of LANE_BITSLIP shifts a lane's codeword offset in software lock mode. -/
  | laneBitslip (i : Fin 512) (w : OdWrite)
  /-- LINK_EQ_DONE (R288). Fast or full equalisation ends and the lanes that reached LINK_FOM_MIN are marked OK. -/
  | linkEqDone (n : Fin 64) (o : EqOutcome)
  /-- LINK_CAPS (R289). Both ends compare control blocks and fix the width and lanes, or the link goes DOWN. -/
  | linkCaps (n : Fin 64) (partner : BitVec 256)
  /-- LINK_MEASURE_DONE (R290). The error-rate run ends; the link becomes ACTIVE, or repeats CAPS, or goes DOWN with cause 4. -/
  | linkMeasureDone (n : Fin 64) (o : MeasureOutcome)
  /-- LINK_PHASE_TIMEOUT (R284). A training phase reaches its limit. -/
  | linkPhaseTimeout (n : Fin 64)
  /-- LINK_LIGHT_LOSS (R293). An ACTIVE or retraining link loses light for 10 µs and goes DOWN with cause 1. -/
  | linkLightLoss (n : Fin 64)
  /-- LASER_LOW_DETECT (R440). A carrier at the laser input stays below minimum for 100 µs; the field's links go DOWN with cause 7. -/
  | laserLowDetect (f : Fin 8) (centiDbm : BitVec 32)
  /-- LINK_RETRY_EXPIRY (R284). LINK_RETRY_PERIOD elapses in DOWN and the link returns to DETECT. -/
  | linkRetryExpiry (n : Fin 64)
  /-- LINK_IDLE_ENTRY (R294). LINK_IDLE_TIMEOUT passes with no message, and the transmit direction enters electrical idle. -/
  | linkIdleEntry (n : Fin 64)
  /-- LINK_IDLE_EXIT (R294). A message to send ends electrical idle with a 12-codeword burst. -/
  | linkIdleExit (n : Fin 64)
  /-- LINK_RETRAIN (R295). A write of LINK_RETRAIN starts live retraining of an ACTIVE link. -/
  | linkRetrain (n : Fin 64) (w : OdWrite)
  /-- LINK_BER_INTERVAL (R295). At the end of each 1 s interval, lane error counts are checked and retraining may start. -/
  | linkBerInterval (n : Fin 64) (lanes : List LaneStat)
  /-- LINK_RETRAIN_DONE (R295). Live retraining finishes; the link resumes ACTIVE, or goes DOWN with cause 8. -/
  | linkRetrainDone (n : Fin 64) (o : RetrainOutcome)
  /-- LINK_FLIT (R282). A data codeword is received; its flit is accepted in SEQ order, or discarded with a NAK. -/
  | linkFlit (n : Fin 64) (lane : Fin 8) (decodes : Bool) (hdr : BitVec 20) (body : BitVec 5120)
  /-- LINK_ACK (R297). A received LINK_ACK releases acknowledged flits, triggers a resend on NAK, and returns credit. -/
  | linkAck (n : Fin 64) (chunk : BitVec 128)
  /-- SCHED_START (R305). A received scheduled unit enters the SCHED pool and waits for its flow's injection stride. -/
  | schedStart (n : Fin 64) (chunk : BitVec 128) (u : SchedUnit)
  /-- LINK_REQUEST (R304). A received routed request is checked in the LINK group and served, or relayed. -/
  | linkRequest (n : Fin 64) (m : Msg)
  /-- LINK_RSP (R304). A received routed response completes its request-table entry, or is relayed or discarded. -/
  | linkRsp (n : Fin 64) (m : Msg)
  /-- LINK_ROUTE (R302). A write of a device's link route set changes the set, holding new requests when a link joins. -/
  | linkRoute (d : Fin 4096) (w : OdWrite)
  /-- LINK_ROUTE_HOLD_EXPIRY (R302). LINK_ROUTE_HOLD expires and the held requests are released into the new set. -/
  | linkRouteHoldExpiry (d : Fin 4096)
  /-- LINK_QUARANTINE_END (R303). 10 ms after a link went down, its request-table entries become reusable. -/
  | linkQuarantineEnd (n : Fin 64)
  /-- LINK_SNAPSHOT (R307). A write of LINK_SNAPSHOT latches a link's 64-bit lane counters in its own domain. -/
  | linkSnapshot (w : OdWrite)
  /-- HOST_MEMORY_REQUEST (R313). A host memory read or write to BAR2 or BAR4 becomes a device request in the HOST group. -/
  | hostMemoryRequest (f : Fin 17) (q : HostReq)
  /-- HOST_ATOMICOP (R317). A PCIe AtomicOp is mapped to a fetching atomic with ATOMIC permission. -/
  | hostAtomicop (f : Fin 17) (q : HostReq) (op : PcieAtomic)
  /-- FAULT_RING_WRITE (R321). A write to a fault ring's registers configures, resets or advances the ring. -/
  | faultRingWrite (f : Fin 17) (p : Fin 16) (reg : FrReg) (val : BitVec 64)
  /-- FAULT_RECORD_DELIVER (R321). A queued fault record is written to its host fault ring when there is room, and the shadow and vector follow. -/
  | faultRecordDeliver (p : Fin 16)
  /-- MAILBOX_REQUEST (R323). A write of MBX_DOORBELL submits a mailbox transaction to the object dictionary. -/
  | mailboxRequest (f : Fin 17) (len : Nat) (request : Nat)
  /-- GATE_NOW (R324). A read of GATE_NOW captures gate time, returning the whole value or its low half. -/
  | gateNow (f : Fin 17) (half : GateHalf)
  /-- VF_ENABLE (R311). Setting SR-IOV VF Enable with NumVFs creates the virtual functions. -/
  | vfEnable (numVfs : Fin 17)
  /-- HOST_LINK_TRAINED (R310). The host link with the bridge module comes up, or 1 s passes in stage 9. -/
  | hostLinkTrained (o : HostTrain)
  /-- VF_FLR (R326). A Function Level Reset of a VF resets that function alone. -/
  | vfFlr (v : Fin 16)
  /-- PHILDOFEL_REQUEST (R351). A Phildofel request frame is received and checked for frame, duplicate and authentication before its operations run. -/
  | phildofelRequest (fr : EthFrame)
  /-- EVENT_ACK (R355). An event acknowledgement frame clears every queued event up to its counter. -/
  | eventAck (fr : EthFrame)
  /-- OBJECT_READ (R350). A READ operation returns an object's whole value after the checks of Table 13.3. -/
  | objectRead (route : Route) (a : ObjAddr)
  /-- OBJECT_WRITE (R350). A WRITE operation sets a register that has no behaviour of its own, after the checks of Table 13.3. -/
  | objectWrite (a : ObjAddr) (w : OdWrite)
  /-- READ_SEG (R350). A READ_SEG operation returns part of a value starting at OFFSET. -/
  | readSeg (route : Route) (a : ObjAddr) (offset : Nat) (len : Nat)
  /-- WRITE_SEG (R350). A WRITE_SEG operation stages one segment; the LAST segment applies the whole value as one write. -/
  | writeSeg (src : SegSrc) (a : ObjAddr) (offset : Nat) (last : Bool) (v : OdVal)
  /-- DESCRIBE (R350). A DESCRIBE operation returns an object's 16-byte description. -/
  | describe (route : Route) (a : ObjAddr)
  /-- STORE_COMMIT (R339). A write of STORE_COMMIT starts a commit and waits for it to end. -/
  | storeCommit (w : OdWrite)
  /-- COMMIT_DONE (R339). A commit's body and header have been written, or the commit has been abandoned. -/
  | commitDone (o : CommitOutcome)
  /-- STORE_DEFAULTS (R344). A write of STORE_DEFAULTS commits an empty body. -/
  | storeDefaults (w : OdWrite)
  /-- CONFIG_LOCK (R334). A write of CONFIG_LOCK makes every RWL object read-only until device reset. -/
  | configLock (w : OdWrite)
  /-- MGMT_PUBKEY (R354). A write of a management public key, unsigned only while none is installed and the lock is off. -/
  | mgmtPubkey (k : Fin 4) (w : OdWrite)
  /-- POWER_ON (R360). Power-on starts the always-on domain on the RC oscillator and boot stage 0. -/
  | powerOn (xsd : BitVec 3)
  /-- XTAL_DELAY_EXPIRY (R362). The crystal start delay ends and the crystal check is made; on a pass, the domain switches to REF / 25. -/
  | xtalDelayExpiry (count : BitVec 16)
  /-- FIELD_CLOCK_REQ (R367). A write of a field clock request is checked and glides the clocks, or arms a fallback switch first. -/
  | fieldClockReq (w : OdWrite)
  /-- PLL_UNLOCK (R366). A field PLL loses lock and the field switches to the bypass clock. -/
  | pllUnlock (f : Fin 8) (stopped : Bool)
  /-- PLL_RELOCK_ATTEMPT (R366). Every 1 ms an unlocked PLL tries to relock and, on lock, the field switches back. -/
  | pllRelockAttempt (f : Fin 8) (locks : Bool)
  /-- CLK_FORCED (R370). The old clock shows no edge for 1 µs and a pending switch is forced. -/
  | clkForced (k : Fin 10)
  /-- CKOBS_SELECT (R372). A write of CKOBS_SELECT switches the observed source through switch 9, or is refused. -/
  | ckobsSelect (w : OdWrite)
  /-- CKOBS_DIV (R372). A write of CKOBS_DIV changes the divider at the next output edge, or is refused. -/
  | ckobsDiv (w : OdWrite)
  /-- IDLE_TIMEOUT (R373). DOZE_IDLE or SLEEP_IDLE elapses and a slice or field enters the state its mode allows. -/
  | idleTimeout (u : PowerUnit) (sleep : Bool)
  /-- SLICE_POWER_MODE (R373). A write of a slice's power mode is refused with PIN_HELD for Off on a slice with locked lines. -/
  | slicePowerMode (s : Fin 1024) (w : OdWrite)
  /-- FIELD_POWER_MODE (R373). A write of a field's power mode is refused with GATE_BUSY when a child is in use. -/
  | fieldPowerMode (f : Fin 8) (w : OdWrite)
  /-- CHAIRLIFT_ADMIT (R374). The budget refills and the chairlift admits the next waiting rise in priority order. -/
  | chairliftAdmit (elapsedNs : Nat)
  /-- UNIT_WAKE_DONE (R374). An admitted wake completes its wake time and the unit is in Run. -/
  | unitWakeDone (u : PowerUnit)
  /-- FIELD_TEMP_SAMPLE (R379). A field's sensor round completes and the thermal thresholds are applied. -/
  | fieldTempSample (f : Fin 8) (deciCelsius : Int)
  /-- POWER_LOSS (R381). The input stays below 38 V for 2 µs and the power-loss sequence runs to completion. -/
  | powerLoss (mv : BitVec 16) (commit : CommitOutcome) (gotToEnd : Bool)
  /-- BOOT_STAGE_END (R387). A boot stage finishes its work and posts its report; the next stage starts, or start-up halts. -/
  | bootStageEnd (o : StageOutcome)
  /-- FW_BANK_PROGRAMMED (R393). A firmware bank's erase, program and verify ends and FW_BANK_STATE becomes valid or invalid. -/
  | fwBankProgrammed (b : Fin 2) (valid : Bool) (img : BankImage)
  /-- FW_MIN_SVN (R392). A write of FW_MIN_SVN is accepted only when it does not lower the value. -/
  | fwMinSvn (w : OdWrite)
  /-- MOULT_COMMAND (R394). A moult command is checked and starts replacing one kind's firmware, group by group. -/
  | moultCommand (w : OdWrite)
  /-- DEFECT_ADD (R398). A write of DEFECT_ADD adds an entry to the defect map. -/
  | defectAdd (w : OdWrite)
  /-- RESET_SLICE (R402). A slice reset writes back dirty lines, clears the cache and resets the slice. -/
  | resetSlice (s : Fin 1024) (w : OdWrite)
  /-- RESET_FIELD (R403). A field reset stops, drains, reloads and resumes every unit of a field, with or without its links. -/
  | resetField (f : Fin 8) (w : OdWrite)
  /-- RESET_PARTITION (R404). A partition reset clears the partition's windows, descriptors, sweep, rings, launches, flows and locks. -/
  | resetPartition (p : Fin 16) (w : OdWrite)
  /-- DEVICE_RESET (R405). RESET_DEVICE = 1 seals the store and restarts the whole device from stage 0. -/
  | deviceReset (w : OdWrite)
  /-- LINK_HOLD_RESET (R409). RESET_DEVICE = 2 restarts everything except the links and gate time, answering link requests with DEVICE_RESETTING. -/
  | linkHoldReset (w : OdWrite)
  /-- ATTEST_NONCE (R414). A write of ATTEST_NONCE starts an attestation report. -/
  | attestNonce (w : OdWrite)
  /-- FIELD_CTRL_FAIL (R419). A field controller is lost and FIELD_CTRL_FAIL records go to the recipients. -/
  | fieldCtrlFail (f : Fin 8)
  /-- FAULT_OVERFLOW_CLEAR (R422). A write of FAULT_OVERFLOW_CLEAR clears a partition's overflow flag and counters. -/
  | faultOverflowClear (p : Fin 16) (w : OdWrite)
  /-- FAULT_LOG_SELECT (R431). A write of FAULT_LOG_SELECT captures one log entry into FAULT_LOG_ENTRY. -/
  | faultLogSelect (w : OdWrite)
  /-- REFRESH (R154). A per-bank refresh falls due at the rate of the stack's band and is issued ahead of every request, with a brief exit from power-down. -/
  | refresh (pc : Fin 2048) (bank : Fin 64)
  /-- HBM_RETRAIN_DONE (R162). A full retraining of a pseudo-channel ends within 50 µs and its waiting requests are served again. -/
  | hbmRetrainDone (pc : Fin 2048)
  /-- LINK_TRANSMIT (R299). At each chunk boundary the link transmitter starts the first waiting message in the order of R299, under Table 9.3 and credits, sending fillers and due LINK_ACKs. -/
  | linkTransmit (n : Fin 64)
  /-- PARTNER_RETRAINING (R295). Training codewords arrive on an ACTIVE link from a partner that has started retraining, and this end starts retraining too. -/
  | partnerRetraining (n : Fin 64)
  /-- MGMT_LINK_CHANGE (R348). The 1000BASE-X management link completes auto-negotiation or is lost, and MGMT_LINK_STATE changes. -/
  | mgmtLinkChange (st : MgmtLink)
  /-- FLOW_SNAP_DONE (R111). The snapshot sums are formed and FLOW_SNAP_STATE goes to 2. -/
  | flowSnapDone
  /-- LAP_LOAD_DONE (R188). The file has been read and checked; the table is placed in every shadow copy, or the load is refused. -/
  | lapLoadDone
  /-- LAP_TAIL_STOP (R190). TAIL strides before an armed switch or unload, the active table stops injecting. -/
  | lapTailStop
  /-- LAP_SWITCH_AT_T (R190). At T the steps are re-checked and every router applies the new table, or the switch is abandoned. -/
  | lapSwitchAtT
  /-- LAP_UNLOAD_AT_T (R191). At T the active table moves to the shadow copy and every stride becomes free skate. -/
  | lapUnloadAtT
  /-- LAP_RESUME_AT_T (R192). At T the suspended table is applied again. -/
  | lapResumeAtT
  /-- LAP_SUSPEND (R192). At the next 256-multiple stride after a suspending cause, the active table is suspended and LAP_SUSPENDED is raised. -/
  | lapSuspend
  /-- ROUTE_TABLE_SWITCH (R204). The field controllers finish the new routing tables and switch them into every router. -/
  | routeTableSwitch
  /-- GATE_STEP (R219). At a sync-word boundary, the follower steps its counter by minus the offset and raises GATE_STEPPED. -/
  | gateStep
  /-- UPSTREAM_LOSS_TIMEOUT (R214). A follower has no valid exchange for 2 ms and enters HOLDOVER. -/
  | upstreamLossTimeout
  /-- PTP_SYNC_TIMEOUT (R214). A PTP receiver accepts no Sync for 3 s and enters HOLDOVER. -/
  | ptpSyncTimeout
  /-- HOLDOVER_LIMIT_EXPIRY (R214). GATE_HOLDOVER_LIMIT elapses in HOLDOVER and the device enters UNSYNC. -/
  | holdoverLimitExpiry
  /-- BW_ESTIMATE_UPDATE (R242). Every 1 µs each class's bandwidth estimator is recomputed at each point. -/
  | bwEstimateUpdate
  /-- HOST_LINK_DOWN (R326). The host link goes down or is hot reset; every function returns to its reset state. -/
  | hostLinkDown
  /-- PF_FLR (R326). A Function Level Reset of the PF resets the PF and removes every VF. -/
  | pfFlr
  /-- PHIL_EVENT_RESEND (R355). An unacknowledged event is resent after PHIL_EVENT_RETRY, and dropped after 10 sends. -/
  | philEventResend
  /-- STORE_DELAY_EXPIRY (R339). STORE_DELAY after the first pending write, a commit starts. -/
  | storeDelayExpiry
  /-- XTAL_RESTART (R362). After 3 failed checks, stage 1 restarts once per second. -/
  | xtalRestart
  /-- FIELD_CLOCK_SETTLED (R365). Every requested field's glide settles and FIELD_CLOCK_STATE becomes 3. -/
  | fieldClockSettled
  /-- INPUT_RECOVERED (R383). The input stays at or above 42 V for 10 ms after a loss and the device starts from stage 0. -/
  | inputRecovered
  /-- MOULT_UNIT_SWITCH (R395). A unit reaches a safe point, writes its handover state and starts the new image. -/
  | moultUnitSwitch
  /-- MOULT_READY_TIMEOUT (R395). The new image is not ready within 1 ms; the old image resumes and MOULT_REVERTED is raised. -/
  | moultReadyTimeout
  /-- RESET_PIN (R438). RESET_N held low for 10 µs starts a device reset. -/
  | resetPin
  /-- UTTEX_WATCHDOG (R408). The Uttex watchdog expires and starts a link-hold reset, or a device reset on a second expiry. -/
  | uttexWatchdog
  /-- ATTEST_REPORT_READY (R414). The signed attestation report is placed in ATTEST_REPORT. -/
  | attestReportReady
  /-- FAULT_LOG_WRITE (R430). A waiting persistent log entry is written to the MRAM log ring. -/
  | faultLogWrite
  /-- STRIDE (R176). At each stride every router applies its lap table entry: scheduled units move, injection strides are used or reclaimed, REDUCE outputs merge, free skate takes open slots, seam credits and landing buffers are served. -/
  | stride
  /-- MOULT_READY (R395). The new image reads the handover state and reports ready within 1 ms; the old image is discarded, the moult moves to the next unit or group, and MOULT_DONE is raised after the last. -/
  | moultReady
  /-- RESET_PIN_RELEASE (R438). RESET_N rises and, 1 ms later, stage 0 begins. -/
  | resetPinRelease
  /-- LINK_SNAP_DONE (R307). The lane counters of the link are latched and LINK_SNAP_STATE goes to 2 within 10 µs. -/
  | linkSnapDone
  deriving DecidableEq, Repr

end Sys2Proof
end

