-- ==== Sys2Proof/Machine/Codes.lean ====
section
/-! DEFINITION. The 16-bit codes of every status, event and cause (R427): the chapter number and the place of the name among the rows
of its kind in the chapter's table of statuses and events. -/

namespace Sys2Proof.Machine

/-- Success (R427). -/
def St.ok : Nat := 0
/-- UNIT_ABSENT (R5, R427). -/
def St.UNIT_ABSENT : Nat := 1
/-- Status code of chapter 02 (R427). -/
def St.ADDRESS_UNMAPPED : Nat := 0x0201
/-- Status code of chapter 02 (R427). -/
def St.PARTITION_DISABLED : Nat := 0x0202
/-- Status code of chapter 02 (R427). -/
def St.LINK_PARTITION_DENIED : Nat := 0x0203
/-- Status code of chapter 02 (R427). -/
def St.WINDOW_PERM : Nat := 0x0204
/-- Status code of chapter 02 (R427). -/
def St.WINDOW_FAULT : Nat := 0x0205
/-- Status code of chapter 02 (R427). -/
def St.WINDOW_REVOKED : Nat := 0x0206
/-- Status code of chapter 02 (R427). -/
def St.WINDOW_BAD : Nat := 0x0207
/-- Status code of chapter 02 (R427). -/
def St.PART_BUSY : Nat := 0x0208
/-- Status code of chapter 02 (R427). -/
def St.NO_SUCH_FAULT : Nat := 0x0209
/-- Status code of chapter 03 (R427). -/
def St.POISONED : Nat := 0x0301
/-- Status code of chapter 03 (R427). -/
def St.SLICE_FAILED : Nat := 0x0302
/-- Status code of chapter 03 (R427). -/
def St.RANGE_ALIGN : Nat := 0x0303
/-- Status code of chapter 03 (R427). -/
def St.RETIRE_BUSY : Nat := 0x0304
/-- Status code of chapter 03 (R427). -/
def St.PIN_HELD : Nat := 0x0305
/-- Event code of chapter 03 (R427). -/
def Ev.CACHE_UE : Nat := 0x8301
/-- Event code of chapter 03 (R427). -/
def Ev.TAG_SET_LOST : Nat := 0x8302
/-- Event code of chapter 03 (R427). -/
def Ev.SLICE_RETIRED : Nat := 0x8303
/-- Status code of chapter 04 (R427). -/
def St.FORMAT_BAD : Nat := 0x0401
/-- Status code of chapter 04 (R427). -/
def St.FORMAT_UNSET : Nat := 0x0402
/-- Status code of chapter 04 (R427). -/
def St.FORMAT_RANGE : Nat := 0x0403
/-- Status code of chapter 04 (R427). -/
def St.FLOW_BUSY : Nat := 0x0404
/-- Status code of chapter 05 (R427). -/
def St.ATOMIC_TYPE : Nat := 0x0501
/-- Status code of chapter 05 (R427). -/
def St.ATOMIC_ALIGN : Nat := 0x0502
/-- Status code of chapter 05 (R427). -/
def St.RING_DISABLED : Nat := 0x0503
/-- Status code of chapter 05 (R427). -/
def St.RING_DENIED : Nat := 0x0504
/-- Status code of chapter 05 (R427). -/
def St.RING_TAIL_BAD : Nat := 0x0505
/-- Status code of chapter 05 (R427). -/
def St.RING_BUSY : Nat := 0x0506
/-- Status code of chapter 05 (R427). -/
def St.DESC_BAD : Nat := 0x0507
/-- Status code of chapter 05 (R427). -/
def St.SWEEP_BUSY : Nat := 0x0508
/-- Status code of chapter 05 (R427). -/
def St.SWEEP_BAD : Nat := 0x0509
/-- Status code of chapter 05 (R427). -/
def St.SWEEP_VIEW : Nat := 0x050A
/-- Status code of chapter 05 (R427). -/
def St.SWEEP_WINDOW : Nat := 0x050B
/-- Status code of chapter 05 (R427). -/
def St.SWEEP_GROUP_BAD : Nat := 0x050C
/-- Status code of chapter 05 (R427). -/
def St.SWEEP_ABORTED : Nat := 0x050D
/-- Status code of chapter 05 (R427). -/
def St.SWEEP_TIMEOUT : Nat := 0x050E
/-- Status code of chapter 05 (R427). -/
def St.SWEEP_NONE : Nat := 0x050F
/-- Event code of chapter 05 (R427). -/
def Ev.HOT_LINE : Nat := 0x8501
/-- Event code of chapter 05 (R427). -/
def Ev.RING_COMP_FAULT : Nat := 0x8502
/-- Status code of chapter 06 (R427). -/
def St.CHAN_RETIRE_BUSY : Nat := 0x0601
/-- Status code of chapter 06 (R427). -/
def St.CHAN_DONOR_BAD : Nat := 0x0602
/-- Cause code of chapter 06 (R427). -/
def Ca.STACK_UNSUPPORTED : Nat := 0x4601
/-- Event code of chapter 06 (R427). -/
def Ev.HBM_UE : Nat := 0x8601
/-- Event code of chapter 06 (R427). -/
def Ev.HBM_TRAIN_FULL : Nat := 0x8602
/-- Event code of chapter 06 (R427). -/
def Ev.HBM_HOT : Nat := 0x8603
/-- Event code of chapter 06 (R427). -/
def Ev.HBM_TRIP : Nat := 0x8604
/-- Event code of chapter 06 (R427). -/
def Ev.CHANNEL_RETIRED : Nat := 0x8605
/-- Event code of chapter 06 (R427). -/
def Ev.CHANNEL_FAILED : Nat := 0x8606
/-- Event code of chapter 06 (R427). -/
def Ev.RETIRE_NO_DONOR : Nat := 0x8607
/-- Status code of chapter 07 (R427). -/
def St.LAP_BAD : Nat := 0x0701
/-- Status code of chapter 07 (R427). -/
def St.LAP_DIGEST : Nat := 0x0702
/-- Status code of chapter 07 (R427). -/
def St.LAP_TOPOLOGY : Nat := 0x0703
/-- Status code of chapter 07 (R427). -/
def St.LAP_LINK_MISMATCH : Nat := 0x0704
/-- Status code of chapter 07 (R427). -/
def St.LAP_CLOCK_FLOOR : Nat := 0x0705
/-- Status code of chapter 07 (R427). -/
def St.LAP_BUSY : Nat := 0x0706
/-- Status code of chapter 07 (R427). -/
def St.LAP_NO_SHADOW : Nat := 0x0707
/-- Status code of chapter 07 (R427). -/
def St.LAP_SWITCH_TIME : Nat := 0x0708
/-- Status code of chapter 07 (R427). -/
def St.ROUTER_FAILED : Nat := 0x0709
/-- Status code of chapter 07 (R427). -/
def St.LAP_NOT_SUSPENDED : Nat := 0x070A
/-- Event code of chapter 07 (R427). -/
def Ev.LAP_SWITCHED : Nat := 0x8701
/-- Event code of chapter 07 (R427). -/
def Ev.LAP_SUSPENDED : Nat := 0x8702
/-- Event code of chapter 07 (R427). -/
def Ev.LAP_LINK_DEGRADED : Nat := 0x8703
/-- Event code of chapter 07 (R427). -/
def Ev.MESH_ROUTE_AROUND : Nat := 0x8704
/-- Status code of chapter 08 (R427). -/
def St.GATE_UNSYNCED : Nat := 0x0801
/-- Status code of chapter 08 (R427). -/
def St.GATE_TOO_LATE : Nat := 0x0802
/-- Status code of chapter 08 (R427). -/
def St.GATE_LAUNCH_BAD : Nat := 0x0803
/-- Status code of chapter 08 (R427). -/
def St.GATE_TARGET_DENIED : Nat := 0x0804
/-- Status code of chapter 08 (R427). -/
def St.GATE_QUEUE_FULL : Nat := 0x0805
/-- Status code of chapter 08 (R427). -/
def St.GATE_CANCELLED : Nat := 0x0806
/-- Status code of chapter 08 (R427). -/
def St.GATE_CANCEL_LATE : Nat := 0x0807
/-- Status code of chapter 08 (R427). -/
def St.NO_SUCH_LAUNCH : Nat := 0x0808
/-- Status code of chapter 08 (R427). -/
def St.GATE_ABORTED : Nat := 0x0809
/-- Event code of chapter 08 (R427). -/
def Ev.GATE_SYNCED : Nat := 0x8801
/-- Event code of chapter 08 (R427). -/
def Ev.GATE_HOLDOVER : Nat := 0x8802
/-- Event code of chapter 08 (R427). -/
def Ev.GATE_SYNC_LOST : Nat := 0x8803
/-- Event code of chapter 08 (R427). -/
def Ev.GATE_STEPPED : Nat := 0x8804
/-- Event code of chapter 08 (R427). -/
def Ev.GATE_STEP_BLOCKED : Nat := 0x8805
/-- Event code of chapter 08 (R427). -/
def Ev.GATE_ROOT_CONFLICT : Nat := 0x8806
/-- Event code of chapter 08 (R427). -/
def Ev.GATE_TAP_ERR : Nat := 0x8807
/-- Event code of chapter 08 (R427). -/
def Ev.GATE_LAUNCH_MISSED : Nat := 0x8808
/-- Status code of chapter 09 (R427). -/
def St.GUARANTEE_EXCEEDED : Nat := 0x0901
/-- Status code of chapter 09 (R427). -/
def St.CREDIT_EXCEEDED : Nat := 0x0902
/-- Event code of chapter 09 (R427). -/
def Ev.GUARANTEE_SCALED : Nat := 0x8901
/-- Event code of chapter 09 (R427). -/
def Ev.GUARANTEE_RESTORED : Nat := 0x8902
/-- Event code of chapter 09 (R427). -/
def Ev.DEADLINE_MISS : Nat := 0x8903
/-- Status code of chapter 10 (R427). -/
def St.ATTACH_MSG_BAD : Nat := 0x0A01
/-- Status code of chapter 10 (R427). -/
def St.SITE_OPP_BAD : Nat := 0x0A02
/-- Status code of chapter 10 (R427). -/
def St.SITE_OPP_BUSY : Nat := 0x0A03
/-- Event code of chapter 10 (R427). -/
def Ev.ATTACH_PORT_DOWN : Nat := 0x8A01
/-- Event code of chapter 10 (R427). -/
def Ev.SITE_POWER_FAULT : Nat := 0x8A02
/-- Event code of chapter 10 (R427). -/
def Ev.SITE_VF_TIMEOUT : Nat := 0x8A03
/-- Status code of chapter 11 (R427). -/
def St.LINK_UNREACHABLE : Nat := 0x0B01
/-- Status code of chapter 11 (R427). -/
def St.LINK_LOST : Nat := 0x0B02
/-- Status code of chapter 11 (R427). -/
def St.LINK_BUSY : Nat := 0x0B03
/-- Event code of chapter 11 (R427). -/
def Ev.LINK_TRAINED : Nat := 0x8B01
/-- Event code of chapter 11 (R427). -/
def Ev.LINK_WIDTH_REDUCED : Nat := 0x8B02
/-- Event code of chapter 11 (R427). -/
def Ev.LINK_RETRAINED : Nat := 0x8B03
/-- Event code of chapter 11 (R427). -/
def Ev.LINK_FAILED : Nat := 0x8B04
/-- Event code of chapter 11 (R427). -/
def Ev.LINK_PARTNER_CHANGED : Nat := 0x8B05
/-- Event code of chapter 11 (R427). -/
def Ev.LASER_LOW : Nat := 0x8B06
/-- Status code of chapter 12 (R427). -/
def St.HOST_CMD_BAD : Nat := 0x0C01
/-- Status code of chapter 12 (R427). -/
def St.HOST_CMD_DENIED : Nat := 0x0C02
/-- Event code of chapter 12 (R427). -/
def Ev.HOST_LINK_DOWN : Nat := 0x8C01
/-- Status code of chapter 13 (R427). -/
def St.OD_NO_OBJECT : Nat := 0x0D01
/-- Status code of chapter 13 (R427). -/
def St.OD_READ_ONLY : Nat := 0x0D02
/-- Status code of chapter 13 (R427). -/
def St.OD_WRITE_ONLY : Nat := 0x0D03
/-- Status code of chapter 13 (R427). -/
def St.OD_ROUTE_DENIED : Nat := 0x0D04
/-- Status code of chapter 13 (R427). -/
def St.OD_LOCKED : Nat := 0x0D05
/-- Status code of chapter 13 (R427). -/
def St.OD_LENGTH : Nat := 0x0D06
/-- Status code of chapter 13 (R427). -/
def St.OD_VALUE : Nat := 0x0D07
/-- Status code of chapter 13 (R427). -/
def St.OD_RANGE : Nat := 0x0D08
/-- Status code of chapter 13 (R427). -/
def St.OD_CLAMP : Nat := 0x0D09
/-- Status code of chapter 13 (R427). -/
def St.OD_SEGMENT : Nat := 0x0D0A
/-- Status code of chapter 13 (R427). -/
def St.OD_NOT_RUN : Nat := 0x0D0B
/-- Status code of chapter 13 (R427). -/
def St.PHIL_BAD : Nat := 0x0D0C
/-- Status code of chapter 13 (R427). -/
def St.PHIL_AUTH : Nat := 0x0D0D
/-- Status code of chapter 13 (R427). -/
def St.STORE_FAULT : Nat := 0x0D0E
/-- Event code of chapter 13 (R427). -/
def Ev.STORE_FAULT : Nat := 0x8D01
/-- Event code of chapter 13 (R427). -/
def Ev.STORE_LOST : Nat := 0x8D02
/-- Cause code of chapter 13 (R427). -/
def Ca.STORE_LOST : Nat := 0x4D01
/-- Cause code of chapter 13 (R427). -/
def Ca.FACTORY_STORE_BAD : Nat := 0x4D02
/-- Status code of chapter 14 (R427). -/
def St.GATE_BUSY : Nat := 0x0E01
/-- Status code of chapter 14 (R427). -/
def St.CLK_REQ_BAD : Nat := 0x0E02
/-- Status code of chapter 14 (R427). -/
def St.CLK_BUSY : Nat := 0x0E03
/-- Status code of chapter 14 (R427). -/
def St.CLK_THERMAL : Nat := 0x0E04
/-- Status code of chapter 14 (R427). -/
def St.CKOBS_RANGE : Nat := 0x0E05
/-- Status code of chapter 14 (R427). -/
def St.ENERGY_LIMIT : Nat := 0x0E06
/-- Cause code of chapter 14 (R427). -/
def Ca.XTAL_FAIL : Nat := 0x4E01
/-- Event code of chapter 14 (R427). -/
def Ev.CLK_FORCED : Nat := 0x8E01
/-- Event code of chapter 14 (R427). -/
def Ev.PLL_UNLOCK : Nat := 0x8E02
/-- Event code of chapter 14 (R427). -/
def Ev.POWER_CAPPED : Nat := 0x8E03
/-- Event code of chapter 14 (R427). -/
def Ev.THERMAL_HOT : Nat := 0x8E04
/-- Event code of chapter 14 (R427). -/
def Ev.THERMAL_TRIP : Nat := 0x8E05
/-- Cause code of chapter 14 (R427). -/
def Ca.THERMAL_TRIP : Nat := 0x4E02
/-- Event code of chapter 14 (R427). -/
def Ev.POWER_LOSS : Nat := 0x8E06
/-- Status code of chapter 15 (R427). -/
def St.RESET_BUSY : Nat := 0x0F01
/-- Status code of chapter 15 (R427). -/
def St.RESET_ABORTED : Nat := 0x0F02
/-- Status code of chapter 15 (R427). -/
def St.DEVICE_RESETTING : Nat := 0x0F03
/-- Status code of chapter 15 (R427). -/
def St.FW_BANK_ACTIVE : Nat := 0x0F04
/-- Status code of chapter 15 (R427). -/
def St.FW_BANK_BAD : Nat := 0x0F05
/-- Cause code of chapter 15 (R427). -/
def Ca.FW_BANK_BAD : Nat := 0x4F01
/-- Status code of chapter 15 (R427). -/
def St.FW_SVN_LOW : Nat := 0x0F06
/-- Status code of chapter 15 (R427). -/
def St.MOULT_BUSY : Nat := 0x0F07
/-- Status code of chapter 15 (R427). -/
def St.MOULT_INCOMPATIBLE : Nat := 0x0F08
/-- Cause code of chapter 15 (R427). -/
def Ca.FUSE_BAD : Nat := 0x4F02
/-- Cause code of chapter 15 (R427). -/
def Ca.RAIL_FAIL : Nat := 0x4F03
/-- Cause code of chapter 15 (R427). -/
def Ca.FW_IMAGE_BAD : Nat := 0x4F04
/-- Cause code of chapter 15 (R427). -/
def Ca.FW_FETCH_FAIL : Nat := 0x4F05
/-- Cause code of chapter 15 (R427). -/
def Ca.SELFTEST_FAIL : Nat := 0x4F06
/-- Cause code of chapter 15 (R427). -/
def Ca.MESH_TEST_FAIL : Nat := 0x4F07
/-- Event code of chapter 15 (R427). -/
def Ev.STARTUP_REPORT : Nat := 0x8F01
/-- Event code of chapter 15 (R427). -/
def Ev.STARTUP_UNIT_FAIL : Nat := 0x8F02
/-- Event code of chapter 15 (R427). -/
def Ev.SPARE_ADOPTED : Nat := 0x8F03
/-- Event code of chapter 15 (R427). -/
def Ev.SLICE_HOLE : Nat := 0x8F04
/-- Event code of chapter 15 (R427). -/
def Ev.DEFECT_ADDED : Nat := 0x8F05
/-- Event code of chapter 15 (R427). -/
def Ev.DEFECT_MAP_FULL : Nat := 0x8F06
/-- Event code of chapter 15 (R427). -/
def Ev.DEFECT_STORE_LOST : Nat := 0x8F07
/-- Event code of chapter 15 (R427). -/
def Ev.MOULT_DONE : Nat := 0x8F08
/-- Event code of chapter 15 (R427). -/
def Ev.MOULT_REVERTED : Nat := 0x8F09
/-- Event code of chapter 15 (R427). -/
def Ev.UTTEX_WATCHDOG : Nat := 0x8F0A
/-- Cause code of chapter 15 (R427). -/
def Ca.UTTEX_WATCHDOG : Nat := 0x4F08
/-- Status code of chapter 16 (R427). -/
def St.PARTITION_STOPPED : Nat := 0x1001
/-- Event code of chapter 16 (R427). -/
def Ev.FAULT_OVERFLOW : Nat := 0x9001
/-- Event code of chapter 16 (R427). -/
def Ev.PART_STOPPED : Nat := 0x9002

end Sys2Proof.Machine
end

