-- ==== Sys2Proof/Machine/Bits.lean ====
section
/-! DEFINITION. Bit fields, byte order and small number helpers. Data are little-endian numbers (R10). -/

namespace Sys2Proof.Machine

/-- Field [hi:lo] of `x`. -/
def bits (x hi lo : Nat) : Nat := (x >>> lo) % 2 ^ (hi + 1 - lo)

/-- Bit `b` of `x`. -/
def bit (x b : Nat) : Bool := (x >>> b) % 2 == 1

/-- `x` with field [hi:lo] replaced by the low bits of `v`. -/
def setBits (x hi lo v : Nat) : Nat :=
  x - (bits x hi lo) * 2 ^ lo + (v % 2 ^ (hi + 1 - lo)) * 2 ^ lo

/-- `x` with bit `b` set to `v`. -/
def setBit (x b : Nat) (v : Bool) : Nat := setBits x b b v.toNat

/-- `len` bytes of `x` from byte `off` (little-endian). -/
def bytesOf (x off len : Nat) : Nat := (x >>> (8 * off)) % 2 ^ (8 * len)

/-- `x` with `len` bytes from byte `off` replaced by `v`. -/
def setBytes (x off len v : Nat) : Nat :=
  x - (bytesOf x off len) * 2 ^ (8 * off) + (v % 2 ^ (8 * len)) * 2 ^ (8 * off)

/-- The bytes of `x`, lowest first, as a list of `len` numbers. -/
def toByteList : Nat → Nat → List Nat
  | 0, _ => []
  | n + 1, x => x % 256 :: toByteList n (x / 256)

/-- The little-endian number of a list of bytes. -/
def ofByteList : List Nat → Nat
  | [] => 0
  | b :: r => b % 256 + 256 * ofByteList r

/-- The bytes of `x` in the other order. -/
def byteSwap (len x : Nat) : Nat := ofByteList (toByteList len x).reverse

/-- Two's complement reading of a `w`-bit number. -/
def toSigned (w x : Nat) : Int := if x < 2 ^ (w - 1) then (x : Int) else (x : Int) - (2 ^ w : Nat)

/-- Two's complement `w`-bit number of an integer. -/
def ofSigned (w : Nat) (i : Int) : Nat := (i % (2 ^ w : Nat)).toNat

/-- A saturating count of `n` more in a `w`-bit counter (R433 and the chapters' counter rules). -/
def satAdd (w x n : Nat) : Nat := min (x + n) (2 ^ w - 1)

/-- The number of set bits among the low `n` of `x`. -/
def popCount : Nat → Nat → Nat
  | 0, _ => 0
  | n + 1, x => x % 2 + popCount n (x / 2)

/-- The numbers below `n` whose bit is set in `x`, rising. -/
def maskList (n x : Nat) : List Nat := (List.range n).filter (fun b => bit x b)

/-- The mask of a list of bit numbers. -/
def maskOf (l : List Nat) : Nat := l.foldl (fun m b => m ||| (1 <<< b)) 0

/-- Round up to a multiple of `m`. -/
def roundUp (x m : Nat) : Nat := (x + m - 1) / m * m

/-- Ceiling division. -/
def ceilDiv (x m : Nat) : Nat := (x + m - 1) / m

/-- Parity of the low `n` bits. -/
def parityBit (n x : Nat) : Nat := popCount n x % 2

/-- One step of a reflected CRC over a bit. -/
def crcBit (poly c b : Nat) : Nat :=
  let x := (c ^^^ b) % 2
  if x = 1 then (c / 2) ^^^ poly else c / 2

/-- A reflected CRC over the low `n` bits of `x`, least significant bit first. -/
def crcBits (poly : Nat) : Nat → Nat → Nat → Nat
  | 0, c, _ => c
  | n + 1, c, x => crcBits poly n (crcBit poly c (x % 2)) (x / 2)

/-- The first element that satisfies `p`, with its place. -/
def findIdxFrom {α : Type} (p : α → Bool) : List α → Nat → Option (Nat × α)
  | [], _ => none
  | a :: r, i => if p a then some (i, a) else findIdxFrom p r (i + 1)

/-- The elements whose place satisfies `p`. -/
def enumList {α : Type} : List α → Nat → List (Nat × α)
  | [], _ => []
  | a :: r, i => (i, a) :: enumList r (i + 1)

end Sys2Proof.Machine
end

