-- ==== Sys2Proof/Machine/Float.lean ====
section
/-! DEFINITION. Exact arithmetic on numbers m·2^e, and the element formats of Tables 4.1, 4.2, 5.2 (R87 to R90, R102, R104, R106). -/

namespace Sys2Proof.Machine

/-- An element's value: (−1)^neg · m · 2^e, an infinity, or a NaN. -/
inductive Val where
  | fin (neg : Bool) (m : Nat) (e : Int)
  | inf (neg : Bool)
  | nan (neg : Bool)
  deriving DecidableEq, Repr

/-- How a format codes its elements: a sign, exponent and fraction (special 0: no NaN or Inf, 1: only S.1…1.1…1 is NaN, 2: as IEEE 754);
two's complement k / 2^frac; HX2; HX1 (Table 4.2). -/
inductive ElemKind where
  | float (ebits mbits bias special : Nat)
  | fixed (frac : Nat)
  | hx2
  | hx1
  deriving DecidableEq, Repr

/-- The coding of a format code; none for a reserved code (Table 4.1). -/
def fmtKind (c : Nat) : Option ElemKind :=
  match c with
  | 0x00 => some (.float 8 23 127 2)
  | 0x01 => some (.float 8 7 127 2)
  | 0x02 => some (.float 5 10 15 2)
  | 0x03 => some (.fixed 0)
  | 0x04 => some (.fixed 0)
  | 0x08 => some (.float 4 3 7 1)
  | 0x09 => some (.float 5 2 15 2)
  | 0x0A => some (.float 3 2 3 0)
  | 0x0B => some (.float 2 3 1 0)
  | 0x0C => some (.float 2 1 1 0)
  | 0x0D => some (.fixed 6)
  | 0x0E => some (.fixed 0)
  | 0x10 => some (.float 1 1 1 0)
  | 0x11 => some .hx2
  | 0x12 => some .hx1
  | _ => none

/-- Element bits (Table 4.1). -/
def fmtBits (c : Nat) : Nat :=
  match c with
  | 0x00 => 32 | 0x01 => 16 | 0x02 => 16 | 0x03 => 32 | 0x04 => 8
  | 0x08 => 8 | 0x09 => 8 | 0x0A => 6 | 0x0B => 6 | 0x0C => 4 | 0x0D => 8 | 0x0E => 4
  | 0x10 => 3 | 0x11 => 2 | 0x12 => 1
  | _ => 0

/-- Wide codes (Table 4.1). -/
def fmtWide (c : Nat) : Bool := c ≤ 4

/-- Block codes (Table 4.1). -/
def fmtBlock (c : Nat) : Bool := (0x08 ≤ c && c ≤ 0x0E) || (0x10 ≤ c && c ≤ 0x12)

/-- Codes of features absent on the S variants (R87). -/
def fmtSub4 (c : Nat) : Bool := 0x10 ≤ c && c ≤ 0x12

/-- Unit bytes, blocks per unit, scale offset and tag offset (Table 4.3). -/
def fmtUnit (c : Nat) : Nat := if fmtWide c then 128 else 512

def fmtBlocks (c : Nat) : Nat :=
  if fmtWide c then (match fmtBits c with | 32 => 1 | 16 => 2 | _ => 4)
  else match fmtBits c with
    | 8 => 15 | 6 => 20 | 4 => 29 | 3 => 38 | 2 => 55 | _ => 97

def fmtScaleOff (c : Nat) : Nat :=
  match fmtBits c with
  | 8 => 480 | 6 => 480 | 4 => 464 | 3 => 456 | 2 => 440 | _ => 388

def fmtTagOff (c : Nat) : Nat :=
  match fmtBits c with
  | 8 => 495 | 6 => 500 | 4 => 493 | 3 => 494 | 2 => 495 | _ => 485

/-- emax of Table 4.2. -/
def fmtEmax (c : Nat) : Int :=
  match c with
  | 0x08 => 8 | 0x09 => 15 | 0x0A => 4 | 0x0B => 2 | 0x0C => 2 | 0x0E => 2 | _ => 0

/-- Value of a float code with `mb` fraction bits. -/
def decodeFloat (eb mb bias special code : Nat) : Val :=
  let neg := bit code (eb + mb)
  let ex := bits code (eb + mb - 1) mb
  let fr := code % 2 ^ mb
  let top := 2 ^ eb - 1
  if special = 2 ∧ ex = top then (if fr = 0 then .inf neg else .nan neg)
  else if special = 1 ∧ ex = top ∧ fr = 2 ^ mb - 1 then .nan neg
  else if ex = 0 then .fin neg fr (1 - (bias : Int) - mb)
  else .fin neg (2 ^ mb + fr) ((ex : Int) - bias - mb)

/-- Value of an element code of `w` bits before the block scale (R88, R89): the negative zero of a block float decodes as +0. -/
def decodeElem (c code : Nat) : Val :=
  match fmtKind c with
  | none => .fin false 0 0
  | some (.float eb mb bias sp) =>
    (match decodeFloat eb mb bias sp code with
     | .fin n 0 e => .fin (n && fmtWide c) 0 e
     | v => v)
  | some (.fixed fr) =>
    let w := fmtBits c
    if code < 2 ^ (w - 1) then .fin false code (-(fr : Int)) else .fin true (2 ^ w - code) (-(fr : Int))
  | some .hx2 => if code = 1 then .fin false 1 0 else if code = 3 then .fin true 1 0 else .fin false 0 0
  | some .hx1 => if code = 0 then .fin false 1 0 else .fin true 1 0

/-- m·2^e compared with m'·2^e': less than. -/
def magLt (m : Nat) (e : Int) (m' : Nat) (e' : Int) : Bool :=
  let b := min e e'
  m * 2 ^ (e - b).toNat < m' * 2 ^ (e' - b).toNat

/-- floor of log2 of m·2^e, m non-zero. -/
def magLog (m : Nat) (e : Int) : Int := (Nat.log2 m : Int) + e

/-- Times a power of two. -/
def valScale (x : Int) : Val → Val
  | .fin n m e => .fin n m (e + x)
  | v => v

/-- The exact sum of two finite numbers. An exact zero sum is +0, unless both are −0 (IEEE 754). -/
def finAdd (n : Bool) (m : Nat) (e : Int) (n' : Bool) (m' : Nat) (e' : Int) : Val :=
  let b := min e e'
  let x : Int := (if n then -1 else 1) * ((m * 2 ^ (e - b).toNat : Nat) : Int)
  let y : Int := (if n' then -1 else 1) * ((m' * 2 ^ (e' - b).toNat : Nat) : Int)
  let z := x + y
  if z = 0 then .fin (n && n' && (m == 0) && (m' == 0)) 0 b else .fin (z < 0) z.natAbs b

/-- IEEE 754 addition of two values, exact; NaN where an operand is NaN or the infinities cancel. -/
def valAdd : Val → Val → Val
  | .nan n, _ => .nan n
  | _, .nan n => .nan n
  | .inf n, .inf n' => if n = n' then .inf n else .nan false
  | .inf n, _ => .inf n
  | _, .inf n => .inf n
  | .fin n m e, .fin n' m' e' => finAdd n m e n' m' e'

/-- The draws of stochastic rounding: the generator, the draw's place in its group of four, and SR_SALT (R107). -/
structure Rng where
  x : Nat
  k : Nat
  deriving DecidableEq, Repr

/-- `seed` of R107 for physical slice `ps`. -/
def rngSeed (srSeed ps : Nat) : Rng :=
  let x := srSeed ^^^ ((ps + 1) * 2 ^ 32)
  { x := if x = 0 then 1 else x, k := 0 }

/-- `step` of R107. -/
def rngStep (x : Nat) : Nat :=
  let x := x ^^^ (x * 2 ^ 13 % 2 ^ 64)
  let x := x ^^^ (x / 2 ^ 7)
  x ^^^ (x * 2 ^ 17 % 2 ^ 64)

/-- One 16-bit draw before the salt, and the generator after it. -/
def rngDraw (g : Rng) : Nat × Rng :=
  let x := if g.k = 0 then rngStep g.x else g.x
  (x / 2 ^ (16 * g.k) % 2 ^ 16, { x := x, k := (g.k + 1) % 4 })

/-- How to round: to nearest with ties to even, or stochastically with a salt (R106). -/
structure Rounding where
  stoch : Bool
  salt : Nat
  deriving DecidableEq, Repr

/-- Round m·2^e to a multiple n·2^q; draws only when it is not exact (R106). -/
def roundMag (rd : Rounding) (g : Rng) (m : Nat) (e q : Int) : Nat × Rng :=
  if q ≤ e then (m * 2 ^ (e - q).toNat, g)
  else
    let d := 2 ^ (q - e).toNat
    let a := m / d
    let rem := m % d
    if rem = 0 then (a, g)
    else if rd.stoch then
      let (r, g) := rngDraw g
      ((if rem * 65536 > (r ^^^ rd.salt) * d then a + 1 else a), g)
    else ((if 2 * rem > d ∨ (2 * rem = d ∧ a % 2 = 1) then a + 1 else a), g)

/-- Code of a magnitude in a float format without its sign: rounded, not yet limited (a code above the largest finite is an overflow). -/
def floatCode (rd : Rounding) (g : Rng) (mb bias m : Nat) (e : Int) : Nat × Rng :=
  if m = 0 then (0, g)
  else
    let emin : Int := 1 - (bias : Int)
    let q := max (magLog m e) emin - mb
    let (n, g) := roundMag rd g m e q
    ((q - (emin - mb)).toNat * 2 ^ mb + n, g)

/-- Largest finite code of a format without its sign (Table 4.2). -/
def maxCode (c : Nat) : Nat :=
  match fmtKind c with
  | some (.float eb mb _ 2) => (2 ^ eb - 1) * 2 ^ mb - 1
  | some (.float eb mb _ 1) => 2 ^ (eb + mb) - 2
  | some (.float eb mb _ _) => 2 ^ (eb + mb) - 1
  | some (.fixed _) => 2 ^ (fmtBits c - 1) - 1
  | _ => 1

/-- Largest finite magnitude of a format (m, e); the integers' positive limit. -/
def maxMag (c : Nat) : Nat × Int :=
  match decodeElem c (match fmtKind c with | some .hx1 => 0 | _ => maxCode c) with
  | .fin _ m e => (m, e)
  | _ => (1, 0)

/-- The magnitude exceeds the format's largest finite one. -/
def beyondMax (c m : Nat) (e : Int) : Bool := magLt (maxMag c).1 (maxMag c).2 m e

/-- A code with its sign: the sign bit of a float, two's complement of an integer, HX2 and HX1 (Table 4.2). -/
def signedCode (c : Nat) (neg : Bool) (code : Nat) : Nat :=
  match fmtKind c with
  | some (.float eb mb _ _) => code + (if neg then 2 ^ (eb + mb) else 0)
  | some .hx1 => neg.toNat
  | _ => if neg then (2 ^ fmtBits c - code) % 2 ^ fmtBits c else code

/-- Rounded code of a finite magnitude within range, without its sign (R104). -/
def roundCode (rd : Rounding) (g : Rng) (c m : Nat) (e : Int) : Nat × Rng :=
  match fmtKind c with
  | some (.float _ mb bias _) => floatCode rd g mb bias m e
  | some (.fixed fr) => roundMag rd g m e (-(fr : Int))
  | some .hx2 => roundMag rd g m e 0
  | _ => (1, g)

/-- Quiet NaN of a wide float (Table 4.6, R117). -/
def quietNan (c : Nat) : Nat :=
  match c with
  | 0 => 0x7FC00000
  | 1 => 0x7FC0
  | 2 => 0x7E00
  | _ => 0

/-- Infinity code of a format without its sign. -/
def infCode (c : Nat) : Nat :=
  match fmtKind c with
  | some (.float eb mb _ 2) => (2 ^ eb - 1) * 2 ^ mb
  | _ => 0

/-- IEEE 754 rounding to nearest of a value to a float format: overflow gives Inf (R117). -/
def encodeIeee (c : Nat) (v : Val) : Nat :=
  match v with
  | .nan _ => quietNan c
  | .inf n => signedCode c n (infCode c)
  | .fin n m e =>
    let code := (roundCode { stoch := false, salt := 0 } { x := 1, k := 0 } c m e).1
    signedCode c n (if code > maxCode c then infCode c else code)

end Sys2Proof.Machine
end

