-- ==== Sys2Proof/Machine/Atomic.lean ====
section
/-! DEFINITION. The atomic operations (R115 to R117) and the partial results of combined entries (R121). -/

namespace Sys2Proof.Machine

/-- Operation, type and FETCH of an ATOMIC's ATTR (Table 10.6). -/
def atOp (attr : Nat) : Nat := bits attr 3 0
def atTy (attr : Nat) : Nat := bits attr 6 4
def atFetch (attr : Nat) : Bool := bit attr 7

/-- Width in bytes of an element type; 0 for the reserved code (Table 5.2). -/
def atWidth (ty : Nat) : Nat :=
  match ty with
  | 0 => 4 | 1 => 4 | 2 => 8 | 3 => 8 | 4 => 4 | 5 => 2 | 6 => 16 | _ => 0

/-- Operation and type pairs of Table 5.1. -/
def atAllowed (op ty : Nat) : Bool :=
  match op with
  | 0 => ty ≤ 5
  | 1 => ty ≤ 5
  | 2 => ty ≤ 5
  | 3 => ty == 0 || ty == 2
  | 4 => ty == 0 || ty == 2
  | 5 => ty == 0 || ty == 2
  | 6 => ty == 0 || ty == 2
  | 7 => ty == 0 || ty == 2 || ty == 6
  | _ => false

/-- Type check, then alignment check, of an atomic of `len` operand bytes at `addr` (R115, R116); 0 when it may run. -/
def atStatus (attr addr len : Nat) : Nat :=
  let op := atOp attr
  let w := atWidth (atTy attr)
  if !atAllowed op (atTy attr) then St.ATOMIC_TYPE
  else if addr % w != 0 || len % w != 0 || len == 0 || addr % 128 + len > 128 || (op == 7 && len != w) then St.ATOMIC_ALIGN
  else 0

/-- A floating-point type: its format code. -/
def atFloat (ty : Nat) : Option Nat := if ty = 4 then some 0 else if ty = 5 then some 1 else none

/-- Order of two finite or infinite values, −0 below +0: x < y. -/
def valLt : Val → Val → Bool
  | .inf n, .inf n' => n && !n'
  | .inf n, _ => n
  | _, .inf n' => !n'
  | .fin n m e, .fin n' m' e' =>
    if n && !n' then true
    else if !n && n' then false
    else if n then magLt m' e' m e
    else magLt m e m' e'
  | _, _ => false

/-- MIN or MAX of two float codes: a NaN operand is ignored, two NaNs give the quiet NaN (R117). -/
def floatMinMax (c : Nat) (isMin : Bool) (x y : Nat) : Nat :=
  match decodeElem c x, decodeElem c y with
  | .nan _, .nan _ => quietNan c
  | .nan _, _ => y
  | _, .nan _ => x
  | vx, vy => if isMin then (if valLt vy vx then y else x) else (if valLt vx vy then y else x)

/-- MIN or MAX of two integers of width `w` bytes. -/
def intMinMax (signed isMin : Bool) (w x y : Nat) : Nat :=
  let lt : Bool := if signed then decide (toSigned (8 * w) y < toSigned (8 * w) x) else decide (y < x)
  if isMin then (if lt then y else x) else (if lt then x else y)

/-- The new value of element `e` under an operation with operands a, b (Table 5.1). -/
def atElem (op ty e a b : Nat) : Nat :=
  let w := atWidth ty
  match op with
  | 0 => (match atFloat ty with
          | some c => encodeIeee c (valAdd (decodeElem c e) (decodeElem c a))
          | none => (e + a) % 2 ^ (8 * w))
  | 1 => (match atFloat ty with
          | some c => floatMinMax c true e a
          | none => intMinMax (ty == 1 || ty == 3) true w e a)
  | 2 => (match atFloat ty with
          | some c => floatMinMax c false e a
          | none => intMinMax (ty == 1 || ty == 3) false w e a)
  | 3 => e &&& a
  | 4 => e ||| a
  | 5 => e ^^^ a
  | 6 => a
  | _ => if e = a then b else e

/-- `n` elements of a line from byte `off` updated by the operands packed in `data`; CAS takes b from `data` after a (Table 10.6). -/
def atApply : Nat → Nat → Nat → Nat → Nat → Nat → Nat
  | 0, _, _, _, _, line => line
  | n + 1, op, ty, off, data, line =>
    let w := atWidth ty
    let a := data % 2 ^ (8 * w)
    let rest := data / 2 ^ (8 * w)
    let e := bytesOf line off w
    atApply n op ty (off + w) rest (setBytes line off w (atElem op ty e a (rest % 2 ^ (8 * w))))

/-- Bytes of old values an atomic returns: all when FETCH = 1, none otherwise (R116). -/
def atRspLen (attr len : Nat) : Nat := if atFetch attr then len else 0

/-- Operation and type whose posted requests may combine; `fp` is ATOMIC_COMBINE_FP of the later request's partition (R120). -/
def atCombinable (attr : Nat) (fp : Bool) : Bool :=
  !atFetch attr && atOp attr ≤ 5 && (if atOp attr == 0 && (atFloat (atTy attr)).isSome then fp else true)

/-- A partial result: per byte offset of the line, the operand gathered so far (R121). -/
abbrev Partials := List (Nat × Nat)

/-- The partial of an element, if touched. -/
def partialAt (ps : Partials) (off : Nat) : Option Nat :=
  match ps with
  | [] => none
  | (o, v) :: r => if o = off then some v else partialAt r off

/-- Set the partial of an element. -/
def partialSet (ps : Partials) (off v : Nat) : Partials :=
  match ps with
  | [] => [(off, v)]
  | (o, x) :: r => if o = off then (off, v) :: r else (o, x) :: partialSet r off v

/-- Gather the operands of one more posted request into the partial results (R121). -/
def gather : Nat → Nat → Nat → Nat → Nat → Partials → Partials
  | 0, _, _, _, _, ps => ps
  | n + 1, op, ty, off, data, ps =>
    let w := atWidth ty
    let a := data % 2 ^ (8 * w)
    let v := match partialAt ps off with
      | none => a
      | some p => atElem op ty p a 0
    gather n op ty (off + w) (data / 2 ^ (8 * w)) (partialSet ps off v)

/-- Apply the partial results to a line as one operation (R121). -/
def applyPartials (op ty : Nat) : Partials → Nat → Nat
  | [], line => line
  | (off, v) :: r, line =>
    let w := atWidth ty
    applyPartials op ty r (setBytes line off w (atElem op ty (bytesOf line off w) v 0))

end Sys2Proof.Machine
end

