-- ==== Sys2Proof/Config.lean ====
section
/-! DEFINITION. What an implementation fixes and the free values: opaque constants with no body, so that no proof can see what they are
(notes/assumptions 3 and 4). -/

namespace Sys2Proof.Config

/-- The k-th fresh value drawn where the manual leaves a value open: BOOT_NONCE (R353, "drawn at random"), a value "not determined".
The State's counter freeCtr numbers the draws. DESIGN CHOICE, log 3. -/
opaque freeValue : Nat → BitVec 64

/-- The device identity private key (57 bytes), which stage 3 derives from the seed fused in manufacture (R412): no route reads it and the
manual gives no value. DESIGN CHOICE, log 4. -/
opaque identityKey : Nat

end Sys2Proof.Config
end

