-- ==== Sys2Proof/Machine/Topology.lean ====
section
/-! DEFINITION. Where the units sit and which of them a variant has (chapters 00 and 01). -/

namespace Sys2Proof.Machine

/-- DEVICE_VARIANT of Table 0.4. -/
def variantCode : Variant → Nat
  | .hn8f => 0
  | .hn8s => 1
  | .hn4sWest => 2
  | .hn4sEast => 2

/-- HALF_FUSE of Table 0.4. -/
def halfFuse : Variant → Nat
  | .hn8f => 0
  | .hn8s => 0
  | .hn4sWest => 1
  | .hn4sEast => 2

/-- Field Ff is present (Table 0.3). -/
def fieldPresent (v : Variant) (f : Nat) : Bool :=
  match v with
  | .hn8f => f < 8
  | .hn8s => f < 8
  | .hn4sWest => f < 4
  | .hn4sEast => 4 ≤ f && f < 8

/-- Link Ln is present (Table 0.3, R17). -/
def linkPresent (v : Variant) (n : Nat) : Bool :=
  fieldPresent v (n / 8) && (if v = .hn8s then n % 2 == 0 else true)

/-- In-mesh reducers, HX3 to HX1 and sweep engines are present (Table 0.3). -/
def fullFeatures (v : Variant) : Bool := v = .hn8f

/-- The part is an HN4-S. -/
def isHn4s (v : Variant) : Bool := v = .hn4sWest || v = .hn4sEast

/-- The mask of the present stacks. -/
def presentStackMask (v : Variant) : Nat := maskOf ((List.range 32).filter (fun m => fieldPresent v (m / 4)))

/-- The mask of the present links. -/
def presentLinkMask (v : Variant) : Nat := maskOf ((List.range 64).filter (linkPresent v))

/-- The present fields. -/
def presentFields (v : Variant) : List Nat := (List.range 8).filter (fieldPresent v)

/-- Field of node (x, y) (R11). -/
def nodeField (x y : Nat) : Nat := if x ≤ 15 then y / 8 else 4 + y / 8

/-- Field of the boot node of logical slice `s` (R11, R13). -/
def sliceField (s : Nat) : Nat := nodeField (s % 32) (s / 32)

/-- Local coordinates of the boot node of slice `s`. -/
def sliceLx (s : Nat) : Nat := (s % 32) % 16
def sliceLy (s : Nat) : Nat := (s / 32) % 8

/-- Channel 32·m + c owned by logical slice `s` (R13). -/
def sliceChannel (s : Nat) : Nat :=
  let k := 2 * (sliceLy s / 4) + sliceLx s / 8
  32 * (4 * sliceField s + k) + 8 * (sliceLy s % 4) + sliceLx s % 8

/-- SLICE_CHANNEL word of Table 1.6: [4:0] channel, [9:5] stack. -/
def sliceChannelWord (s : Nat) : Nat := sliceChannel s

/-- The logical slice that owns channel `c` = 32·m + k (the inverse of R13). -/
def channelSlice (c : Nat) : Nat :=
  let m := c / 32
  let f := m / 4
  let k := m % 4
  let q := c % 32
  let lx := 8 * (k % 2) + q % 8
  let ly := 4 * (k / 2) + q / 8
  let x := if f < 4 then lx else 16 + lx
  let y := 8 * (f % 4) + ly
  32 * y + x

/-- Origin x and y of field `f`. -/
def fieldX (f : Nat) : Nat := if f < 4 then 0 else 16
def fieldY (f : Nat) : Nat := 8 * (f % 4)

/-- Node number 32·y + x. -/
def nodeOf (x y : Nat) : Nat := 32 * y + x

/-- Host node of spare SPj (R14). -/
def spareNode (j : Nat) : Nat :=
  let k := j % 8
  nodeOf (fieldX (j / 8) + 1 + 4 * (k % 4)) (fieldY (j / 8) + (if k < 4 then 0 else 7))

/-- Manhattan distance of two nodes. -/
def nodeDist (a b : Nat) : Nat :=
  ((a % 32 - b % 32) + (b % 32 - a % 32)) + ((a / 32 - b / 32) + (b / 32 - a / 32))

/-- Node of attach port i = 64·n + p (R16). -/
def portNode (i : Nat) : Nat :=
  let p := i % 64
  let lx := p % 16
  nodeOf (fieldX (i / 64) + lx) (fieldY (i / 64) + 2 * (p / 16) + lx % 2)

/-- Node of transfer engine t (Table 1.1). -/
def teNode (t : Nat) : Nat :=
  let e := t % 64
  nodeOf (fieldX (t / 64) + e / 4) (fieldY (t / 64) + (if e % 4 < 2 then 3 else 4))

/-- Node of link Ln (R17). -/
def linkNode (n : Nat) : Nat := nodeOf (if n / 8 < 4 then 0 else 31) (fieldY (n / 8) + n % 8)

/-- LINK_NODE word of Table 1.6: [4:0] x, [9:5] y. -/
def linkNodeWord (n : Nat) : Nat := linkNode n % 32 + 32 * (linkNode n / 32)

/-- Node of the active management block and of the host port (R18). -/
def hostNode (v : Variant) : Nat := if v = .hn4sEast then nodeOf 16 0 else nodeOf 15 0

/-- Field of the active management block (R18). -/
def mgmtField (v : Variant) : Nat := if v = .hn4sEast then 4 else 0

/-- What the instance number of an object names, for step 2 of Table 13.3. -/
inductive UnitKind where
  | none | field | site | stack | chan | link | lane | port | slice | spare | te | parkField | seam | memClass | linkClass | opp
  | rail | clkSwitch | reducer
  deriving DecidableEq, Repr

/-- The unit an instance names is present (R2, R5). -/
def unitPresent (v : Variant) (k : UnitKind) (i : Nat) : Bool :=
  match k with
  | .none => true
  | .field => fieldPresent v i
  | .site => fieldPresent v i
  | .stack => fieldPresent v (i / 4)
  | .chan => fieldPresent v (i / 128)
  | .link => linkPresent v i
  | .lane => linkPresent v (i / 8)
  | .port => fieldPresent v (i / 64)
  | .slice => fieldPresent v (sliceField i)
  | .spare => fieldPresent v (i / 8)
  | .te => fieldPresent v (i / 64)
  | .parkField => i == 8 || fieldPresent v i
  | .seam => if i = 0 then !isHn4s v else if i < 4 then fieldPresent v 0 else fieldPresent v 4
  | .memClass => fieldPresent v (i / 64 / 4)
  | .linkClass => linkPresent v (i / 64)
  | .opp => fieldPresent v (i / 16)
  | .rail => fieldPresent v (i / 8)
  | .clkSwitch => if i < 8 then fieldPresent v i else true
  | .reducer => fullFeatures v

/-- Unit codes of Table 15.4. -/
def unitCode (kind number : Nat) : Nat := kind * 4096 + number

end Sys2Proof.Machine
end

