-- ==== Sys2Proof/Machine/Dict.lean ====
section
/-! DEFINITION. The objects of the dictionary, one descriptor per row of the chapters' object tables: where it is, its type, access class,
length, default and the value checks its Effect column states (R329 to R335). -/

namespace Sys2Proof.Machine

/-- The types of Table 13.2. -/
inductive ObjTy where
  | u8 | u16 | u32 | u64 | i32 | i64 | f32 | bool | octets | string | record | domain
  deriving DecidableEq, Repr

/-- The access classes of R331. -/
inductive Access where
  | ro | rw | wo | rwl | fro
  deriving DecidableEq, Repr

/-- Which resource an instance belongs to, for the partition limits of a host VF (R333). -/
inductive Owner where
  | none | part | part256 | part64 | port | te | ring | pf | func
  deriving DecidableEq, Repr

/-- A value check of steps 7 to 9 of Table 13.3. -/
inductive Check where
  /-- only these values; others are reserved or refused (step 7). -/
  | oneOf (l : List Nat)
  /-- no bit of the mask may be set (step 7). -/
  | reserved (mask : Nat)
  /-- only a write of 0 bytes (step 7, R335). -/
  | emptyOnly
  /-- the range of the Effect column (step 8). -/
  | range (lo hi : Nat)
  /-- a value outside the range of the Effect column (step 8). -/
  | rangeNot (v : Nat)
  /-- the clamp of a user calibration value (step 9). -/
  | clamp (c : Nat)
  deriving DecidableEq, Repr

/-- One object: index, subindex, instances (0 for none), type, access, whether Stored, its fixed or greatest length in bytes, its
default for each variant and instance, its write route mask (R332), and what its instance names. -/
structure Obj where
  idx : Nat
  sub : Nat
  insts : Nat
  ty : ObjTy
  acc : Access
  stored : Bool
  len : Nat
  fixed : Bool
  dflt : Variant → Nat → Nat
  wmask : Nat
  unit : UnitKind
  owner : Owner
  chk : List Check

/-- The key under which an object's values are held. -/
def objKey (o : Obj) : Nat := o.idx * 256 + o.sub

/-- 0x1000:0 (00), R4, Table 0.4: 0 = HN8-F, 1 = HN8-S, 2 = HN4-S; other values reserved -/
def D.DEVICE_VARIANT : Obj :=
  { idx := 0x1000, sub := 0, insts := 0, ty := .u8, acc := .fro, stored := false, len := 1, fixed := true,
    dflt := fun v _ => variantCode v, wmask := 13, unit := .none, owner := .none, chk := [] }
/-- 0x1000:1 (00), R4, Table 0.4: 0 = both halves, 1 = west only, 2 = east only -/
def D.HALF_FUSE : Obj :=
  { idx := 0x1000, sub := 1, insts := 0, ty := .u8, acc := .fro, stored := false, len := 1, fixed := true,
    dflt := fun v _ => halfFuse v, wmask := 13, unit := .none, owner := .none, chk := [] }
/-- 0x1010[f]:0 (00), R4, Table 0.4: Field Ff present; f = 0–7 -/
def D.CAP_FIELD : Obj :=
  { idx := 0x1010, sub := 0, insts := 8, ty := .bool, acc := .fro, stored := false, len := 1, fixed := true,
    dflt := fun v i => (fieldPresent v i).toNat, wmask := 13, unit := .none, owner := .none, chk := [] }
/-- 0x1011[n]:0 (00), R4, Table 0.4: Site Cn present; n = 0–7 -/
def D.CAP_SITE : Obj :=
  { idx := 0x1011, sub := 0, insts := 8, ty := .bool, acc := .fro, stored := false, len := 1, fixed := true,
    dflt := fun v i => (fieldPresent v i).toNat, wmask := 13, unit := .none, owner := .none, chk := [] }
/-- 0x1012[n]:0 (00), R4, Table 0.4: Stack Mn present; n = 0–31 -/
def D.CAP_STACK : Obj :=
  { idx := 0x1012, sub := 0, insts := 32, ty := .bool, acc := .fro, stored := false, len := 1, fixed := true,
    dflt := fun v i => (fieldPresent v (i / 4)).toNat, wmask := 13, unit := .none, owner := .none, chk := [] }
/-- 0x1013[n]:0 (00), R4, Table 0.4: Link Ln present; n = 0–63 -/
def D.CAP_LINK : Obj :=
  { idx := 0x1013, sub := 0, insts := 64, ty := .bool, acc := .fro, stored := false, len := 1, fixed := true,
    dflt := fun v i => (linkPresent v i).toNat, wmask := 13, unit := .none, owner := .none, chk := [] }
/-- 0x1014:0 (00), R4, Table 0.4: In-mesh reducers present -/
def D.CAP_MESH_REDUCE : Obj :=
  { idx := 0x1014, sub := 0, insts := 0, ty := .bool, acc := .fro, stored := false, len := 1, fixed := true,
    dflt := fun v _ => (fullFeatures v).toNat, wmask := 13, unit := .none, owner := .none, chk := [] }
/-- 0x1015:0 (00), R4, Table 0.4: Formats HX3, HX2 and HX1 present -/
def D.CAP_SUB4_FORMATS : Obj :=
  { idx := 0x1015, sub := 0, insts := 0, ty := .bool, acc := .fro, stored := false, len := 1, fixed := true,
    dflt := fun v _ => (fullFeatures v).toNat, wmask := 13, unit := .none, owner := .none, chk := [] }
/-- 0x1016:0 (00), R4, Table 0.4: Sweep engines present -/
def D.CAP_SWEEP : Obj :=
  { idx := 0x1016, sub := 0, insts := 0, ty := .bool, acc := .fro, stored := false, len := 1, fixed := true,
    dflt := fun v _ => (fullFeatures v).toNat, wmask := 13, unit := .none, owner := .none, chk := [] }
/-- 0x1020:0 (00), R4, Table 0.4: Requests completed with UNIT_ABSENT since reset; saturates at 0xFFFF_FFFF -/
def D.UNIT_ABSENT_COUNT : Obj :=
  { idx := 0x1020, sub := 0, insts := 0, ty := .u32, acc := .ro, stored := false, len := 4, fixed := true,
    dflt := fun _ _ => 0, wmask := 13, unit := .none, owner := .none, chk := [] }
/-- 0x1030[s]:0 (01), R19, Table 1.6: Where logical slice s is served; s = 0–1023; layout Table 1.7 -/
def D.SLICE_HOME : Obj :=
  { idx := 0x1030, sub := 0, insts := 1024, ty := .u32, acc := .ro, stored := false, len := 4, fixed := true,
    dflt := fun _ i => i, wmask := 13, unit := .slice, owner := .none, chk := [] }
/-- 0x1031[s]:0 (01), R19, Table 1.6: [4:0] channel c, [9:5] stack m, [15:10] reserved; channel of slice s; s = 0–1023 -/
def D.SLICE_CHANNEL : Obj :=
  { idx := 0x1031, sub := 0, insts := 1024, ty := .u16, acc := .ro, stored := false, len := 2, fixed := true,
    dflt := fun _ i => sliceChannelWord i, wmask := 13, unit := .slice, owner := .none, chk := [] }
/-- 0x1032[j]:0 (01), R19, Table 1.6: 0 = free, 1 = adopted, 2 = failed, others reserved; spare SPj; j = 0–63 -/
def D.SPARE_STATE : Obj :=
  { idx := 0x1032, sub := 0, insts := 64, ty := .u8, acc := .ro, stored := false, len := 1, fixed := true,
    dflt := fun _ _ => 0, wmask := 13, unit := .spare, owner := .none, chk := [] }
/-- 0x1033[n]:0 (01), R19, Table 1.6: [4:0] x, [9:5] y, [15:10] reserved; attachment node of link Ln; n = 0–63 -/
def D.LINK_NODE : Obj :=
  { idx := 0x1033, sub := 0, insts := 64, ty := .u16, acc := .ro, stored := false, len := 2, fixed := true,
    dflt := fun _ i => linkNodeWord i, wmask := 13, unit := .link, owner := .none, chk := [] }
/-- 0x8000:0 (02), R51, Table 2.10: 0x000–0xFFF; takes effect at next device reset -/
def D.DEVICE_NUMBER : Obj :=
  { idx := 0x8000, sub := 0, insts := 0, ty := .u16, acc := .rw, stored := true, len := 2, fixed := true,
    dflt := fun _ _ => 0x0, wmask := 13, unit := .none, owner := .none, chk := [.range 0 4095] }
/-- 0x8010[p]:0 (02), R51, Table 2.10: R32; p = 0–15 -/
def D.PART_ENABLE : Obj :=
  { idx := 0x8010, sub := 0, insts := 16, ty := .bool, acc := .rw, stored := false, len := 1, fixed := true,
    dflt := fun _ i => if i = 0 then 1 else 0, wmask := 13, unit := .none, owner := .part, chk := [] }
/-- 0x8010[p]:1 (02), R51, Table 2.10: 0 device, 1 west, 2 east, 8 + n field n; others reserved; R33 -/
def D.PART_DOMAIN : Obj :=
  { idx := 0x8010, sub := 1, insts := 16, ty := .u8, acc := .rw, stored := true, len := 1, fixed := true,
    dflt := fun _ _ => 0, wmask := 13, unit := .none, owner := .part, chk := [.oneOf [0, 1, 2, 8, 9, 10, 11, 12, 13, 14, 15]] }
/-- 0x8010[p]:2 (02), R51, Table 2.10: µs, 1–10,000; immediately for newly parked requests -/
def D.FAULT_STALL_LIMIT : Obj :=
  { idx := 0x8010, sub := 2, insts := 16, ty := .u32, acc := .rw, stored := true, len := 4, fixed := true,
    dflt := fun _ _ => 100, wmask := 13, unit := .none, owner := .part, chk := [.range 1 10000] }
/-- 0x8010[p]:3 (02), R51, Table 2.10: µs, 100–100,000; from the next withdrawal -/
def D.DRAIN_LIMIT : Obj :=
  { idx := 0x8010, sub := 3, insts := 16, ty := .u32, acc := .rw, stored := true, len := 4, fixed := true,
    dflt := fun _ _ => 2000, wmask := 13, unit := .none, owner := .part, chk := [.range 100 100000] }
/-- 0x8010[p]:4 (02), R51, Table 2.10: Current epoch -/
def D.WINDOW_EPOCH : Obj :=
  { idx := 0x8010, sub := 4, insts := 16, ty := .u32, acc := .ro, stored := false, len := 4, fixed := true,
    dflt := fun _ _ => 0, wmask := 13, unit := .none, owner := .part, chk := [] }
/-- 0x8010[p]:5 (02), R51, Table 2.10: Previous epoch's in-flight count; 0 when no withdrawal is pending -/
def D.EPOCH_INFLIGHT : Obj :=
  { idx := 0x8010, sub := 5, insts := 16, ty := .u32, acc := .ro, stored := false, len := 4, fixed := true,
    dflt := fun _ _ => 0, wmask := 13, unit := .none, owner := .part, chk := [] }
/-- 0x8010[p]:6 (02), R51, Table 2.10: Requests completed with WINDOW_REVOKED; saturates -/
def D.REVOKED_COUNT : Obj :=
  { idx := 0x8010, sub := 6, insts := 16, ty := .u32, acc := .ro, stored := false, len := 4, fixed := true,
    dflt := fun _ _ => 0, wmask := 13, unit := .none, owner := .part, chk := [] }
/-- 0x8020[i]:0 (02), R51, Table 2.10: Port i = 64·n + p, 0–511; R48 -/
def D.PORT_PARTITION : Obj :=
  { idx := 0x8020, sub := 0, insts := 512, ty := .u8, acc := .rw, stored := true, len := 1, fixed := true,
    dflt := fun _ _ => 0, wmask := 13, unit := .port, owner := .port, chk := [.range 0 15] }
/-- 0x8021[t]:0 (02), R51, Table 2.10: t = 0–511; R48 -/
def D.TE_PARTITION : Obj :=
  { idx := 0x8021, sub := 0, insts := 512, ty := .u8, acc := .rw, stored := true, len := 1, fixed := true,
    dflt := fun _ _ => 0, wmask := 13, unit := .te, owner := .te, chk := [.range 0 15] }
/-- 0x8022[n]:0 (02), R51, Table 2.10: Link Ln, n = 0–63; R49 -/
def D.LINK_PART_MASK : Obj :=
  { idx := 0x8022, sub := 0, insts := 64, ty := .u16, acc := .rw, stored := true, len := 2, fixed := true,
    dflt := fun _ _ => 0x1, wmask := 13, unit := .link, owner := .none, chk := [] }
/-- 0x8023:0 (02), R51, Table 2.10: R48 -/
def D.PF_DATA_PARTITION : Obj :=
  { idx := 0x8023, sub := 0, insts := 0, ty := .u8, acc := .rw, stored := true, len := 1, fixed := true,
    dflt := fun _ _ => 0, wmask := 13, unit := .none, owner := .pf, chk := [.range 0 15] }
/-- 0x8030[f]:0 (02), R51, Table 2.10: Field f, f = 0–7; instance 8 = host port; saturates -/
def D.PARK_FULL_COUNT : Obj :=
  { idx := 0x8030, sub := 0, insts := 9, ty := .u32, acc := .ro, stored := false, len := 4, fixed := true,
    dflt := fun _ _ => 0, wmask := 13, unit := .parkField, owner := .none, chk := [] }
/-- 0x8100[i]:0 (02), R51, Table 2.10: i = 256·p + 64·g + w; write acts as WIN_INSTALL with FAULT_ID 0 -/
def D.WINDOW_ENTRY : Obj :=
  { idx := 0x8100, sub := 0, insts := 4096, ty := .octets, acc := .rw, stored := false, len := 16, fixed := true,
    dflt := fun _ _ => 0, wmask := 13, unit := .none, owner := .part256, chk := [] }
/-- 0x4001:0 (03), R85, Table 3.8: 0–12 locked ways per set; R77; later locks -/
def D.PIN_WAY_LIMIT : Obj :=
  { idx := 0x4001, sub := 0, insts := 0, ty := .u8, acc := .rw, stored := true, len := 1, fixed := true,
    dflt := fun _ _ => 8, wmask := 13, unit := .none, owner := .none, chk := [.range 0 12] }
/-- 0x4010[p]:0 (03), R85, Table 3.8: R71; partition p = 0–15; immediately -/
def D.PREFETCH_NEXT : Obj :=
  { idx := 0x4010, sub := 0, insts := 16, ty := .bool, acc := .rw, stored := true, len := 1, fixed := true,
    dflt := fun _ _ => 1, wmask := 13, unit := .none, owner := .part, chk := [] }
/-- 0x4010[p]:1 (03), R85, Table 3.8: R80, R81; immediately for later RANGE_DEAD -/
def D.DEAD_STRICT : Obj :=
  { idx := 0x4010, sub := 1, insts := 16, ty := .bool, acc := .rw, stored := true, len := 1, fixed := true,
    dflt := fun _ _ => 0, wmask := 13, unit := .none, owner := .part, chk := [] }
/-- 0x4020[s]:0 (03), R85, Table 3.8: R63; logical slice s = 0–1023 -/
def D.CACHE_CE_COUNT : Obj :=
  { idx := 0x4020, sub := 0, insts := 1024, ty := .u32, acc := .ro, stored := false, len := 4, fixed := true,
    dflt := fun _ _ => 0, wmask := 13, unit := .slice, owner := .none, chk := [] }
/-- 0x4020[s]:1 (03), R85, Table 3.8: R63 -/
def D.CACHE_UE_COUNT : Obj :=
  { idx := 0x4020, sub := 1, insts := 1024, ty := .u32, acc := .ro, stored := false, len := 4, fixed := true,
    dflt := fun _ _ => 0, wmask := 13, unit := .slice, owner := .none, chk := [] }
/-- 0x4020[s]:2 (03), R85, Table 3.8: R64 -/
def D.TAG_CE_COUNT : Obj :=
  { idx := 0x4020, sub := 2, insts := 1024, ty := .u32, acc := .ro, stored := false, len := 4, fixed := true,
    dflt := fun _ _ => 0, wmask := 13, unit := .slice, owner := .none, chk := [] }
/-- 0x4020[s]:3 (03), R85, Table 3.8: R65 -/
def D.TAG_SETS_LOST : Obj :=
  { idx := 0x4020, sub := 3, insts := 1024, ty := .u32, acc := .ro, stored := false, len := 4, fixed := true,
    dflt := fun _ _ => 0, wmask := 13, unit := .slice, owner := .none, chk := [] }
/-- 0x4020[s]:4 (03), R85, Table 3.8: Requests served or re-merged under R82 -/
def D.VICTIM_HIT_COUNT : Obj :=
  { idx := 0x4020, sub := 4, insts := 1024, ty := .u32, acc := .ro, stored := false, len := 4, fixed := true,
    dflt := fun _ _ => 0, wmask := 13, unit := .slice, owner := .none, chk := [] }
/-- 0x4020[s]:5 (03), R85, Table 3.8: R69 -/
def D.SWARM_FILL_COUNT : Obj :=
  { idx := 0x4020, sub := 5, insts := 1024, ty := .u32, acc := .ro, stored := false, len := 4, fixed := true,
    dflt := fun _ _ => 0, wmask := 13, unit := .slice, owner := .none, chk := [] }
/-- 0x4020[s]:6 (03), R85, Table 3.8: R70 -/
def D.MISS_REG_FULL_COUNT : Obj :=
  { idx := 0x4020, sub := 6, insts := 1024, ty := .u32, acc := .ro, stored := false, len := 4, fixed := true,
    dflt := fun _ _ => 0, wmask := 13, unit := .slice, owner := .none, chk := [] }
/-- 0x4020[s]:7 (03), R85, Table 3.8: R71 -/
def D.PREFETCH_ISSUED : Obj :=
  { idx := 0x4020, sub := 7, insts := 1024, ty := .u32, acc := .ro, stored := false, len := 4, fixed := true,
    dflt := fun _ _ => 0, wmask := 13, unit := .slice, owner := .none, chk := [] }
/-- 0x4020[s]:8 (03), R85, Table 3.8: R71 -/
def D.PREFETCH_USED : Obj :=
  { idx := 0x4020, sub := 8, insts := 1024, ty := .u32, acc := .ro, stored := false, len := 4, fixed := true,
    dflt := fun _ _ => 0, wmask := 13, unit := .slice, owner := .none, chk := [] }
/-- 0x4020[s]:9 (03), R85, Table 3.8: R80 -/
def D.READ_AFTER_DEAD : Obj :=
  { idx := 0x4020, sub := 9, insts := 1024, ty := .u32, acc := .ro, stored := false, len := 4, fixed := true,
    dflt := fun _ _ => 0, wmask := 13, unit := .slice, owner := .none, chk := [] }
/-- 0x4020[s]:10 (03), R85, Table 3.8: Lines currently locked, 0–12,288 -/
def D.LOCKED_LINES : Obj :=
  { idx := 0x4020, sub := 10, insts := 1024, ty := .u32, acc := .ro, stored := false, len := 4, fixed := true,
    dflt := fun _ _ => 0, wmask := 13, unit := .slice, owner := .none, chk := [] }
/-- 0x4030[s]:0 (03), R85, Table 3.8: TRUE starts retirement (Table 3.4); FALSE refused -/
def D.SLICE_RETIRE : Obj :=
  { idx := 0x4030, sub := 0, insts := 1024, ty := .bool, acc := .wo, stored := false, len := 1, fixed := true,
    dflt := fun _ _ => 0, wmask := 13, unit := .slice, owner := .none, chk := [.oneOf [1]] }
/-- 0x4030[s]:1 (03), R85, Table 3.8: 0 none, 1 in progress, 2 retired -/
def D.RETIRE_STATE : Obj :=
  { idx := 0x4030, sub := 1, insts := 1024, ty := .u8, acc := .ro, stored := false, len := 1, fixed := true,
    dflt := fun _ _ => 0, wmask := 13, unit := .slice, owner := .none, chk := [] }
/-- 0x4040[s]:0 (03), R85, Table 3.8: [9:0] set, [13:10] way, [15:14] reserved; write captures the entry -/
def D.TAG_PEEK_SELECT : Obj :=
  { idx := 0x4040, sub := 0, insts := 1024, ty := .u16, acc := .rw, stored := false, len := 2, fixed := true,
    dflt := fun _ _ => 0, wmask := 13, unit := .slice, owner := .none, chk := [.reserved 0xC000] }
/-- 0x4040[s]:1 (03), R85, Table 3.8: [47:0] copy A as Table 3.2, [48] copy A parity good, [49] copy B parity good, [63:50] reserved; captured at the last select write -/
def D.TAG_PEEK_VALUE : Obj :=
  { idx := 0x4040, sub := 1, insts := 1024, ty := .u64, acc := .ro, stored := false, len := 8, fixed := true,
    dflt := fun _ _ => 0, wmask := 13, unit := .slice, owner := .none, chk := [] }
/-- 0x4100[i]:0 (04), R113, Table 4.9: i = 64·p + d, partition p = 0–15, descriptor d = 0–63; layout Table 4.4; R94, R95 -/
def D.FORMAT_DESC : Obj :=
  { idx := 0x4100, sub := 0, insts := 1024, ty := .octets, acc := .rw, stored := false, len := 16, fixed := true,
    dflt := fun _ _ => 0, wmask := 13, unit := .none, owner := .part64, chk := [] }
/-- 0x4101:0 (04), R113, Table 4.9: R107; re-seeds every slice at the write -/
def D.SR_SEED : Obj :=
  { idx := 0x4101, sub := 0, insts := 0, ty := .u64, acc := .rw, stored := true, len := 8, fixed := true,
    dflt := fun _ _ => 0x1, wmask := 13, unit := .none, owner := .none, chk := [] }
/-- 0x4110:0 (04), R113, Table 4.9: p·64 + f; R111 -/
def D.FLOW_SNAPSHOT : Obj :=
  { idx := 0x4110, sub := 0, insts := 0, ty := .u16, acc := .wo, stored := false, len := 2, fixed := true,
    dflt := fun _ _ => 0, wmask := 13, unit := .none, owner := .none, chk := [.range 0 1023] }
/-- 0x4110:1 (04), R113, Table 4.9: 0 none, 1 in progress, 2 done; others reserved -/
def D.FLOW_SNAP_STATE : Obj :=
  { idx := 0x4110, sub := 1, insts := 0, ty := .u8, acc := .ro, stored := false, len := 1, fixed := true,
    dflt := fun _ _ => 0, wmask := 13, unit := .none, owner := .none, chk := [] }
/-- 0x4110:2 (04), R113, Table 4.9: p·64 + f; R112 -/
def D.FLOW_CLEAR : Obj :=
  { idx := 0x4110, sub := 2, insts := 0, ty := .u16, acc := .wo, stored := false, len := 2, fixed := true,
    dflt := fun _ _ => 0, wmask := 13, unit := .none, owner := .none, chk := [.range 0 1023] }
/-- 0x4111:0 (04), R113, Table 4.9: Table 4.10 -/
def D.SNAP_FLAGS : Obj :=
  { idx := 0x4111, sub := 0, insts := 0, ty := .u32, acc := .ro, stored := false, len := 4, fixed := true,
    dflt := fun _ _ => 0, wmask := 13, unit := .none, owner := .none, chk := [] }
/-- 0x4111:1 (04), R113, Table 4.9: Blocks converted or accumulated -/
def D.SNAP_BLOCKS : Obj :=
  { idx := 0x4111, sub := 1, insts := 0, ty := .u64, acc := .ro, stored := false, len := 8, fixed := true,
    dflt := fun _ _ => 0, wmask := 13, unit := .none, owner := .none, chk := [] }
/-- 0x4111:2 (04), R113, Table 4.9: Elements clipped -/
def D.SNAP_CLIP : Obj :=
  { idx := 0x4111, sub := 2, insts := 0, ty := .u64, acc := .ro, stored := false, len := 8, fixed := true,
    dflt := fun _ _ => 0, wmask := 13, unit := .none, owner := .none, chk := [] }
/-- 0x4111:3 (04), R113, Table 4.9: Blocks whose scale the guard raised -/
def D.SNAP_SCALE_RAISED : Obj :=
  { idx := 0x4111, sub := 3, insts := 0, ty := .u64, acc := .ro, stored := false, len := 8, fixed := true,
    dflt := fun _ _ => 0, wmask := 13, unit := .none, owner := .none, chk := [] }
/-- 0x4111:4 (04), R113, Table 4.9: Blocks whose scale was clamped at 127 -/
def D.SNAP_SCALE_OVF : Obj :=
  { idx := 0x4111, sub := 4, insts := 0, ty := .u64, acc := .ro, stored := false, len := 8, fixed := true,
    dflt := fun _ _ => 0, wmask := 13, unit := .none, owner := .none, chk := [] }
/-- 0x4111:5 (04), R113, Table 4.9: Non-zero elements made zero -/
def D.SNAP_UNDERFLOW : Obj :=
  { idx := 0x4111, sub := 5, insts := 0, ty := .u64, acc := .ro, stored := false, len := 8, fixed := true,
    dflt := fun _ _ => 0, wmask := 13, unit := .none, owner := .none, chk := [] }
/-- 0x4111:6 (04), R113, Table 4.9: Blocks with a NaN source element -/
def D.SNAP_NAN_BLOCKS : Obj :=
  { idx := 0x4111, sub := 6, insts := 0, ty := .u64, acc := .ro, stored := false, len := 8, fixed := true,
    dflt := fun _ _ => 0, wmask := 13, unit := .none, owner := .none, chk := [] }
/-- 0x4111:7 (04), R113, Table 4.9: Inf source elements -/
def D.SNAP_INF_ELEMENTS : Obj :=
  { idx := 0x4111, sub := 7, insts := 0, ty := .u64, acc := .ro, stored := false, len := 8, fixed := true,
    dflt := fun _ _ => 0, wmask := 13, unit := .none, owner := .none, chk := [] }
/-- 0x4111:8 (04), R113, Table 4.9: Reserved codes read -/
def D.SNAP_RESERVED_CODE : Obj :=
  { idx := 0x4111, sub := 8, insts := 0, ty := .u64, acc := .ro, stored := false, len := 8, fixed := true,
    dflt := fun _ _ => 0, wmask := 13, unit := .none, owner := .none, chk := [] }
/-- 0x4111:9 (04), R113, Table 4.9: Largest finite source magnitude -/
def D.SNAP_AMAX : Obj :=
  { idx := 0x4111, sub := 9, insts := 0, ty := .f32, acc := .ro, stored := false, len := 4, fixed := true,
    dflt := fun _ _ => 0, wmask := 13, unit := .none, owner := .none, chk := [] }
/-- 0x4111:10 (04), R113, Table 4.9: Gate time at which the snapshot completed -/
def D.SNAP_GATE_TIME : Obj :=
  { idx := 0x4111, sub := 10, insts := 0, ty := .u64, acc := .ro, stored := false, len := 8, fixed := true,
    dflt := fun _ _ => 0, wmask := 13, unit := .none, owner := .none, chk := [] }
/-- 0x9000[p]:0 (05), R145, Table 5.12: R120; partition p = 0–15; immediately -/
def D.ATOMIC_COMBINE_FP : Obj :=
  { idx := 0x9000, sub := 0, insts := 16, ty := .bool, acc := .rw, stored := true, len := 1, fixed := true,
    dflt := fun _ _ => 1, wmask := 13, unit := .none, owner := .part, chk := [] }
/-- 0x9001:0 (05), R145, Table 5.12: 16–4,096 per interval; R122; next interval -/
def D.HOT_LINE_THRESHOLD : Obj :=
  { idx := 0x9001, sub := 0, insts := 0, ty := .u16, acc := .rw, stored := true, len := 2, fixed := true,
    dflt := fun _ _ => 256, wmask := 13, unit := .none, owner := .none, chk := [.range 16 4096] }
/-- 0x9010[s]:0 (05), R145, Table 5.12: Atomics applied; logical slice s = 0–1023 -/
def D.ATOMIC_OPS : Obj :=
  { idx := 0x9010, sub := 0, insts := 1024, ty := .u32, acc := .ro, stored := false, len := 4, fixed := true,
    dflt := fun _ _ => 0, wmask := 13, unit := .slice, owner := .none, chk := [] }
/-- 0x9010[s]:1 (05), R145, Table 5.12: R121 -/
def D.ATOMIC_COMBINED : Obj :=
  { idx := 0x9010, sub := 1, insts := 1024, ty := .u32, acc := .ro, stored := false, len := 4, fixed := true,
    dflt := fun _ _ => 0, wmask := 13, unit := .slice, owner := .none, chk := [] }
/-- 0x9010[s]:2 (05), R145, Table 5.12: R122 -/
def D.HOT_LINE_EVENTS : Obj :=
  { idx := 0x9010, sub := 2, insts := 1024, ty := .u32, acc := .ro, stored := false, len := 4, fixed := true,
    dflt := fun _ _ => 0, wmask := 13, unit := .slice, owner := .none, chk := [] }
/-- 0x9010[s]:3 (05), R145, Table 5.12: Channel line number L of the last hot line -/
def D.HOT_LINE_LAST : Obj :=
  { idx := 0x9010, sub := 3, insts := 1024, ty := .u32, acc := .ro, stored := false, len := 4, fixed := true,
    dflt := fun _ _ => 0, wmask := 13, unit := .slice, owner := .none, chk := [] }
/-- 0x9020[t]:0 (05), R145, Table 5.12: 0 idle, 1 active, 2 stopping, 3 failed; t = 0–511 -/
def D.TE_STATE : Obj :=
  { idx := 0x9020, sub := 0, insts := 512, ty := .u8, acc := .ro, stored := false, len := 1, fixed := true,
    dflt := fun _ _ => 0, wmask := 13, unit := .te, owner := .te, chk := [] }
/-- 0x9020[t]:1 (05), R145, Table 5.12: R130 -/
def D.TE_CONTEXT_SWAPS : Obj :=
  { idx := 0x9020, sub := 1, insts := 512, ty := .u32, acc := .ro, stored := false, len := 4, fixed := true,
    dflt := fun _ _ => 0, wmask := 13, unit := .te, owner := .te, chk := [] }
/-- 0x9100[i]:0 (05), R145, Table 5.12: Ring r = 65,536·q + i, q = 0–15; Table 5.4; R126, R127 -/
def D.RING_CONTEXT (q : Nat) : Obj :=
  { idx := 0x9100 + q, sub := 0, insts := 65536, ty := .octets, acc := .rw, stored := false, len := 64, fixed := true,
    dflt := fun _ _ => 0, wmask := 15, unit := .none, owner := .ring, chk := [] }
/-- 0x9200[p]:0 (05), R145, Table 5.12: Table 5.8; R136, R137 -/
def D.SWEEP_COMMAND : Obj :=
  { idx := 0x9200, sub := 0, insts := 16, ty := .octets, acc := .wo, stored := false, len := 64, fixed := true,
    dflt := fun _ _ => 0, wmask := 15, unit := .none, owner := .part, chk := [] }
/-- 0x9200[p]:1 (05), R145, Table 5.12: 0 idle, 1 armed, 2 running, 3 done, 4 aborting -/
def D.SWEEP_STATE : Obj :=
  { idx := 0x9200, sub := 1, insts := 16, ty := .u8, acc := .ro, stored := false, len := 1, fixed := true,
    dflt := fun _ _ => 0, wmask := 13, unit := .none, owner := .part, chk := [] }
/-- 0x9200[p]:2 (05), R145, Table 5.12: R143 -/
def D.SWEEP_PROGRESS : Obj :=
  { idx := 0x9200, sub := 2, insts := 16, ty := .u64, acc := .ro, stored := false, len := 8, fixed := true,
    dflt := fun _ _ => 0, wmask := 13, unit := .none, owner := .part, chk := [] }
/-- 0x9200[p]:3 (05), R145, Table 5.12: TRUE aborts (R143); refused with SWEEP_NONE when no sweep is armed or running; FALSE refused -/
def D.SWEEP_ABORT : Obj :=
  { idx := 0x9200, sub := 3, insts := 16, ty := .bool, acc := .wo, stored := false, len := 1, fixed := true,
    dflt := fun _ _ => 0, wmask := 15, unit := .none, owner := .part, chk := [.oneOf [1]] }
/-- 0x9200[p]:4 (05), R145, Table 5.12: Table 5.11 -/
def D.SWEEP_RESULT : Obj :=
  { idx := 0x9200, sub := 4, insts := 16, ty := .octets, acc := .ro, stored := false, len := 64, fixed := true,
    dflt := fun _ _ => 0, wmask := 13, unit := .none, owner := .part, chk := [] }
/-- 0x9200[p]:5 (05), R145, Table 5.12: µs, 100–1,000,000; next sweep -/
def D.SWEEP_TIMEOUT : Obj :=
  { idx := 0x9200, sub := 5, insts := 16, ty := .u32, acc := .rw, stored := true, len := 4, fixed := true,
    dflt := fun _ _ => 10000, wmask := 15, unit := .none, owner := .part, chk := [.range 100 1000000] }
/-- 0x9201[p]:0 (05), R145, Table 5.12: Bytes 0–1 G; then G device numbers as U16; remaining bytes 0; refused with SWEEP_BUSY while SWEEP_STATE is 1, 2 or 4 -/
def D.SWEEP_GROUP : Obj :=
  { idx := 0x9201, sub := 0, insts := 16, ty := .octets, acc := .rw, stored := false, len := 130, fixed := true,
    dflt := fun _ _ => 0, wmask := 15, unit := .none, owner := .part, chk := [] }
/-- 0x9202[p]:0 (05), R145, Table 5.12: R141 -/
def D.SWEEP_STRAY : Obj :=
  { idx := 0x9202, sub := 0, insts := 16, ty := .u32, acc := .ro, stored := false, len := 4, fixed := true,
    dflt := fun _ _ => 0, wmask := 13, unit := .none, owner := .part, chk := [] }
/-- 0x3000:0 (06), R172, Table 6.7: 0 = 6.4, 1 = 8.0, 2 = 9.6, 3 = 10.0 Gbit/s; others reserved; next stage 6 -/
def D.HBM_PIN_RATE : Obj :=
  { idx := 0x3000, sub := 0, insts := 0, ty := .u8, acc := .rw, stored := true, len := 1, fixed := true,
    dflt := fun _ _ => 3, wmask := 13, unit := .none, owner := .none, chk := [.oneOf [0, 1, 2, 3]] }
/-- 0x3000:1 (06), R172, Table 6.7: R161; next stage 6 -/
def D.FORCE_FULL_TRAIN : Obj :=
  { idx := 0x3000, sub := 1, insts := 0, ty := .bool, acc := .rw, stored := true, len := 1, fixed := true,
    dflt := fun _ _ => 0, wmask := 13, unit := .none, owner := .none, chk := [] }
/-- 0x3000:2 (06), R172, Table 6.7: R159 -/
def D.INIT_DONE : Obj :=
  { idx := 0x3000, sub := 2, insts := 0, ty := .bool, acc := .ro, stored := false, len := 1, fixed := true,
    dflt := fun _ _ => 0, wmask := 13, unit := .none, owner := .none, chk := [] }
/-- 0x3000:3 (06), R172, Table 6.7: Hours, 1–168; R158; immediately -/
def D.SCRUB_PERIOD : Obj :=
  { idx := 0x3000, sub := 3, insts := 0, ty := .u32, acc := .rw, stored := true, len := 4, fixed := true,
    dflt := fun _ _ => 24, wmask := 13, unit := .none, owner := .none, chk := [.range 1 168] }
/-- 0x3000:4 (06), R172, Table 6.7: ns, 100–100,000; R164; immediately -/
def D.PD_IDLE : Obj :=
  { idx := 0x3000, sub := 4, insts := 0, ty := .u32, acc := .rw, stored := true, len := 4, fixed := true,
    dflt := fun _ _ => 1000, wmask := 13, unit := .none, owner := .none, chk := [.range 100 100000] }
/-- 0x3000:5 (06), R172, Table 6.7: GB/s, 1–40; R169; next migration -/
def D.MIGRATE_RATE : Obj :=
  { idx := 0x3000, sub := 5, insts := 0, ty := .u32, acc := .rw, stored := true, len := 4, fixed := true,
    dflt := fun _ _ => 20, wmask := 13, unit := .none, owner := .none, chk := [.range 1 40] }
/-- 0x3000:6 (06), R172, Table 6.7: R171 -/
def D.AUTO_RETIRE : Obj :=
  { idx := 0x3000, sub := 6, insts := 0, ty := .bool, acc := .rw, stored := true, len := 1, fixed := true,
    dflt := fun _ _ => 0, wmask := 13, unit := .none, owner := .none, chk := [] }
/-- 0x3000:7 (06), R172, Table 6.7: Per 24 h, 100–10⁹ -/
def D.CE_RETIRE_THRESHOLD : Obj :=
  { idx := 0x3000, sub := 7, insts := 0, ty := .u32, acc := .rw, stored := true, len := 4, fixed := true,
    dflt := fun _ _ => 10000, wmask := 13, unit := .none, owner := .none, chk := [.range 100 1000000000] }
/-- 0x3000:8 (06), R172, Table 6.7: Per 24 h, 1–1,000 -/
def D.UE_RETIRE_THRESHOLD : Obj :=
  { idx := 0x3000, sub := 8, insts := 0, ty := .u32, acc := .rw, stored := true, len := 4, fixed := true,
    dflt := fun _ _ => 2, wmask := 13, unit := .none, owner := .none, chk := [.range 1 1000] }
/-- 0x3001[m]:0 (06), R172, Table 6.7: 16 bytes; stack m = 0–31 -/
def D.STACK_SERIAL : Obj :=
  { idx := 0x3001, sub := 0, insts := 32, ty := .octets, acc := .ro, stored := false, len := 16, fixed := true,
    dflt := fun _ _ => 0, wmask := 13, unit := .stack, owner := .none, chk := [] }
/-- 0x3001[m]:1 (06), R172, Table 6.7: 0 = 16-high, 1 = 8-high -/
def D.STACK_CONFIG : Obj :=
  { idx := 0x3001, sub := 1, insts := 32, ty := .u8, acc := .ro, stored := false, len := 1, fixed := true,
    dflt := fun _ _ => 0, wmask := 13, unit := .stack, owner := .none, chk := [] }
/-- 0x3001[m]:2 (06), R172, Table 6.7: °C, hottest reading -/
def D.STACK_TEMP : Obj :=
  { idx := 0x3001, sub := 2, insts := 32, ty := .i32, acc := .ro, stored := false, len := 4, fixed := true,
    dflt := fun _ _ => 0, wmask := 13, unit := .stack, owner := .none, chk := [] }
/-- 0x3001[m]:3 (06), R172, Table 6.7: R154 -/
def D.STACK_TEMP_VALID : Obj :=
  { idx := 0x3001, sub := 3, insts := 32, ty := .bool, acc := .ro, stored := false, len := 1, fixed := true,
    dflt := fun _ _ => 0, wmask := 13, unit := .stack, owner := .none, chk := [] }
/-- 0x3001[m]:4 (06), R172, Table 6.7: 0–3 = bands A–D -/
def D.STACK_BAND : Obj :=
  { idx := 0x3001, sub := 4, insts := 32, ty := .u8, acc := .ro, stored := false, len := 1, fixed := true,
    dflt := fun _ _ => 1, wmask := 13, unit := .stack, owner := .none, chk := [] }
/-- 0x3001[m]:5 (06), R172, Table 6.7: 0 none, 1 fast, 2 full, 3 failed -/
def D.TRAIN_MODE_LAST : Obj :=
  { idx := 0x3001, sub := 5, insts := 32, ty := .u8, acc := .ro, stored := false, len := 1, fixed := true,
    dflt := fun _ _ => 0, wmask := 13, unit := .stack, owner := .none, chk := [] }
/-- 0x3001[m]:6 (06), R172, Table 6.7: [15:0] tRRD, [31:16] tFAW, in ps -/
def D.ACT_TIMING : Obj :=
  { idx := 0x3001, sub := 6, insts := 32, ty := .u32, acc := .ro, stored := false, len := 4, fixed := true,
    dflt := fun _ _ => 0, wmask := 13, unit := .stack, owner := .none, chk := [] }
/-- 0x3001[m]:7 (06), R172, Table 6.7: Errors reported by the stack's own scrub -/
def D.STACK_ECS_COUNT : Obj :=
  { idx := 0x3001, sub := 7, insts := 32, ty := .u32, acc := .ro, stored := false, len := 4, fixed := true,
    dflt := fun _ _ => 0, wmask := 13, unit := .stack, owner := .none, chk := [] }
/-- 0x3002[m]:b (06), R172, Table 6.7: b = band T0–T3 as 0–3; writing 0 bytes clears; other writes refused -/
def D.TRAIN_RECORD (b : Nat) : Obj :=
  { idx := 0x3002, sub := b, insts := 32, ty := .octets, acc := .rw, stored := true, len := 4096, fixed := false,
    dflt := fun _ _ => 0, wmask := 13, unit := .stack, owner := .none, chk := [.emptyOnly] }
/-- 0x3010[c]:0 (06), R172, Table 6.7: R157 -/
def D.HBM_CE_COUNT : Obj :=
  { idx := 0x3010, sub := 0, insts := 1024, ty := .u32, acc := .ro, stored := false, len := 4, fixed := true,
    dflt := fun _ _ => 0, wmask := 13, unit := .chan, owner := .none, chk := [] }
/-- 0x3010[c]:1 (06), R172, Table 6.7: R157 -/
def D.HBM_UE_COUNT : Obj :=
  { idx := 0x3010, sub := 1, insts := 1024, ty := .u32, acc := .ro, stored := false, len := 4, fixed := true,
    dflt := fun _ _ => 0, wmask := 13, unit := .chan, owner := .none, chk := [] }
/-- 0x3010[c]:2 (06), R172, Table 6.7: R157 -/
def D.HBM_RETRY_COUNT : Obj :=
  { idx := 0x3010, sub := 2, insts := 1024, ty := .u32, acc := .ro, stored := false, len := 4, fixed := true,
    dflt := fun _ _ => 0, wmask := 13, unit := .chan, owner := .none, chk := [] }
/-- 0x3010[c]:3 (06), R172, Table 6.7: R155 -/
def D.RFM_ISSUED : Obj :=
  { idx := 0x3010, sub := 3, insts := 1024, ty := .u32, acc := .ro, stored := false, len := 4, fixed := true,
    dflt := fun _ _ => 0, wmask := 13, unit := .chan, owner := .none, chk := [] }
/-- 0x3010[c]:4 (06), R172, Table 6.7: Cycles; R153 -/
def D.ACT_BUDGET_STALL : Obj :=
  { idx := 0x3010, sub := 4, insts := 1024, ty := .u32, acc := .ro, stored := false, len := 4, fixed := true,
    dflt := fun _ _ => 0, wmask := 13, unit := .chan, owner := .none, chk := [] }
/-- 0x3010[c]:5 (06), R172, Table 6.7: R162 -/
def D.RETRAIN_COUNT : Obj :=
  { idx := 0x3010, sub := 5, insts := 1024, ty := .u32, acc := .ro, stored := false, len := 4, fixed := true,
    dflt := fun _ _ => 0, wmask := 13, unit := .chan, owner := .none, chk := [] }
/-- 0x3010[c]:6 (06), R172, Table 6.7: 0 Active, 1 Power-down, 2 Self-refresh, 3 Off -/
def D.CHAN_POWER : Obj :=
  { idx := 0x3010, sub := 6, insts := 1024, ty := .u8, acc := .ro, stored := false, len := 1, fixed := true,
    dflt := fun _ _ => 0, wmask := 13, unit := .chan, owner := .none, chk := [] }
/-- 0x3010[c]:7 (06), R172, Table 6.7: TRUE holds the channel in self-refresh -/
def D.HBM_SELF_REFRESH : Obj :=
  { idx := 0x3010, sub := 7, insts := 1024, ty := .bool, acc := .rw, stored := false, len := 1, fixed := true,
    dflt := fun _ _ => 0, wmask := 13, unit := .chan, owner := .none, chk := [] }
/-- 0x3030[c]:0 (06), R172, Table 6.7: Donor code, Table 6.8; R167 -/
def D.CHANNEL_RETIRE : Obj :=
  { idx := 0x3030, sub := 0, insts := 1024, ty := .u16, acc := .wo, stored := false, len := 2, fixed := true,
    dflt := fun _ _ => 0, wmask := 13, unit := .chan, owner := .none, chk := [] }
/-- 0x3030[c]:1 (06), R172, Table 6.7: 0 own, 1 migrating, 2 retired, 3 failed -/
def D.CHAN_BACKING : Obj :=
  { idx := 0x3030, sub := 1, insts := 1024, ty := .u8, acc := .ro, stored := true, len := 1, fixed := true,
    dflt := fun _ _ => 0, wmask := 13, unit := .chan, owner := .none, chk := [] }
/-- 0x3030[c]:2 (06), R172, Table 6.7: Units copied, 0–4,194,304 -/
def D.MIG_PROGRESS : Obj :=
  { idx := 0x3030, sub := 2, insts := 1024, ty := .u32, acc := .ro, stored := false, len := 4, fixed := true,
    dflt := fun _ _ => 0, wmask := 13, unit := .chan, owner := .none, chk := [] }
/-- 0x3030[c]:3 (06), R172, Table 6.7: R170 -/
def D.MIG_POISON_SECTORS : Obj :=
  { idx := 0x3030, sub := 3, insts := 1024, ty := .u32, acc := .ro, stored := false, len := 4, fixed := true,
    dflt := fun _ _ => 0, wmask := 13, unit := .chan, owner := .none, chk := [] }
/-- 0x3030[c]:4 (06), R172, Table 6.7: Donor code in use -/
def D.CHAN_DONOR : Obj :=
  { idx := 0x3030, sub := 4, insts := 1024, ty := .u16, acc := .ro, stored := true, len := 2, fixed := true,
    dflt := fun _ _ => 0, wmask := 13, unit := .chan, owner := .none, chk := [] }
/-- 0x3033[j]:0 (06), R172, Table 6.7: j = 0–15; Table 6.8; R171 -/
def D.DONOR_POOL : Obj :=
  { idx := 0x3033, sub := 0, insts := 16, ty := .u16, acc := .rw, stored := true, len := 2, fixed := true,
    dflt := fun _ _ => 0, wmask := 13, unit := .none, owner := .none, chk := [.reserved 0x7C00] }
/-- 0xC300[m]:0 (06), R172, Table 6.7: Per lane pair reference voltage, 1 byte each -/
def D.HBM_VREF_FACTORY : Obj :=
  { idx := 0xC300, sub := 0, insts := 32, ty := .octets, acc := .fro, stored := true, len := 1024, fixed := false,
    dflt := fun _ _ => 0, wmask := 13, unit := .stack, owner := .none, chk := [] }
/-- 0xD300[m]:0 (06), R172, Table 6.7: Additive, I8 per lane pair, clamp ±5 steps; next training -/
def D.HBM_VREF_USER : Obj :=
  { idx := 0xD300, sub := 0, insts := 32, ty := .octets, acc := .rw, stored := true, len := 1024, fixed := false,
    dflt := fun _ _ => 0, wmask := 13, unit := .stack, owner := .none, chk := [] }
/-- 0x5000:0 (07), R205, Table 7.12: 0 none, 1 active, 2 suspended -/
def D.LAP_STATE : Obj :=
  { idx := 0x5000, sub := 0, insts := 0, ty := .u8, acc := .ro, stored := false, len := 1, fixed := true,
    dflt := fun _ _ => 0, wmask := 13, unit := .none, owner := .none, chk := [] }
/-- 0x5000:1 (07), R205, Table 7.12: 16 bytes; R185 -/
def D.LAP_LOAD : Obj :=
  { idx := 0x5000, sub := 1, insts := 0, ty := .octets, acc := .wo, stored := false, len := 16, fixed := true,
    dflt := fun _ _ => 0, wmask := 13, unit := .none, owner := .none, chk := [] }
/-- 0x5000:2 (07), R205, Table 7.12: 0 empty, 1 loading, 2 loaded, 3 refused -/
def D.LAP_LOAD_STATE : Obj :=
  { idx := 0x5000, sub := 2, insts := 0, ty := .u8, acc := .ro, stored := false, len := 1, fixed := true,
    dflt := fun _ _ => 0, wmask := 13, unit := .none, owner := .none, chk := [] }
/-- 0x5000:3 (07), R205, Table 7.12: [15:0] status, [19:16] step, [24:20] x, [29:25] y, [44:32] stride, [95:64] record index, other bits 0 -/
def D.LAP_LOAD_DETAIL : Obj :=
  { idx := 0x5000, sub := 3, insts := 0, ty := .octets, acc := .ro, stored := false, len := 16, fixed := true,
    dflt := fun _ _ => 0, wmask := 13, unit := .none, owner := .none, chk := [] }
/-- 0x5000:4 (07), R205, Table 7.12: Gate time T; R189, R190 -/
def D.LAP_SWITCH : Obj :=
  { idx := 0x5000, sub := 4, insts := 0, ty := .u64, acc := .wo, stored := false, len := 8, fixed := true,
    dflt := fun _ _ => 0, wmask := 13, unit := .none, owner := .none, chk := [] }
/-- 0x5000:5 (07), R205, Table 7.12: Gate time T; R191 -/
def D.LAP_UNLOAD : Obj :=
  { idx := 0x5000, sub := 5, insts := 0, ty := .u64, acc := .wo, stored := false, len := 8, fixed := true,
    dflt := fun _ _ => 0, wmask := 13, unit := .none, owner := .none, chk := [] }
/-- 0x5000:6 (07), R205, Table 7.12: Gate time T; R192 -/
def D.LAP_RESUME : Obj :=
  { idx := 0x5000, sub := 6, insts := 0, ty := .u64, acc := .wo, stored := false, len := 8, fixed := true,
    dflt := fun _ _ => 0, wmask := 13, unit := .none, owner := .none, chk := [] }
/-- 0x5000:7 (07), R205, Table 7.12: 0 none, 1 armed, 2 done, 3 abandoned -/
def D.LAP_SWITCH_STATE : Obj :=
  { idx := 0x5000, sub := 7, insts := 0, ty := .u8, acc := .ro, stored := false, len := 1, fixed := true,
    dflt := fun _ _ => 0, wmask := 13, unit := .none, owner := .none, chk := [] }
/-- 0x5000:8 (07), R205, Table 7.12: Status of the last abandoned or refused switch -/
def D.LAP_SWITCH_STATUS : Obj :=
  { idx := 0x5000, sub := 8, insts := 0, ty := .u16, acc := .ro, stored := false, len := 2, fixed := true,
    dflt := fun _ _ => 0, wmask := 13, unit := .none, owner := .none, chk := [] }
/-- 0x5000:9 (07), R205, Table 7.12: R187; 0 when none -/
def D.LAP_ACTIVE_ID : Obj :=
  { idx := 0x5000, sub := 9, insts := 0, ty := .u64, acc := .ro, stored := false, len := 8, fixed := true,
    dflt := fun _ _ => 0, wmask := 13, unit := .none, owner := .none, chk := [] }
/-- 0x5000:10 (07), R205, Table 7.12: R187; 0 when empty -/
def D.LAP_SHADOW_ID : Obj :=
  { idx := 0x5000, sub := 10, insts := 0, ty := .u64, acc := .ro, stored := false, len := 8, fixed := true,
    dflt := fun _ _ => 0, wmask := 13, unit := .none, owner := .none, chk := [] }
/-- 0x5000:11 (07), R205, Table 7.12: ns; R196 -/
def D.LAP_FS_BOUND : Obj :=
  { idx := 0x5000, sub := 11, insts := 0, ty := .u32, acc := .ro, stored := false, len := 4, fixed := true,
    dflt := fun _ _ => 64, wmask := 13, unit := .none, owner := .none, chk := [] }
/-- 0x5000:12 (07), R205, Table 7.12: 64 bytes; R186 -/
def D.MESH_TOPO_DIGEST : Obj :=
  { idx := 0x5000, sub := 12, insts := 0, ty := .octets, acc := .ro, stored := false, len := 64, fixed := true,
    dflt := fun _ _ => 0, wmask := 13, unit := .none, owner := .none, chk := [] }
/-- 0x5001[n]:0 (07), R205, Table 7.12: P of field Fn now; n = 0–7 -/
def D.FIELD_PACE : Obj :=
  { idx := 0x5001, sub := 0, insts := 8, ty := .u8, acc := .ro, stored := false, len := 1, fixed := true,
    dflt := fun _ _ => 1, wmask := 13, unit := .field, owner := .none, chk := [] }
/-- 0x5001[n]:1 (07), R205, Table 7.12: P declared by the shadow table; 0 when empty -/
def D.FIELD_PACE_SHADOW : Obj :=
  { idx := 0x5001, sub := 1, insts := 8, ty := .u8, acc := .ro, stored := false, len := 1, fixed := true,
    dflt := fun _ _ => 0, wmask := 13, unit := .field, owner := .none, chk := [] }
/-- 0x5010:0 (07), R205, Table 7.12: R184, R192, R194 -/
def D.LAP_SLIP : Obj :=
  { idx := 0x5010, sub := 0, insts := 0, ty := .u32, acc := .ro, stored := false, len := 4, fixed := true,
    dflt := fun _ _ => 0, wmask := 13, unit := .none, owner := .none, chk := [] }
/-- 0x5010:1 (07), R205, Table 7.12: R193 -/
def D.FLOW_DEMOTED : Obj :=
  { idx := 0x5010, sub := 1, insts := 0, ty := .u32, acc := .ro, stored := false, len := 4, fixed := true,
    dflt := fun _ _ => 0, wmask := 13, unit := .none, owner := .none, chk := [] }
/-- 0x5010:2 (07), R205, Table 7.12: R202 -/
def D.RED_MERGES : Obj :=
  { idx := 0x5010, sub := 2, insts := 0, ty := .u32, acc := .ro, stored := false, len := 4, fixed := true,
    dflt := fun _ _ => 0, wmask := 13, unit := .none, owner := .none, chk := [] }
/-- 0x5010:3 (07), R205, Table 7.12: R200 -/
def D.RED_UNMERGED : Obj :=
  { idx := 0x5010, sub := 3, insts := 0, ty := .u32, acc := .ro, stored := false, len := 4, fixed := true,
    dflt := fun _ _ => 0, wmask := 13, unit := .none, owner := .none, chk := [] }
/-- 0x5020[k]:0 (07), R205, Table 7.12: Strides; k = 0 half seam, 1–3 west row seams north to south, 4–6 east row seams; R197 -/
def D.SEAM_CREDIT_STALL : Obj :=
  { idx := 0x5020, sub := 0, insts := 7, ty := .u32, acc := .ro, stored := false, len := 4, fixed := true,
    dflt := fun _ _ => 0, wmask := 13, unit := .seam, owner := .none, chk := [] }
/-- 0x5030[r]:0 (07), R205, Table 7.12: 0 working, 1 failed; r = 32·y + x -/
def D.ROUTER_STATE : Obj :=
  { idx := 0x5030, sub := 0, insts := 1024, ty := .u8, acc := .ro, stored := false, len := 1, fixed := true,
    dflt := fun _ _ => 0, wmask := 13, unit := .slice, owner := .none, chk := [] }
/-- 0x5030[r]:1 (07), R205, Table 7.12: ns; R196 -/
def D.LAP_FS_WORST : Obj :=
  { idx := 0x5030, sub := 1, insts := 1024, ty := .u32, acc := .ro, stored := false, len := 4, fixed := true,
    dflt := fun _ _ => 64, wmask := 13, unit := .slice, owner := .none, chk := [] }
/-- 0x5031:0 (07), R205, Table 7.12: Hops; R204 -/
def D.MESH_DETOUR_MAX : Obj :=
  { idx := 0x5031, sub := 0, insts := 0, ty := .u8, acc := .ro, stored := false, len := 1, fixed := true,
    dflt := fun _ _ => 0, wmask := 13, unit := .none, owner := .none, chk := [] }
/-- 0x5040[f]:0 (07), R205, Table 7.12: Table 4.10 layout; reduction flow f = 0–63; R202 -/
def D.RED_FLAGS : Obj :=
  { idx := 0x5040, sub := 0, insts := 64, ty := .u32, acc := .ro, stored := false, len := 4, fixed := true,
    dflt := fun _ _ => 0, wmask := 13, unit := .reducer, owner := .none, chk := [] }
/-- 0x5040[f]:1 (07), R205, Table 7.12: TRUE clears; FALSE refused -/
def D.RED_FLAGS_CLEAR : Obj :=
  { idx := 0x5040, sub := 1, insts := 64, ty := .bool, acc := .wo, stored := false, len := 1, fixed := true,
    dflt := fun _ _ => 0, wmask := 13, unit := .reducer, owner := .none, chk := [.oneOf [1]] }
/-- 0xE000:0 (08), R231, Table 8.8: Snapshot at each read (Table 8.1) -/
def D.GATE_TIME : Obj :=
  { idx := 0xE000, sub := 0, insts := 0, ty := .u64, acc := .ro, stored := false, len := 8, fixed := true,
    dflt := fun _ _ => 0, wmask := 13, unit := .none, owner := .none, chk := [] }
/-- 0xE000:1 (08), R231, Table 8.8: 0 UNSYNC, 1 SYNC, 2 HOLDOVER -/
def D.GATE_SYNC_STATE : Obj :=
  { idx := 0xE000, sub := 1, insts := 0, ty := .u8, acc := .ro, stored := false, len := 1, fixed := true,
    dflt := fun _ _ => 0, wmask := 13, unit := .none, owner := .none, chk := [] }
/-- 0xE000:2 (08), R231, Table 8.8: R213; immediately -/
def D.GATE_SOURCE : Obj :=
  { idx := 0xE000, sub := 2, insts := 0, ty := .u8, acc := .rw, stored := true, len := 1, fixed := true,
    dflt := fun _ _ => 2, wmask := 13, unit := .none, owner := .none, chk := [.oneOf [0, 1, 2]] }
/-- 0xE000:3 (08), R231, Table 8.8: Bit n = Ln eligible; R217 -/
def D.GATE_UPSTREAM_MASK : Obj :=
  { idx := 0xE000, sub := 3, insts := 0, ty := .u64, acc := .rw, stored := true, len := 8, fixed := true,
    dflt := fun _ _ => 0xFFFFFFFFFFFFFFFF, wmask := 13, unit := .none, owner := .none, chk := [] }
/-- 0xE000:4 (08), R231, Table 8.8: Current upstream; 0xFF none -/
def D.GATE_UPSTREAM_LINK : Obj :=
  { idx := 0xE000, sub := 4, insts := 0, ty := .u8, acc := .ro, stored := false, len := 1, fixed := true,
    dflt := fun _ _ => 0xFF, wmask := 13, unit := .none, owner := .none, chk := [] }
/-- 0xE000:5 (08), R231, Table 8.8: Hops from the root; 0xFF unknown -/
def D.GATE_HOPS : Obj :=
  { idx := 0xE000, sub := 5, insts := 0, ty := .u8, acc := .ro, stored := false, len := 1, fixed := true,
    dflt := fun _ _ => 0xFF, wmask := 13, unit := .none, owner := .none, chk := [] }
/-- 0xE000:6 (08), R231, Table 8.8: ns; R220; all ones when UNSYNC -/
def D.GATE_ERR_BOUND : Obj :=
  { idx := 0xE000, sub := 6, insts := 0, ty := .u32, acc := .ro, stored := false, len := 4, fixed := true,
    dflt := fun _ _ => 0xFFFFFFFF, wmask := 13, unit := .none, owner := .none, chk := [] }
/-- 0xE000:7 (08), R231, Table 8.8: ms, 10–60,000; R214 -/
def D.GATE_HOLDOVER_LIMIT : Obj :=
  { idx := 0xE000, sub := 7, insts := 0, ty := .u32, acc := .rw, stored := true, len := 4, fixed := true,
    dflt := fun _ _ => 1000, wmask := 13, unit := .none, owner := .none, chk := [.range 10 60000] }
/-- 0xE000:8 (08), R231, Table 8.8: R219 -/
def D.GATE_STEP_COUNT : Obj :=
  { idx := 0xE000, sub := 8, insts := 0, ty := .u32, acc := .ro, stored := false, len := 4, fixed := true,
    dflt := fun _ _ => 0, wmask := 13, unit := .none, owner := .none, chk := [] }
/-- 0xE000:9 (08), R231, Table 8.8: R217 -/
def D.GATE_UPSTREAM_CHANGES : Obj :=
  { idx := 0xE000, sub := 9, insts := 0, ty := .u32, acc := .ro, stored := false, len := 4, fixed := true,
    dflt := fun _ _ => 0, wmask := 13, unit := .none, owner := .none, chk := [] }
/-- 0xE000:10 (08), R231, Table 8.8: R208 -/
def D.GATE_TAP_ERR_COUNT : Obj :=
  { idx := 0xE000, sub := 10, insts := 0, ty := .u32, acc := .ro, stored := false, len := 4, fixed := true,
    dflt := fun _ _ => 0, wmask := 13, unit := .none, owner := .none, chk := [] }
/-- 0xE001:0 (08), R231, Table 8.8: R221 -/
def D.PTP_DOMAIN : Obj :=
  { idx := 0xE001, sub := 0, insts := 0, ty := .u8, acc := .rw, stored := true, len := 1, fixed := true,
    dflt := fun _ _ => 0, wmask := 13, unit := .none, owner := .none, chk := [] }
/-- 0xE001:1 (08), R231, Table 8.8: 0 no time transmitter, 1 acquiring, 2 locked -/
def D.PTP_STATE : Obj :=
  { idx := 0xE001, sub := 1, insts := 0, ty := .u8, acc := .ro, stored := false, len := 1, fixed := true,
    dflt := fun _ _ => 0, wmask := 13, unit := .none, owner := .none, chk := [] }
/-- 0xE001:2 (08), R231, Table 8.8: ns, last offset from the time transmitter -/
def D.PTP_OFFSET : Obj :=
  { idx := 0xE001, sub := 2, insts := 0, ty := .i64, acc := .ro, stored := false, len := 8, fixed := true,
    dflt := fun _ _ => 0, wmask := 13, unit := .none, owner := .none, chk := [] }
/-- 0xE010[n]:0 (08), R231, Table 8.8: ns; R216; link n = 0–63 -/
def D.LINK_TIME_OFFSET : Obj :=
  { idx := 0xE010, sub := 0, insts := 64, ty := .i32, acc := .ro, stored := false, len := 4, fixed := true,
    dflt := fun _ _ => 0, wmask := 13, unit := .link, owner := .none, chk := [] }
/-- 0xE010[n]:1 (08), R231, Table 8.8: ns; R216 -/
def D.LINK_TIME_DELAY : Obj :=
  { idx := 0xE010, sub := 1, insts := 64, ty := .u32, acc := .ro, stored := false, len := 4, fixed := true,
    dflt := fun _ _ => 0, wmask := 13, unit := .link, owner := .none, chk := [] }
/-- 0xE020:0 (08), R231, Table 8.8: 32 bytes; Table 8.4; R224 -/
def D.GATE_LAUNCH : Obj :=
  { idx := 0xE020, sub := 0, insts := 0, ty := .octets, acc := .wo, stored := false, len := 32, fixed := true,
    dflt := fun _ _ => 0, wmask := 15, unit := .none, owner := .none, chk := [] }
/-- 0xE020:1 (08), R231, Table 8.8: Last ID accepted -/
def D.GATE_LAUNCH_ID : Obj :=
  { idx := 0xE020, sub := 1, insts := 0, ty := .u32, acc := .ro, stored := false, len := 4, fixed := true,
    dflt := fun _ _ => 0, wmask := 13, unit := .none, owner := .none, chk := [] }
/-- 0xE020:2 (08), R231, Table 8.8: R228 -/
def D.GATE_CANCEL : Obj :=
  { idx := 0xE020, sub := 2, insts := 0, ty := .u32, acc := .wo, stored := false, len := 4, fixed := true,
    dflt := fun _ _ => 0, wmask := 15, unit := .none, owner := .none, chk := [] }
/-- 0xE020:3 (08), R231, Table 8.8: Table 8.7 -/
def D.GATE_LAUNCH_LAST : Obj :=
  { idx := 0xE020, sub := 3, insts := 0, ty := .octets, acc := .ro, stored := false, len := 16, fixed := true,
    dflt := fun _ _ => 0, wmask := 13, unit := .none, owner := .none, chk := [] }
/-- 0xE020:4 (08), R231, Table 8.8: R226; saturates -/
def D.GATE_MISSED_COUNT : Obj :=
  { idx := 0xE020, sub := 4, insts := 0, ty := .u32, acc := .ro, stored := false, len := 4, fixed := true,
    dflt := fun _ _ => 0, wmask := 13, unit := .none, owner := .none, chk := [] }
/-- 0xE020:5 (08), R231, Table 8.8: ns; R226 -/
def D.GATE_LATE_MAX : Obj :=
  { idx := 0xE020, sub := 5, insts := 0, ty := .u32, acc := .ro, stored := false, len := 4, fixed := true,
    dflt := fun _ _ => 0, wmask := 13, unit := .none, owner := .none, chk := [] }
/-- 0xCE00[r]:0 (08), R231, Table 8.8: ps; node r = 32·y + x -/
def D.SPINE_COMP_FACTORY : Obj :=
  { idx := 0xCE00, sub := 0, insts := 1024, ty := .i32, acc := .fro, stored := true, len := 4, fixed := true,
    dflt := fun _ _ => 0, wmask := 13, unit := .slice, owner := .none, chk := [] }
/-- 0xDE00[r]:0 (08), R231, Table 8.8: ps, additive, clamp ±4,000; R209; next device reset -/
def D.SPINE_COMP_USER : Obj :=
  { idx := 0xDE00, sub := 0, insts := 1024, ty := .i32, acc := .rw, stored := true, len := 4, fixed := true,
    dflt := fun _ _ => 0, wmask := 13, unit := .slice, owner := .none, chk := [.clamp 4000] }
/-- 0xDE01[n]:0 (08), R231, Table 8.8: ns, additive to the zero factory value, clamp ±1,000; R216; next exchange -/
def D.LINK_ASYM_USER : Obj :=
  { idx := 0xDE01, sub := 0, insts := 64, ty := .i32, acc := .rw, stored := true, len := 4, fixed := true,
    dflt := fun _ _ => 0, wmask := 13, unit := .link, owner := .none, chk := [.clamp 1000] }
/-- 0x8200[c]:0 (09), R251, Table 9.8: R243; class c = 0–63 -/
def D.CLASS_REALTIME : Obj :=
  { idx := 0x8200, sub := 0, insts := 64, ty := .bool, acc := .rw, stored := true, len := 1, fixed := true,
    dflt := fun _ _ => 0, wmask := 13, unit := .none, owner := .none, chk := [] }
/-- 0x8200[c]:1 (09), R251, Table 9.8: 1–255; step 4 of Table 9.3 -/
def D.CLASS_WEIGHT : Obj :=
  { idx := 0x8200, sub := 1, insts := 64, ty := .u8, acc := .rw, stored := true, len := 1, fixed := true,
    dflt := fun _ _ => 16, wmask := 13, unit := .none, owner := .none, chk := [.range 1 255] }
/-- 0x8200[c]:2 (09), R251, Table 9.8: MB/s per group; R237 -/
def D.MEM_GUARANTEE : Obj :=
  { idx := 0x8200, sub := 2, insts := 64, ty := .u32, acc := .rw, stored := true, len := 4, fixed := true,
    dflt := fun _ _ => 0, wmask := 13, unit := .none, owner := .none, chk := [] }
/-- 0x8200[c]:3 (09), R251, Table 9.8: Bit m = group m; R237 -/
def D.MEM_GROUP_MASK : Obj :=
  { idx := 0x8200, sub := 3, insts := 64, ty := .u32, acc := .rw, stored := true, len := 4, fixed := true,
    dflt := fun v _ => presentStackMask v, wmask := 13, unit := .none, owner := .none, chk := [] }
/-- 0x8200[c]:4 (09), R251, Table 9.8: MB/s per link; R237 -/
def D.LINK_GUARANTEE : Obj :=
  { idx := 0x8200, sub := 4, insts := 64, ty := .u32, acc := .rw, stored := true, len := 4, fixed := true,
    dflt := fun _ _ => 0, wmask := 13, unit := .none, owner := .none, chk := [] }
/-- 0x8200[c]:5 (09), R251, Table 9.8: Bit n = Ln; R237 -/
def D.LINK_MASK : Obj :=
  { idx := 0x8200, sub := 5, insts := 64, ty := .u64, acc := .rw, stored := true, len := 8, fixed := true,
    dflt := fun v _ => presentLinkMask v, wmask := 13, unit := .none, owner := .none, chk := [] }
/-- 0x8200[c]:6 (09), R251, Table 9.8: ns, 50–1,000,000,000; R243 -/
def D.DEFAULT_DEADLINE : Obj :=
  { idx := 0x8200, sub := 6, insts := 64, ty := .u32, acc := .rw, stored := true, len := 4, fixed := true,
    dflt := fun _ _ => 2000, wmask := 13, unit := .none, owner := .none, chk := [.range 50 1000000000] }
/-- 0x8200[c]:7 (09), R251, Table 9.8: 1–4,096 per requester; R247 -/
def D.CLASS_OUTSTANDING : Obj :=
  { idx := 0x8200, sub := 7, insts := 64, ty := .u16, acc := .rw, stored := true, len := 2, fixed := true,
    dflt := fun _ _ => 4096, wmask := 13, unit := .none, owner := .none, chk := [.range 1 4096] }
/-- 0x8200[c]:8 (09), R251, Table 9.8: 1–16; R248 -/
def D.CLASS_WAYS : Obj :=
  { idx := 0x8200, sub := 8, insts := 64, ty := .u8, acc := .rw, stored := true, len := 1, fixed := true,
    dflt := fun _ _ => 16, wmask := 13, unit := .none, owner := .none, chk := [.range 1 16] }
/-- 0x8200[c]:9 (09), R251, Table 9.8: 0–32; R249, R250 -/
def D.CLASS_MISS_MIN : Obj :=
  { idx := 0x8200, sub := 9, insts := 64, ty := .u8, acc := .rw, stored := true, len := 1, fixed := true,
    dflt := fun _ _ => 0, wmask := 13, unit := .none, owner := .none, chk := [.range 0 32] }
/-- 0x8200[c]:10 (09), R251, Table 9.8: 1–128; R249, R250 -/
def D.CLASS_MISS_MAX : Obj :=
  { idx := 0x8200, sub := 10, insts := 64, ty := .u8, acc := .rw, stored := true, len := 1, fixed := true,
    dflt := fun _ _ => 128, wmask := 13, unit := .none, owner := .none, chk := [.range 1 128] }
/-- 0x8200[c]:11 (09), R251, Table 9.8: 1–64 per queue; R249 -/
def D.CLASS_CHQ_MAX : Obj :=
  { idx := 0x8200, sub := 11, insts := 64, ty := .u8, acc := .rw, stored := true, len := 1, fixed := true,
    dflt := fun _ _ => 64, wmask := 13, unit := .none, owner := .none, chk := [.range 1 64] }
/-- 0x8200[c]:12 (09), R251, Table 9.8: R247 -/
def D.CLASS_HELD : Obj :=
  { idx := 0x8200, sub := 12, insts := 64, ty := .u32, acc := .ro, stored := false, len := 4, fixed := true,
    dflt := fun _ _ => 0, wmask := 13, unit := .none, owner := .none, chk := [] }
/-- 0x8201:0 (09), R251, Table 9.8: Per mille, 500–1000; R234, R237 -/
def D.MEM_EFFICIENCY : Obj :=
  { idx := 0x8201, sub := 0, insts := 0, ty := .u16, acc := .rw, stored := true, len := 2, fixed := true,
    dflt := fun _ _ => 850, wmask := 13, unit := .none, owner := .none, chk := [.range 500 1000] }
/-- 0x8201:1 (09), R251, Table 9.8: Per mille, 500–1000; R234, R237 -/
def D.LINK_EFFICIENCY : Obj :=
  { idx := 0x8201, sub := 1, insts := 0, ty := .u16, acc := .rw, stored := true, len := 2, fixed := true,
    dflt := fun _ _ => 900, wmask := 13, unit := .none, owner := .none, chk := [.range 500 1000] }
/-- 0x8201:2 (09), R251, Table 9.8: ns, 0–10,000; Table 9.3 -/
def D.RT_SLACK : Obj :=
  { idx := 0x8201, sub := 2, insts := 0, ty := .u32, acc := .rw, stored := true, len := 4, fixed := true,
    dflt := fun _ _ => 200, wmask := 13, unit := .none, owner := .none, chk := [.range 0 10000] }
/-- 0x8202[f]:0 (09), R251, Table 9.8: f = 0 PF, f = v for VFv; 0–63 -/
def D.HOST_CLASS : Obj :=
  { idx := 0x8202, sub := 0, insts := 17, ty := .u8, acc := .rw, stored := true, len := 1, fixed := true,
    dflt := fun _ _ => 0, wmask := 13, unit := .none, owner := .func, chk := [.range 0 63] }
/-- 0x8210[m]:0 (09), R251, Table 9.8: MB/s; group m = 0–31; R234 -/
def D.MEM_CAPACITY : Obj :=
  { idx := 0x8210, sub := 0, insts := 32, ty := .u32, acc := .ro, stored := false, len := 4, fixed := true,
    dflt := fun _ _ => 0, wmask := 13, unit := .stack, owner := .none, chk := [] }
/-- 0x8210[m]:1 (09), R251, Table 9.8: F; R246 -/
def D.MEM_SCALE : Obj :=
  { idx := 0x8210, sub := 1, insts := 32, ty := .u32, acc := .ro, stored := false, len := 4, fixed := true,
    dflt := fun _ _ => 65536, wmask := 13, unit := .stack, owner := .none, chk := [] }
/-- 0x8211[n]:0 (09), R251, Table 9.8: MB/s; link n = 0–63; R234 -/
def D.LINK_CAPACITY : Obj :=
  { idx := 0x8211, sub := 0, insts := 64, ty := .u32, acc := .ro, stored := false, len := 4, fixed := true,
    dflt := fun _ _ => 0, wmask := 13, unit := .link, owner := .none, chk := [] }
/-- 0x8211[n]:1 (09), R251, Table 9.8: F; R246 -/
def D.LINK_SCALE : Obj :=
  { idx := 0x8211, sub := 1, insts := 64, ty := .u32, acc := .ro, stored := false, len := 4, fixed := true,
    dflt := fun _ _ => 65536, wmask := 13, unit := .link, owner := .none, chk := [] }
/-- 0x8220[i]:0 (09), R251, Table 9.8: MB/s; i = 64·m + c; R242 -/
def D.MEM_BW_EST : Obj :=
  { idx := 0x8220, sub := 0, insts := 2048, ty := .u32, acc := .ro, stored := false, len := 4, fixed := true,
    dflt := fun _ _ => 0, wmask := 13, unit := .memClass, owner := .none, chk := [] }
/-- 0x8220[i]:1 (09), R251, Table 9.8: R244 -/
def D.MEM_DEADLINE_MISSED : Obj :=
  { idx := 0x8220, sub := 1, insts := 2048, ty := .u32, acc := .ro, stored := false, len := 4, fixed := true,
    dflt := fun _ _ => 0, wmask := 13, unit := .memClass, owner := .none, chk := [] }
/-- 0x8221[i]:0 (09), R251, Table 9.8: MB/s; i = 64·n + c; R242 -/
def D.LINK_BW_EST : Obj :=
  { idx := 0x8221, sub := 0, insts := 4096, ty := .u32, acc := .ro, stored := false, len := 4, fixed := true,
    dflt := fun _ _ => 0, wmask := 13, unit := .linkClass, owner := .none, chk := [] }
/-- 0x8221[i]:1 (09), R251, Table 9.8: R244 -/
def D.LINK_DEADLINE_MISSED : Obj :=
  { idx := 0x8221, sub := 1, insts := 4096, ty := .u32, acc := .ro, stored := false, len := 4, fixed := true,
    dflt := fun _ _ => 0, wmask := 13, unit := .linkClass, owner := .none, chk := [] }
/-- 0x8300[i]:0 (10), R277, Table 10.11: 0 OFF, 1 RESET, 2 TRAIN, 3 PARAM, 4 ACTIVE, 5 DOWN; port i = 64·n + p -/
def D.ATTACH_STATE : Obj :=
  { idx := 0x8300, sub := 0, insts := 512, ty := .u8, acc := .ro, stored := false, len := 1, fixed := true,
    dflt := fun _ _ => 0, wmask := 13, unit := .port, owner := .port, chk := [] }
/-- 0x8300[i]:1 (10), R277, Table 10.11: TRUE resets (R258); FALSE refused -/
def D.ATTACH_PORT_RESET : Obj :=
  { idx := 0x8300, sub := 1, insts := 512, ty := .bool, acc := .wo, stored := false, len := 1, fixed := true,
    dflt := fun _ _ => 0, wmask := 13, unit := .port, owner := .port, chk := [.oneOf [1]] }
/-- 0x8300[i]:2 (10), R277, Table 10.11: Chunks, 256–1,024; at next PARAM -/
def D.ATTACH_REQ_CREDITS : Obj :=
  { idx := 0x8300, sub := 2, insts := 512, ty := .u16, acc := .rw, stored := true, len := 2, fixed := true,
    dflt := fun _ _ => 1024, wmask := 13, unit := .port, owner := .port, chk := [.range 256 1024] }
/-- 0x8300[i]:3 (10), R277, Table 10.11: 1 training or PARAM timeout, 2 replay limit, 3 credit overrun, 4 router failed, 5 site power, 6 reset requested, 7 parameter mismatch -/
def D.ATTACH_DOWN_CAUSE : Obj :=
  { idx := 0x8300, sub := 3, insts := 512, ty := .u8, acc := .ro, stored := false, len := 1, fixed := true,
    dflt := fun _ _ => 0, wmask := 13, unit := .port, owner := .port, chk := [] }
/-- 0x8300[i]:4 (10), R277, Table 10.11: From PARAM -/
def D.ATTACH_DIE_ID : Obj :=
  { idx := 0x8300, sub := 4, insts := 512, ty := .u64, acc := .ro, stored := false, len := 8, fixed := true,
    dflt := fun _ _ => 0, wmask := 13, unit := .port, owner := .port, chk := [] }
/-- 0x8300[i]:5 (10), R277, Table 10.11: NAKs sent and received -/
def D.ATTACH_REPLAYS : Obj :=
  { idx := 0x8300, sub := 5, insts := 512, ty := .u32, acc := .ro, stored := false, len := 4, fixed := true,
    dflt := fun _ _ => 0, wmask := 13, unit := .port, owner := .port, chk := [] }
/-- 0x8300[i]:6 (10), R277, Table 10.11: R263, R264 -/
def D.ATTACH_PROTOCOL_ERR : Obj :=
  { idx := 0x8300, sub := 6, insts := 512, ty := .u32, acc := .ro, stored := false, len := 4, fixed := true,
    dflt := fun _ _ => 0, wmask := 13, unit := .port, owner := .port, chk := [] }
/-- 0x8300[i]:7 (10), R277, Table 10.11: Tags outstanding -/
def D.ATTACH_TAGS_OUT : Obj :=
  { idx := 0x8300, sub := 7, insts := 512, ty := .u16, acc := .ro, stored := false, len := 2, fixed := true,
    dflt := fun _ _ => 0, wmask := 13, unit := .port, owner := .port, chk := [] }
/-- 0x8300[i]:8 (10), R277, Table 10.11: Notifications discarded because the port was not ACTIVE; R256 -/
def D.ATTACH_NTF_DROPPED : Obj :=
  { idx := 0x8300, sub := 8, insts := 512, ty := .u32, acc := .ro, stored := false, len := 4, fixed := true,
    dflt := fun _ _ => 0, wmask := 13, unit := .port, owner := .port, chk := [] }
/-- 0x2200[n]:0 (10), R277, Table 10.11: 0 off, 1 on, 2 fault (read only); site n = 0–7; R269, R275 -/
def D.SITE_POWER : Obj :=
  { idx := 0x2200, sub := 0, insts := 8, ty := .u8, acc := .rw, stored := true, len := 1, fixed := true,
    dflt := fun _ _ => 0, wmask := 13, unit := .site, owner := .none, chk := [.oneOf [0, 1]] }
/-- 0x2200[n]:1 (10), R277, Table 10.11: Bit k = rail k used -/
def D.SITE_RAILS : Obj :=
  { idx := 0x2200, sub := 1, insts := 8, ty := .u8, acc := .rwl, stored := true, len := 1, fixed := true,
    dflt := fun _ _ => 0, wmask := 13, unit := .site, owner := .none, chk := [] }
/-- 0x2200[n]:2 (10), R277, Table 10.11: W, 0–800; R268 -/
def D.SITE_PMAX : Obj :=
  { idx := 0x2200, sub := 2, insts := 8, ty := .u16, acc := .rw, stored := true, len := 2, fixed := true,
    dflt := fun _ _ => 800, wmask := 13, unit := .site, owner := .none, chk := [.range 0 800] }
/-- 0x2200[n]:3 (10), R277, Table 10.11: mV/µs, 1–50; next ramp -/
def D.SITE_SLEW : Obj :=
  { idx := 0x2200, sub := 3, insts := 8, ty := .u16, acc := .rw, stored := true, len := 2, fixed := true,
    dflt := fun _ _ => 10, wmask := 13, unit := .site, owner := .none, chk := [.range 1 50] }
/-- 0x2200[n]:4 (10), R277, Table 10.11: µs, 10–1,000; R274 -/
def D.SITE_CL_HOLD : Obj :=
  { idx := 0x2200, sub := 4, insts := 8, ty := .u32, acc := .rw, stored := true, len := 4, fixed := true,
    dflt := fun _ _ => 100, wmask := 13, unit := .site, owner := .none, chk := [.range 10 1000] }
/-- 0x2200[n]:5 (10), R277, Table 10.11: R272 -/
def D.SITE_OPP_CURRENT : Obj :=
  { idx := 0x2200, sub := 5, insts := 8, ty := .u8, acc := .ro, stored := false, len := 1, fixed := true,
    dflt := fun _ _ => 0, wmask := 13, unit := .site, owner := .none, chk := [] }
/-- 0x2200[n]:6 (10), R277, Table 10.11: Table 10.12 -/
def D.SITE_FAULT_CAUSE : Obj :=
  { idx := 0x2200, sub := 6, insts := 8, ty := .u8, acc := .ro, stored := false, len := 1, fixed := true,
    dflt := fun _ _ => 0, wmask := 13, unit := .site, owner := .none, chk := [] }
/-- 0x2200[n]:7 (10), R277, Table 10.11: R273 -/
def D.SITE_DROOP_COUNT : Obj :=
  { idx := 0x2200, sub := 7, insts := 8, ty := .u32, acc := .ro, stored := false, len := 4, fixed := true,
    dflt := fun _ _ => 0, wmask := 13, unit := .site, owner := .none, chk := [] }
/-- 0x2200[n]:8 (10), R277, Table 10.11: R274 -/
def D.SITE_LIMIT_COUNT : Obj :=
  { idx := 0x2200, sub := 8, insts := 8, ty := .u32, acc := .ro, stored := false, len := 4, fixed := true,
    dflt := fun _ _ => 0, wmask := 13, unit := .site, owner := .none, chk := [] }
/-- 0x2200[n]:9 (10), R277, Table 10.11: R271 -/
def D.SITE_SB_LOST : Obj :=
  { idx := 0x2200, sub := 9, insts := 8, ty := .u32, acc := .ro, stored := false, len := 4, fixed := true,
    dflt := fun _ _ => 0, wmask := 13, unit := .site, owner := .none, chk := [] }
/-- 0x2210[j]:0 (10), R277, Table 10.11: j = 16·n + k; Table 10.8; R268 -/
def D.SITE_OPP : Obj :=
  { idx := 0x2210, sub := 0, insts := 128, ty := .octets, acc := .rw, stored := true, len := 40, fixed := true,
    dflt := fun _ _ => 0, wmask := 13, unit := .opp, owner := .none, chk := [] }
/-- 0x2220[j]:0 (10), R277, Table 10.11: mV; rail j = 8·n + k; within RAIL_VABS -/
def D.RAIL_VMIN : Obj :=
  { idx := 0x2220, sub := 0, insts := 64, ty := .u16, acc := .rwl, stored := true, len := 2, fixed := true,
    dflt := fun _ _ => 0, wmask := 13, unit := .rail, owner := .none, chk := [] }
/-- 0x2220[j]:1 (10), R277, Table 10.11: mV; within RAIL_VABS -/
def D.RAIL_VMAX : Obj :=
  { idx := 0x2220, sub := 1, insts := 64, ty := .u16, acc := .rwl, stored := true, len := 2, fixed := true,
    dflt := fun _ _ => 0, wmask := 13, unit := .rail, owner := .none, chk := [] }
/-- 0x2220[j]:2 (10), R277, Table 10.11: mV, 10–100; immediately -/
def D.RAIL_DROOP_MV : Obj :=
  { idx := 0x2220, sub := 2, insts := 64, ty := .u16, acc := .rw, stored := true, len := 2, fixed := true,
    dflt := fun _ _ => 30, wmask := 13, unit := .rail, owner := .none, chk := [.range 10 100] }
/-- 0x2220[j]:3 (10), R277, Table 10.11: mV measured -/
def D.RAIL_VOUT : Obj :=
  { idx := 0x2220, sub := 3, insts := 64, ty := .u16, acc := .ro, stored := false, len := 2, fixed := true,
    dflt := fun _ _ => 0, wmask := 13, unit := .rail, owner := .none, chk := [] }
/-- 0x2220[j]:4 (10), R277, Table 10.11: 0.1 A measured -/
def D.RAIL_IOUT : Obj :=
  { idx := 0x2220, sub := 4, insts := 64, ty := .u16, acc := .ro, stored := false, len := 2, fixed := true,
    dflt := fun _ _ => 0, wmask := 13, unit := .rail, owner := .none, chk := [] }
/-- 0xC220[j]:0 (10), R277, Table 10.11: [15:0] lowest, [31:16] highest mV the stage delivers -/
def D.RAIL_VABS : Obj :=
  { idx := 0xC220, sub := 0, insts := 64, ty := .u32, acc := .fro, stored := true, len := 4, fixed := true,
    dflt := fun _ _ => 0, wmask := 13, unit := .rail, owner := .none, chk := [] }
/-- 0xC220[j]:1 (10), R277, Table 10.11: mV offset -/
def D.RAIL_TRIM_FACTORY : Obj :=
  { idx := 0xC220, sub := 1, insts := 64, ty := .i32, acc := .fro, stored := true, len := 4, fixed := true,
    dflt := fun _ _ => 0, wmask := 13, unit := .rail, owner := .none, chk := [] }
/-- 0xD220[j]:1 (10), R277, Table 10.11: mV, additive to RAIL_TRIM_FACTORY (R345), clamp ±20; immediately -/
def D.RAIL_TRIM_USER : Obj :=
  { idx := 0xD220, sub := 1, insts := 64, ty := .i32, acc := .rw, stored := true, len := 4, fixed := true,
    dflt := fun _ _ => 0, wmask := 13, unit := .rail, owner := .none, chk := [.clamp 20] }
/-- 0x6000:0 (11), R307, Table 11.11: R301; immediately -/
def D.LINK_ROUTE_AUTO : Obj :=
  { idx := 0x6000, sub := 0, insts := 0, ty := .bool, acc := .rw, stored := true, len := 1, fixed := true,
    dflt := fun _ _ => 1, wmask := 13, unit := .none, owner := .none, chk := [] }
/-- 0x6000:1 (11), R307, Table 11.11: ms, 1,000–600,000; R284 -/
def D.LINK_RETRY_PERIOD : Obj :=
  { idx := 0x6000, sub := 1, insts := 0, ty := .u32, acc := .rw, stored := true, len := 4, fixed := true,
    dflt := fun _ _ => 10000, wmask := 13, unit := .none, owner := .none, chk := [.range 1000 600000] }
/-- 0x6000:2 (11), R307, Table 11.11: 0.1 dB, 120–250; next training -/
def D.LINK_FOM_MIN : Obj :=
  { idx := 0x6000, sub := 2, insts := 0, ty := .u8, acc := .rw, stored := true, len := 1, fixed := true,
    dflt := fun _ _ => 170, wmask := 13, unit := .none, owner := .none, chk := [.range 120 250] }
/-- 0x6000:3 (11), R307, Table 11.11: µs, 0 = never, 1–1,000,000; R294 -/
def D.LINK_IDLE_TIMEOUT : Obj :=
  { idx := 0x6000, sub := 3, insts := 0, ty := .u32, acc := .rw, stored := true, len := 4, fixed := true,
    dflt := fun _ _ => 0, wmask := 13, unit := .none, owner := .none, chk := [.range 0 1000000] }
/-- 0x6000:4 (11), R307, Table 11.11: R295 -/
def D.LINK_AUTO_RETRAIN : Obj :=
  { idx := 0x6000, sub := 4, insts := 0, ty := .bool, acc := .rw, stored := true, len := 1, fixed := true,
    dflt := fun _ _ => 1, wmask := 13, unit := .none, owner := .none, chk := [] }
/-- 0x6000:5 (11), R307, Table 11.11: R288; next bring-up -/
def D.LINK_FORCE_FULL_TRAIN : Obj :=
  { idx := 0x6000, sub := 5, insts := 0, ty := .bool, acc := .rw, stored := true, len := 1, fixed := true,
    dflt := fun _ _ => 0, wmask := 13, unit := .none, owner := .none, chk := [] }
/-- 0x6000:6 (11), R307, Table 11.11: µs, 10–10,000; R302 -/
def D.LINK_ROUTE_HOLD : Obj :=
  { idx := 0x6000, sub := 6, insts := 0, ty := .u32, acc := .rw, stored := true, len := 4, fixed := true,
    dflt := fun _ _ => 100, wmask := 13, unit := .none, owner := .none, chk := [.range 10 10000] }
/-- 0x6000:7 (11), R307, Table 11.11: R302 -/
def D.LINK_ROUTE_FORCED : Obj :=
  { idx := 0x6000, sub := 7, insts := 0, ty := .u32, acc := .ro, stored := false, len := 4, fixed := true,
    dflt := fun _ _ => 0, wmask := 13, unit := .none, owner := .none, chk := [] }
/-- 0x6010[n]:0 (11), R307, Table 11.11: Table 11.2 -/
def D.LINK_STATE : Obj :=
  { idx := 0x6010, sub := 0, insts := 64, ty := .u8, acc := .ro, stored := false, len := 1, fixed := true,
    dflt := fun _ _ => 0, wmask := 13, unit := .link, owner := .none, chk := [] }
/-- 0x6010[n]:1 (11), R307, Table 11.11: 0 on, 1 idle when quiet, 2 off; R294 -/
def D.LINK_POWER : Obj :=
  { idx := 0x6010, sub := 1, insts := 64, ty := .u8, acc := .rw, stored := true, len := 1, fixed := true,
    dflt := fun _ _ => 0, wmask := 13, unit := .link, owner := .none, chk := [.oneOf [0, 1, 2]] }
/-- 0x6010[n]:2 (11), R307, Table 11.11: Table 11.6 -/
def D.LINK_DOWN_CAUSE : Obj :=
  { idx := 0x6010, sub := 2, insts := 64, ty := .u8, acc := .ro, stored := false, len := 1, fixed := true,
    dflt := fun _ _ => 0, wmask := 13, unit := .link, owner := .none, chk := [] }
/-- 0x6010[n]:3 (11), R307, Table 11.11: 0, 1, 2, 4 or 8 -/
def D.LINK_TRAINED_WIDTH : Obj :=
  { idx := 0x6010, sub := 3, insts := 64, ty := .u8, acc := .ro, stored := false, len := 1, fixed := true,
    dflt := fun _ _ => 0, wmask := 13, unit := .link, owner := .none, chk := [] }
/-- 0x6010[n]:4 (11), R307, Table 11.11: R289 -/
def D.LINK_LANE_MASK : Obj :=
  { idx := 0x6010, sub := 4, insts := 64, ty := .u8, acc := .ro, stored := false, len := 1, fixed := true,
    dflt := fun _ _ => 0, wmask := 13, unit := .link, owner := .none, chk := [] }
/-- 0x6010[n]:5 (11), R307, Table 11.11: 0 none, 1 fast, 2 full, 3 failed, 4 live -/
def D.LINK_TRAIN_MODE_LAST : Obj :=
  { idx := 0x6010, sub := 5, insts := 64, ty := .u8, acc := .ro, stored := false, len := 1, fixed := true,
    dflt := fun _ _ => 0, wmask := 13, unit := .link, owner := .none, chk := [] }
/-- 0x6010[n]:6 (11), R307, Table 11.11: 0xFFFF = none -/
def D.LINK_PARTNER_DEVICE : Obj :=
  { idx := 0x6010, sub := 6, insts := 64, ty := .u16, acc := .ro, stored := false, len := 2, fixed := true,
    dflt := fun _ _ => 0xFFFF, wmask := 13, unit := .link, owner := .none, chk := [] }
/-- 0x6010[n]:7 (11), R307, Table 11.11: 0xFF = none -/
def D.LINK_PARTNER_LINK : Obj :=
  { idx := 0x6010, sub := 7, insts := 64, ty := .u8, acc := .ro, stored := false, len := 1, fixed := true,
    dflt := fun _ _ => 0xFF, wmask := 13, unit := .link, owner := .none, chk := [] }
/-- 0x6010[n]:8 (11), R307, Table 11.11: R289 -/
def D.LINK_PARTNER_SERIAL : Obj :=
  { idx := 0x6010, sub := 8, insts := 64, ty := .u64, acc := .ro, stored := false, len := 8, fixed := true,
    dflt := fun _ _ => 0, wmask := 13, unit := .link, owner := .none, chk := [] }
/-- 0x6010[n]:9 (11), R307, Table 11.11: TRUE starts R295; FALSE refused -/
def D.LINK_RETRAIN : Obj :=
  { idx := 0x6010, sub := 9, insts := 64, ty := .bool, acc := .wo, stored := false, len := 1, fixed := true,
    dflt := fun _ _ => 0, wmask := 13, unit := .link, owner := .none, chk := [.oneOf [1]] }
/-- 0x6010[n]:10 (11), R307, Table 11.11: R304 -/
def D.LINK_RELAY : Obj :=
  { idx := 0x6010, sub := 10, insts := 64, ty := .bool, acc := .rw, stored := true, len := 1, fixed := true,
    dflt := fun _ _ => 0, wmask := 13, unit := .link, owner := .none, chk := [] }
/-- 0x6010[n]:11 (11), R307, Table 11.11: R288; next bring-up -/
def D.FIBRE_ID : Obj :=
  { idx := 0x6010, sub := 11, insts := 64, ty := .u64, acc := .rw, stored := true, len := 8, fixed := true,
    dflt := fun _ _ => 0, wmask := 13, unit := .link, owner := .none, chk := [] }
/-- 0x6010[n]:12 (11), R307, Table 11.11: 0 automatic, 1 software; R287 -/
def D.LINK_LOCK_MODE : Obj :=
  { idx := 0x6010, sub := 12, insts := 64, ty := .u8, acc := .rw, stored := true, len := 1, fixed := true,
    dflt := fun _ _ => 0, wmask := 13, unit := .link, owner := .none, chk := [.oneOf [0, 1]] }
/-- 0x6010[n]:13 (11), R307, Table 11.11: R294 -/
def D.LINK_TX_IDLE : Obj :=
  { idx := 0x6010, sub := 13, insts := 64, ty := .bool, acc := .ro, stored := false, len := 1, fixed := true,
    dflt := fun _ _ => 0, wmask := 13, unit := .link, owner := .none, chk := [] }
/-- 0x6010[n]:14 (11), R307, Table 11.11: ns; R306 -/
def D.LINK_SCHED_LEAD : Obj :=
  { idx := 0x6010, sub := 14, insts := 64, ty := .u32, acc := .ro, stored := false, len := 4, fixed := true,
    dflt := fun _ _ => 0xFFFFFFFF, wmask := 13, unit := .link, owner := .none, chk := [] }
/-- 0x6010[n]:15 (11), R307, Table 11.11: R285 -/
def D.LINK_BEACON_SEEN : Obj :=
  { idx := 0x6010, sub := 15, insts := 64, ty := .octets, acc := .ro, stored := false, len := 16, fixed := true,
    dflt := fun _ _ => 0, wmask := 13, unit := .link, owner := .none, chk := [] }
/-- 0x6010[n]:16 (11), R307, Table 11.11: R290 -/
def D.LINK_FLR_PROJ : Obj :=
  { idx := 0x6010, sub := 16, insts := 64, ty := .f32, acc := .ro, stored := false, len := 4, fixed := true,
    dflt := fun _ _ => 0, wmask := 13, unit := .link, owner := .none, chk := [] }
/-- 0x6020[n]:0 (11), R307, Table 11.11: R297 -/
def D.LINK_REPLAYS : Obj :=
  { idx := 0x6020, sub := 0, insts := 64, ty := .u32, acc := .ro, stored := false, len := 4, fixed := true,
    dflt := fun _ _ => 0, wmask := 13, unit := .link, owner := .none, chk := [] }
/-- 0x6020[n]:1 (11), R307, Table 11.11: R295 -/
def D.LINK_RETRAIN_COUNT : Obj :=
  { idx := 0x6020, sub := 1, insts := 64, ty := .u32, acc := .ro, stored := false, len := 4, fixed := true,
    dflt := fun _ _ => 0, wmask := 13, unit := .link, owner := .none, chk := [] }
/-- 0x6020[n]:2 (11), R307, Table 11.11: R306 -/
def D.LINK_SCHED_LATE : Obj :=
  { idx := 0x6020, sub := 2, insts := 64, ty := .u32, acc := .ro, stored := false, len := 4, fixed := true,
    dflt := fun _ _ => 0, wmask := 13, unit := .link, owner := .none, chk := [] }
/-- 0x6020[n]:3 (11), R307, Table 11.11: R303 -/
def D.LINK_STALE_RSP : Obj :=
  { idx := 0x6020, sub := 3, insts := 64, ty := .u32, acc := .ro, stored := false, len := 4, fixed := true,
    dflt := fun _ _ => 0, wmask := 13, unit := .link, owner := .none, chk := [] }
/-- 0x6020[n]:4 (11), R307, Table 11.11: Table 11.7 -/
def D.LINK_PROTOCOL_ERR : Obj :=
  { idx := 0x6020, sub := 4, insts := 64, ty := .u32, acc := .ro, stored := false, len := 4, fixed := true,
    dflt := fun _ _ => 0, wmask := 13, unit := .link, owner := .none, chk := [] }
/-- 0x6030[i]:0 (11), R307, Table 11.11: 0.1 dB; R288 -/
def D.LANE_FOM : Obj :=
  { idx := 0x6030, sub := 0, insts := 512, ty := .u8, acc := .ro, stored := false, len := 1, fixed := true,
    dflt := fun _ _ => 0, wmask := 13, unit := .lane, owner := .none, chk := [] }
/-- 0x6030[i]:1 (11), R307, Table 11.11: R290 -/
def D.LANE_BER : Obj :=
  { idx := 0x6030, sub := 1, insts := 512, ty := .f32, acc := .ro, stored := false, len := 4, fixed := true,
    dflt := fun _ _ => 0, wmask := 13, unit := .lane, owner := .none, chk := [] }
/-- 0x6030[i]:2 (11), R307, Table 11.11: [5:0] pre2, [13:8] pre1, [21:16] post1, signed; other bits 0 -/
def D.LANE_TX_COEF : Obj :=
  { idx := 0x6030, sub := 2, insts := 512, ty := .u32, acc := .ro, stored := false, len := 4, fixed := true,
    dflt := fun _ _ => 0, wmask := 13, unit := .lane, owner := .none, chk := [] }
/-- 0x6030[i]:3 (11), R307, Table 11.11: 1–5,439; R287 -/
def D.LANE_BITSLIP : Obj :=
  { idx := 0x6030, sub := 3, insts := 512, ty := .u16, acc := .wo, stored := false, len := 2, fixed := true,
    dflt := fun _ _ => 0, wmask := 13, unit := .lane, owner := .none, chk := [.range 1 5439] }
/-- 0x6030[i]:4 (11), R307, Table 11.11: R287 -/
def D.LANE_MARKER_MATCH : Obj :=
  { idx := 0x6030, sub := 4, insts := 512, ty := .u32, acc := .ro, stored := false, len := 4, fixed := true,
    dflt := fun _ _ => 0, wmask := 13, unit := .lane, owner := .none, chk := [] }
/-- 0x6040[n]:b (11), R307, Table 11.11: b = band T0–T3 as 0–3; writing 0 bytes clears; other writes refused -/
def D.LINK_EQ_RECORD (b : Nat) : Obj :=
  { idx := 0x6040, sub := b, insts := 64, ty := .octets, acc := .rw, stored := true, len := 4096, fixed := false,
    dflt := fun _ _ => 0, wmask := 13, unit := .link, owner := .none, chk := [.emptyOnly] }
/-- 0x6050:0 (11), R307, Table 11.11: Link n -/
def D.LINK_SNAPSHOT : Obj :=
  { idx := 0x6050, sub := 0, insts := 0, ty := .u8, acc := .wo, stored := false, len := 1, fixed := true,
    dflt := fun _ _ => 0, wmask := 13, unit := .none, owner := .none, chk := [.range 0 63] }
/-- 0x6050:1 (11), R307, Table 11.11: 0 none, 1 in progress, 2 done -/
def D.LINK_SNAP_STATE : Obj :=
  { idx := 0x6050, sub := 1, insts := 0, ty := .u8, acc := .ro, stored := false, len := 1, fixed := true,
    dflt := fun _ _ => 0, wmask := 13, unit := .none, owner := .none, chk := [] }
/-- 0x6051[k]:0 (11), R307, Table 11.11: Lane k of the snapshot link -/
def D.SNAP_CODEWORDS : Obj :=
  { idx := 0x6051, sub := 0, insts := 8, ty := .u64, acc := .ro, stored := false, len := 8, fixed := true,
    dflt := fun _ _ => 0, wmask := 13, unit := .none, owner := .none, chk := [] }
/-- 0x6051[k]:1 (11), R307, Table 11.11: Symbols corrected -/
def D.SNAP_CORR_SYMBOLS : Obj :=
  { idx := 0x6051, sub := 1, insts := 8, ty := .u64, acc := .ro, stored := false, len := 8, fixed := true,
    dflt := fun _ _ => 0, wmask := 13, unit := .none, owner := .none, chk := [] }
/-- 0x6051[k]:2 (11), R307, Table 11.11: Uncorrectable codewords -/
def D.SNAP_UNCORRECTABLE : Obj :=
  { idx := 0x6051, sub := 2, insts := 8, ty := .u64, acc := .ro, stored := false, len := 8, fixed := true,
    dflt := fun _ _ => 0, wmask := 13, unit := .none, owner := .none, chk := [] }
/-- 0x6060[d]:0 (11), R307, Table 11.11: Bit n = Ln leads to device d, d = 0–4,095; R302 -/
def D.LINK_ROUTE : Obj :=
  { idx := 0x6060, sub := 0, insts := 4096, ty := .u64, acc := .rw, stored := true, len := 8, fixed := true,
    dflt := fun _ _ => 0, wmask := 13, unit := .none, owner := .none, chk := [] }
/-- 0x6070[f]:0 (11), R307, Table 11.11: 0.01 dBm at OEf's laser input -/
def D.LASER_IN_POWER : Obj :=
  { idx := 0x6070, sub := 0, insts := 8, ty := .i32, acc := .ro, stored := false, len := 4, fixed := true,
    dflt := fun _ _ => 0, wmask := 13, unit := .field, owner := .none, chk := [] }
/-- 0xC600[i]:0 (11), R307, Table 11.11: Modulator bias steps -/
def D.OE_BIAS_FACTORY : Obj :=
  { idx := 0xC600, sub := 0, insts := 512, ty := .i32, acc := .fro, stored := true, len := 4, fixed := true,
    dflt := fun _ _ => 0, wmask := 13, unit := .lane, owner := .none, chk := [] }
/-- 0xD600[i]:0 (11), R307, Table 11.11: Additive, clamp ±64 steps; next training or retraining (R286) -/
def D.OE_BIAS_USER : Obj :=
  { idx := 0xD600, sub := 0, insts := 512, ty := .i32, acc := .rw, stored := true, len := 4, fixed := true,
    dflt := fun _ _ => 0, wmask := 13, unit := .lane, owner := .none, chk := [.clamp 64] }
/-- 0x7000:0 (12), R327, Table 12.9: 0 down, 1 training, 2 up -/
def D.HOST_LINK_STATE : Obj :=
  { idx := 0x7000, sub := 0, insts := 0, ty := .u8, acc := .ro, stored := false, len := 1, fixed := true,
    dflt := fun _ _ => 0, wmask := 13, unit := .none, owner := .none, chk := [] }
/-- 0x7000:1 (12), R327, Table 12.9: 0 none, 1 = 64 GT/s, 2 = 128 GT/s -/
def D.HOST_LINK_RATE : Obj :=
  { idx := 0x7000, sub := 1, insts := 0, ty := .u8, acc := .ro, stored := false, len := 1, fixed := true,
    dflt := fun _ _ => 0, wmask := 13, unit := .none, owner := .none, chk := [] }
/-- 0x7000:2 (12), R327, Table 12.9: 0, 8 or 16 -/
def D.HOST_LINK_WIDTH : Obj :=
  { idx := 0x7000, sub := 2, insts := 0, ty := .u8, acc := .ro, stored := false, len := 1, fixed := true,
    dflt := fun _ _ => 0, wmask := 13, unit := .none, owner := .none, chk := [] }
/-- 0x7000:3 (12), R327, Table 12.9: 1 or 2, as HOST_LINK_RATE; next training -/
def D.HOST_MAX_RATE : Obj :=
  { idx := 0x7000, sub := 3, insts := 0, ty := .u8, acc := .rw, stored := true, len := 1, fixed := true,
    dflt := fun _ _ => 2, wmask := 13, unit := .none, owner := .none, chk := [.range 1 2] }
/-- 0x7000:4 (12), R327, Table 12.9: VFs enabled, 0–16 -/
def D.HOST_NUM_VFS : Obj :=
  { idx := 0x7000, sub := 4, insts := 0, ty := .u8, acc := .ro, stored := false, len := 1, fixed := true,
    dflt := fun _ _ => 0, wmask := 13, unit := .none, owner := .none, chk := [] }
/-- 0x7000:5 (12), R327, Table 12.9: R326 -/
def D.HOST_LINK_DOWNS : Obj :=
  { idx := 0x7000, sub := 5, insts := 0, ty := .u32, acc := .ro, stored := false, len := 4, fixed := true,
    dflt := fun _ _ => 0, wmask := 13, unit := .none, owner := .none, chk := [] }
/-- 0x7000:6 (12), R327, Table 12.9: R319 -/
def D.HOST_CMD_OVERRUN : Obj :=
  { idx := 0x7000, sub := 6, insts := 0, ty := .u32, acc := .ro, stored := false, len := 4, fixed := true,
    dflt := fun _ _ => 0, wmask := 13, unit := .none, owner := .none, chk := [] }
/-- 0x7000:7 (12), R327, Table 12.9: Identity reported by the host bridge module (R310) -/
def D.BRIDGE_SERIAL : Obj :=
  { idx := 0x7000, sub := 7, insts := 0, ty := .octets, acc := .ro, stored := false, len := 16, fixed := true,
    dflt := fun _ _ => 0, wmask := 13, unit := .none, owner := .none, chk := [] }
/-- 0x7010[f]:0 (12), R327, Table 12.9: R321; f = 1–16 -/
def D.FR_VF_DROPPED : Obj :=
  { idx := 0x7010, sub := 0, insts := 17, ty := .u32, acc := .ro, stored := false, len := 4, fixed := true,
    dflt := fun _ _ => 0, wmask := 13, unit := .none, owner := .func, chk := [] }
/-- 0x7010[f]:1 (12), R327, Table 12.9: R322; f = 0–16 -/
def D.HOST_NOTIFY_DROPPED : Obj :=
  { idx := 0x7010, sub := 1, insts := 17, ty := .u32, acc := .ro, stored := false, len := 4, fixed := true,
    dflt := fun _ _ => 0, wmask := 13, unit := .none, owner := .func, chk := [] }
/-- 0x7010[f]:2 (12), R327, Table 12.9: R326 -/
def D.HOST_FLR_COUNT : Obj :=
  { idx := 0x7010, sub := 2, insts := 17, ty := .u32, acc := .ro, stored := false, len := 4, fixed := true,
    dflt := fun _ _ => 0, wmask := 13, unit := .none, owner := .func, chk := [] }
/-- 0x1001:0 (13), R347, Table 13.6: Module serial; the value beacons and links carry -/
def D.DEVICE_SERIAL : Obj :=
  { idx := 0x1001, sub := 0, insts := 0, ty := .u64, acc := .fro, stored := true, len := 8, fixed := true,
    dflt := fun _ _ => 0, wmask := 13, unit := .none, owner := .none, chk := [] }
/-- 0x1001:1 (13), R347, Table 13.6: Up to 32 bytes -/
def D.PART_NUMBER : Obj :=
  { idx := 0x1001, sub := 1, insts := 0, ty := .string, acc := .fro, stored := true, len := 32, fixed := false,
    dflt := fun _ _ => 0, wmask := 13, unit := .none, owner := .none, chk := [] }
/-- 0x1001:2 (13), R347, Table 13.6: Silicon step of the base die -/
def D.DIE_STEP : Obj :=
  { idx := 0x1001, sub := 2, insts := 0, ty := .u8, acc := .fro, stored := true, len := 1, fixed := true,
    dflt := fun _ _ => 0, wmask := 13, unit := .none, owner := .none, chk := [] }
/-- 0x1001:3 (13), R347, Table 13.6: Layout of this dictionary -/
def D.DICT_VERSION : Obj :=
  { idx := 0x1001, sub := 3, insts := 0, ty := .u16, acc := .ro, stored := false, len := 2, fixed := true,
    dflt := fun _ _ => 0x1, wmask := 13, unit := .none, owner := .none, chk := [] }
/-- 0x1001:4 (13), R347, Table 13.6: [31:24] major, [23:16] minor, [15:0] build -/
def D.UTTEX_FW_VERSION : Obj :=
  { idx := 0x1001, sub := 4, insts := 0, ty := .u32, acc := .ro, stored := false, len := 4, fixed := true,
    dflt := fun _ _ => 0, wmask := 13, unit := .none, owner := .none, chk := [] }
/-- 0x1001:5 (13), R347, Table 13.6: 6 bytes; management port MAC address -/
def D.MGMT_MAC : Obj :=
  { idx := 0x1001, sub := 5, insts := 0, ty := .octets, acc := .fro, stored := true, len := 6, fixed := true,
    dflt := fun _ _ => 0, wmask := 13, unit := .none, owner := .none, chk := [] }
/-- 0x1100:0 (13), R358, Table 13.11: 0 clean, 1 pending, 2 committing, 3 fault -/
def D.STORE_STATE : Obj :=
  { idx := 0x1100, sub := 0, insts := 0, ty := .u8, acc := .ro, stored := false, len := 1, fixed := true,
    dflt := fun _ _ => 0, wmask := 13, unit := .none, owner := .none, chk := [] }
/-- 0x1100:1 (13), R358, Table 13.11: TRUE commits (R339); FALSE refused with OD_VALUE -/
def D.STORE_COMMIT : Obj :=
  { idx := 0x1100, sub := 1, insts := 0, ty := .bool, acc := .wo, stored := false, len := 1, fixed := true,
    dflt := fun _ _ => 0, wmask := 13, unit := .none, owner := .none, chk := [.oneOf [1]] }
/-- 0x1100:2 (13), R358, Table 13.11: ms, 0–60,000; R339; from the next pending write -/
def D.STORE_DELAY : Obj :=
  { idx := 0x1100, sub := 2, insts := 0, ty := .u32, acc := .rw, stored := true, len := 4, fixed := true,
    dflt := fun _ _ => 1000, wmask := 13, unit := .none, owner := .none, chk := [.range 0 60000] }
/-- 0x1100:3 (13), R358, Table 13.11: Generation of the last committed copy -/
def D.STORE_GENERATION : Obj :=
  { idx := 0x1100, sub := 3, insts := 0, ty := .u64, acc := .ro, stored := false, len := 8, fixed := true,
    dflt := fun _ _ => 0, wmask := 13, unit := .none, owner := .none, chk := [] }
/-- 0x1100:4 (13), R358, Table 13.11: 0 none, 1 A, 2 B; R341 -/
def D.STORE_BOOT_COPY : Obj :=
  { idx := 0x1100, sub := 4, insts := 0, ty := .u8, acc := .ro, stored := false, len := 1, fixed := true,
    dflt := fun _ _ => 0, wmask := 13, unit := .none, owner := .none, chk := [] }
/-- 0x1100:5 (13), R358, Table 13.11: R344 -/
def D.STORE_DEFAULTS : Obj :=
  { idx := 0x1100, sub := 5, insts := 0, ty := .bool, acc := .wo, stored := false, len := 1, fixed := true,
    dflt := fun _ _ => 0, wmask := 13, unit := .none, owner := .none, chk := [.oneOf [1]] }
/-- 0x1100:6 (13), R358, Table 13.11: Commits completed since reset -/
def D.STORE_COMMITS : Obj :=
  { idx := 0x1100, sub := 6, insts := 0, ty := .u32, acc := .ro, stored := false, len := 4, fixed := true,
    dflt := fun _ _ => 0, wmask := 13, unit := .none, owner := .none, chk := [] }
/-- 0x1200:0 (13), R358, Table 13.11: 0x0600–0xFFFF except 0x88F7, else OD_RANGE; after the response to the write is sent -/
def D.PHIL_ETHERTYPE : Obj :=
  { idx := 0x1200, sub := 0, insts := 0, ty := .u16, acc := .rw, stored := true, len := 2, fixed := true,
    dflt := fun _ _ => 0x88B5, wmask := 13, unit := .none, owner := .none, chk := [.range 0x600 0xFFFF, .rangeNot 0x88F7] }
/-- 0x1200:1 (13), R358, Table 13.11: R353; immediately -/
def D.PHIL_READ_AUTH : Obj :=
  { idx := 0x1200, sub := 1, insts := 0, ty := .bool, acc := .rw, stored := true, len := 1, fixed := true,
    dflt := fun _ _ => 0, wmask := 13, unit := .none, owner := .none, chk := [] }
/-- 0x1200:2 (13), R358, Table 13.11: 6 bytes; all zero sends to broadcast; R355 -/
def D.PHIL_EVENT_DEST : Obj :=
  { idx := 0x1200, sub := 2, insts := 0, ty := .octets, acc := .rw, stored := true, len := 6, fixed := true,
    dflt := fun _ _ => 0, wmask := 13, unit := .none, owner := .none, chk := [] }
/-- 0x1200:3 (13), R358, Table 13.11: ms, 10–10,000; R355 -/
def D.PHIL_EVENT_RETRY : Obj :=
  { idx := 0x1200, sub := 3, insts := 0, ty := .u32, acc := .rw, stored := true, len := 4, fixed := true,
    dflt := fun _ _ => 100, wmask := 13, unit := .none, owner := .none, chk := [.range 10 10000] }
/-- 0x1200:4 (13), R358, Table 13.11: 0 down, 1 negotiating, 2 up -/
def D.MGMT_LINK_STATE : Obj :=
  { idx := 0x1200, sub := 4, insts := 0, ty := .u8, acc := .ro, stored := false, len := 1, fixed := true,
    dflt := fun _ _ => 0, wmask := 13, unit := .none, owner := .none, chk := [] }
/-- 0x1200:5 (13), R358, Table 13.11: R356 -/
def D.PHIL_RX_DROPPED : Obj :=
  { idx := 0x1200, sub := 5, insts := 0, ty := .u32, acc := .ro, stored := false, len := 4, fixed := true,
    dflt := fun _ _ => 0, wmask := 13, unit := .none, owner := .none, chk := [] }
/-- 0x1200:6 (13), R358, Table 13.11: R353 -/
def D.PHIL_AUTH_FAIL : Obj :=
  { idx := 0x1200, sub := 6, insts := 0, ty := .u32, acc := .ro, stored := false, len := 4, fixed := true,
    dflt := fun _ _ => 0, wmask := 13, unit := .none, owner := .none, chk := [] }
/-- 0x1200:7 (13), R358, Table 13.11: R355 -/
def D.PHIL_EVENT_DROPPED : Obj :=
  { idx := 0x1200, sub := 7, insts := 0, ty := .u32, acc := .ro, stored := false, len := 4, fixed := true,
    dflt := fun _ _ => 0, wmask := 13, unit := .none, owner := .none, chk := [] }
/-- 0xB000:0 (13), R358, Table 13.11: R334 -/
def D.CONFIG_LOCK : Obj :=
  { idx := 0xB000, sub := 0, insts := 0, ty := .bool, acc := .rw, stored := false, len := 1, fixed := true,
    dflt := fun _ _ => 0, wmask := 13, unit := .none, owner := .none, chk := [] }
/-- 0xB000:1 (13), R358, Table 13.11: R353 -/
def D.BOOT_NONCE : Obj :=
  { idx := 0xB000, sub := 1, insts := 0, ty := .u64, acc := .ro, stored := false, len := 8, fixed := true,
    dflt := fun _ _ => 0, wmask := 13, unit := .none, owner := .none, chk := [] }
/-- 0xB000:2 (13), R358, Table 13.11: Last accepted counter; R353 -/
def D.PHIL_SESSION_CTR : Obj :=
  { idx := 0xB000, sub := 2, insts := 0, ty := .u64, acc := .ro, stored := false, len := 8, fixed := true,
    dflt := fun _ _ => 0, wmask := 13, unit := .none, owner := .none, chk := [] }
/-- 0xB010[k]:0 (13), R358, Table 13.11: k = 0–3; 57 bytes, or 0 bytes to clear; R353, R354 -/
def D.MGMT_PUBKEY : Obj :=
  { idx := 0xB010, sub := 0, insts := 4, ty := .octets, acc := .rwl, stored := true, len := 57, fixed := false,
    dflt := fun _ _ => 0, wmask := 13, unit := .none, owner := .none, chk := [] }
/-- 0x2000:0 (14), R384, Table 14.9: R361 -/
def D.XSD_STRAP : Obj :=
  { idx := 0x2000, sub := 0, insts := 0, ty := .u8, acc := .ro, stored := false, len := 1, fixed := true,
    dflt := fun _ _ => 0, wmask := 13, unit := .none, owner := .none, chk := [] }
/-- 0x2000:1 (14), R384, Table 14.9: RC cycles; R362 -/
def D.XTAL_CHECK_COUNT : Obj :=
  { idx := 0x2000, sub := 1, insts := 0, ty := .u16, acc := .ro, stored := false, len := 2, fixed := true,
    dflt := fun _ _ => 0, wmask := 13, unit := .none, owner := .none, chk := [] }
/-- 0x2000:2 (14), R384, Table 14.9: Checks made in the last stage 1 -/
def D.XTAL_ATTEMPTS : Obj :=
  { idx := 0x2000, sub := 2, insts := 0, ty := .u8, acc := .ro, stored := false, len := 1, fixed := true,
    dflt := fun _ _ => 0, wmask := 13, unit := .none, owner := .none, chk := [] }
/-- 0x2000:3 (14), R384, Table 14.9: 0 RC, 1 REF / 25 -/
def D.AO_CLOCK_SOURCE : Obj :=
  { idx := 0x2000, sub := 3, insts := 0, ty := .u8, acc := .ro, stored := false, len := 1, fixed := true,
    dflt := fun _ _ => 0, wmask := 13, unit := .none, owner := .none, chk := [] }
/-- 0x2001:0 (14), R384, Table 14.9: 16 bytes; Table 14.3; R367 -/
def D.FIELD_CLOCK_REQ : Obj :=
  { idx := 0x2001, sub := 0, insts := 0, ty := .octets, acc := .wo, stored := false, len := 16, fixed := true,
    dflt := fun _ _ => 0, wmask := 13, unit := .none, owner := .none, chk := [] }
/-- 0x2001:1 (14), R384, Table 14.9: 0 idle, 1 waiting for switch, 2 gliding, 3 done, 4 refused -/
def D.FIELD_CLOCK_STATE : Obj :=
  { idx := 0x2001, sub := 1, insts := 0, ty := .u8, acc := .ro, stored := false, len := 1, fixed := true,
    dflt := fun _ _ => 0, wmask := 13, unit := .none, owner := .none, chk := [] }
/-- 0x2001:2 (14), R384, Table 14.9: R367 -/
def D.FIELD_CLOCK_STATUS : Obj :=
  { idx := 0x2001, sub := 2, insts := 0, ty := .u16, acc := .ro, stored := false, len := 2, fixed := true,
    dflt := fun _ _ => 0, wmask := 13, unit := .none, owner := .none, chk := [] }
/-- 0x2002[n]:0 (14), R384, Table 14.9: MHz now -/
def D.FIELD_FREQ : Obj :=
  { idx := 0x2002, sub := 0, insts := 8, ty := .u16, acc := .ro, stored := false, len := 2, fixed := true,
    dflt := fun _ _ => 2000, wmask := 13, unit := .field, owner := .none, chk := [] }
/-- 0x2002[n]:1 (14), R384, Table 14.9: 0 PLL, 1 bypass -/
def D.FIELD_CLK_SRC : Obj :=
  { idx := 0x2002, sub := 1, insts := 8, ty := .u8, acc := .ro, stored := false, len := 1, fixed := true,
    dflt := fun _ _ => 0, wmask := 13, unit := .field, owner := .none, chk := [] }
/-- 0x2002[n]:2 (14), R384, Table 14.9: R366 -/
def D.PLL_UNLOCK_COUNT : Obj :=
  { idx := 0x2002, sub := 2, insts := 8, ty := .u32, acc := .ro, stored := false, len := 4, fixed := true,
    dflt := fun _ _ => 0, wmask := 13, unit := .field, owner := .none, chk := [] }
/-- 0x2002[n]:3 (14), R384, Table 14.9: MHz, 250–2,200; next device reset -/
def D.FIELD_FREQ_BOOT : Obj :=
  { idx := 0x2002, sub := 3, insts := 8, ty := .u16, acc := .rw, stored := true, len := 2, fixed := true,
    dflt := fun _ _ => 2000, wmask := 13, unit := .field, owner := .none, chk := [.range 250 2200] }
/-- 0x2010[k]:0 (14), R384, Table 14.9: [15:0] old, [31:16] new; 0xFFFF_FFFF unknown; R369, R370 -/
def D.CLK_SW_LOST : Obj :=
  { idx := 0x2010, sub := 0, insts := 10, ty := .u32, acc := .ro, stored := false, len := 4, fixed := true,
    dflt := fun _ _ => 0, wmask := 13, unit := .clkSwitch, owner := .none, chk := [] }
/-- 0x2010[k]:1 (14), R384, Table 14.9: Switches -/
def D.CLK_SW_COUNT : Obj :=
  { idx := 0x2010, sub := 1, insts := 10, ty := .u32, acc := .ro, stored := false, len := 4, fixed := true,
    dflt := fun _ _ => 0, wmask := 13, unit := .clkSwitch, owner := .none, chk := [] }
/-- 0x2010[k]:2 (14), R384, Table 14.9: R370 -/
def D.CLK_FORCED_COUNT : Obj :=
  { idx := 0x2010, sub := 2, insts := 10, ty := .u32, acc := .ro, stored := false, len := 4, fixed := true,
    dflt := fun _ _ => 0, wmask := 13, unit := .clkSwitch, owner := .none, chk := [] }
/-- 0x2020:0 (14), R384, Table 14.9: Table 14.5; R372 -/
def D.CKOBS_SELECT : Obj :=
  { idx := 0x2020, sub := 0, insts := 0, ty := .u16, acc := .rw, stored := false, len := 2, fixed := true,
    dflt := fun _ _ => 0x0, wmask := 13, unit := .none, owner := .none, chk := [] }
/-- 0x2020:1 (14), R384, Table 14.9: 1–65,536 -/
def D.CKOBS_DIV : Obj :=
  { idx := 0x2020, sub := 1, insts := 0, ty := .u32, acc := .rw, stored := false, len := 4, fixed := true,
    dflt := fun _ _ => 1024, wmask := 13, unit := .none, owner := .none, chk := [.range 1 65536] }
/-- 0x2020:2 (14), R384, Table 14.9: R372 -/
def D.CKOBS_ENABLE : Obj :=
  { idx := 0x2020, sub := 2, insts := 0, ty := .bool, acc := .rw, stored := false, len := 1, fixed := true,
    dflt := fun _ _ => 0, wmask := 13, unit := .none, owner := .none, chk := [] }
/-- 0x2030[s]:0 (14), R384, Table 14.9: R373 -/
def D.SLICE_POWER_MODE : Obj :=
  { idx := 0x2030, sub := 0, insts := 1024, ty := .u8, acc := .rw, stored := true, len := 1, fixed := true,
    dflt := fun _ _ => 0, wmask := 13, unit := .slice, owner := .none, chk := [.oneOf [0, 1, 2, 3]] }
/-- 0x2030[s]:1 (14), R384, Table 14.9: 0 Run, 1 Doze, 2 Cocoon, 3 Off -/
def D.SLICE_POWER : Obj :=
  { idx := 0x2030, sub := 1, insts := 1024, ty := .u8, acc := .ro, stored := false, len := 1, fixed := true,
    dflt := fun _ _ => 0, wmask := 13, unit := .slice, owner := .none, chk := [] }
/-- 0x2031[n]:0 (14), R384, Table 14.9: 0 Doze when idle, 1 hold Run, 2 Cocoon, 3 Off; R373 -/
def D.FIELD_POWER_MODE : Obj :=
  { idx := 0x2031, sub := 0, insts := 8, ty := .u8, acc := .rw, stored := true, len := 1, fixed := true,
    dflt := fun _ _ => 0, wmask := 13, unit := .field, owner := .none, chk := [.oneOf [0, 1, 2, 3]] }
/-- 0x2031[n]:1 (14), R384, Table 14.9: As SLICE_POWER -/
def D.FIELD_POWER : Obj :=
  { idx := 0x2031, sub := 1, insts := 8, ty := .u8, acc := .ro, stored := false, len := 1, fixed := true,
    dflt := fun _ _ => 0, wmask := 13, unit := .field, owner := .none, chk := [] }
/-- 0x2032:0 (14), R384, Table 14.9: Cycles, 8–65,536 -/
def D.DOZE_IDLE : Obj :=
  { idx := 0x2032, sub := 0, insts := 0, ty := .u32, acc := .rw, stored := true, len := 4, fixed := true,
    dflt := fun _ _ => 64, wmask := 13, unit := .none, owner := .none, chk := [.range 8 65536] }
/-- 0x2032:1 (14), R384, Table 14.9: µs, 10–1,000,000 -/
def D.SLEEP_IDLE : Obj :=
  { idx := 0x2032, sub := 1, insts := 0, ty := .u32, acc := .rw, stored := true, len := 4, fixed := true,
    dflt := fun _ _ => 100, wmask := 13, unit := .none, owner := .none, chk := [.range 10 1000000] }
/-- 0x2040:0 (14), R384, Table 14.9: W/µs, 10–50; R374 -/
def D.CHAIRLIFT_SLEW : Obj :=
  { idx := 0x2040, sub := 0, insts := 0, ty := .u16, acc := .rw, stored := true, len := 2, fixed := true,
    dflt := fun _ _ => 50, wmask := 13, unit := .none, owner := .none, chk := [.range 10 50] }
/-- 0x2040:1 (14), R384, Table 14.9: R374 -/
def D.CHAIRLIFT_WAITS : Obj :=
  { idx := 0x2040, sub := 1, insts := 0, ty := .u32, acc := .ro, stored := false, len := 4, fixed := true,
    dflt := fun _ _ => 0, wmask := 13, unit := .none, owner := .none, chk := [] }
/-- 0x2040:2 (14), R384, Table 14.9: W, 500–3,400; R376 -/
def D.POWER_LIMIT : Obj :=
  { idx := 0x2040, sub := 2, insts := 0, ty := .u16, acc := .rw, stored := true, len := 2, fixed := true,
    dflt := fun _ _ => 3400, wmask := 13, unit := .none, owner := .none, chk := [.range 500 3400] }
/-- 0x2040:3 (14), R384, Table 14.9: W now -/
def D.POWER_LIMIT_EFF : Obj :=
  { idx := 0x2040, sub := 3, insts := 0, ty := .u16, acc := .ro, stored := false, len := 2, fixed := true,
    dflt := fun _ _ => 2550, wmask := 13, unit := .none, owner := .none, chk := [] }
/-- 0x2040:4 (14), R384, Table 14.9: W, module input -/
def D.INPUT_POWER : Obj :=
  { idx := 0x2040, sub := 4, insts := 0, ty := .u32, acc := .ro, stored := false, len := 4, fixed := true,
    dflt := fun _ _ => 0, wmask := 13, unit := .none, owner := .none, chk := [] }
/-- 0x2040:5 (14), R384, Table 14.9: mV -/
def D.INPUT_VOLTAGE : Obj :=
  { idx := 0x2040, sub := 5, insts := 0, ty := .u16, acc := .ro, stored := false, len := 2, fixed := true,
    dflt := fun _ _ => 0, wmask := 13, unit := .none, owner := .none, chk := [] }
/-- 0x2040:6 (14), R384, Table 14.9: mJ; R377 -/
def D.STORED_ENERGY : Obj :=
  { idx := 0x2040, sub := 6, insts := 0, ty := .u32, acc := .ro, stored := false, len := 4, fixed := true,
    dflt := fun _ _ => 0, wmask := 13, unit := .none, owner := .none, chk := [] }
/-- 0x2040:7 (14), R384, Table 14.9: mJ; R378 -/
def D.RETURN_MAX : Obj :=
  { idx := 0x2040, sub := 7, insts := 0, ty := .u32, acc := .ro, stored := false, len := 4, fixed := true,
    dflt := fun _ _ => 0, wmask := 13, unit := .none, owner := .none, chk := [] }
/-- 0x2050[n]:0 (14), R384, Table 14.9: °C; R379 -/
def D.FIELD_TEMP : Obj :=
  { idx := 0x2050, sub := 0, insts := 8, ty := .i32, acc := .ro, stored := false, len := 4, fixed := true,
    dflt := fun _ _ => 105, wmask := 13, unit := .field, owner := .none, chk := [] }
/-- 0x2050[n]:1 (14), R384, Table 14.9: R379 -/
def D.THERMAL_VALID : Obj :=
  { idx := 0x2050, sub := 1, insts := 8, ty := .bool, acc := .ro, stored := false, len := 1, fixed := true,
    dflt := fun _ _ => 0, wmask := 13, unit := .field, owner := .none, chk := [] }
/-- 0x2051:0 (14), R384, Table 14.9: °C, 70–105 -/
def D.THERMAL_HOT_C : Obj :=
  { idx := 0x2051, sub := 0, insts := 0, ty := .u8, acc := .rw, stored := true, len := 1, fixed := true,
    dflt := fun _ _ => 100, wmask := 13, unit := .none, owner := .none, chk := [.range 70 105] }
/-- 0x2051:1 (14), R384, Table 14.9: MHz, 250–2,200 -/
def D.THERMAL_MHZ : Obj :=
  { idx := 0x2051, sub := 1, insts := 0, ty := .u16, acc := .rw, stored := true, len := 2, fixed := true,
    dflt := fun _ _ => 1000, wmask := 13, unit := .none, owner := .none, chk := [.range 250 2200] }
/-- 0x2051:2 (14), R384, Table 14.9: R379 -/
def D.THERMAL_FALLBACK_ID : Obj :=
  { idx := 0x2051, sub := 2, insts := 0, ty := .u64, acc := .rw, stored := true, len := 8, fixed := true,
    dflt := fun _ _ => 0, wmask := 13, unit := .none, owner := .none, chk := [] }
/-- 0x2060:0 (14), R384, Table 14.9: 0 none, 1 complete, 2 incomplete; R382 -/
def D.LAST_LOSS_RESULT : Obj :=
  { idx := 0x2060, sub := 0, insts := 0, ty := .u8, acc := .ro, stored := false, len := 1, fixed := true,
    dflt := fun _ _ => 0, wmask := 13, unit := .none, owner := .none, chk := [] }
/-- 0x2200[n]:10 (14), R384, Table 14.9: R380 -/
def D.SITE_RAIL_ORDER : Obj :=
  { idx := 0x2200, sub := 10, insts := 8, ty := .u32, acc := .rwl, stored := true, len := 4, fixed := true,
    dflt := fun _ _ => 0x76543210, wmask := 13, unit := .site, owner := .none, chk := [] }
/-- 0x2200[n]:11 (14), R384, Table 14.9: µs, 0–10,000; R380 -/
def D.SITE_SEQ_GAP : Obj :=
  { idx := 0x2200, sub := 11, insts := 8, ty := .u16, acc := .rw, stored := true, len := 2, fixed := true,
    dflt := fun _ _ => 10, wmask := 13, unit := .site, owner := .none, chk := [.range 0 10000] }
/-- 0x2220[j]:5 (14), R384, Table 14.9: µF the die adds; R377 -/
def D.RAIL_DIE_CAP : Obj :=
  { idx := 0x2220, sub := 5, insts := 64, ty := .u32, acc := .rwl, stored := true, len := 4, fixed := true,
    dflt := fun _ _ => 0, wmask := 13, unit := .rail, owner := .none, chk := [] }
/-- 0xC200:0 (14), R384, Table 14.9: µF -/
def D.INPUT_CAP_FACTORY : Obj :=
  { idx := 0xC200, sub := 0, insts := 0, ty := .u32, acc := .fro, stored := true, len := 4, fixed := true,
    dflt := fun _ _ => 0, wmask := 13, unit := .none, owner := .none, chk := [] }
/-- 0xC200:1 (14), R384, Table 14.9: mJ -/
def D.DEVICE_RAIL_ENERGY : Obj :=
  { idx := 0xC200, sub := 1, insts := 0, ty := .u32, acc := .fro, stored := true, len := 4, fixed := true,
    dflt := fun _ _ => 0, wmask := 13, unit := .none, owner := .none, chk := [] }
/-- 0xC210:0 (14), R384, Table 14.9: Trim steps -/
def D.RC_TRIM_FACTORY : Obj :=
  { idx := 0xC210, sub := 0, insts := 0, ty := .i32, acc := .fro, stored := true, len := 4, fixed := true,
    dflt := fun _ _ => 0, wmask := 13, unit := .none, owner := .none, chk := [] }
/-- 0xD210:0 (14), R384, Table 14.9: Additive, clamp ±8 steps; next device reset -/
def D.RC_TRIM_USER : Obj :=
  { idx := 0xD210, sub := 0, insts := 0, ty := .i32, acc := .rw, stored := true, len := 4, fixed := true,
    dflt := fun _ _ => 0, wmask := 13, unit := .none, owner := .none, chk := [.clamp 8] }
/-- 0xC220[j]:2 (14), R384, Table 14.9: µF -/
def D.RAIL_CAP_FACTORY : Obj :=
  { idx := 0xC220, sub := 2, insts := 64, ty := .u32, acc := .fro, stored := true, len := 4, fixed := true,
    dflt := fun _ _ => 0, wmask := 13, unit := .rail, owner := .none, chk := [] }
/-- 0xC250[n]:0 (14), R384, Table 14.9: 0.1 °C -/
def D.TSENSE_OFFSET_FACTORY : Obj :=
  { idx := 0xC250, sub := 0, insts := 8, ty := .i32, acc := .fro, stored := true, len := 4, fixed := true,
    dflt := fun _ _ => 0, wmask := 13, unit := .field, owner := .none, chk := [] }
/-- 0xD250[n]:0 (14), R384, Table 14.9: 0.1 °C, additive, clamp ±30; immediately -/
def D.TSENSE_OFFSET_USER : Obj :=
  { idx := 0xD250, sub := 0, insts := 8, ty := .i32, acc := .rw, stored := true, len := 4, fixed := true,
    dflt := fun _ _ => 0, wmask := 13, unit := .field, owner := .none, chk := [.clamp 30] }
/-- 0xA100[g]:0 (15), R415, Table 15.13: Stage g = 0–10; Table 15.2 -/
def D.STARTUP_REPORT : Obj :=
  { idx := 0xA100, sub := 0, insts := 11, ty := .record, acc := .ro, stored := false, len := 256, fixed := true,
    dflt := fun _ _ => 0, wmask := 13, unit := .none, owner := .none, chk := [] }
/-- 0xA101:0 (15), R415, Table 15.13: Stage running, or halted in -/
def D.BOOT_STAGE : Obj :=
  { idx := 0xA101, sub := 0, insts := 0, ty := .u8, acc := .ro, stored := false, len := 1, fixed := true,
    dflt := fun _ _ => 0, wmask := 13, unit := .none, owner := .none, chk := [] }
/-- 0xA101:1 (15), R415, Table 15.13: R388 -/
def D.BOOT_HALTED : Obj :=
  { idx := 0xA101, sub := 1, insts := 0, ty := .bool, acc := .ro, stored := false, len := 1, fixed := true,
    dflt := fun _ _ => 0, wmask := 13, unit := .none, owner := .none, chk := [] }
/-- 0xA101:2 (15), R415, Table 15.13: R397; incremented in stage 3 -/
def D.BOOT_COUNT : Obj :=
  { idx := 0xA101, sub := 2, insts := 0, ty := .u32, acc := .ro, stored := true, len := 4, fixed := true,
    dflt := fun _ _ => 0, wmask := 13, unit := .none, owner := .none, chk := [] }
/-- 0xA101:3 (15), R415, Table 15.13: 0 power-on, 1 reset pin, 2 RESET_DEVICE 1, 3 RESET_DEVICE 2, 4 UTTEX_WATCHDOG, 5 THERMAL_TRIP, 6 return after power loss -/
def D.LAST_RESET_CAUSE : Obj :=
  { idx := 0xA101, sub := 3, insts := 0, ty := .u8, acc := .ro, stored := false, len := 1, fixed := true,
    dflt := fun _ _ => 0, wmask := 13, unit := .none, owner := .none, chk := [] }
/-- 0xA110[i]:0 (15), R415, Table 15.13: i = 0–6,143: factory entries, then added entries; Table 15.8 -/
def D.DEFECT_ENTRY : Obj :=
  { idx := 0xA110, sub := 0, insts := 6144, ty := .record, acc := .ro, stored := true, len := 16, fixed := true,
    dflt := fun _ _ => 0, wmask := 13, unit := .none, owner := .none, chk := [] }
/-- 0xA111:0 (15), R415, Table 15.13: Factory entries, 0–2,048 -/
def D.DEFECT_FACTORY_COUNT : Obj :=
  { idx := 0xA111, sub := 0, insts := 0, ty := .u16, acc := .ro, stored := true, len := 2, fixed := true,
    dflt := fun _ _ => 0, wmask := 13, unit := .none, owner := .none, chk := [] }
/-- 0xA111:1 (15), R415, Table 15.13: 0–4,096; R398 -/
def D.DEFECT_ADDED_COUNT : Obj :=
  { idx := 0xA111, sub := 1, insts := 0, ty := .u16, acc := .ro, stored := true, len := 2, fixed := true,
    dflt := fun _ _ => 0, wmask := 13, unit := .none, owner := .none, chk := [] }
/-- 0xA111:2 (15), R415, Table 15.13: Table 15.8, SOURCE and BOOT_COUNT written as 0; R399 -/
def D.DEFECT_ADD : Obj :=
  { idx := 0xA111, sub := 2, insts := 0, ty := .record, acc := .wo, stored := false, len := 16, fixed := true,
    dflt := fun _ _ => 0, wmask := 13, unit := .none, owner := .none, chk := [] }
/-- 0xA200[s]:0 (15), R415, Table 15.13: TRUE resets logical slice s; FALSE refused -/
def D.RESET_SLICE : Obj :=
  { idx := 0xA200, sub := 0, insts := 1024, ty := .bool, acc := .wo, stored := false, len := 1, fixed := true,
    dflt := fun _ _ => 0, wmask := 13, unit := .slice, owner := .none, chk := [.oneOf [1]] }
/-- 0xA201[n]:0 (15), R415, Table 15.13: 1 with links, 2 holding links; R403 -/
def D.RESET_FIELD : Obj :=
  { idx := 0xA201, sub := 0, insts := 8, ty := .u8, acc := .wo, stored := false, len := 1, fixed := true,
    dflt := fun _ _ => 0, wmask := 13, unit := .field, owner := .none, chk := [.oneOf [1, 2]] }
/-- 0xA202[p]:0 (15), R415, Table 15.13: TRUE resets; R404 -/
def D.RESET_PARTITION : Obj :=
  { idx := 0xA202, sub := 0, insts := 16, ty := .bool, acc := .wo, stored := false, len := 1, fixed := true,
    dflt := fun _ _ => 0, wmask := 15, unit := .none, owner := .part, chk := [.oneOf [1]] }
/-- 0xA203:0 (15), R415, Table 15.13: 1 device, 2 link-hold; R405 -/
def D.RESET_DEVICE : Obj :=
  { idx := 0xA203, sub := 0, insts := 0, ty := .u8, acc := .wo, stored := false, len := 1, fixed := true,
    dflt := fun _ _ => 0, wmask := 13, unit := .none, owner := .none, chk := [.oneOf [1, 2]] }
/-- 0xA203:1 (15), R415, Table 15.13: ms, 100–10,000; R408 -/
def D.UTTEX_WDT_MS : Obj :=
  { idx := 0xA203, sub := 1, insts := 0, ty := .u16, acc := .rw, stored := true, len := 2, fixed := true,
    dflt := fun _ _ => 1000, wmask := 13, unit := .none, owner := .none, chk := [.range 100 10000] }
/-- 0xB100[b]:0 (15), R415, Table 15.13: Bank b = 0 A, 1 B, held in the boot NOR; R393 -/
def D.FW_BANK : Obj :=
  { idx := 0xB100, sub := 0, insts := 2, ty := .domain, acc := .rw, stored := true, len := 67108864, fixed := false,
    dflt := fun _ _ => 0, wmask := 13, unit := .none, owner := .none, chk := [] }
/-- 0xB100[b]:1 (15), R415, Table 15.13: 0 empty, 1 valid, 2 invalid, 3 writing -/
def D.FW_BANK_STATE : Obj :=
  { idx := 0xB100, sub := 1, insts := 2, ty := .u8, acc := .ro, stored := false, len := 1, fixed := true,
    dflt := fun _ _ => 0, wmask := 13, unit := .none, owner := .none, chk := [] }
/-- 0xB100[b]:2 (15), R415, Table 15.13: Manifest SVN -/
def D.FW_BANK_SVN : Obj :=
  { idx := 0xB100, sub := 2, insts := 2, ty := .u32, acc := .ro, stored := false, len := 4, fixed := true,
    dflt := fun _ _ => 0, wmask := 13, unit := .none, owner := .none, chk := [] }
/-- 0xB101:0 (15), R415, Table 15.13: 0 A, 1 B; next device reset -/
def D.BOOT_BANK : Obj :=
  { idx := 0xB101, sub := 0, insts := 0, ty := .u8, acc := .rw, stored := true, len := 1, fixed := true,
    dflt := fun _ _ => 0, wmask := 13, unit := .none, owner := .none, chk := [.oneOf [0, 1]] }
/-- 0xB101:1 (15), R415, Table 15.13: 0 A, 1 B, 2 mixed; R390, R396 -/
def D.RUNNING_BANK : Obj :=
  { idx := 0xB101, sub := 1, insts := 0, ty := .u8, acc := .ro, stored := false, len := 1, fixed := true,
    dflt := fun _ _ => 0, wmask := 13, unit := .none, owner := .none, chk := [] }
/-- 0xB101:2 (15), R415, Table 15.13: R392, R397 -/
def D.FW_MIN_SVN : Obj :=
  { idx := 0xB101, sub := 2, insts := 0, ty := .u32, acc := .rw, stored := true, len := 4, fixed := true,
    dflt := fun _ _ => 0, wmask := 13, unit := .none, owner := .none, chk := [] }
/-- 0xB102:0 (15), R415, Table 15.13: 8 bytes; Table 15.6 -/
def D.MOULT_COMMAND : Obj :=
  { idx := 0xB102, sub := 0, insts := 0, ty := .octets, acc := .wo, stored := false, len := 8, fixed := true,
    dflt := fun _ _ => 0, wmask := 13, unit := .none, owner := .none, chk := [] }
/-- 0xB102:1 (15), R415, Table 15.13: 0 idle, 1 running, 2 done, 3 stopped -/
def D.MOULT_STATE : Obj :=
  { idx := 0xB102, sub := 1, insts := 0, ty := .u8, acc := .ro, stored := false, len := 1, fixed := true,
    dflt := fun _ _ => 0, wmask := 13, unit := .none, owner := .none, chk := [] }
/-- 0xB102:2 (15), R415, Table 15.13: Units of the last command switched -/
def D.MOULT_UNITS_DONE : Obj :=
  { idx := 0xB102, sub := 2, insts := 0, ty := .u16, acc := .ro, stored := false, len := 2, fixed := true,
    dflt := fun _ _ => 0, wmask := 13, unit := .none, owner := .none, chk := [] }
/-- 0xB102:3 (15), R415, Table 15.13: Status of the last command -/
def D.MOULT_STATUS : Obj :=
  { idx := 0xB102, sub := 3, insts := 0, ty := .u16, acc := .ro, stored := false, len := 2, fixed := true,
    dflt := fun _ _ => 0, wmask := 13, unit := .none, owner := .none, chk := [] }
/-- 0xB200:0 (15), R415, Table 15.13: 57 bytes; R412 -/
def D.DEVICE_ID_PUBKEY : Obj :=
  { idx := 0xB200, sub := 0, insts := 0, ty := .octets, acc := .ro, stored := false, len := 57, fixed := true,
    dflt := fun _ _ => 0, wmask := 13, unit := .none, owner := .none, chk := [] }
/-- 0xB200:1 (15), R415, Table 15.13: 114 bytes; R412 -/
def D.DEVICE_ID_CERT : Obj :=
  { idx := 0xB200, sub := 1, insts := 0, ty := .octets, acc := .fro, stored := true, len := 114, fixed := true,
    dflt := fun _ _ => 0, wmask := 13, unit := .none, owner := .none, chk := [] }
/-- 0xB200:2 (15), R415, Table 15.13: 64 bytes; R414 -/
def D.ATTEST_NONCE : Obj :=
  { idx := 0xB200, sub := 2, insts := 0, ty := .octets, acc := .wo, stored := false, len := 64, fixed := true,
    dflt := fun _ _ => 0, wmask := 13, unit := .none, owner := .none, chk := [] }
/-- 0xB200:3 (15), R415, Table 15.13: 690 bytes; Table 15.12 -/
def D.ATTEST_REPORT : Obj :=
  { idx := 0xB200, sub := 3, insts := 0, ty := .octets, acc := .ro, stored := false, len := 690, fixed := false,
    dflt := fun _ _ => 0, wmask := 13, unit := .none, owner := .none, chk := [] }
/-- 0xB200:4 (15), R415, Table 15.13: R413 -/
def D.MEASUREMENT : Obj :=
  { idx := 0xB200, sub := 4, insts := 0, ty := .octets, acc := .ro, stored := false, len := 64, fixed := true,
    dflt := fun _ _ => 0, wmask := 13, unit := .none, owner := .none, chk := [] }
/-- 0xA000[p]:0 (16), R433, Table 16.8: Normal area records, 0–4,096; partition p = 0–15 -/
def D.FAULT_QUEUE_COUNT : Obj :=
  { idx := 0xA000, sub := 0, insts := 16, ty := .u16, acc := .ro, stored := false, len := 2, fixed := true,
    dflt := fun _ _ => 0, wmask := 13, unit := .none, owner := .part, chk := [] }
/-- 0xA000[p]:1 (16), R433, Table 16.8: Priority area records, 0–256 -/
def D.FAULT_PRIO_COUNT : Obj :=
  { idx := 0xA000, sub := 1, insts := 16, ty := .u16, acc := .ro, stored := false, len := 2, fixed := true,
    dflt := fun _ _ => 0, wmask := 13, unit := .none, owner := .part, chk := [] }
/-- 0xA000[p]:2 (16), R433, Table 16.8: R422 -/
def D.FAULT_OVERFLOW : Obj :=
  { idx := 0xA000, sub := 2, insts := 16, ty := .bool, acc := .ro, stored := false, len := 1, fixed := true,
    dflt := fun _ _ => 0, wmask := 13, unit := .none, owner := .part, chk := [] }
/-- 0xA000[p]:3 (16), R433, Table 16.8: TRUE clears FAULT_OVERFLOW and every FAULT_TYPE_OVERFLOW of p; FALSE refused -/
def D.FAULT_OVERFLOW_CLEAR : Obj :=
  { idx := 0xA000, sub := 3, insts := 16, ty := .bool, acc := .wo, stored := false, len := 1, fixed := true,
    dflt := fun _ _ => 0, wmask := 13, unit := .none, owner := .part, chk := [.oneOf [1]] }
/-- 0xA000[p]:4 (16), R433, Table 16.8: 0 running, 1 stopped; R424 -/
def D.PART_FAULT_STATE : Obj :=
  { idx := 0xA000, sub := 4, insts := 16, ty := .u8, acc := .ro, stored := false, len := 1, fixed := true,
    dflt := fun _ _ => 0, wmask := 13, unit := .none, owner := .part, chk := [] }
/-- 0xA000[p]:5 (16), R433, Table 16.8: R423; immediately -/
def D.POISON_FATAL : Obj :=
  { idx := 0xA000, sub := 5, insts := 16, ty := .bool, acc := .rw, stored := true, len := 1, fixed := true,
    dflt := fun _ _ => 0, wmask := 13, unit := .none, owner := .part, chk := [] }
/-- 0xA001[i]:0 (16), R433, Table 16.8: i = 256·p + TYPE; R422 -/
def D.FAULT_TYPE_OVERFLOW : Obj :=
  { idx := 0xA001, sub := 0, insts := 4096, ty := .u32, acc := .ro, stored := false, len := 4, fixed := true,
    dflt := fun _ _ => 0, wmask := 13, unit := .none, owner := .part256, chk := [] }
/-- 0xA010:0 (16), R433, Table 16.8: Newest LOG_SEQ -/
def D.FAULT_LOG_SEQ : Obj :=
  { idx := 0xA010, sub := 0, insts := 0, ty := .u64, acc := .ro, stored := false, len := 8, fixed := true,
    dflt := fun _ _ => 0, wmask := 13, unit := .none, owner := .none, chk := [] }
/-- 0xA010:1 (16), R433, Table 16.8: Oldest held LOG_SEQ -/
def D.FAULT_LOG_OLDEST : Obj :=
  { idx := 0xA010, sub := 1, insts := 0, ty := .u64, acc := .ro, stored := false, len := 8, fixed := true,
    dflt := fun _ _ => 0, wmask := 13, unit := .none, owner := .none, chk := [] }
/-- 0xA010:2 (16), R433, Table 16.8: R431 -/
def D.FAULT_LOG_SELECT : Obj :=
  { idx := 0xA010, sub := 2, insts := 0, ty := .u64, acc := .rw, stored := false, len := 8, fixed := true,
    dflt := fun _ _ => 0, wmask := 13, unit := .none, owner := .none, chk := [] }
/-- 0xA010:3 (16), R433, Table 16.8: Table 16.7 -/
def D.FAULT_LOG_ENTRY : Obj :=
  { idx := 0xA010, sub := 3, insts := 0, ty := .octets, acc := .ro, stored := false, len := 64, fixed := true,
    dflt := fun _ _ => 0, wmask := 13, unit := .none, owner := .none, chk := [] }
/-- 0xA010:4 (16), R433, Table 16.8: R430 -/
def D.FAULT_LOG_DROPPED : Obj :=
  { idx := 0xA010, sub := 4, insts := 0, ty := .u32, acc := .ro, stored := false, len := 4, fixed := true,
    dflt := fun _ _ => 0, wmask := 13, unit := .none, owner := .none, chk := [] }
/-- 0xA010:5 (16), R433, Table 16.8: R431; at the last start -/
def D.FAULT_LOG_TORN : Obj :=
  { idx := 0xA010, sub := 5, insts := 0, ty := .u32, acc := .ro, stored := false, len := 4, fixed := true,
    dflt := fun _ _ => 0, wmask := 13, unit := .none, owner := .none, chk := [] }

/-- Part 0 of the dictionary. -/
def dictPart0 : List Obj :=
  [D.DEVICE_VARIANT, D.HALF_FUSE, D.CAP_FIELD, D.CAP_SITE,
   D.CAP_STACK, D.CAP_LINK, D.CAP_MESH_REDUCE, D.CAP_SUB4_FORMATS,
   D.CAP_SWEEP, D.UNIT_ABSENT_COUNT, D.SLICE_HOME, D.SLICE_CHANNEL,
   D.SPARE_STATE, D.LINK_NODE, D.DEVICE_NUMBER, D.PART_ENABLE,
   D.PART_DOMAIN, D.FAULT_STALL_LIMIT, D.DRAIN_LIMIT, D.WINDOW_EPOCH,
   D.EPOCH_INFLIGHT, D.REVOKED_COUNT, D.PORT_PARTITION, D.TE_PARTITION,
   D.LINK_PART_MASK, D.PF_DATA_PARTITION, D.PARK_FULL_COUNT, D.WINDOW_ENTRY,
   D.PIN_WAY_LIMIT, D.PREFETCH_NEXT, D.DEAD_STRICT, D.CACHE_CE_COUNT,
   D.CACHE_UE_COUNT, D.TAG_CE_COUNT, D.TAG_SETS_LOST, D.VICTIM_HIT_COUNT,
   D.SWARM_FILL_COUNT, D.MISS_REG_FULL_COUNT, D.PREFETCH_ISSUED, D.PREFETCH_USED]
/-- Part 1 of the dictionary. -/
def dictPart1 : List Obj :=
  [D.READ_AFTER_DEAD, D.LOCKED_LINES, D.SLICE_RETIRE, D.RETIRE_STATE,
   D.TAG_PEEK_SELECT, D.TAG_PEEK_VALUE, D.FORMAT_DESC, D.SR_SEED,
   D.FLOW_SNAPSHOT, D.FLOW_SNAP_STATE, D.FLOW_CLEAR, D.SNAP_FLAGS,
   D.SNAP_BLOCKS, D.SNAP_CLIP, D.SNAP_SCALE_RAISED, D.SNAP_SCALE_OVF,
   D.SNAP_UNDERFLOW, D.SNAP_NAN_BLOCKS, D.SNAP_INF_ELEMENTS, D.SNAP_RESERVED_CODE,
   D.SNAP_AMAX, D.SNAP_GATE_TIME, D.ATOMIC_COMBINE_FP, D.HOT_LINE_THRESHOLD,
   D.ATOMIC_OPS, D.ATOMIC_COMBINED, D.HOT_LINE_EVENTS, D.HOT_LINE_LAST,
   D.TE_STATE, D.TE_CONTEXT_SWAPS, (D.RING_CONTEXT 0), (D.RING_CONTEXT 1),
   (D.RING_CONTEXT 2), (D.RING_CONTEXT 3), (D.RING_CONTEXT 4), (D.RING_CONTEXT 5),
   (D.RING_CONTEXT 6), (D.RING_CONTEXT 7), (D.RING_CONTEXT 8), (D.RING_CONTEXT 9)]
/-- Part 2 of the dictionary. -/
def dictPart2 : List Obj :=
  [(D.RING_CONTEXT 10), (D.RING_CONTEXT 11), (D.RING_CONTEXT 12), (D.RING_CONTEXT 13),
   (D.RING_CONTEXT 14), (D.RING_CONTEXT 15), D.SWEEP_COMMAND, D.SWEEP_STATE,
   D.SWEEP_PROGRESS, D.SWEEP_ABORT, D.SWEEP_RESULT, D.SWEEP_TIMEOUT,
   D.SWEEP_GROUP, D.SWEEP_STRAY, D.HBM_PIN_RATE, D.FORCE_FULL_TRAIN,
   D.INIT_DONE, D.SCRUB_PERIOD, D.PD_IDLE, D.MIGRATE_RATE,
   D.AUTO_RETIRE, D.CE_RETIRE_THRESHOLD, D.UE_RETIRE_THRESHOLD, D.STACK_SERIAL,
   D.STACK_CONFIG, D.STACK_TEMP, D.STACK_TEMP_VALID, D.STACK_BAND,
   D.TRAIN_MODE_LAST, D.ACT_TIMING, D.STACK_ECS_COUNT, (D.TRAIN_RECORD 0),
   (D.TRAIN_RECORD 1), (D.TRAIN_RECORD 2), (D.TRAIN_RECORD 3), D.HBM_CE_COUNT,
   D.HBM_UE_COUNT, D.HBM_RETRY_COUNT, D.RFM_ISSUED, D.ACT_BUDGET_STALL]
/-- Part 3 of the dictionary. -/
def dictPart3 : List Obj :=
  [D.RETRAIN_COUNT, D.CHAN_POWER, D.HBM_SELF_REFRESH, D.CHANNEL_RETIRE,
   D.CHAN_BACKING, D.MIG_PROGRESS, D.MIG_POISON_SECTORS, D.CHAN_DONOR,
   D.DONOR_POOL, D.HBM_VREF_FACTORY, D.HBM_VREF_USER, D.LAP_STATE,
   D.LAP_LOAD, D.LAP_LOAD_STATE, D.LAP_LOAD_DETAIL, D.LAP_SWITCH,
   D.LAP_UNLOAD, D.LAP_RESUME, D.LAP_SWITCH_STATE, D.LAP_SWITCH_STATUS,
   D.LAP_ACTIVE_ID, D.LAP_SHADOW_ID, D.LAP_FS_BOUND, D.MESH_TOPO_DIGEST,
   D.FIELD_PACE, D.FIELD_PACE_SHADOW, D.LAP_SLIP, D.FLOW_DEMOTED,
   D.RED_MERGES, D.RED_UNMERGED, D.SEAM_CREDIT_STALL, D.ROUTER_STATE,
   D.LAP_FS_WORST, D.MESH_DETOUR_MAX, D.RED_FLAGS, D.RED_FLAGS_CLEAR,
   D.GATE_TIME, D.GATE_SYNC_STATE, D.GATE_SOURCE, D.GATE_UPSTREAM_MASK]
/-- Part 4 of the dictionary. -/
def dictPart4 : List Obj :=
  [D.GATE_UPSTREAM_LINK, D.GATE_HOPS, D.GATE_ERR_BOUND, D.GATE_HOLDOVER_LIMIT,
   D.GATE_STEP_COUNT, D.GATE_UPSTREAM_CHANGES, D.GATE_TAP_ERR_COUNT, D.PTP_DOMAIN,
   D.PTP_STATE, D.PTP_OFFSET, D.LINK_TIME_OFFSET, D.LINK_TIME_DELAY,
   D.GATE_LAUNCH, D.GATE_LAUNCH_ID, D.GATE_CANCEL, D.GATE_LAUNCH_LAST,
   D.GATE_MISSED_COUNT, D.GATE_LATE_MAX, D.SPINE_COMP_FACTORY, D.SPINE_COMP_USER,
   D.LINK_ASYM_USER, D.CLASS_REALTIME, D.CLASS_WEIGHT, D.MEM_GUARANTEE,
   D.MEM_GROUP_MASK, D.LINK_GUARANTEE, D.LINK_MASK, D.DEFAULT_DEADLINE,
   D.CLASS_OUTSTANDING, D.CLASS_WAYS, D.CLASS_MISS_MIN, D.CLASS_MISS_MAX,
   D.CLASS_CHQ_MAX, D.CLASS_HELD, D.MEM_EFFICIENCY, D.LINK_EFFICIENCY,
   D.RT_SLACK, D.HOST_CLASS, D.MEM_CAPACITY, D.MEM_SCALE]
/-- Part 5 of the dictionary. -/
def dictPart5 : List Obj :=
  [D.LINK_CAPACITY, D.LINK_SCALE, D.MEM_BW_EST, D.MEM_DEADLINE_MISSED,
   D.LINK_BW_EST, D.LINK_DEADLINE_MISSED, D.ATTACH_STATE, D.ATTACH_PORT_RESET,
   D.ATTACH_REQ_CREDITS, D.ATTACH_DOWN_CAUSE, D.ATTACH_DIE_ID, D.ATTACH_REPLAYS,
   D.ATTACH_PROTOCOL_ERR, D.ATTACH_TAGS_OUT, D.ATTACH_NTF_DROPPED, D.SITE_POWER,
   D.SITE_RAILS, D.SITE_PMAX, D.SITE_SLEW, D.SITE_CL_HOLD,
   D.SITE_OPP_CURRENT, D.SITE_FAULT_CAUSE, D.SITE_DROOP_COUNT, D.SITE_LIMIT_COUNT,
   D.SITE_SB_LOST, D.SITE_OPP, D.RAIL_VMIN, D.RAIL_VMAX,
   D.RAIL_DROOP_MV, D.RAIL_VOUT, D.RAIL_IOUT, D.RAIL_VABS,
   D.RAIL_TRIM_FACTORY, D.RAIL_TRIM_USER, D.LINK_ROUTE_AUTO, D.LINK_RETRY_PERIOD,
   D.LINK_FOM_MIN, D.LINK_IDLE_TIMEOUT, D.LINK_AUTO_RETRAIN, D.LINK_FORCE_FULL_TRAIN]
/-- Part 6 of the dictionary. -/
def dictPart6 : List Obj :=
  [D.LINK_ROUTE_HOLD, D.LINK_ROUTE_FORCED, D.LINK_STATE, D.LINK_POWER,
   D.LINK_DOWN_CAUSE, D.LINK_TRAINED_WIDTH, D.LINK_LANE_MASK, D.LINK_TRAIN_MODE_LAST,
   D.LINK_PARTNER_DEVICE, D.LINK_PARTNER_LINK, D.LINK_PARTNER_SERIAL, D.LINK_RETRAIN,
   D.LINK_RELAY, D.FIBRE_ID, D.LINK_LOCK_MODE, D.LINK_TX_IDLE,
   D.LINK_SCHED_LEAD, D.LINK_BEACON_SEEN, D.LINK_FLR_PROJ, D.LINK_REPLAYS,
   D.LINK_RETRAIN_COUNT, D.LINK_SCHED_LATE, D.LINK_STALE_RSP, D.LINK_PROTOCOL_ERR,
   D.LANE_FOM, D.LANE_BER, D.LANE_TX_COEF, D.LANE_BITSLIP,
   D.LANE_MARKER_MATCH, (D.LINK_EQ_RECORD 0), (D.LINK_EQ_RECORD 1), (D.LINK_EQ_RECORD 2),
   (D.LINK_EQ_RECORD 3), D.LINK_SNAPSHOT, D.LINK_SNAP_STATE, D.SNAP_CODEWORDS,
   D.SNAP_CORR_SYMBOLS, D.SNAP_UNCORRECTABLE, D.LINK_ROUTE, D.LASER_IN_POWER]
/-- Part 7 of the dictionary. -/
def dictPart7 : List Obj :=
  [D.OE_BIAS_FACTORY, D.OE_BIAS_USER, D.HOST_LINK_STATE, D.HOST_LINK_RATE,
   D.HOST_LINK_WIDTH, D.HOST_MAX_RATE, D.HOST_NUM_VFS, D.HOST_LINK_DOWNS,
   D.HOST_CMD_OVERRUN, D.BRIDGE_SERIAL, D.FR_VF_DROPPED, D.HOST_NOTIFY_DROPPED,
   D.HOST_FLR_COUNT, D.DEVICE_SERIAL, D.PART_NUMBER, D.DIE_STEP,
   D.DICT_VERSION, D.UTTEX_FW_VERSION, D.MGMT_MAC, D.STORE_STATE,
   D.STORE_COMMIT, D.STORE_DELAY, D.STORE_GENERATION, D.STORE_BOOT_COPY,
   D.STORE_DEFAULTS, D.STORE_COMMITS, D.PHIL_ETHERTYPE, D.PHIL_READ_AUTH,
   D.PHIL_EVENT_DEST, D.PHIL_EVENT_RETRY, D.MGMT_LINK_STATE, D.PHIL_RX_DROPPED,
   D.PHIL_AUTH_FAIL, D.PHIL_EVENT_DROPPED, D.CONFIG_LOCK, D.BOOT_NONCE,
   D.PHIL_SESSION_CTR, D.MGMT_PUBKEY, D.XSD_STRAP, D.XTAL_CHECK_COUNT]
/-- Part 8 of the dictionary. -/
def dictPart8 : List Obj :=
  [D.XTAL_ATTEMPTS, D.AO_CLOCK_SOURCE, D.FIELD_CLOCK_REQ, D.FIELD_CLOCK_STATE,
   D.FIELD_CLOCK_STATUS, D.FIELD_FREQ, D.FIELD_CLK_SRC, D.PLL_UNLOCK_COUNT,
   D.FIELD_FREQ_BOOT, D.CLK_SW_LOST, D.CLK_SW_COUNT, D.CLK_FORCED_COUNT,
   D.CKOBS_SELECT, D.CKOBS_DIV, D.CKOBS_ENABLE, D.SLICE_POWER_MODE,
   D.SLICE_POWER, D.FIELD_POWER_MODE, D.FIELD_POWER, D.DOZE_IDLE,
   D.SLEEP_IDLE, D.CHAIRLIFT_SLEW, D.CHAIRLIFT_WAITS, D.POWER_LIMIT,
   D.POWER_LIMIT_EFF, D.INPUT_POWER, D.INPUT_VOLTAGE, D.STORED_ENERGY,
   D.RETURN_MAX, D.FIELD_TEMP, D.THERMAL_VALID, D.THERMAL_HOT_C,
   D.THERMAL_MHZ, D.THERMAL_FALLBACK_ID, D.LAST_LOSS_RESULT, D.SITE_RAIL_ORDER,
   D.SITE_SEQ_GAP, D.RAIL_DIE_CAP, D.INPUT_CAP_FACTORY, D.DEVICE_RAIL_ENERGY]
/-- Part 9 of the dictionary. -/
def dictPart9 : List Obj :=
  [D.RC_TRIM_FACTORY, D.RC_TRIM_USER, D.RAIL_CAP_FACTORY, D.TSENSE_OFFSET_FACTORY,
   D.TSENSE_OFFSET_USER, D.STARTUP_REPORT, D.BOOT_STAGE, D.BOOT_HALTED,
   D.BOOT_COUNT, D.LAST_RESET_CAUSE, D.DEFECT_ENTRY, D.DEFECT_FACTORY_COUNT,
   D.DEFECT_ADDED_COUNT, D.DEFECT_ADD, D.RESET_SLICE, D.RESET_FIELD,
   D.RESET_PARTITION, D.RESET_DEVICE, D.UTTEX_WDT_MS, D.FW_BANK,
   D.FW_BANK_STATE, D.FW_BANK_SVN, D.BOOT_BANK, D.RUNNING_BANK,
   D.FW_MIN_SVN, D.MOULT_COMMAND, D.MOULT_STATE, D.MOULT_UNITS_DONE,
   D.MOULT_STATUS, D.DEVICE_ID_PUBKEY, D.DEVICE_ID_CERT, D.ATTEST_NONCE,
   D.ATTEST_REPORT, D.MEASUREMENT, D.FAULT_QUEUE_COUNT, D.FAULT_PRIO_COUNT,
   D.FAULT_OVERFLOW, D.FAULT_OVERFLOW_CLEAR, D.PART_FAULT_STATE, D.POISON_FATAL]
/-- Part 10 of the dictionary. -/
def dictPart10 : List Obj :=
  [D.FAULT_TYPE_OVERFLOW, D.FAULT_LOG_SEQ, D.FAULT_LOG_OLDEST, D.FAULT_LOG_SELECT,
   D.FAULT_LOG_ENTRY, D.FAULT_LOG_DROPPED, D.FAULT_LOG_TORN]

/-- Every object of the dictionary (R329). -/
def dictionary : List Obj := dictPart0 ++ dictPart1 ++ dictPart2 ++ dictPart3 ++ dictPart4 ++ dictPart5 ++ dictPart6 ++ dictPart7 ++ dictPart8 ++ dictPart9 ++ dictPart10

/-- The object at an index and subindex; none where no chapter defines one (R329). -/
def findObj (idx sub : Nat) : Option Obj := dictionary.find? (fun o => o.idx == idx && o.sub == sub)

end Sys2Proof.Machine
end

