-- ==== Sys2Proof/Machine/Hash.lean ====
section
/-! DEFINITION. SHAKE256 over byte strings, which the manual names and does not define: as FIPS 202 gives it (log 4). A string is its length and its
bytes as a little-endian number; so is the sponge's state of 25 lanes of 64 bits, lane x + 5·y at bit 64·(x + 5·y). -/

namespace Sys2Proof.Machine

/-- A lane rotated left by `r`. -/
def rotl64 (r v : Nat) : Nat := (v <<< r) % 2 ^ 64 ||| v >>> (64 - r)

/-- Lane `k` of the state. -/
def lane (a k : Nat) : Nat := a >>> (64 * k) % 2 ^ 64

/-- θ: each lane with the parity of two columns. -/
def keccakTheta (a : Nat) : Nat :=
  let c := (a % 2 ^ 320) ^^^ (a >>> 320 % 2 ^ 320) ^^^ (a >>> 640 % 2 ^ 320) ^^^ (a >>> 960 % 2 ^ 320) ^^^ a >>> 1280
  let d := (List.range 5).foldl (fun t x => t ||| (lane c ((x + 4) % 5) ^^^ rotl64 1 (lane c ((x + 1) % 5))) <<< (64 * x)) 0
  a ^^^ (d ||| d <<< 320 ||| d <<< 640 ||| d <<< 960 ||| d <<< 1280)

/-- The rotation of ρ for each lane, in lane order. -/
def keccakRot : List Nat := [0, 1, 62, 28, 27, 36, 44, 6, 55, 20, 3, 10, 43, 25, 39, 41, 45, 15, 21, 8, 18, 2, 61, 56, 14]

/-- ρ and π: lane (x, y) rotated, to (y, 2x + 3y). -/
def keccakRhoPi (a : Nat) : Nat :=
  (keccakRot.zip (List.range 25)).foldl (fun t e =>
    t ||| rotl64 e.1 (lane a e.2) <<< (64 * (e.2 / 5 + 5 * ((2 * (e.2 % 5) + 3 * (e.2 / 5)) % 5)))) 0

/-- χ on one plane of five lanes. -/
def keccakChi (p : Nat) : Nat :=
  let p1 := p >>> 64 ||| (p % 2 ^ 64) <<< 256
  let p2 := p >>> 128 ||| (p % 2 ^ 128) <<< 192
  p ^^^ ((p1 ^^^ (2 ^ 320 - 1)) &&& p2)

/-- The constants of ι. -/
def keccakConst : List Nat :=
  [0x0000000000000001, 0x0000000000008082, 0x800000000000808A, 0x8000000080008000, 0x000000000000808B, 0x0000000080000001,
   0x8000000080008081, 0x8000000000008009, 0x000000000000008A, 0x0000000000000088, 0x0000000080008009, 0x000000008000000A,
   0x000000008000808B, 0x800000000000008B, 0x8000000000008089, 0x8000000000008003, 0x8000000000008002, 0x8000000000000080,
   0x000000000000800A, 0x800000008000000A, 0x8000000080008081, 0x8000000000008080, 0x0000000080000001, 0x8000000080008008]

/-- One round. -/
def keccakRound (a rc : Nat) : Nat :=
  let b := keccakRhoPi (keccakTheta a)
  (List.range 5).foldl (fun t y => t ||| keccakChi (b >>> (320 * y) % 2 ^ 320) <<< (320 * y)) 0 ^^^ rc

/-- The rounds in order. -/
def keccakRounds : List Nat → Nat → Nat
  | [], a => a
  | rc :: l, 0 => keccakRounds l (keccakRound 0 rc)
  | rc :: l, a + 1 => keccakRounds l (keccakRound (a + 1) rc)

/-- The sponge takes `n` blocks of 136 bytes. -/
def keccakAbsorb : Nat → Nat → Nat → Nat
  | 0, a, _ => a
  | n + 1, 0, x => keccakAbsorb n (keccakRounds keccakConst (x % 2 ^ 1088)) (x >>> 1088)
  | n + 1, a + 1, x => keccakAbsorb n (keccakRounds keccakConst ((a + 1) ^^^ x % 2 ^ 1088)) (x >>> 1088)

/-- The first `out` bytes (at most 136) of SHAKE256 of the `len` bytes `x`. -/
def shake256Of (out len x : Nat) : Nat :=
  let n := len / 136 + 1
  let m := x % 2 ^ (8 * len) ^^^ 0x1F <<< (8 * len) ^^^ 0x80 <<< (8 * (136 * n - 1))
  keccakAbsorb n 0 m % 2 ^ (8 * out)

/-- SHAKE256 with a 64-byte output. -/
def shake256 (len x : Nat) : Nat := shake256Of 64 len x

end Sys2Proof.Machine
end

