-- ==== Sys2Proof/Machine/Ed448.lean ====
section
/-! DEFINITION. Ed448, which the manual names and does not define (R353, R412): as RFC 8032 gives it, with an empty context (log 4). Keys and
signatures are little-endian numbers of 57 and 114 bytes. -/

namespace Sys2Proof.Machine

/-- The prime of the field, the curve's d, and the order of its base point. -/
def edP : Nat := 2 ^ 448 - 2 ^ 224 - 1
def edD : Nat := edP - 39081
def edL : Nat := 2 ^ 446 - 0x8335DC163BB124B65129C96FDE933D8D723A70AADC873D6D54A7BB0D

/-- A point in projective coordinates. -/
structure EdPoint where
  x : Nat
  y : Nat
  z : Nat
  deriving DecidableEq, Repr

/-- The neutral element and the base point. -/
def edZero : EdPoint := { x := 0, y := 1, z := 1 }
def edBase : EdPoint :=
  { x := 224580040295924300187604334099896036246789641632564134246125461686950415467406032909029192869357953282578032075146446173674602635247710,
    y := 298819210078481492676017930443930673437544040154080242095928241372331506189835876003536878655418784733982303233503462500531545062832660,
    z := 1 }

/-- `a` minus `b` in the field. -/
def edSub (a b : Nat) : Nat := (a + edP - b % edP) % edP

/-- The sum of two points; the law is complete, so that it doubles as well. -/
def edAdd (p q : EdPoint) : EdPoint :=
  let a := p.z * q.z % edP
  let b := a * a % edP
  let c := p.x * q.x % edP
  let d := p.y * q.y % edP
  let e := edD * c % edP * d % edP
  let f := edSub b e
  let g := (b + e) % edP
  let h := (p.x + p.y) * (q.x + q.y) % edP
  { x := a * f % edP * edSub (edSub h c) d % edP, y := a * g % edP * edSub d c % edP, z := f * g % edP }

/-- `r` doubled and added to, by the low `n` bits of `k`, highest first. -/
def edMulFrom : Nat → Nat → EdPoint → EdPoint → EdPoint
  | 0, _, _, r => r
  | n + 1, k, p, r => edMulFrom n k p (let t := edAdd r r; if bit k n then edAdd t p else t)

/-- `k` times a point. -/
def edMul (k : Nat) (p : EdPoint) : EdPoint := edMulFrom 456 k p edZero

/-- `r` squared and multiplied by, by the low `n` bits of `e`, highest first. -/
def powFrom (m b e : Nat) : Nat → Nat → Nat
  | 0, r => r
  | n + 1, r => powFrom m b e n (if bit e n then r * r % m * b % m else r * r % m)

/-- A power in the field. -/
def edPow (b e : Nat) : Nat := powFrom edP b e 448 1

/-- The 57 bytes of a point. -/
def edEncode (p : EdPoint) : Nat :=
  let i := edPow p.z (edP - 2)
  p.y * i % edP + (p.x * i % edP % 2) * 2 ^ 455

/-- The point 57 bytes stand for, if any. -/
def edDecode (v : Nat) : Option EdPoint :=
  let y := v % 2 ^ 455
  let odd := v / 2 ^ 455 % 2
  let u := edSub (y * y) 1
  let w := edSub (edD * (y * y % edP)) 1
  let u3 := u * u % edP * u % edP
  let x := u3 * w % edP * edPow (u3 * u % edP * u % edP * (w * w % edP) % edP * w) ((edP - 3) / 4) % edP
  if edP ≤ y || w * (x * x % edP) % edP != u then none
  else if x = 0 && odd == 1 then none
  else some { x := if x % 2 = odd then x else edP - x, y := y, z := 1 }

/-- Two points are equal. -/
def edSame (p q : EdPoint) : Bool := p.x * q.z % edP == q.x * p.z % edP && p.y * q.z % edP == q.y * p.z % edP

/-- The digest of RFC 8032: SHAKE256 with 114 bytes of output over SigEd448, two bytes of zero, and the string. -/
def edDigest (len x : Nat) : Nat := shake256Of 114 (10 + len) (4049919570178697555 + x * 2 ^ 80)

/-- The secret scalar of a private key, and the half that seeds its signatures. -/
def edSecret (sk : Nat) : Nat × Nat :=
  let h := shake256Of 114 57 sk
  (h % 2 ^ 447 / 4 * 4 + 2 ^ 447, h / 2 ^ 456)

/-- The public key of a private key. -/
def ed448Public (sk : Nat) : Nat := edEncode (edMul (edSecret sk).1 edBase)

/-- The signature of the `len` bytes `x`. -/
def ed448Sign (sk len x : Nat) : Nat :=
  let s := edSecret sk
  let m := x % 2 ^ (8 * len)
  let r := edDigest (57 + len) (s.2 + m * 2 ^ 456) % edL
  let big := edEncode (edMul r edBase)
  let k := edDigest (114 + len) (big + ed448Public sk * 2 ^ 456 + m * 2 ^ 912) % edL
  big + ((r + k * s.1) % edL) * 2 ^ 456

/-- A signature of the `len` bytes `x` verifies under a public key. -/
def ed448Verify (key len x sig : Nat) : Bool :=
  let s := sig / 2 ^ 456
  let k := edDigest (114 + len) (sig % 2 ^ 456 + key % 2 ^ 456 * 2 ^ 456 + x % 2 ^ (8 * len) * 2 ^ 912) % edL
  match edDecode (key % 2 ^ 456), edDecode (sig % 2 ^ 456) with
  | some a, some r => decide (s < edL) && edSame (edMul s edBase) (edAdd r (edMul k a))
  | _, _ => false

end Sys2Proof.Machine
end

