-- ==== Sys2Proof/Machine/State.lean ====
section
/-! DEFINITION. The state of the block as plain data. Every object of the dictionary has its home in `objs` (INVENTORY.md, State);
what is no object has a field of its own. -/

namespace Sys2Proof.Machine

/-- Why the block stops. No command of this block stops: every error the spec gives is a status, a record or an event. -/
inductive Fault where
  /-- Never raised: kept so that the type is not empty. Safe. -/
  | never
  deriving DecidableEq, Repr

/-- Why a command is refused. -/
inductive Refusal where
  /-- A command whose meaning is not written yet. Safe. -/
  | notModelled (mnemonic : String)
  deriving DecidableEq, Repr

/-- What the device sends or answers (log 9). -/
inductive Out where
  /-- a response on the RSP channel: header and payload (R259). -/
  | rsp (port hdr payload : Nat)
  /-- a notification on the NTF channel (R262). -/
  | ntf (port hdr payload : Nat)
  /-- an attach flit header the device sends: NAK or ACK (R255). -/
  | attachFlit (port hdr : Nat)
  /-- DATA flits resent from a sequence number (R255). -/
  | attachResend (port fromSeq count : Nat)
  /-- a completion TLP: 0 success, 1 Unsupported Request, 2 Completer Abort; poisoned; data (Table 12.3). -/
  | hostCpl (f tag cpl : Nat) (poisoned : Bool) (len data : Nat)
  /-- an AER log entry of a posted write: 1 Unsupported Request, 2 Completer Abort, 3 poisoned TLP (Table 12.3). -/
  | aer (f kind : Nat)
  /-- an MSI-X message (Table 12.7). -/
  | msix (f vector : Nat)
  /-- a write to host memory: fault ring entries and shadows (R321). -/
  | hostWrite (addr len data : Nat)
  /-- a message put on a link: header, deadline extension, payload (R296). -/
  | linkMsg (n hdr ext payload : Nat)
  /-- a control block or other chunk put on a link (R297, R215). -/
  | linkChunk (n chunk : Nat)
  /-- the 12 training codewords that end electrical idle (R294). -/
  | linkBurst (n : Nat)
  /-- flits resent on a link from a sequence number (R282). -/
  | linkResend (n fromSeq count : Nat)
  /-- a sideband frame of a site (Table 10.9). -/
  | sideband (n frame : Nat)
  /-- the SDROOP signal of a site (R273). -/
  | sdroop (n : Nat) (level : Bool)
  /-- the answer to an object access: status, value length and value (R350). -/
  | od (status len val : Nat)
  /-- a Phildofel frame: destination, payload length, payload bytes (R349). -/
  | phil (dst len bytes : Nat)
  /-- the answer to a register read of a function (R318). -/
  | reg (f len val : Nat)
  deriving DecidableEq, Repr

/-- Who sent a request and how it is answered. -/
inductive Origin where
  /-- an attach message: port and tag (R265). -/
  | attach (port tag : Nat)
  /-- a non-posted host request: function and PCIe tag (R314). -/
  | host (f tag : Nat)
  /-- a posted host write. -/
  | hostPosted (f : Nat)
  /-- a host command slot (R319). -/
  | hostCmd (f slot : Nat)
  /-- a request of a transfer engine for a ring, for its descriptor index (R132). -/
  | te (ring desc : Nat)
  /-- a request that arrived on a link: link and its routed header, for the response (R304). -/
  | link (n hdr : Nat)
  /-- an object write that waits (R228). -/
  | od
  /-- a remote write of an ALL_GATHER sweep: its partition, the rank of the receiver, and the T of the sweep (R141). -/
  | sweep (part rank time : Nat)
  /-- a piece of a longer request that its ingress split at line boundaries (R55): the longer request and the byte offset. -/
  | split (parent off : Nat)
  /-- the requester is gone; the response is discarded (R258, R326). -/
  | gone
  deriving DecidableEq, Repr

/-- What a data-path request asks (Table 10.6). -/
inductive ReqKind where
  | read | write | atomic | prefetch | fmtRead | fmtWrite | scaledAcc | range | fence | doorbell
  deriving DecidableEq, Repr

/-- Where a request stands. -/
inductive Stage where
  /-- held at its ingress before the window check (R247, R266, R315). -/
  | held
  /-- parked on a fault record (R38). -/
  | parked (fid : Nat)
  /-- in the mesh on its way to its owner slice. -/
  | mesh
  /-- at its owner slice or the ring engine, not yet at the ordering point. -/
  | slice
  /-- past the ordering point and waiting on a line: miss, busy or hot-line buffer. -/
  | waiting
  /-- in the replay queue of its slice (R70). -/
  | replay
  /-- with the link layer, for a remote device (R24). -/
  | link (n : Nat)
  deriving DecidableEq, Repr

/-- One request. -/
structure Req where
  origin : Origin
  kind : ReqKind
  /-- requester group (R34) and SOURCE of Table 2.7. -/
  group : Nat
  source : Nat
  part : Nat
  cls : Nat
  deadline : Option Nat
  /-- device number and local address (Table 2.1). -/
  dev : Nat
  addr : Nat
  /-- bytes of data; for format requests b0. -/
  len : Nat
  /-- ATTR of Table 10.6: operation, type and FETCH; descriptor and n − 1; RANGE operation. -/
  attr : Nat
  data : Nat
  /-- the write carries poison (R296, ATTR[0]). -/
  poison : Bool
  /-- the request carries Relaxed Ordering (R315). -/
  relaxed : Bool
  epoch : Nat
  /-- place in the order of window checks (R46). -/
  order : Nat
  stage : Stage
  /-- REQ chunks the message still holds (R256). -/
  chunks : Nat
  /-- RANGE: the slices whose parts still run, and the record so far (R74, R76); a split request: its pieces and the data so far. -/
  parts : List Nat
  record : Nat
  status : Nat
  deriving DecidableEq, Repr

/-- A window miss record that still names parked requests or is unresolved (R39). -/
structure Miss where
  fid : Nat
  group : Nat
  granule : Nat
  resolved : Bool
  deriving DecidableEq, Repr

/-- Who waits for a window command, a re-binding or another waiting write. -/
inductive Reply where
  | hostCmd (f slot : Nat)
  | od
  | none
  deriving DecidableEq, Repr

/-- A window command in its partition's order (R42). -/
inductive WCmd where
  | install (group index entry fid : Nat)
  | withdraw (group index : Nat)
  | deny (fid : Nat)
  /-- PART_ENABLE FALSE (R32). -/
  | disable
  /-- clearing the partition's bit of LINK_PART_MASK of a link (R49). -/
  | linkMask (n : Nat)
  /-- the drain of a stopping partition (R424). -/
  | stop
  /-- the drain of a partition reset (R404). -/
  | reset
  deriving DecidableEq, Repr

/-- A partition beside its objects. -/
structure Part where
  /-- next FAULT_ID (R39). -/
  nextFid : Nat
  /-- the two areas of its fault queue, oldest first (R421). -/
  normal : List Nat
  prio : List Nat
  misses : List Miss
  /-- the unacknowledged withdrawal: the command, its reply and the epoch being drained (R45). -/
  drain : Option (WCmd × Reply × Nat)
  /-- window commands waiting behind it (R42). -/
  wcmds : List (WCmd × Reply)
  /-- gate time of the last FAULT_OVERFLOW event (R422). -/
  lastOvf : Option Nat
  deriving DecidableEq, Repr

def Part.init : Part := { nextFid := 1, normal := [], prio := [], misses := [], drain := none, wcmds := [], lastOvf := none }

/-- A re-binding in progress (Table 2.9): the drain of step 3 is over or not. -/
structure Rebind where
  res : Resource
  old : Nat
  new : Nat
  drained : Bool
  deriving DecidableEq, Repr

/-- An event waiting for acknowledgement (R355). -/
structure EvRec where
  seq : Nat
  word : Nat
  sends : Nat
  deriving DecidableEq, Repr

/-- A persistent log entry waiting to be written, or written (Table 16.7). -/
structure LogEnt where
  kind : Nat
  mask : Nat
  body : Nat
  boot : Nat
  deriving DecidableEq, Repr

/-- An attach port beside its objects (R254 to R258). -/
structure Port where
  /-- SEQ of the next DATA flit sent and expected; last in-order SEQ accepted by the die. -/
  txSeq : Nat
  rxSeq : Nat
  dieAck : Nat
  /-- a discard episode is open (R255). -/
  nakSent : Bool
  /-- the ACK value and count of the NAKs in a row. -/
  nakAck : Nat
  nakRun : Nat
  /-- flits received since the last ACK sent. -/
  sinceAck : Nat
  /-- unacknowledged DATA flits the device keeps. -/
  unacked : Nat
  /-- REQ chunks received and freed since ACTIVE (credit R256). -/
  reqRx : Nat
  reqFreed : Nat
  /-- NTF chunks sent, and freed by the die; credits granted in PARAM. -/
  ntfTx : Nat
  ntfFreed : Nat
  ntfGrant : Nat
  /-- notifications held, in order: header and payload. -/
  ntfs : List (Nat × Nat)
  /-- chunks received past the last whole message, lowest first. -/
  stream : List Nat
  /-- a port being reset, with the running credit count it stopped at (R258). -/
  resetting : Option Nat
  /-- messages held behind a FENCE, a re-binding or a stop, in order (R266, R48). -/
  held : List Msg
  deriving DecidableEq, Repr

/-- The values of Table 10.2. -/
def Port.init : Port :=
  { txSeq := 0, rxSeq := 0, dieAck := 0xFFF, nakSent := false, nakAck := 0xFFF, nakRun := 0, sinceAck := 0, unacked := 0, reqRx := 0,
    reqFreed := 0, ntfTx := 0, ntfFreed := 0, ntfGrant := 0, ntfs := [], stream := [], resetting := none, held := [] }

/-- Why the rails of a site move. -/
inductive SiteRun where
  /-- settled. -/
  | idle
  /-- SITE_POWER 1: rails rise in order; the rail rising now, and the rails after it (R380). -/
  | up (now : Nat) (rest : List Nat)
  /-- rails fall in order, to this SITE_POWER value (R275, R380). -/
  | down (now : Nat) (rest : List Nat) (last : Nat)
  /-- waiting SITE_SEQ_GAP before the next rail. -/
  | upGap (rest : List Nat)
  | downGap (rest : List Nat) (last : Nat)
  /-- transition j to k, rails still to settle upwards (R272 step 1). -/
  | raise (k : Nat) (seq : Nat) (rails : List Nat)
  /-- VF_GRANT sent (step 2). -/
  | granted (k : Nat) (raised : Bool)
  /-- rails still to settle downwards (step 4). -/
  | lower (k : Nat) (rails : List Nat)
  deriving DecidableEq, Repr

/-- A compute site beside its objects (R268 to R275). -/
structure Site where
  run : SiteRun
  /-- per rail: VOLT target in mV (0 off) and current limit in A. -/
  volt : List Nat
  limit : List Nat
  /-- next SEQ of the device, SEQ and answer of the last die frame. -/
  seq : Nat
  lastSeq : Option Nat
  /-- 0 while the answer is still to come. -/
  lastAns : Nat
  /-- unacknowledged device frames: frame and sends. -/
  unacked : List (Nat × Nat)
  droop : Bool
  deriving DecidableEq, Repr

def Site.init : Site :=
  { run := .idle, volt := List.replicate 8 0, limit := List.replicate 8 0, seq := 0, lastSeq := none, lastAns := 0, unacked := [],
    droop := false }

/-- A message waiting to be sent on a link (R299): its step in that order (1 LINK_ACK to 5 regulated), header, extension, payload, class
and deadline. -/
structure TxMsg where
  step : Nat
  hdr : Nat
  ext : Nat
  payload : Nat
  cls : Nat
  deadline : Option Nat
  deriving DecidableEq, Repr

/-- The result of a request of a transfer engine, waiting for TE_REQUEST_DONE (R132). -/
structure TeDone where
  ring : Nat
  desc : Nat
  rid : Nat
  status : Nat
  data : Nat
  deriving DecidableEq, Repr

/-- A stride unit (R175): source and destination endpoints (64·node + 4·port + sub), class, partition, and the requests it carries; a
reduction unit also carries its contributor bitmap and its merged operands (R200). -/
structure MUnit where
  src : Nat
  dst : Nat
  cls : Nat
  part : Nat
  rids : List Nat
  bitmap : Nat
  /-- merged partial results per element (None: none yet) by element number of the 512-byte unit. -/
  merged : List (Nat × Option Nat)
  deriving DecidableEq, Repr

/-- The counters, sticky flags and amax of a (slice, partition, flow) (R110); amax as binary32 bits. -/
structure FlowCnt where
  flags : Nat
  blocks : Nat
  clip : Nat
  raised : Nat
  ovf : Nat
  underflow : Nat
  nanBlocks : Nat
  infs : Nat
  resv : Nat
  amax : Nat
  deriving DecidableEq, Repr

def FlowCnt.zero : FlowCnt :=
  { flags := 0, blocks := 0, clip := 0, raised := 0, ovf := 0, underflow := 0, nanBlocks := 0, infs := 0, resv := 0, amax := 0 }

/-- One way of the tag array with its data (Table 3.2); `line` is the channel line number, `src` and `dist` SOURCE and DIST; valid, dirty
and poison have a bit per sector. -/
structure Line where
  line : Nat
  src : Nat
  dist : Nat
  valid : Nat
  dirty : Nat
  poison : Nat
  lock : Bool
  lockPart : Nat
  prefetched : Bool
  abusy : Bool
  cls : Nat
  data : Nat
  deriving DecidableEq, Repr

/-- A miss register (R68, R69): the line, the sectors still to arrive and those handed to the channel, the line buffer (arrived sectors,
poison, bytes merged by writes), the merged writes, the waiting entries (each a list of requests that have combined, R120), the reads in
swarm mode, and whether it was allocated by a prefetch, by a range lock, or without a way in a lost set (R65). -/
structure MissReg where
  line : Nat
  src : Nat
  dist : Nat
  cls : Nat
  part : Nat
  deadline : Option Nat
  prefetch : Bool
  lockPart : Option Nat
  noAlloc : Bool
  want : Nat
  sent : Nat
  have_ : Nat
  pois : Nat
  data : Nat
  mask : Nat
  merged : List Nat
  waiters : List (List Nat)
  swarm : List Nat
  deriving DecidableEq, Repr

/-- A victim buffer entry (R72, R82): the line, and whether its writeback has been issued or cancelled. -/
structure Victim where
  line : Line
  issued : Bool
  /-- requests waiting for the acknowledgement (R82). -/
  waiters : List Nat
  deriving DecidableEq, Repr

/-- A hot-line buffer (R123): the line and the requests of its combined entry. -/
structure HotBuf where
  line : Nat
  src : Nat
  dist : Nat
  rids : List Nat
  deriving DecidableEq, Repr

/-- The cache section of a physical slice (Table 3.1): keys 0 to 1023 are the slices of the boot placement, 1024 + j is spare SPj (R107). -/
structure Slice where
  /-- 16·set + way. -/
  tags : List (Nat × Option Line)
  /-- tree pseudo-LRU bits per set: bit n of node n of the 15-node tree. -/
  plru : List (Nat × Nat)
  lost : List Nat
  miss : List MissReg
  victims : List Victim
  replay : List Nat
  dead : List Nat
  /-- requests waiting for atomic-busy to clear, in order; each entry is a list of requests that have combined (R119, R120). -/
  busyQ : List (List Nat)
  /-- line key and count, least recently incremented first (R122). -/
  hotCounts : List (Nat × Nat)
  /-- hot lines with the intervals left (R122). -/
  hot : List (Nat × Nat)
  hotBufs : List HotBuf
  /-- gate time of the last HOT_LINE event. -/
  hotEvent : Option Nat
  rngX : Nat
  rngK : Nat
  failed : Bool
  /-- reduction units that have reached the slice (R201). -/
  units : List MUnit
  deriving DecidableEq, Repr

def Slice.init : Slice :=
  { tags := [], plru := [], lost := [], miss := [], victims := [], replay := [], dead := [], busyQ := [], hotCounts := [], hot := [],
    hotBufs := [], hotEvent := none, rngX := 0, rngK := 0, failed := false, units := [] }

/-- A read of a channel: the cache section and line it fills, its line number in the channel that backs it, its sectors, its class
and deadline, and the gate time it was queued (R149, R151). -/
structure RdEnt where
  key : Nat
  n : Nat
  src : Nat
  dist : Nat
  line : Nat
  phys : Nat
  sectors : Nat
  cls : Nat
  deadline : Option Nat
  at_ : Nat
  deriving DecidableEq, Repr

/-- A write of a channel that has been issued (R82): its line number, sectors, class and the gate time it was queued. The bytes are in
memory already, as every later read of them is served from the queue (R151). -/
structure WrEnt where
  line : Nat
  sectors : Nat
  cls : Nat
  at_ : Nat
  deriving DecidableEq, Repr

/-- A pseudo-channel 2·c + h (Table 6.2): its queues, the sectors read and not yet returned, whether writes are draining, the open row and
the activate count per bank, the gate times of the last four activates, and whether it is being retrained (R162). -/
structure Pc where
  rd : List RdEnt
  wr : List WrEnt
  back : List RdEnt
  drain : Bool
  rows : List (Nat × Option Nat)
  acts : List (Nat × Nat)
  actTimes : List Nat
  retrain : Bool
  deriving DecidableEq, Repr

def Pc.init : Pc :=
  { rd := [], wr := [], back := [], drain := false, rows := [], acts := [], actTimes := [], retrain := false }

/-- A channel beside its objects: next sector of the scrub, units initialised, the donor of a migration, whether its controller has failed, and the start of its 24 h count (R171): gate time, HBM_CE_COUNT and
HBM_UE_COUNT there. -/
structure Chan where
  scrub : Nat
  inited : Nat
  mig : Option Nat
  dead : Bool
  dayStart : Nat
  dayCe : Nat
  dayUe : Nat
  deriving DecidableEq, Repr

def Chan.init : Chan :=
  { scrub := 0, inited := 0, mig := none, dead := false, dayStart := 0, dayCe := 0, dayUe := 0 }

/-- What the stack's ID data say of refresh management (R155): threshold and reduction of the activate count. -/
structure Rfm where
  threshold : Nat
  reduce : Nat
  deriving DecidableEq, Repr

/-- The time exchange of a link (R215 to R217): the number of the last request, t1 once it has been sent, t2 and t4 of the reply that waits for
its follow-up, whether the partner has replied, and the state, hop count and error bound of its last reply. `off2` is twice the last offset. -/
structure Tmx where
  seq : Nat
  open_ : Bool
  t1 : Option Nat
  t2 : Nat
  t4 : Nat
  wait : Bool
  known : Bool
  state : Nat
  hops : Nat
  err : Nat
  off2 : Option Int
  deriving DecidableEq, Repr

def Tmx.init : Tmx :=
  { seq := 0, open_ := false, t1 := none, t2 := 0, t4 := 0, wait := false, known := false, state := 0, hops := 15, err := 0xFFFFFFFF,
    off2 := none }

/-- A link beside its objects (chapter 11): the training phase, its RX_LANE_OK, the MEASURE runs that failed, whether EQ ran in full, the record
EQ will save (band, length, value), and the width the link had before; SEQ of the next flit sent and chunks placed in it, last SEQ the partner
accepted; next SEQ expected, an open discard episode, a NAK due, flits received and gate time since the last LINK_ACK sent; the ACK and count
of NAKs in a row; chunks and units sent, freed by the partner, and freed here (R298); chunks received past the last whole message;
the drain of LINK_POWER 2; codewords and uncorrectable codewords by lane (R307). -/
structure Lnk where
  phase : Nat
  rxOk : Nat
  runs : Nat
  full : Bool
  save : Option (Nat × Nat × Nat)
  lastWidth : Nat
  txSeq : Nat
  txPos : Nat
  txAck : Nat
  rxSeq : Nat
  episode : Bool
  nakDue : Bool
  sinceAck : Nat
  ackTime : Nat
  nakAck : Nat
  nakRun : Nat
  reqTx : Nat
  rspTx : Nat
  schedTx : Nat
  reqCr : Nat
  rspCr : Nat
  schedCr : Nat
  reqFree : Nat
  rspFree : Nat
  schedFree : Nat
  stream : List Nat
  draining : Bool
  lanes : List (Nat × Nat × Nat)
  /-- LINK_FOM_MIN, LINK_FORCE_FULL_TRAIN and FIBRE_ID as this training took them; the band of the last EQ; lane offsets of software lock
  (R287, R288). -/
  fomMin : Nat
  forceFull : Bool
  fibre : Nat
  band : Nat
  offs : List (Nat × Nat)
  /-- a LINK_IDLE launch has acted and the link is not idle yet (R225, R294). -/
  idleAsk : Bool
  tmx : Tmx
  deriving DecidableEq, Repr

/-- The values of Table 11.8 and of a link that has not trained. -/
def Lnk.init : Lnk :=
  { phase := 0, rxOk := 0, runs := 0, full := false, save := none, lastWidth := 0, txSeq := 0, txPos := 0, txAck := 0xFFF, rxSeq := 0,
    episode := false, nakDue := false, sinceAck := 0, ackTime := 0, nakAck := 0, nakRun := 0, reqTx := 0, rspTx := 0, schedTx := 0,
    reqCr := 0, rspCr := 0, schedCr := 0, reqFree := 0, rspFree := 0, schedFree := 0, stream := [], draining := false,
    lanes := [], fomMin := 0, forceFull := false, fibre := 0, band := 0, offs := [], idleAsk := false, tmx := .init }

/-- A field clock beside its objects (R365 to R379): the requested frequency in MHz, whether its PLL has lost lock, whether its switch waits on
the old clock, the thermal cap, and a frequency to take at the next wake. -/
structure Clk where
  target : Nat
  unlocked : Bool
  waiting : Bool
  capped : Bool
  atWake : Option Nat
  deriving DecidableEq, Repr

def Clk.init : Clk := { target := 2000, unlocked := false, waiting := false, capped := false, atWake := none }

/-- A launch held by this device (R222 to R230): the record, its stamp, its T, the targets that have still to act, the first status met
and the largest lateness. -/
structure Launch where
  rec256 : Nat
  part : Nat
  time : Nat
  targets : List Nat
  /-- received on a link from another device: no DONE_TARGET (R227). -/
  remote : Bool
  status : Nat
  late : Nat
  missed : Bool
  /-- wake asked of the chairlift (R226). -/
  woken : Bool
  deriving DecidableEq, Repr

/-- A launch or cancel forwarded to another device, waiting for its answer, by its request table entry (R227, R228). -/
structure Forward where
  /-- its request-table entry (R303), 2^18 while it waits for one. -/
  key : Nat
  cancel : Bool
  id : Nat
  rec256 : Nat
  part : Nat
  dev : Nat
  cls : Nat
  priv : Bool
  origin : Origin
  deriving DecidableEq, Repr

/-- A launch another device has accepted from this one (R227, R228): the receiver's LAUNCH_ID, the device, the stamp and the T. -/
structure FarLaunch where
  id : Nat
  dev : Nat
  part : Nat
  time : Nat
  deriving DecidableEq, Repr

/-- Gate time beside its objects (R208 to R221): consecutive good offsets, the gate time HOLDOVER was entered, the step that waits for a sync
word, fields whose taps wait for one, whether qualifying partners disagree; the PTP time transmitter (priority, identity), t1 and t2 of its last
Sync, whether a correction has been made since reset; and the gate time of the last GATE_LAUNCH_MISSED event. -/
structure Gsv where
  lock : Nat
  holdAt : Nat
  step : Option Int
  stale : List Nat
  conflict : Bool
  master : Option (Nat × Nat)
  ptpT1 : Option Nat
  ptpT2 : Option Nat
  corrected : Bool
  missEv : Option Nat
  deriving DecidableEq, Repr

def Gsv.init : Gsv :=
  { lock := 0, holdAt := 0, step := none, stale := [], conflict := false, master := none, ptpT1 := none, ptpT2 := none, corrected := false,
    missEv := none }

/-- Where a descriptor in flight stands: between requests, reading, writing, waiting for gate time, finished with a status, or with its
completion entry being written. -/
inductive DescSt where
  | ready | reading | writing | gateWait
  | done (st : Nat)
  | entry (st : Nat)
  deriving DecidableEq, Repr

/-- A descriptor in flight (R129 to R133): its index and 64 bytes, the work done (bytes or blocks), the work of the group in hand and the
bytes of it moved, the data read, whether anything met poison, and PARTIAL_BEYOND with the RANGE record. -/
structure Desc where
  idx : Nat
  word : Nat
  st : DescSt
  pos : Nat
  unit : Nat
  sub : Nat
  data : Nat
  hot : Bool
  poisoned : Bool
  beyond : Bool
  detail : Nat
  deriving DecidableEq, Repr

/-- A ring beside its context (R130): descriptors fetched and in flight, and the waiting disable. -/
structure Ring where
  fetched : List (Nat × Nat)
  active : List Desc
  fetching : Bool
  disabling : Option Origin
  /-- the ring stops once its descriptors in flight are done: index and status (R132). -/
  stopAt : Option (Nat × Nat)
  deriving DecidableEq, Repr

def Ring.init : Ring := { fetched := [], active := [], fetching := false, disabling := none, stopAt := none }

/-- A sweep of a partition (R136 to R144): its command and T, the slices still at work with the next item of their walk, the holes when it
started (its shares stay as they were), lines and units done, the status that ends it early, whether anything met poison, the window
epoch when it was accepted, and the statistics. -/
structure SweepRun where
  cmd : Nat
  time : Nat
  work : List (Nat × Nat)
  holes : List Nat
  linesDone : Nat
  unitsDone : Nat
  early : Nat
  poisoned : Bool
  epoch : Nat
  amax : Nat
  /-- STATS: per slice its SUM and SUMSQ as binary64 bits. -/
  sums : List (Nat × Nat × Nat)
  cntNan : Nat
  cntZero : Nat
  /-- ALL_GATHER: bytes received per rank, and lines of the own contribution that each rank acknowledged. -/
  recv : List (Nat × Nat)
  acks : List (Nat × Nat)
  deriving DecidableEq, Repr

/-- A lap table (Table 7.4): its identity, lap length, the pace of each field, the declared width of each link, TAIL, the flow and
reduction records, the entries by 1024·stride + router, and the digest it was compiled for. -/
structure LapTable where
  id : Nat
  len : Nat
  pace : List Nat
  width : List Nat
  tail : Nat
  flows : List Nat
  reds : List Nat
  entries : List (Nat × Nat)
  topo : Nat
  deriving DecidableEq, Repr

/-- An armed change of the active table (R189 to R192, R198): the kind, its T, whether injections have stopped, and for a fallback the field
clock request behind it. -/
inductive LapKind where
  | switch | unload | resume
  deriving DecidableEq, Repr

structure LapOp where
  kind : LapKind
  time : Nat
  tail : Bool
  clock : Bool
  deriving DecidableEq, Repr

/-- A fault ring of a function (R321). -/
structure FaultRing where
  base : Nat
  shadow : Nat
  sizeLog2 : Nat
  cons : Nat
  prod : Nat
  deriving DecidableEq, Repr

def FaultRing.init : FaultRing := { base := 0, shadow := 0, sizeLog2 := 0, cons := 0, prod := 0 }

/-- A command slot (R319): OWN, the header and payload last written, response data and response word. -/
structure Slot where
  own : Bool
  hdr : Nat
  payload : Nat
  resp : Nat
  status : Nat
  deriving DecidableEq, Repr

def Slot.init : Slot := { own := false, hdr := 0, payload := 0, resp := 0, status := 0 }

/-- A PCIe function of the host port (Table 12.4). -/
structure HostFn where
  rings : List (Nat × FaultRing)
  slots : List (Nat × Slot)
  /-- MBX_STATUS state (0 idle, 1 busy, 2 done), response length and bytes. -/
  mbx : Nat
  mbxLen : Nat
  mbxRsp : Nat
  /-- NLOG entries and NLOG_PROD. -/
  nlog : List (Nat × Nat)
  nlogProd : Nat
  /-- the captured GATE_NOW (R324). -/
  gateCap : Nat
  /-- MSI-X table bytes. -/
  msix : List (Nat × Nat)
  deriving DecidableEq, Repr

def HostFn.init : HostFn :=
  { rings := [], slots := [], mbx := 0, mbxLen := 0, mbxRsp := 0, nlog := [], nlogProd := 0, gateCap := 0, msix := [] }

/-- An operation of a transaction (Table 13.9): its head's fields and its data. -/
structure OdOp where
  op : Nat
  last : Bool
  index : Nat
  inst : Nat
  sub : Nat
  len : Nat
  offset : Nat
  data : Nat
  deriving DecidableEq, Repr

/-- Who sent a transaction: a Phildofel source (MAC, signed), or the mailbox of a function. -/
inductive OdFrom where
  | phil (mac : Nat) (signed : Bool)
  | mailbox (f : Nat)
  /-- a function that has been reset since; the response is discarded (R326). -/
  | gone (f : Nat)
  deriving DecidableEq, Repr

/-- The transaction the controller runs (R336): the 24-byte header, the operations still to run, the operations done with status and
returned data, and the result of the one that has just run or waits. -/
structure OdRun where
  src : OdFrom
  hdr : Nat
  todo : List OdOp
  cur : Option OdOp
  done : List (OdOp × Nat × Nat × Nat)
  result : Option (Nat × Nat × Nat)
  deriving DecidableEq, Repr

/-- A staged value (R350): its source, its object and the bytes so far. -/
structure Staged where
  src : SegSrc
  obj : ObjAddr
  val : OdVal
  deriving DecidableEq, Repr

/-- Values and lengths of Stored objects as a commit captures them. -/
structure Body where
  objs : List (Nat × List (Nat × Nat))
  lens : List (Nat × List (Nat × Nat))
  deriving DecidableEq, Repr

/-- A copy of the object store (R340): MAGIC correct, valid, GENERATION, and the body. -/
structure StoreCopy where
  magic : Bool
  valid : Bool
  gen : Nat
  body : Body
  deriving DecidableEq, Repr

/-- A commit under way (R339): the copy it writes (false A, true B), the body captured, and the writes of STORE_COMMIT that wait on it. -/
structure Commit where
  copyB : Bool
  body : Body
  waits : Bool
  deriving DecidableEq, Repr

/-- The MRAM object store: both copies, the commit under way, whether writes are pending, whether a STORE_COMMIT waits for the next commit,
whether the store is sealed (R342), whether a commit of an empty body is due, and the working copy at the last STORE_DEFAULTS with the objects
written since (R344). -/
structure Store where
  a : StoreCopy
  b : StoreCopy
  commit : Option Commit
  dirty : Bool
  again : Bool
  sealed : Bool
  empty : Bool
  base : Option Body
  since : List (Nat × Nat)
  deriving DecidableEq, Repr

def StoreCopy.blank : StoreCopy := { magic := false, valid := false, gen := 0, body := { objs := [], lens := [] } }

def Store.init : Store := { a := .blank, b := .blank, commit := none, dirty := false, again := false, sealed := false, empty := false, base := none, since := [] }

/-- What an owner slice of a range operation has still to do (R74): the request, the slice, the next line of the range, the lines it waits
for, and the status of its part. -/
structure Walk where
  rid : Nat
  slice : Nat
  next : Nat
  waits : List Nat
  status : Nat
  deriving DecidableEq, Repr

/-- A partial reset that runs (Table 15.10): a slice, or a field with the value written. -/
inductive Scope where
  | slice (n : Nat)
  | field (f v : Nat)
  deriving DecidableEq, Repr

/-- A moult (R394, R395): kind and bank, the groups still to do as unit codes, the unit whose new image has been started, the units switched,
and whether an old image has resumed. -/
structure Moult where
  kind : Nat
  bank : Nat
  groups : List (List Nat)
  cur : Option Nat
  done : Nat
  reverted : Bool
  deriving DecidableEq, Repr

/-- Start-up, firmware and resets beside their objects (chapter 15): the stage last reported (R325); the runs of each stage; the records of
stages 0 to 2 the always-on domain keeps (R387); the units that failed, by stage, unit code and cause (R388); failed runs of stage 1 (R362); the
bank booted and whether it was the fallback; fields whose controller failed at this start (Table 15.9); units that run an image of the other bank;
the manifest data of the banks; the moult, and a live change that waits for its unit's moult: object key, instance and write (R396); a report
being signed (R414); a watchdog reset, with the gate time of the end of its stage 10 (R408); a device reset that a write has asked for, 1
device, 2 link-hold (R405); the reset pin held low (R438); a power loss or a trip that holds the device in reset, with its cause (R379, R381,
R383); partial resets that run (R405); a watchdog expiry kept for the log (R430); whether stage 3 found the object store lost (R341); the band each
stack trained in (Table 15.3); the donor code last accepted for a channel (R406); log entries torn at the last power loss (R431); and a link-hold reset that has not reached the end of
stage 10 (R409). -/
structure Boot where
  last : Option Nat
  runs : List (Nat × Nat)
  kept : List (Nat × Nat)
  fails : List (Nat × Nat × Nat)
  xtalFails : Nat
  bank : Nat
  fallback : Bool
  dead : List Nat
  moved : List Nat
  nor : List (Nat × BankImage)
  moult : Option Moult
  live : Option (Nat × Nat × OdWrite)
  attest : Bool
  wdt : Option (Option Nat)
  ask : Option Nat
  pin : Bool
  down : Option Nat
  resets : List Scope
  wdtLog : Bool
  lost : Bool
  bands : List (Nat × Nat)
  migs : List (Nat × Nat)
  torn : Nat
  hold : Bool
  deriving DecidableEq, Repr

def Boot.init : Boot :=
  { last := none, runs := [], kept := [], fails := [], xtalFails := 0, bank := 0, fallback := false, dead := [], moved := [], nor := [],
    moult := none, live := none, attest := false, wdt := none, ask := none, pin := false, down := none, resets := [], wdtLog := false,
    lost := false, bands := [], migs := [], torn := 0, hold := false }

/-- The state. -/
structure State where
  /-- which part the fuses make (R2, R3). Log 1. -/
  variant : Variant
  /-- the commands waiting, first in, first out. -/
  pending : List Instr
  /-- everything sent or answered, oldest first. Log 9. -/
  out : List Out
  /-- the number of the next free value. Log 3. -/
  freeCtr : Nat
  /-- gate time, and whether the counter runs (R207). -/
  gate : Nat
  gateRun : Bool
  /-- object values by key and instance; length of variable-length values. -/
  objs : List (Nat × List (Nat × Nat))
  lens : List (Nat × List (Nat × Nat))
  /-- HBM contents: cell c·2^31 + O for channel c; nothing listed reads 0 (R159). -/
  mem : List Host.Cell
  /-- poisoned sectors of HBM: sector number of the same space. -/
  poison : List (Nat × Bool)
  reqs : List (Nat × Option Req)
  nextReq : Nat
  nextOrder : Nat
  parts : List (Nat × Part)
  rebinds : List Rebind
  events : List EvRec
  eventSeq : Nat
  /-- log entries written (newest last) and waiting. -/
  flog : List (Nat × Option LogEnt)
  flogWait : List LogEnt
  ports : List (Nat × Port)
  sites : List (Nat × Site)
  fns : List (Nat × HostFn)
  teDone : List TeDone
  /-- contexts each engine holds, least recently served first (R130). -/
  teCtx : List (Nat × List Nat)
  /-- slices being retired (Table 3.4): the logical slice, and its new owner, a spare or the stand-ins. -/
  retiring : List (Nat × Option Nat)
  walks : List Walk
  /-- logical slices whose failed slice a spare takes over: slice, spare, and whether the spare is in Run (R401). -/
  adopting : List (Nat × Nat × Bool)
  /-- units waiting at the chairlift for a rise, in order, and the rises admitted that have not ended (R374). -/
  lift : List PowerUnit
  rising : List PowerUnit
  /-- units of `lift` that a launch asked for (R374), the budget in mW, and the gate time of the last POWER_CAPPED event. -/
  liftFirst : List PowerUnit
  budget : Nat
  capEv : Option Nat
  /-- rises that CHAIRLIFT_WAITS has counted. -/
  liftWaited : List PowerUnit
  /-- clock switches that wait on an old clock that has stopped (R370). -/
  clkPend : List Nat
  /-- active and shadow lap tables, the armed change, the cause of a suspension that is due, endpoints whose flows are demoted, and the
  load that runs (R185 to R193). -/
  lapA : Option LapTable
  lapS : Option LapTable
  lapOp : Option LapOp
  lapCause : Option Nat
  demoted : List Nat
  lapLoad : Option (Nat × Nat)
  /-- field clocks, and the field clock request that waits or glides (R367). -/
  clks : List (Nat × Clk)
  clkReq : Option Nat
  pcs : List (Nat × Pc)
  chans : List (Nat × Chan)
  rfm : List (Nat × Rfm)
  /-- token buckets (R239): tokens in thousandths of a byte and the gate time they were counted, by 64·point + class; points 2·pc + (1 for
  writes), and 4096 + n for link n. -/
  buckets : List (Nat × Nat × Nat)
  /-- bytes served since the last update of the estimators (R242), by 64·group + class and 2048 + 64·link + class. -/
  served : List (Nat × Nat)
  /-- gate time of the last DEADLINE_MISS event by class (R244). -/
  missEv : List (Nat × Option Nat)
  linkQ : List (Nat × List TxMsg)
  slices : List (Nat × Slice)
  launches : List (Nat × Option Launch)
  forwards : List Forward
  farLaunches : List FarLaunch
  gsv : Gsv
  rings : List (Nat × Ring)
  sweeps : List (Nat × Option SweepRun)
  /-- counters by 1024·slice + 64·partition + flow (R110). -/
  flows : List (Nat × FlowCnt)
  /-- values in force of objects whose writes act at a later boundary (R338, R346). -/
  force : List (Nat × List (Nat × Nat))
  /-- endpoint injection queues, free-skate queues by 16·router + output, landing buffers by endpoint, scheduled units in flight
  (arrival gate time, router, input port) (R182 to R197). -/
  inj : List (Nat × List MUnit)
  fsq : List (Nat × List MUnit)
  landing : List (Nat × List MUnit)
  flying : List (Nat × Nat × Nat × MUnit)
  /-- free-skate units in seam buffers by 16·router + output (R197), and the failed routers the routing tables in force avoid (R203, R204). -/
  seamq : List (Nat × List MUnit)
  routeFails : List Nat
  lnks : List (Nat × Lnk)
  /-- devices whose new requests wait for a changed route set (R302): device, outstanding at the change. -/
  routeHold : List Nat
  /-- the link whose lane counters are being latched (R307). -/
  snapLink : Option Nat
  /-- request tables of the link nodes: 4096·link + entry to request number (R303), and quarantined entries. -/
  linkTab : List (Nat × Option Nat)
  quarantine : List Nat
  /-- the object dictionary: the transaction that runs, whether a write waits, the commands held behind it (R336), staged segments (R350),
  and the kept Phildofel responses by source, most recent first: TXN, length, bytes (R352). -/
  odRun : Option OdRun
  odWait : Bool
  backlog : List Instr
  staged : List Staged
  philKept : List (Nat × List (Nat × Nat × Nat))
  mram : Store
  boot : Boot
  deriving DecidableEq, Repr

/-- The machine right after reset. -/
def State.reset : State :=
  { variant := .hn8f
    pending := []
    out := []
    freeCtr := 0
    gate := 0
    gateRun := false
    objs := []
    lens := []
    mem := []
    poison := []
    reqs := []
    nextReq := 0
    nextOrder := 0
    parts := []
    rebinds := []
    events := []
    eventSeq := 0
    flog := []
    flogWait := []
    ports := []
    sites := []
    fns := []
    teDone := []
    teCtx := []
    retiring := []
    walks := []
    adopting := []
    lift := []
    rising := []
    liftFirst := []
    budget := 0
    capEv := none
    liftWaited := []
    clkPend := []
    lapA := none
    lapS := none
    lapOp := none
    lapCause := none
    demoted := []
    lapLoad := none
    clks := []
    clkReq := none
    pcs := []
    chans := []
    rfm := []
    buckets := []
    served := []
    missEv := []
    linkQ := []
    slices := []
    launches := []
    forwards := []
    farLaunches := []
    gsv := .init
    rings := []
    sweeps := []
    flows := []
    force := []
    inj := []
    fsq := []
    landing := []
    flying := []
    seamq := []
    routeFails := []
    lnks := []
    routeHold := []
    snapLink := none
    linkTab := []
    quarantine := []
    odRun := none
    odWait := false
    backlog := []
    staged := []
    philKept := []
    mram := .init
    boot := .init }

end Sys2Proof.Machine
end

