-- ==== Sys2Proof/Machine/Table.lean ====
section
/-! DEFINITION. Sparse tables: a list of (key, value) pairs with rising keys and no entry equal to the default. Memory and every
register file of the block are tables, so equal contents are equal data. -/

namespace Sys2Proof.Machine

/-- What the table holds at `k`; `d` where nothing is listed. -/
def Table.get {α : Type} (d : α) (k : Nat) : List (Nat × α) → α
  | [] => d
  | (k', v) :: r => if k = k' then v else Table.get d k r

/-- The table without its entries for `k`. -/
def Table.erase {α : Type} (k : Nat) : List (Nat × α) → List (Nat × α)
  | [] => []
  | (k', v) :: r => if k = k' then Table.erase k r else (k', v) :: Table.erase k r

/-- Store `v` at `k`; storing the default removes the entry. -/
def Table.set {α : Type} [DecidableEq α] (d : α) (k : Nat) (v : α) : List (Nat × α) → List (Nat × α)
  | [] => if v = d then [] else [(k, v)]
  | (k', v') :: r =>
    if k < k' then (if v = d then (k', v') :: Table.erase k r else (k, v) :: (k', v') :: r)
    else if k = k' then (if v = d then Table.erase k r else (k, v) :: r)
    else (k', v') :: Table.set d k v r

/-- The canonical form: keys strictly rising and no entry equal to the default. -/
def Table.wf {α : Type} [DecidableEq α] (d : α) : List (Nat × α) → Bool
  | [] => true
  | (_, v) :: [] => decide (v ≠ d)
  | (k, v) :: (k', v') :: r => decide (v ≠ d) && decide (k < k') && Table.wf d ((k', v') :: r)

/-- Change the value at `k` by `f`. -/
def Table.update {α : Type} [DecidableEq α] (d : α) (k : Nat) (f : α → α) (t : List (Nat × α)) : List (Nat × α) :=
  Table.set d k (f (Table.get d k t)) t

/-- Apply `f` to every listed value; an entry that becomes the default is dropped. -/
def Table.mapVals {α : Type} [DecidableEq α] (d : α) (f : Nat → α → α) : List (Nat × α) → List (Nat × α)
  | [] => []
  | (k, v) :: r => if f k v = d then Table.mapVals d f r else (k, f k v) :: Table.mapVals d f r

/-- Keep the listed entries that satisfy `p`. -/
def Table.filter {α : Type} (p : Nat → α → Bool) : List (Nat × α) → List (Nat × α)
  | [] => []
  | (k, v) :: r => if p k v then (k, v) :: Table.filter p r else Table.filter p r

end Sys2Proof.Machine
end

