-- ==== Sys2Proof/Machine/Ops.lean ====
section
/-! DEFINITION. The named operations over the state that every family uses: object values, outputs, free values, events, the persistent
log, memory, requests and their completion. -/

namespace Sys2Proof.Machine

/-- The value of object `o`, instance `i` (0 for objects without instances). -/
def State.rd (s : State) (o : Obj) (i : Nat) : Nat :=
  Table.get (o.dflt s.variant i) i (Table.get [] (objKey o) s.objs)

/-- Give object `o`, instance `i`, the value `v`. -/
def State.wr (s : State) (o : Obj) (i v : Nat) : State :=
  { s with objs := Table.set [] (objKey o) (Table.set (o.dflt s.variant i) i v (Table.get [] (objKey o) s.objs)) s.objs }

/-- A BOOL object reads TRUE. -/
def State.rdB (s : State) (o : Obj) (i : Nat) : Bool := s.rd o i != 0

/-- The length of a variable-length object's value. -/
def State.rdLen (s : State) (o : Obj) (i : Nat) : Nat :=
  if o.fixed then o.len else Table.get 0 i (Table.get [] (objKey o) s.lens)

/-- Set the length of a variable-length object's value. -/
def State.wrLen (s : State) (o : Obj) (i n : Nat) : State :=
  { s with lens := Table.set [] (objKey o) (Table.set 0 i n (Table.get [] (objKey o) s.lens)) s.lens }

/-- Count `n` in a counter object; counters saturate (R433 and the chapters' counter rules). -/
def State.count (s : State) (o : Obj) (i n : Nat) : State := s.wr o i (satAdd (8 * o.len) (s.rd o i) n)

/-- Every instance of `o` takes its default again. -/
def State.clearObj (s : State) (o : Obj) : State := { s with objs := Table.set [] (objKey o) [] s.objs }

/-- The value in force of an object whose writes act at a later boundary (R338, R346). -/
def State.cur (s : State) (o : Obj) (i : Nat) : Nat :=
  Table.get (o.dflt s.variant i) i (Table.get [] (objKey o) s.force)

/-- The boundary of an object passes: the written value comes into force. -/
def State.enforce (s : State) (o : Obj) (i : Nat) : State :=
  { s with force := Table.set [] (objKey o) (Table.set (o.dflt s.variant i) i (s.rd o i) (Table.get [] (objKey o) s.force)) s.force }

/-- Append to the record of what the device sends. -/
def State.emit (s : State) (x : Out) : State := { s with out := s.out ++ [x] }

/-- A fresh free value (log 3). -/
def State.fresh (s : State) : Nat := (Config.freeValue s.freeCtr).toNat

/-- The state after a free value has been drawn. -/
def State.drew (s : State) : State := { s with freeCtr := s.freeCtr + 1 }

/-- Low 32 bits of gate time. -/
def State.gate32 (s : State) : Nat := s.gate % 2 ^ 32

/-- A unit is present. -/
def State.has (s : State) (k : UnitKind) (i : Nat) : Bool := unitPresent s.variant k i

/-! ### Memory -/

/-- Address in the space of all channels: offset `o` of channel `c` (2 GiB each). -/
def chanAddr (c o : Nat) : Nat := c * 2 ^ 31 + o

/-- One byte of HBM; an unlisted byte reads 0 (R159). -/
def State.byteAt (s : State) (a : Nat) : Nat := (Table.get (0 : BitVec 8) a s.mem).toNat

/-- The memory after a byte write. -/
def memSet (m : List Host.Cell) (a v : Nat) : List Host.Cell := Table.set (0 : BitVec 8) a (BitVec.ofNat 8 v) m

/-- The memory after writing `n` bytes of `v`, little-endian, from `a` where bit k of the mask is set. -/
def memWrite : Nat → Nat → Nat → Nat → List Host.Cell → List Host.Cell
  | 0, _, _, _, m => m
  | n + 1, a, v, mask, m =>
    memWrite n (a + 1) (v / 256) (mask / 2) (if mask % 2 = 1 then memSet m a (v % 256) else m)

/-- `n` bytes of memory from `a`, little-endian. -/
def memRead : Nat → Nat → List Host.Cell → Nat
  | 0, _, _ => 0
  | n + 1, a, m => (Table.get (0 : BitVec 8) a m).toNat + 256 * memRead n (a + 1) m

/-- The canonical form of memory: rising addresses, and no byte listed that reads 0 unlisted. -/
def Memory.wf (m : List Host.Cell) : Bool := Table.wf (0 : BitVec 8) m

/-- `n` bytes from `a` (little-endian). -/
def State.load (s : State) (a n : Nat) : Nat := memRead n a s.mem

/-- Store `n` bytes of `v` from `a`. -/
def State.store (s : State) (a n v : Nat) : State := { s with mem := memWrite n a v (2 ^ n - 1) s.mem }

/-- Store the bytes of `v` whose mask bit is set. -/
def State.storeMask (s : State) (a n v mask : Nat) : State := { s with mem := memWrite n a v mask s.mem }

/-- The 64-byte sector at `a` is poisoned. -/
def State.poisonAt (s : State) (a : Nat) : Bool := Table.get false (a / 64) s.poison

/-- Set or clear the poison of the sector at `a`. -/
def State.setPoison (s : State) (a : Nat) (b : Bool) : State := { s with poison := Table.set false (a / 64) b s.poison }

/-! ### Events and the persistent log -/

/-- A signature of `len` bytes with the device identity key, over the bytes and BOOT_NONCE (R353). -/
def State.signBytes (s : State) (len bytes : Nat) : Nat :=
  ed448Sign Config.identityKey (len + 8) (bytes + s.rd D.BOOT_NONCE 0 * 2 ^ (8 * len))

/-- Some MGMT_PUBKEY is installed (R354, R355). -/
def State.anyKey (s : State) : Bool := (List.range 4).any (fun k => s.rdLen D.MGMT_PUBKEY k != 0)

/-- A Phildofel header (Table 13.8). -/
def philHeader (kind : Nat) (signed : Bool) (txn status nops ctr serial : Nat) : Nat :=
  1 + kind * 2 ^ 8 + signed.toNat * 2 ^ 12 + txn * 2 ^ 16 + status * 2 ^ 32 + nops * 2 ^ 48 + ctr * 2 ^ 64 + serial * 2 ^ 128

/-- A Phildofel frame leaves while the management link is up (R348). -/
def State.philOut (s : State) (dst len bytes : Nat) : State :=
  if s.rd D.MGMT_LINK_STATE 0 = 2 then s.emit (.phil dst len bytes) else s

/-- Send an event frame (R355): to PHIL_EVENT_DEST, all zero meaning broadcast; signed when a key is installed. -/
def State.sendEvent (s : State) (e : EvRec) : State :=
  let d := s.rd D.PHIL_EVENT_DEST 0
  let dst := if d = 0 then 0xFFFFFFFFFFFF else d
  let body := philHeader 2 s.anyKey 0 0 0 e.seq (s.rd D.DEVICE_SERIAL 0) + e.word * 2 ^ 192
  if s.anyKey then s.philOut dst 170 (body + (s.signBytes 56 body % 2 ^ 912) * 2 ^ 448) else s.philOut dst 56 body

/-- The function exists: the PF, or a VF while VF Enable covers it (R311). -/
def State.fnPresent (s : State) (f : Nat) : Bool := f ≤ s.rd D.HOST_NUM_VFS 0

/-- A host function. -/
def State.fn (s : State) (f : Nat) : HostFn := Table.get HostFn.init f s.fns

def State.setFn (s : State) (f : Nat) (h : HostFn) : State := { s with fns := Table.set HostFn.init f h s.fns }

/-- Vectors the function has (R309). -/
def fnVectors (f : Nat) : Nat := if f = 0 then 64 else 16

/-- Send an MSI-X vector of a function; nothing is sent while the host link is down. -/
def State.msix (s : State) (f v : Nat) : State :=
  if s.rd D.HOST_LINK_STATE 0 = 2 ∧ s.fnPresent f then s.emit (.msix f v) else s

/-- The event vector of every function (Table 12.7, R325). -/
def State.eventVectors (s : State) : State :=
  (List.range 17).foldl (fun t f => t.msix f (if f = 0 then 2 else 3)) s

/-- A log entry waits to be written; at most 256 wait, the rest are dropped and counted (R430). -/
def State.logPush (s : State) (kind mask body : Nat) : State :=
  if s.flogWait.length < 256 then
    { s with flogWait := s.flogWait ++ [{ kind := kind, mask := mask, body := body, boot := s.rd D.BOOT_COUNT 0 }] }
  else s.count D.FAULT_LOG_DROPPED 0 1

/-- The events the persistent log keeps (R430). -/
def loggedEvent (ev : Nat) : Bool :=
  [Ev.PART_STOPPED, Ev.STARTUP_UNIT_FAIL, Ev.STORE_FAULT, Ev.STORE_LOST, Ev.DEFECT_STORE_LOST, Ev.THERMAL_TRIP,
   Ev.UTTEX_WATCHDOG].contains ev

/-- Event record of Table 13.10. -/
def eventWord (ev part seq gate detail : Nat) : Nat :=
  ev + part * 2 ^ 16 + (seq % 2 ^ 32) * 2 ^ 32 + gate * 2 ^ 64 + (detail % 2 ^ 128) * 2 ^ 128

/-- The queue without its oldest event; the queue is kept in the order of the last sends. -/
def dropOldest (l : List EvRec) : List EvRec :=
  let m := l.foldl (fun a e => min a e.seq) ((l.head?.map (fun e => e.seq)).getD 0)
  l.filter (fun e => e.seq != m)

/-- Raise an event: its record is queued and sent (the oldest is dropped when 256 wait), the event vectors are sent, and the events of
R430 are logged (R355, R325). While the Uttex controller's moult pauses it, the frame waits with no sends (Table 15.7). -/
def State.raise (s : State) (ev part detail : Nat) : State :=
  let seq := s.eventSeq + 1
  let paused := match s.boot.moult with | some m => m.cur == some 0 | none => false
  let e : EvRec := { seq := seq, word := eventWord ev part seq s.gate detail, sends := if paused then 0 else 1 }
  let s := { s with eventSeq := seq }
  let s := if s.events.length < 256 then { s with events := s.events ++ [e] }
           else ({ s with events := dropOldest s.events ++ [e] }).count D.PHIL_EVENT_DROPPED 0 1
  let s := (if paused then s else s.sendEvent e).eventVectors
  if loggedEvent ev then s.logPush 1 0 e.word else s

/-! ### Requests -/

def State.req? (s : State) (rid : Nat) : Option Req := Table.get none rid s.reqs

def State.setReq (s : State) (rid : Nat) (r : Req) : State := { s with reqs := Table.set none rid (some r) s.reqs }

def State.delReq (s : State) (rid : Nat) : State := { s with reqs := Table.set none rid none s.reqs }

/-- Enter a new request; its number is the old `nextReq`. -/
def State.newReq (s : State) (r : Req) : State :=
  { s with reqs := Table.set none s.nextReq (some r) s.reqs, nextReq := s.nextReq + 1 }

/-- The requests in progress with their numbers, oldest first. -/
def State.reqList (s : State) : List (Nat × Req) :=
  s.reqs.filterMap (fun x => match x.2 with | some r => some (x.1, r) | none => none)

/-- A port beside its objects. -/
def State.port (s : State) (i : Nat) : Port := Table.get Port.init i s.ports

def State.setPort (s : State) (i : Nat) (p : Port) : State := { s with ports := Table.set Port.init i p s.ports }

def State.site (s : State) (n : Nat) : Site := Table.get Site.init n s.sites

def State.setSite (s : State) (n : Nat) (x : Site) : State := { s with sites := Table.set Site.init n x s.sites }

def State.part (s : State) (p : Nat) : Part := Table.get Part.init p s.parts

def State.setPart (s : State) (p : Nat) (x : Part) : State := { s with parts := Table.set Part.init p x s.parts }

/-- Count a completion with UNIT_ABSENT (R5). -/
def State.noteStatus (s : State) (st : Nat) : State := if st = St.UNIT_ABSENT then s.count D.UNIT_ABSENT_COUNT 0 1 else s

/-- RSP header (R259, R265): OPCODE 0x30, tag, status, payload chunks. -/
def rspHeader (tag st pch : Nat) : Nat := 0x30 + tag * 2 ^ 6 + st * 2 ^ 18 + pch * 2 ^ 96

/-- A message of `n` chunks leaves a port in DATA flits of its own, 15 chunks each, which the port keeps until they are acknowledged (R254,
R255; log 20). -/
def State.portSent (s : State) (i n : Nat) : State :=
  let x := s.port i
  let k := ceilDiv n 15
  s.setPort i { x with txSeq := (x.txSeq + k) % 4096, unacked := x.unacked + k }

/-- Answer an attach request with `len` bytes of response data (R265). -/
def State.rsp (s : State) (port tag st len data : Nat) : State :=
  ((s.noteStatus st).portSent port (1 + ceilDiv len 16)).emit (.rsp port (rspHeader tag st (ceilDiv len 16)) (data % 2 ^ (8 * len)))

/-- Completion TLP of a device status (Table 12.3): 0 success, 1 Unsupported Request, 2 Completer Abort. -/
def hostCplOf (st : Nat) : Nat :=
  if st = 0 then 0
  else if [St.ADDRESS_UNMAPPED, St.UNIT_ABSENT, St.PARTITION_DISABLED].contains st then 1
  else if st = St.POISONED then 0
  else 2

/-- End a host command: response data and STATUS are written, OWN is cleared, vector 1 is sent (R319). -/
def State.hostCmdDone (s : State) (f slot st resp : Nat) : State :=
  let s := s.noteStatus st
  let h := s.fn f
  let c := Table.get Slot.init slot h.slots
  (s.setFn f { h with slots := Table.set Slot.init slot { c with own := false, status := st, resp := resp } h.slots }).msix f 1

/-- Answer the object access that waits or runs: an operation of a transaction gets its result, another is answered at once (R350). -/
def State.odAnswer (s : State) (st len val : Nat) : State :=
  let s := { s.noteStatus st with odWait := false }
  match s.odRun with
  | some r => { s with odRun := some { r with result := some (st, len, val) } }
  | none => s.emit (.od st len val)

/-- Messages waiting on a link. -/
def State.txq (s : State) (n : Nat) : List TxMsg := Table.get [] n s.linkQ

/-- Put a message in a link's transmit queue. -/
def State.sendLink (s : State) (n : Nat) (m : TxMsg) : State :=
  { s with linkQ := Table.set [] n (s.txq n ++ [m]) s.linkQ }

/-- `direct` of R301: the links whose partner device is `dev`, while LINK_ROUTE_AUTO is TRUE. -/
def State.directMask (s : State) (dev : Nat) : Nat :=
  if s.rdB D.LINK_ROUTE_AUTO 0 then maskOf ((List.range 64).filter (fun n => s.rd D.LINK_PARTNER_DEVICE n == dev)) else 0

/-- LINK_STATE values of Table 11.2 in which a link carries requests: ACTIVE and RETRAIN. -/
def linkUsable (st : Nat) : Bool := st == 3 || st == 4

/-- XOR of the 6-bit pieces of a key (R57, R301). -/
def foldKey : Nat → Nat → Nat
  | 0, _ => 0
  | fuel + 1, r => (r % 64) ^^^ foldKey fuel (r / 64)

/-- The link R301 picks, leaving out a link that is being turned off (R294), for device `dev` and a key; none is LINK_UNREACHABLE. -/
def State.pickLink (s : State) (dev key : Nat) : Option Nat :=
  let m := s.rd D.LINK_ROUTE dev ||| s.directMask dev
  let l := (List.range 64).filter (fun n => bit m n && linkUsable (s.rd D.LINK_STATE n) && !(Table.get Lnk.init n s.lnks).draining)
  l[foldKey 12 key % l.length]?

/-- Header of a routed response (Table 11.5) to the request with header `hdr`. -/
def linkRspHeader (hdr st pch : Nat) : Nat :=
  0x30 + bits hdr 27 10 * 2 ^ 10 + bits hdr 49 38 * 2 ^ 38 + st * 2 ^ 65 + pch * 2 ^ 121

/-- Answer a routed request: its response goes back by R301 with key REQ_ID; it is discarded when no link is usable (R304). -/
def State.linkRespond (s : State) (hdr st len data : Nat) : State :=
  let s := s.noteStatus st
  match s.pickLink (bits hdr 49 38) (bits hdr 27 10) with
  | some n => s.sendLink n { step := 5, hdr := linkRspHeader hdr st (ceilDiv len 16), ext := 0, payload := data % 2 ^ (8 * len), cls := 0,
                             deadline := none }
  | none => s

/-- Rank `k` has acknowledged one more line of the sweep's contribution (R141). -/
def State.gatherAck (s : State) (p k t : Nat) : State :=
  match Table.get none p s.sweeps with
  | some x =>
    if x.time = t then
      { s with sweeps := Table.set none p (some { x with acks := Table.set 0 k (Table.get 0 k x.acks + 1) x.acks }) s.sweeps }
    else s
  | none => s

/-- Answer a requester (R265, R314, R319, R132, R304). -/
def State.answer (s : State) (rid : Nat) (o : Origin) (st len data : Nat) : State :=
  match o with
  | .attach p t => s.rsp p t st len data
  | .host f t => (s.noteStatus st).emit (.hostCpl f t (hostCplOf st) (st == St.POISONED) len (data % 2 ^ (8 * len)))
  | .hostPosted f =>
    if st = 0 then s
    else (s.noteStatus st).emit (.aer f (if st = St.POISONED then 3 else hostCplOf st))
  | .hostCmd f k => s.hostCmdDone f k st data
  | .te r d => { s.noteStatus st with teDone := s.teDone ++ [{ ring := r, desc := d, rid := rid, status := st, data := data }] }
  | .link _ hdr => s.linkRespond hdr st len data
  | .od => s.odAnswer st len data
  | .sweep p k t => if st = 0 then s.gatherAck p k t else s
  | .split _ _ => s
  | .gone => s

/-- The REQ chunks a request of a port, or one received on a link, still holds are freed (R256, R298). -/
def State.freeChunks (s : State) (r : Req) : State :=
  match r.origin with
  | .attach p _ => let x := s.port p; s.setPort p { x with reqFreed := (x.reqFreed + r.chunks) % 2 ^ 16 }
  | .link n _ =>
    { s with lnks := Table.update Lnk.init n (fun x => { x with reqFree := (x.reqFree + r.chunks) % 2 ^ 24 }) s.lnks }
  | _ => s

/-- Data-path requests and pieces of them outstanding from one requester. -/
def sameRequester (a b : Req) : Bool := a.group == b.group && a.source == b.source

/-- A piece of request `p` is done: its data and its status are kept (the status of the lowest piece that failed), and the whole request is
answered when no piece is left (R55, R313). -/
def State.pieceDone (s : State) (p off rid st data : Nat) : State :=
  match s.req? p with
  | none => s
  | some q =>
    let q := { q with parts := q.parts.filter (fun x => x != rid), record := q.record + data * 2 ^ (8 * off),
                      status := if st ≠ 0 ∧ (q.status = 0 ∨ off < q.data) then st else q.status,
                      data := if st ≠ 0 ∧ (q.status = 0 ∨ off < q.data) then off else q.data }
    if q.parts.isEmpty then ((s.delReq p).freeChunks q).answer p q.origin q.status (if q.kind = .read && q.status == 0 then q.len else 0) q.record
    else s.setReq p q

/-- Complete request `rid`: it leaves the machine, its chunks are freed and its requester is answered. -/
def State.complete (s : State) (rid st len data : Nat) : State :=
  match s.req? rid with
  | none => s
  | some r =>
    match r.origin with
    | .split p off => (s.delReq rid).pieceDone p off rid st (data % 2 ^ (8 * len))
    | o => ((s.delReq rid).freeChunks r).answer rid o st len data

/-- A request answered at its ingress, that never entered the machine. -/
def State.refuse (s : State) (r : Req) (st : Nat) : State := (s.freeChunks r).answer s.nextReq r.origin st 0 0

/-- A request still carries effects of its partition's epoch `e`: checked, and not yet completed (R43). -/
def inFlight (p e : Nat) (r : Req) : Bool :=
  r.part == p && r.epoch == e && (match r.origin with | .split _ _ => false | _ => true) && (match r.stage with
    | .held => false
    | .parked _ => false
    | .waiting => !(r.kind == .write || r.kind == .fmtWrite)
    | _ => true)

/-- A write that its ingress has split is in flight until every piece has been accepted (R43, R55). -/
def State.unaccepted (s : State) (r : Req) : Bool :=
  r.kind != .write || r.parts.isEmpty || r.parts.any (fun k => match s.req? k with | some q => q.stage != .waiting | none => false)

/-- Requests of partition `p` in flight under epoch `e` (R43). -/
def State.inFlightList (s : State) (p e : Nat) : List (Nat × Req) := s.reqList.filter (fun x => inFlight p e x.2 && s.unaccepted x.2)

def State.inFlightCount (s : State) (p e : Nat) : Nat := (s.inFlightList p e).length

/-- A rise asks the chairlift (R374), once. -/
def State.demand (s : State) (u : PowerUnit) : State :=
  if s.lift.contains u || s.rising.contains u then s else { s with lift := s.lift ++ [u] }

/-- The rise is a field clock's glide up (R365). -/
def isGlide : PowerUnit → Bool
  | .glide _ => true
  | _ => false

end Sys2Proof.Machine
end

