-- ==== Sys2Proof/Machine/Address.lean ====
section
/-! DEFINITION. The local address map and the address hash (R23 to R29, R56 to R60), and which slice serves an address. -/

namespace Sys2Proof.Machine

/-- The regions of Table 2.2. -/
inductive Region where
  /-- a view: 0 device, 1 west, 2 east, 8 + n field n; the address less the view's base; the view's channels. -/
  | view (code a n : Nat)
  /-- the doorbell aperture: offset in it. -/
  | doorbell (o : Nat)
  | unmapped
  deriving DecidableEq, Repr

/-- Usable bytes of a channel (R57). -/
def chanUsable : Nat := 0x7FF00000

/-- Table 2.2 with R29 for the device view of an HN4-S. -/
def regionOf (v : Variant) (a : Nat) : Region :=
  if a < 0x20000000000 then
    (if isHn4s v then (if a < 0x10000000000 then .view 0 a 512 else .unmapped) else .view 0 a 1024)
  else if a < 0x30000000000 then .view 1 (a - 0x20000000000) 512
  else if a < 0x40000000000 then .view 2 (a - 0x30000000000) 512
  else if a < 0x60000000000 then .view (8 + (a - 0x40000000000) / 0x4000000000) ((a - 0x40000000000) % 0x4000000000) 128
  else if a < 0xF0000000000 then .unmapped
  else if a < 0xF0004000000 then .doorbell (a - 0xF0000000000)
  else .unmapped

/-- The half or field of a view is present (R5, R29). -/
def viewPresent (v : Variant) (code : Nat) : Bool :=
  if code = 0 then true
  else if code = 1 then fieldPresent v 0
  else if code = 2 then fieldPresent v 4
  else fieldPresent v (code - 8)

/-- The base of a view (Table 2.2). -/
def viewBase (code : Nat) : Nat :=
  if code = 0 then 0
  else if code = 1 then 0x20000000000
  else if code = 2 then 0x30000000000
  else 0x40000000000 + (code - 8) * 0x4000000000

/-- The channels of a view (Table 3.3). -/
def viewChans (v : Variant) (code : Nat) : Nat :=
  if code = 0 then (if isHn4s v then 512 else 1024) else if code ≤ 2 then 512 else 128

/-- XOR of the k-bit pieces of `r` (R57); `fuel` pieces suffice. -/
def foldBits : Nat → Nat → Nat → Nat
  | 0, _, _ => 0
  | fuel + 1, k, r => (r % 2 ^ k) ^^^ foldBits fuel k (r / 2 ^ k)

/-- `fold` of R57. -/
def fold (r k : Nat) : Nat := foldBits 12 k r

/-- log2 of a view's channel count. -/
def viewLog (n : Nat) : Nat := if n = 1024 then 10 else if n = 512 then 9 else 7

/-- `hash` of R57: view channel and channel offset of address `a` in a view of `n` channels. -/
def hashView (a n : Nat) : Nat × Nat :=
  let k := viewLog n
  let base := if a < n * chanUsable then 0 else chanUsable
  let a := if a < n * chanUsable then a else a - n * chanUsable
  let u := a / 512
  let r := u / n
  ((u % n) ^^^ fold r k, base + r * 512 + a % 512)

/-- Logical slice of view channel `i` (Table 3.3). -/
def viewSlice (v : Variant) (code i : Nat) : Nat :=
  let west := 32 * (i / 16) + i % 16
  if code = 0 then (match v with | .hn4sWest => west | .hn4sEast => west + 16 | _ => i)
  else if code = 1 then west
  else if code = 2 then west + 16
  else 32 * (fieldY (code - 8) + i / 16) + fieldX (code - 8) + i % 16

/-- View channel of logical slice `s` (the inverse of Table 3.3). -/
def sliceViewIdx (v : Variant) (code s : Nat) : Nat :=
  let x := s % 32
  let y := s / 32
  let half := 16 * y + x % 16
  if code = 0 then (if isHn4s v then half else s)
  else if code ≤ 2 then half
  else 16 * (y % 8) + x % 16

/-- The address in a view of offset `o` of the channel of slice `s` (the inverse of R57). -/
def addrInView (v : Variant) (code s o : Nat) : Nat :=
  let n := viewChans v code
  let k := viewLog n
  let off := if o < chanUsable then o else o - chanUsable
  let r := off / 512
  let u := r * n + (sliceViewIdx v code s ^^^ fold r k)
  viewBase code + (if o < chanUsable then 0 else n * chanUsable) + u * 512 + off % 512

/-- The three views that hold a channel's bytes (R26): device, its half, its field. -/
def viewsOfSlice (s : Nat) : List Nat :=
  [0, (if s % 32 < 16 then 1 else 2), 8 + sliceField s]

/-- Device-view local address of offset `o` of the channel of slice `s` (Table 16.2). -/
def deviceAddr (v : Variant) (s o : Nat) : Nat := addrInView v 0 s o

/-- Slice and channel offset of a local address; none outside the views. -/
def locate (v : Variant) (a : Nat) : Option (Nat × Nat) :=
  match regionOf v a with
  | .view code x n => let h := hashView x n; some (viewSlice v code h.1, h.2)
  | _ => none

/-- An address of a reserved range (R27). -/
def isReserved (v : Variant) (a : Nat) : Bool :=
  match regionOf v a with
  | .view _ x n => n * chanUsable ≤ x
  | _ => false

/-- Cell address of a local address in the space of all channels. -/
def cellOf (v : Variant) (a : Nat) : Option Nat :=
  match locate v a with
  | some (s, o) => some (chanAddr (sliceChannel s) o)
  | none => none

/-- SLICE_HOME HOLE of a logical slice (Table 1.7). -/
def State.isHole (s : State) (n : Nat) : Bool := bit (s.rd D.SLICE_HOME n) 17

/-- Node that serves a logical slice (Table 1.7). -/
def State.sliceNode (s : State) (n : Nat) : Nat := bits (s.rd D.SLICE_HOME n) 4 0 + 32 * bits (s.rd D.SLICE_HOME n) 9 5

/-- The physical slice that serves logical slice `n` by SLICE_HOME: its boot number, or 1024 + j for the spare that adopted it (R107). -/
def State.homeKey (s : State) (n : Nat) : Nat :=
  if bit (s.rd D.SLICE_HOME n) 16 then 1024 + bits (s.rd D.SLICE_HOME n) 15 10 else n

/-- The new owner of a slice that is being retired (Table 3.4). -/
def State.retireTo (s : State) (n : Nat) : Option (Option Nat) :=
  match s.retiring.find? (fun e => e.1 == n) with
  | some e => some e.2
  | none => none

/-- The physical slice the hash tables name first for logical slice `n` (R60, R61). -/
def State.sliceKey (s : State) (n : Nat) : Nat :=
  match s.retireTo n with
  | some (some j) => 1024 + j
  | _ => s.homeKey n

/-- The cache section of a physical slice. -/
def State.cache (s : State) (k : Nat) : Slice := Table.get Slice.init k s.slices

def State.setCache (s : State) (k : Nat) (x : Slice) : State := { s with slices := Table.set Slice.init k x s.slices }

/-- A logical slice is served by no slice of its own: a hole, or retired to its stand-ins. -/
def State.isOut (s : State) (n : Nat) : Bool := s.isHole n || s.retireTo n == some none

/-- The nearest slice `ok` from slice `n` in direction `d` (0 north, 1 east, 2 south, 3 west) inside its field (R59), with the distance. -/
def standInDir (ok : Nat → Bool) (n d : Nat) : Option (Nat × Nat) :=
  let f := sliceField n
  let x := n % 32
  let y := n / 32
  let cand := (List.range 15).filterMap (fun i =>
    let h := i + 1
    match d with
    | 0 => if h ≤ y then some (nodeOf x (y - h), h) else none
    | 1 => if x + h < 32 then some (nodeOf (x + h) y, h) else none
    | 2 => if y + h < 32 then some (nodeOf x (y + h), h) else none
    | _ => if h ≤ x then some (nodeOf (x - h) y, h) else none)
  cand.find? (fun c => sliceField c.1 == f && ok c.1)

/-- The stand-in of quarter `q` of hole `n`: the first direction clockwise from `q` that has one (R59). -/
def standIn (ok : Nat → Bool) (n q : Nat) : Option (Nat × Nat × Nat) :=
  ((List.range 4).map (fun i => (q + i) % 4)).findSome? (fun d =>
    match standInDir ok n d with
    | some (t, h) => some (t, d, h)
    | none => none)

/-- The slice that caches line number `l` of the channel of logical slice `n`, with SOURCE and DIST of its tag (R59, Table 3.2): the owner
itself, or a stand-in of a slice that is `out`; none where no slice caches it. -/
def servingBy (ok out : Nat → Bool) (n l : Nat) : Option (Nat × Nat × Nat) :=
  if out n then
    match standIn ok n (l / 4 % 4) with
    | some (t, d, h) => some (t, (d + 2) % 4 + 1, h)
    | none => none
  else some (n, 0, 0)

/-- The hash tables in force: the new owner of a retiring slice is named first (R60, R61). -/
def State.serving (s : State) (n l : Nat) : Option (Nat × Nat × Nat) :=
  servingBy (fun c => !s.isOut c && !(s.cache (s.sliceKey c)).failed) s.isOut n l

/-- The owner by SLICE_HOME alone: where a retiring slice's lines were. -/
def State.servingHome (s : State) (n l : Nat) : Option (Nat × Nat × Nat) :=
  servingBy (fun c => !s.isHole c && !(s.cache (s.homeKey c)).failed) s.isHole n l

/-! ### Backing of a channel (R166, R169, R170) -/

/-- Field, block and VALID of a donor code (Table 6.8). -/
def dnField (d : Nat) : Nat := bits d 2 0
def dnBlock (d : Nat) : Nat := bits d 9 3
def dnValid (d : Nat) : Bool := bit d 15

/-- Channel and offset of the donor that backs offset `o` (R166). -/
def donorSpot (v : Variant) (d o : Nat) : Nat × Nat :=
  let h := hashView (dnBlock d * 2 ^ 31 + o) 128
  (sliceChannel (viewSlice v (8 + dnField d) h.1), h.2)

/-- A channel beside its objects. -/
def State.chan (s : State) (c : Nat) : Chan := Table.get Chan.init c s.chans

def State.setChan (s : State) (c : Nat) (x : Chan) : State := { s with chans := Table.set Chan.init c x s.chans }

/-- Where offset `o` of channel `c` is held: its own cell, its donor's, or nowhere (R169, R170). A donor's channel may itself be retired; at
most 16 channels are. -/
def State.backAt (s : State) : Nat → Nat → Nat → Option Nat
  | 0, _, _ => none
  | f + 1, c, o =>
    let own := if (s.chan c).dead then none else some (chanAddr c o)
    let away (d : Nat) : Option Nat := let x := donorSpot s.variant d o; s.backAt f x.1 x.2
    match s.rd D.CHAN_BACKING c with
    | 0 => own
    | 1 => if o / 512 < s.rd D.MIG_PROGRESS c then away ((s.chan c).mig.getD 0) else own
    | 2 => away (s.rd D.CHAN_DONOR c)
    | _ => none

def State.backCell (s : State) (c o : Nat) : Option Nat := s.backAt 17 c o

/-- The donor codes in use, with their channels (R168). -/
def State.donors (s : State) : List (Nat × Nat) :=
  (Table.get [] (objKey D.CHAN_BACKING) s.objs).filterMap (fun e =>
    if e.2 = 1 then some (e.1, (s.chan e.1).mig.getD 0) else if e.2 = 2 then some (e.1, s.rd D.CHAN_DONOR e.1) else none)

/-- Offset `o` of the channel of slice `n` lies in a donor run (R168). -/
def State.inDonor (s : State) (n o : Nat) : Bool :=
  s.donors.any (fun e => dnField e.2 == sliceField n && dnBlock e.2 == o / 2 ^ 24 && decide (o < chanUsable))

end Sys2Proof.Machine
end

