-- ==== Sys2Proof/Machine/Units.lean ====
section
/-! DEFINITION. Mesh endpoints and the injection of a request's stride unit (R174, R175, R182). -/

namespace Sys2Proof.Machine

/-- Endpoint code: node, port code of Table 7.1 (5 SLICE, 6 ATTACH, 7 LINK, 8 UNIT) and sub-endpoint. -/
def endpoint (node port sub : Nat) : Nat := 64 * node + 4 * port + sub

def epNode (e : Nat) : Nat := e / 64
def epPort (e : Nat) : Nat := e % 64 / 4
def epSub (e : Nat) : Nat := e % 4

/-- Endpoint of a requester (Table 1.1, R16 to R18): group and source of Table 2.7. -/
def sourceEndpoint (v : Variant) (group source : Nat) : Nat :=
  match group with
  | 0 => endpoint (portNode source) 6 0
  | 1 => endpoint (teNode source) 8 (source % 2)
  | 2 => endpoint (linkNode source) 7 0
  | _ => endpoint (hostNode v) 8 3

/-- Endpoint that serves logical slice `n` now: its node, or the spare that adopted it or takes it over (R15, R61). -/
def State.sliceEndpoint (s : State) (n : Nat) : Nat :=
  let k := s.sliceKey n
  if 1024 ≤ k then endpoint (spareNode (k - 1024)) 8 2 else endpoint n 5 0

/-- Put a unit in the injection queue of its source endpoint. -/
def State.inject (s : State) (u : MUnit) : State :=
  { s with inj := Table.set [] u.src (Table.get [] u.src s.inj ++ [u]) s.inj }

/-- The unit of a single request. -/
def unitOf (src dst cls part rid : Nat) : MUnit :=
  { src := src, dst := dst, cls := cls, part := part, rids := [rid], bitmap := 0, merged := [] }

/-- Slice and channel offset of a request's first byte. -/
def State.reqSlice (s : State) (r : Req) : Option (Nat × Nat) := locate s.variant r.addr

/-- The slice that serves a request now, with SOURCE and DIST (R59). -/
def State.reqServing (s : State) (r : Req) : Option (Nat × Nat × Nat) :=
  match locate s.variant r.addr with
  | some (n, o) => s.serving n (o / 128)
  | none => none

/-- Ring number of a doorbell address (Table 2.2). -/
def ringOfAddr (a : Nat) : Nat := (a - 0xF0000000000) / 64

end Sys2Proof.Machine
end

