-- ==== Sys2Proof/Machine/Cache.lean ====
section
/-! DEFINITION. The arrays of a slice: tags, replacement, victim buffer, and the coherent view of a line (R53 to R58, R72). -/

namespace Sys2Proof.Machine

/-- Set of a channel line number (R58). -/
def lineSet (l : Nat) : Nat := l % 1024 ^^^ (l / 1024 % 1024)

/-- The slice whose channel holds the lines an entry of slice `n` with SOURCE and DIST names (Table 3.2). -/
def sourceSlice (n src dist : Nat) : Nat :=
  match src with
  | 0 => n
  | 1 => n - 32 * dist
  | 2 => n + dist
  | 3 => n + 32 * dist
  | _ => n - dist

/-- Where a line is, or would be: the physical slice, the logical slice it serves, SOURCE and DIST, and the channel line number. -/
structure Loc where
  key : Nat
  n : Nat
  src : Nat
  dist : Nat
  line : Nat
  deriving DecidableEq, Repr

/-- The slice whose channel holds the line. -/
def Loc.owner (p : Loc) : Nat := sourceSlice p.n p.src p.dist

/-- Cell address of a line; none where its channel has failed (R170). -/
def State.lineCell (s : State) (n src dist l : Nat) : Option Nat := s.backCell (sliceChannel (sourceSlice n src dist)) (l * 128)

/-- An entry is this line (R59: TAG, SOURCE and DIST all match). -/
def lineIs (x : Line) (l src dist : Nat) : Bool := x.line == l && x.src == src && x.dist == dist

/-- The ways of a set with their keys. -/
def setWays (x : Slice) (set : Nat) : List (Nat × Option Line) :=
  (List.range 16).map (fun w => (16 * set + w, Table.get none (16 * set + w) x.tags))

/-- The way that holds a line. -/
def tagFind (x : Slice) (l src dist : Nat) : Option (Nat × Line) :=
  (setWays x (lineSet l)).findSome? (fun e =>
    match e.2 with
    | some ln => if lineIs ln l src dist && ln.valid != 0 then some (e.1, ln) else none
    | none => none)

def tagSet (x : Slice) (key : Nat) (ln : Option Line) : Slice := { x with tags := Table.set none key ln x.tags }

/-- The victim buffer entry of a line. -/
def victimFind (x : Slice) (l src dist : Nat) : Option Victim := x.victims.find? (fun v => lineIs v.line l src dist)

/-- The miss register of a line. -/
def missFind (x : Slice) (l src dist : Nat) : Option MissReg :=
  x.miss.find? (fun m => m.line == l && m.src == src && m.dist == dist)

/-- Replace a miss register. -/
def missPut (x : Slice) (m : MissReg) : Slice :=
  { x with miss := x.miss.map (fun y => if y.line == m.line && y.src == m.src && y.dist == m.dist then m else y) }

def missDrop (x : Slice) (l src dist : Nat) : Slice :=
  { x with miss := x.miss.filter (fun y => !(y.line == l && y.src == src && y.dist == dist)) }

/-- Replace a victim entry's line, or drop the entry. -/
def victimPut (x : Slice) (v : Victim) : Slice :=
  { x with victims := x.victims.map (fun y => if lineIs y.line v.line.line v.line.src v.line.dist then v else y) }

def victimDrop (x : Slice) (l src dist : Nat) : Slice :=
  { x with victims := x.victims.filter (fun y => !lineIs y.line l src dist) }

/-! ### Tree pseudo-LRU: node i has children 2i+1 and 2i+2; bit i = 1 names the right side -/

/-- Walk to a way, at each node taking the side the bit names if an eligible way lies there, else the other (R72). `lo` and `n` are the
ways under the node. -/
def plruWalk : Nat → Nat → Nat → Nat → Nat → List Nat → Nat
  | 0, _, lo, _, _, _ => lo
  | fuel + 1, node, lo, n, b, elig =>
    if n ≤ 1 then lo
    else
      let h := n / 2
      let right := elig.any (fun w => decide (lo + h ≤ w ∧ w < lo + n))
      let left := elig.any (fun w => decide (lo ≤ w ∧ w < lo + h))
      let goRight := if bit b node then right else !left
      if goRight then plruWalk fuel (2 * node + 2) (lo + h) h b elig else plruWalk fuel (2 * node + 1) lo h b elig

/-- The bits after a use of way `w`: each node on its path names the other side (`toward` false) or its own (`toward` true: next to be
evicted). -/
def plruTouch : Nat → Nat → Nat → Nat → Nat → Bool → Nat → Nat
  | 0, _, _, _, _, _, b => b
  | fuel + 1, node, lo, n, w, toward, b =>
    if n ≤ 1 then b
    else
      let h := n / 2
      let right := decide (lo + h ≤ w)
      let b := setBit b node (if toward then right else !right)
      if right then plruTouch fuel (2 * node + 2) (lo + h) h w toward b else plruTouch fuel (2 * node + 1) lo h w toward b

/-- Make a way most recent, or next to be evicted. -/
def touchWay (x : Slice) (key : Nat) (toward : Bool) : Slice :=
  let set := key / 16
  { x with plru := Table.set 0 set (plruTouch 4 0 0 16 (key % 16) toward (Table.get 0 set x.plru)) x.plru }

/-- Locked ways of a set. -/
def lockedWays (x : Slice) (set : Nat) : Nat :=
  ((setWays x set).filter (fun e => match e.2 with | some l => l.lock && l.valid != 0 | none => false)).length

/-- The way a fill of class `c` takes: an invalid way first; among the class's own lines when it already holds CLASS_WAYS of them; never a
locked or atomic-busy way, nor a lost set (R65, R72, R248). -/
def chooseWay (x : Slice) (set c classWays : Nat) : Option Nat :=
  if x.lost.contains set then none
  else
    let ways := setWays x set
    let isFree (e : Nat × Option Line) : Bool := match e.2 with | none => true | some l => l.valid == 0
    let own (e : Nat × Option Line) : Bool := match e.2 with | some l => l.valid != 0 && !l.lock && l.cls == c | none => false
    let full := decide ((ways.filter own).length ≥ classWays)
    let elig := ways.filter (fun e =>
      match e.2 with
      | none => !full
      | some l => if l.valid == 0 then !full else !l.lock && !l.abusy && (if full then l.cls == c else true))
    match (if full then none else ways.find? isFree) with
    | some e => some e.1
    | none =>
      match elig with
      | [] => none
      | _ => some (16 * set + plruWalk 4 0 0 16 (Table.get 0 set x.plru) (elig.map (fun e => e.1 % 16)))

/-- Lines currently locked (LOCKED_LINES). -/
def lockedLines (x : Slice) : Nat :=
  (x.tags.filter (fun e => match e.2 with | some l => l.lock && l.valid != 0 | none => false)).length

/-! ### Lines in memory -/

/-- A line's 128 bytes in HBM; a failed channel holds nothing (R170). -/
def State.memLine (s : State) (n src dist l : Nat) : Nat :=
  match s.lineCell n src dist l with
  | some a => s.load a 128
  | none => 0

/-- Poison bits of a line's two sectors in HBM; a failed channel reads as poison (R170). -/
def State.memPoison (s : State) (n src dist l : Nat) : Nat :=
  match s.lineCell n src dist l with
  | some a => (s.poisonAt a).toNat + 2 * (s.poisonAt (a + 64)).toNat
  | none => 3

/-- Byte mask of the sectors of a sector mask. -/
def sectorBytes (m : Nat) : Nat := (if bit m 0 then 2 ^ 64 - 1 else 0) + (if bit m 1 then (2 ^ 64 - 1) * 2 ^ 64 else 0)

/-- Write the dirty sectors of a line to HBM: data, or poison where the sector is poisoned (R66, R156); a failed channel drops them. -/
def State.writeLine (s : State) (n : Nat) (x : Line) : State :=
  match s.lineCell n x.src x.dist x.line with
  | none => s
  | some a =>
    let s := s.storeMask a 128 x.data (sectorBytes x.dirty)
    let s := if bit x.dirty 0 then s.setPoison a (bit x.poison 0) else s
    if bit x.dirty 1 then s.setPoison (a + 64) (bit x.poison 1) else s

/-- Poison the sectors of a mask of a line in HBM. -/
def State.poisonSectors (s : State) (n src dist l m : Nat) : State :=
  match s.lineCell n src dist l with
  | none => s
  | some a =>
    let s := if bit m 0 then s.setPoison a true else s
    if bit m 1 then s.setPoison (a + 64) true else s

/-- Poison both sectors of a line in HBM. -/
def State.poisonLine (s : State) (n src dist l : Nat) : State := s.poisonSectors n src dist l 3

/-- Expand a byte mask of `n` bytes into a bit mask. -/
def expandMask : Nat → Nat → Nat
  | 0, _ => 0
  | n + 1, m => (if m % 2 = 1 then 255 else 0) + 256 * expandMask n (m / 2)

/-- `old` with the bytes of `new` whose mask bit is set (128 bytes). -/
def mergeBytes (old new mask : Nat) : Nat :=
  let m := expandMask 128 mask
  (old &&& (m ^^^ (2 ^ 1024 - 1))) ||| (new &&& m)

/-- The cache section holds the line in its tags, its victim buffer or a miss register. -/
def holdsLine (x : Slice) (l src dist : Nat) : Bool :=
  (tagFind x l src dist).isSome || (victimFind x l src dist).isSome || (missFind x l src dist).isSome

/-- The line's place by the hash tables in force. -/
def State.locNew (s : State) (h l : Nat) : Option Loc :=
  match s.serving h l with
  | some (n, src, dist) => some { key := s.sliceKey n, n := n, src := src, dist := dist, line := l }
  | none => none

/-- The line's place at the slice that is being retired (Table 3.4), when that slice served it. -/
def State.locOld (s : State) (h l : Nat) : Option Loc :=
  if s.retiring.isEmpty then none
  else match s.servingHome h l with
    | some (n, src, dist) =>
      if (s.retireTo n).isSome then some { key := s.homeKey n, n := n, src := src, dist := dist, line := l } else none
    | none => none

def State.holds (s : State) (p : Loc) : Bool := holdsLine (s.cache p.key) p.line p.src p.dist

/-- The line's place: the new owner first, the retiring slice when it alone holds the line (R61); none where no slice caches it. -/
def State.loc (s : State) (h l : Nat) : Option Loc :=
  match s.locNew h l with
  | none => none
  | some p =>
    if s.holds p then some p
    else match s.locOld h l with
      | some q => if s.holds q then some q else some p
      | none => some p

/-- The coherent value of a line and its poison: valid sectors of the tag array, else the victim buffer, else HBM; with merged writes of a
miss register over it. -/
def State.viewLine (s : State) (p : Loc) : Nat × Nat :=
  let x := s.cache p.key
  let m := s.memLine p.n p.src p.dist p.line
  let mp := s.memPoison p.n p.src p.dist p.line
  let lay (ln : Line) : Nat × Nat :=
    (mergeBytes m ln.data (sectorBytes ln.valid), (mp &&& (3 - ln.valid)) ||| (ln.poison &&& ln.valid))
  let base := match tagFind x p.line p.src p.dist with
    | some (_, ln) => lay ln
    | none =>
      match victimFind x p.line p.src p.dist with
      | some v => lay v.line
      | none => (m, mp)
  match missFind x p.line p.src p.dist with
  | some r => (mergeBytes base.1 r.data r.mask, base.2)
  | none => base

/-- The coherent bytes at a local address within one line, with whether a touched sector is poisoned; used where the device itself reads
(descriptors, lap files, sweeps). -/
def State.peek (s : State) (a len : Nat) : Nat × Bool :=
  match locate s.variant a with
  | none => (0, false)
  | some (n, o) =>
    match s.loc n (o / 128) with
    | none => (0, true)
    | some p =>
      let v := s.viewLine p
      let off := o % 128
      (bytesOf v.1 off len, (bit v.2 0 && decide (off < 64)) || (bit v.2 1 && decide (off + len > 64)))

/-- Coherent bytes over several lines. -/
def State.peekMany (s : State) : Nat → Nat → Nat → Nat × Bool
  | 0, _, _ => (0, false)
  | fuel + 1, a, len =>
    let n := min len (128 - a % 128)
    let (v, p) := s.peek a n
    if n < len then
      let (v', p') := s.peekMany fuel (a + n) (len - n)
      (v + v' * 2 ^ (8 * n), p || p')
    else (v, p)

/-- Sectors touched by, and wholly covered by, `len` bytes from `off` of a line. -/
def touchedSectors (off len : Nat) : Nat := (if off < 64 then 1 else 0) + (if off + len > 64 then 2 else 0)
def wholeSectors (off len : Nat) : Nat := (if off = 0 ∧ 64 ≤ len then 1 else 0) + (if off ≤ 64 ∧ off + len = 128 then 2 else 0)

/-- Write bytes of one line where they are held: the present line (made dirty), the victim entry, the miss register, or HBM directly;
full sectors clear poison, `poison` marks every touched sector (R138, R133). -/
def State.poke (s : State) (a len v : Nat) (poison : Bool) : State :=
  match locate s.variant a with
  | none => s
  | some (n, o) =>
    match s.loc n (o / 128) with
    | none => s
    | some q =>
      let off := o % 128
      let x := s.cache q.key
      let mask := (2 ^ len - 1) * 2 ^ off
      let data := v % 2 ^ (8 * len) * 2 ^ (8 * off)
      let touched := touchedSectors off len
      let newPoison (p : Nat) : Nat := if poison then p ||| touched else p &&& (3 - wholeSectors off len)
      match tagFind x q.line q.src q.dist with
      | some (k, ln) =>
        let v := s.viewLine q
        let ln' : Line := { ln with
          data := mergeBytes v.1 data mask
          valid := ln.valid ||| touched
          dirty := ln.dirty ||| touched
          poison := newPoison v.2 &&& (ln.valid ||| touched) }
        s.setCache q.key (tagSet x k (some ln'))
      | none =>
        match victimFind x q.line q.src q.dist, missFind x q.line q.src q.dist with
        | some w, _ =>
          let v := s.viewLine q
          let ln' : Line := { w.line with
            data := mergeBytes v.1 data mask
            valid := w.line.valid ||| touched
            dirty := w.line.dirty ||| touched
            poison := newPoison v.2 &&& (w.line.valid ||| touched) }
          let s := if w.issued then s.writeLine q.n ln' else s
          s.setCache q.key (victimPut x { w with line := ln' })
        | none, some r =>
          s.setCache q.key (missPut x { r with data := mergeBytes r.data data mask, mask := r.mask ||| mask })
        | none, none =>
          match s.lineCell q.n q.src q.dist q.line with
          | none => s
          | some c =>
            let p := newPoison (s.memPoison q.n q.src q.dist q.line)
            let s := s.storeMask c 128 data mask
            let s := if bit touched 0 then s.setPoison c (bit p 0) else s
            if bit touched 1 then s.setPoison (c + 64) (bit p 1) else s

/-- Write over several lines. -/
def State.pokeMany : Nat → State → Nat → Nat → Nat → Bool → State
  | 0, s, _, _, _, _ => s
  | fuel + 1, s, a, len, v, poison =>
    let n := min len (128 - a % 128)
    let s := s.poke a n (v % 2 ^ (8 * n)) poison
    if n < len then State.pokeMany fuel s (a + n) (len - n) (v / 2 ^ (8 * n)) poison else s

end Sys2Proof.Machine
end

