-- ==== Sys2Proof/Machine/Formats.lean ====
section
/-! DEFINITION. Format descriptors and the conversion of blocks (chapter 04). -/

namespace Sys2Proof.Machine

/-- Fields of a format descriptor (Table 4.4). -/
def fdValid (d : Nat) : Bool := bit d 0
def fdStored (d : Nat) : Nat := bits d 5 1
def fdDelivered (d : Nat) : Nat := bits d 10 6
def fdRound (d : Nat) : Rounding := { stoch := bit d 11, salt := bits d 63 48 }
def fdMode (d : Nat) : Nat := bits d 13 12
def fdGuard (d : Nat) : Bool := bit d 14
def fdInf (d : Nat) : Bool := bit d 15
def fdScale (d : Nat) : Nat := bits d 23 16
def fdFlow (d : Nat) : Nat := bits d 29 24
def fdAcc (d : Nat) : Nat := bits d 36 32

/-- Descriptor `d` of partition `p`. -/
def State.fdesc (s : State) (p d : Nat) : Nat := s.rd D.FORMAT_DESC (64 * p + d)

/-- Status of the rules of R95 for a descriptor; 0 when it may be installed. -/
def fdStatus (v : Variant) (d : Nat) : Nat :=
  if fdValid d && fmtSub4 (fdStored d) && !fullFeatures v then St.UNIT_ABSENT
  else if bits d 31 30 != 0 || bits d 47 37 != 0 || bits d 127 64 != 0 then St.FORMAT_BAD
  else if !fdValid d then 0
  else if (fmtKind (fdStored d)).isNone then St.FORMAT_BAD
  else if !fmtWide (fdDelivered d) || !(fdAcc d == 0 || fdAcc d == 3) then St.FORMAT_BAD
  else if fdMode d = 2 && !(fdStored d == 0x11 || fdStored d == 0x12) then St.FORMAT_BAD
  else if fdMode d = 1 && fdScale d == 0xFF then St.FORMAT_BAD
  else if fdMode d = 3 then St.FORMAT_BAD
  else 0

/-- Payload bytes of a format-on-write, and response bytes of a format-on-read, of n blocks (Table 4.5). -/
def fmtWideBytes (d n : Nat) : Nat := 32 * n * fmtBits (fdDelivered d) / 8

/-- Payload bytes of a scaled accumulate of n blocks: data and scale of a block format, or 32·n elements (Table 4.5). -/
def fmtSourceBytes (d n : Nat) : Nat :=
  let w := fmtBits (fdStored d)
  if fmtBlock (fdStored d) then n * (4 * w + 1) else n * 4 * w

/-- The rules of R96 for unit address, first block and count. -/
def fmtRangeOk (d : Nat) (acc : Bool) (addr b0 n : Nat) : Bool :=
  if acc then addr % 512 == 0 && 1 ≤ n && n ≤ 4 && b0 + n ≤ 4
  else addr % fmtUnit (fdStored d) == 0 && 1 ≤ n && n ≤ 4 && b0 + n ≤ fmtBlocks (fdStored d)

/-- One flag of Table 4.10. -/
def flagBit (b : Nat) : FlowCnt := { FlowCnt.zero with flags := 2 ^ b }

/-- Events added: counters saturate as U32, flags are sticky, amax is a maximum (R110). -/
def flowAdd (a b : FlowCnt) : FlowCnt :=
  { flags := a.flags ||| b.flags, blocks := satAdd 32 a.blocks b.blocks, clip := satAdd 32 a.clip b.clip,
    raised := satAdd 32 a.raised b.raised, ovf := satAdd 32 a.ovf b.ovf, underflow := satAdd 32 a.underflow b.underflow,
    nanBlocks := satAdd 32 a.nanBlocks b.nanBlocks, infs := satAdd 32 a.infs b.infs, resv := satAdd 32 a.resv b.resv,
    amax := max a.amax b.amax }

/-- Key of a flow's counters. -/
def flowKey (sl p f : Nat) : Nat := 1024 * sl + 64 * p + f

/-- Count events of partition `p`'s flow `f` in slice `sl`. -/
def State.flowEvents (s : State) (sl p f : Nat) (c : FlowCnt) : State :=
  { s with flows := Table.set FlowCnt.zero (flowKey sl p f) (flowAdd (Table.get FlowCnt.zero (flowKey sl p f) s.flows) c) s.flows }

def clipEv : FlowCnt := { flagBit 0 with clip := 1 }
def underEv : FlowCnt := { flagBit 5 with underflow := 1 }

/-- Convert one value to a delivered wide format (Table 4.6). -/
def deliverElem (rd : Rounding) (infm : Bool) (c : Nat) (g : Rng) (v : Val) : Nat × FlowCnt × Rng :=
  let isInt := c == 3 || c == 4
  let limit (n : Bool) := if n then signedCode c true (maxCode c + 1) else maxCode c
  match v with
  | .nan _ => if isInt then (0, flagBit 7, g) else (quietNan c, flagBit 6, g)
  | .inf n => if isInt then (limit n, flagBit 7, g)
              else (signedCode c n (if infm then infCode c else maxCode c), FlowCnt.zero, g)
  | .fin n m e =>
    let big := if isInt && n then magLt (maxCode c + 1) 0 m e else beyondMax c m e
    if big then
      (if isInt then limit n else signedCode c n (if infm then infCode c else maxCode c), flagBit 10, g)
    else
      let (code, g) := roundCode rd g c m e
      (signedCode c n code, if code = 0 ∧ m ≠ 0 then underEv else FlowCnt.zero, g)

/-- The exact values of a stored block: element values times the block scale; NaN throughout when the scale is 0xFF (R102). -/
def blockVals (c scale data : Nat) : List Val :=
  let w := fmtBits c
  (List.range 32).map (fun i =>
    if fmtBlock c && scale == 0xFF then .nan false
    else
      let v := decodeElem c (data / 2 ^ (w * i) % 2 ^ w)
      if fmtBlock c then valScale ((scale : Int) - 127) v else v)

/-- Reserved HX2 codes among a block's elements (R89). -/
def reservedCodes (c data : Nat) : Nat :=
  if c = 0x11 then ((List.range 32).filter (fun i => data / 2 ^ (2 * i) % 4 == 2)).length else 0

/-- A finite non-zero magnitude as binary32 bits, rounded to nearest. -/
def amaxBits (m : Nat) (e : Int) : Nat := min (encodeIeee 0 (.fin false m e)) 0x7F7FFFFF

/-- The largest finite magnitude of a list of values. -/
def amaxOf : List Val → Nat × Int
  | [] => (0, 0)
  | .fin _ m e :: r => let x := amaxOf r; if magLt x.1 x.2 m e then (m, e) else x
  | _ :: r => amaxOf r

/-- Whether a value is NaN, or Inf. -/
def valNan : Val → Bool
  | .nan _ => true
  | _ => false
def valInf : Val → Bool
  | .inf _ => true
  | _ => false

/-- Source events of a block: NAN_IN, INF_IN and their counters, one block, and amax where it is kept (R110). -/
def sourceEvents (withAmax : Bool) (l : List Val) : FlowCnt :=
  let nans := l.any valNan
  let infs := (l.filter valInf).length
  let a := amaxOf l
  { FlowCnt.zero with
    flags := (if nans then 8 else 0) + (if infs > 0 then 16 else 0), blocks := 1, nanBlocks := nans.toNat, infs := infs,
    amax := if withAmax && a.1 != 0 then amaxBits a.1 a.2 else 0 }

/-- Convert a list of values, element order, low element first (R102, R106). -/
def deliverAll (rd : Rounding) (infm : Bool) (c : Nat) : List Val → Rng → Nat × FlowCnt × Rng
  | [], g => (0, FlowCnt.zero, g)
  | v :: r, g =>
    let (x, ev, g) := deliverElem rd infm c g v
    let (y, ev', g) := deliverAll rd infm c r g
    (x + y * 2 ^ fmtBits c, flowAdd ev ev', g)

/-- Format-on-read of one block: 32 elements in DELIVERED (R102). -/
def readBlock (d : Nat) (scale data tag : Nat) (g : Rng) : Nat × FlowCnt × Rng :=
  let c := fdStored d
  let vs := blockVals c scale data
  let src := sourceEvents false vs
  let resv := reservedCodes c data
  let src := { src with flags := src.flags + (if resv > 0 then 2 ^ 8 else 0) + (if tag != 0 then 2 ^ 9 else 0), resv := resv }
  let (x, ev, g) := deliverAll (fdRound d) (fdInf d) (fdDelivered d) vs g
  (x, flowAdd src ev, g)

/-- Source elements of a wide payload. -/
def wideVals (c data : Nat) : List Val :=
  (List.range 32).map (fun i => decodeElem c (data / 2 ^ (fmtBits c * i) % 2 ^ fmtBits c))

/-- floor(log2 of (m·2^e) / n), m and n non-zero. -/
def logDiv (m : Nat) (e : Int) (n : Nat) : Int := (Nat.log2 (m * 2 ^ 64 / n) : Int) - 64 + e

/-- The sum of the magnitudes of the finite elements as s·2^e, and their number. -/
def finSum : List Val → (Nat × Int) × Nat
  | [] => ((0, 0), 0)
  | .fin _ m e :: r =>
    let ((m', e'), n) := finSum r
    let b := min e e'
    ((m * 2 ^ (e - b).toNat + m' * 2 ^ (e' - b).toNat, b), n + 1)
  | _ :: r => finSum r

/-- The scale exponent of Table 4.7 before the clamp, and whether the guard raised it. -/
def scaleExp (d : Nat) (l : List Val) : Int × Bool :=
  let c := fdStored d
  let a := amaxOf l
  if a.1 = 0 then (-127, false)
  else match fdMode d with
    | 1 => ((fdScale d : Int) - 127, false)
    | 2 =>
      let ((m, e), n) := finSum l
      let f := logDiv m e n
      -- m/n·2^e ≥ 1.5·2^f
      (if !magLt (2 * m) e (3 * n) f then f + 1 else f, false)
    | _ =>
      let x0 := magLog a.1 a.2 - fmtEmax c
      if fdGuard d && beyondMax c a.1 (a.2 - x0) then (x0 + 1, true) else (x0, false)

/-- The block format marks a NaN, or an Inf under INF_MODE 1, by a NaN block (Table 4.8). -/
def wholeBlockNan (c : Nat) (infm : Bool) (v : Val) : Bool :=
  if c = 0x08 || c = 0x09 then false
  else match v with
    | .nan _ => true
    | .inf _ => infm
    | _ => false

/-- Quantise one element under scale exponent `x` (R104, Table 4.8). -/
def quantElem (rd : Rounding) (infm : Bool) (c : Nat) (x : Int) (g : Rng) (v : Val) : Nat × FlowCnt × Rng :=
  match v with
  | .nan n => (signedCode c n (if c = 0x08 then 0x7F else 0x7F), flagBit 6, g)
  | .inf n =>
    if infm then (if c = 0x08 then (signedCode c n 0x7F, flagBit 6, g) else (signedCode c n (infCode c), FlowCnt.zero, g))
    else (signedCode c n (maxCode c), clipEv, g)
  | .fin n m e =>
    let e := e - x
    if beyondMax c m e then (signedCode c n (maxCode c), clipEv, g)
    else if fmtKind c = some .hx1 then ((n && m != 0).toNat, FlowCnt.zero, g)
    else
      let (code, g) := roundCode rd g c m e
      if code = 0 then (0, if m ≠ 0 then underEv else FlowCnt.zero, g) else (signedCode c n code, FlowCnt.zero, g)

/-- Quantise a list of elements, element order. -/
def quantAll (rd : Rounding) (infm : Bool) (c : Nat) (x : Int) : List Val → Rng → Nat × FlowCnt × Rng
  | [], g => (0, FlowCnt.zero, g)
  | v :: r, g =>
    let (y, ev, g) := quantElem rd infm c x g v
    let (z, ev', g) := quantAll rd infm c x r g
    (y + z * 2 ^ fmtBits c, flowAdd ev ev', g)

/-- Format-on-write of one block to a block format: data, scale, tag, events. The scale and its counts come before the non-finite
rules (R103). -/
def writeBlock (d : Nat) (l : List Val) (g : Rng) : Nat × Nat × Nat × FlowCnt × Rng :=
  let c := fdStored d
  let src := sourceEvents true l
  let nonfin := l.any (fun v => valNan v || valInf v)
  let (x, raised) := scaleExp d l
  let lowered := decide (x > 127)
  let scaled := flowAdd src { FlowCnt.zero with
    flags := (if raised then 2 else 0) + (if lowered then 4 else 0), raised := raised.toNat, ovf := lowered.toNat }
  if l.any (wholeBlockNan c (fdInf d)) then (0, 0xFF, 2, flowAdd scaled (flagBit 6), g)
  else
    let xc := max (-127) (min 127 x)
    let (data, ev, g) := quantAll (fdRound d) (fdInf d) c xc l g
    (data, (xc + 127).toNat, (if ev.clip > 0 then 1 else 0) + (if nonfin then 2 else 0), flowAdd scaled ev, g)

/-- One element of a format-on-write to a wide format (R104, Table 4.8): `same` when source and stored formats agree, `raw` the
source code. -/
def writeWideElem (rd : Rounding) (infm : Bool) (c raw : Nat) (same : Bool) (g : Rng) (v : Val) : Nat × FlowCnt × Rng :=
  let isInt := c == 3 || c == 4
  let limit (n : Bool) := if isInt then (if n then signedCode c true (maxCode c + 1) else maxCode c) else signedCode c n (maxCode c)
  match v with
  | .nan n => if isInt then (0, flagBit 7, g) else (if same then raw else signedCode c n (quietNan c), flagBit 6, g)
  | .inf n =>
    if infm then (if isInt then (limit n, flagBit 7, g) else (signedCode c n (infCode c), FlowCnt.zero, g))
    else (limit n, FlowCnt.zero, g)
  | .fin n m e =>
    let big := if isInt && n then magLt (maxCode c + 1) 0 m e else beyondMax c m e
    if big then (limit n, clipEv, g)
    else
      let (code, g) := roundCode rd g c m e
      if code = 0 then (if m = 0 then signedCode c n 0 else 0, if m ≠ 0 then underEv else FlowCnt.zero, g)
      else (signedCode c n code, FlowCnt.zero, g)

/-- Format-on-write of 32 elements to a wide format. -/
def writeWide (d : Nat) : List (Val × Nat) → Rng → Nat × FlowCnt × Rng
  | [], g => (0, FlowCnt.zero, g)
  | (v, raw) :: r, g =>
    let c := fdStored d
    let (y, ev, g) := writeWideElem (fdRound d) (fdInf d) c raw (fdDelivered d == c) g v
    let (z, ev', g) := writeWide d r g
    (y + z * 2 ^ fmtBits c, flowAdd ev ev', g)

/-- One target element of a scaled accumulate: t + v rounded once to ACC (R108). A non-zero sum that an INT32 target rounds to zero
is Table 4.10's UNDERFLOW. -/
def accElem (d : Nat) (g : Rng) (t : Nat) (v : Val) : Nat × FlowCnt × Rng :=
  if fdAcc d = 3 then
    match v, decodeElem 3 t with
    | .fin n m e, .fin n' m' e' =>
      (match finAdd n m e n' m' e' with
       | .fin n m e =>
         let (code, g) := roundMag (fdRound d) g m e 0
         let lim := if n then 2 ^ 31 else 2 ^ 31 - 1
         if code > lim then (signedCode 3 n lim, flagBit 10, g)
         else (signedCode 3 n code, if code = 0 ∧ m ≠ 0 then underEv else FlowCnt.zero, g)
       | _ => (t, FlowCnt.zero, g))
    | _, _ => (t, flagBit 7, g)
  else
    match valAdd (decodeElem 0 t) v with
    | .nan _ => (quietNan 0, flagBit 6, g)
    | .inf n => (signedCode 0 n (infCode 0), FlowCnt.zero, g)
    | .fin n m e =>
      let (code, g) := roundCode (fdRound d) g 0 m e
      if code > maxCode 0 then (signedCode 0 n (infCode 0), flagBit 10, g) else (signedCode 0 n code, FlowCnt.zero, g)

/-- A target line of 32 elements after a scaled accumulate of one block (R108). -/
def accLine (d : Nat) : List Val → Nat → Rng → Nat × FlowCnt × Rng
  | [], _, g => (0, FlowCnt.zero, g)
  | v :: r, line, g =>
    let (y, ev, g) := accElem d g (line % 2 ^ 32) v
    let (z, ev', g) := accLine d r (line / 2 ^ 32) g
    (y + z * 2 ^ 32, flowAdd ev ev', g)

/-- Source values of block `k` of a scaled accumulate's payload (Table 4.5). -/
def accVals (d payload k : Nat) : List Val :=
  let c := fdStored d
  let w := fmtBits c
  if fmtBlock c then
    let b := bytesOf payload (k * (4 * w + 1)) (4 * w + 1)
    blockVals c (b / 2 ^ (32 * w)) (b % 2 ^ (32 * w))
  else wideVals c (bytesOf payload (k * 4 * w) (4 * w))

end Sys2Proof.Machine
end

