-- ==== Sys2Proof/Machine/Windows.lean ====
section
/-! DEFINITION. Window tables, the check of Table 2.5, window faults and parking, and the way of a checked request (R30 to R43). -/

namespace Sys2Proof.Machine

/-- Access kinds of Table 2.6 and ACCESS of Table 2.7. -/
inductive Acc where
  | read | write | atomic | doorbell
  deriving DecidableEq, Repr

/-- ACCESS of Table 2.7. -/
def accCode : Acc → Nat
  | .read => 0
  | .write => 1
  | .atomic => 2
  | .doorbell => 3

/-- Bit of a window entry that grants an access (Tables 2.4 and 2.6). -/
def accBit : Acc → Nat
  | .read => 1
  | .write => 2
  | .atomic => 3
  | .doorbell => 4

/-- WINDOW_ENTRY instance of partition p, group g, window w (Table 2.10). -/
def winIdx (p g w : Nat) : Nat := 256 * p + 64 * g + w

/-- Fields of a window entry (Table 2.4). -/
def weValid (e : Nat) : Bool := bit e 0
def weDevice (e : Nat) : Nat := bits e 19 8
def weBase (e : Nat) : Nat := bits e 54 32
def weLimit (e : Nat) : Nat := bits e 86 64

/-- Reserved bits of a window entry are zero (Table 2.4). -/
def weReservedOk (e : Nat) : Bool :=
  bits e 7 5 == 0 && bits e 31 20 == 0 && bits e 63 55 == 0 && bits e 127 87 == 0

/-- A valid entry covers bytes lo to hi of device `dev` (step 4 of Table 2.5). -/
def weCovers (e dev lo hi : Nat) : Bool :=
  weValid e && weDevice e == dev && weBase e ≤ lo / 2 ^ 21 && hi / 2 ^ 21 ≤ weLimit e

/-- The device number in force (R24). -/
def State.devNum (s : State) : Nat := s.cur D.DEVICE_NUMBER 0

/-- The matching entry of lowest index (R37). -/
def State.winMatch (s : State) (p g dev lo hi : Nat) : Option Nat :=
  (List.range 64).findSome? (fun w =>
    let e := s.rd D.WINDOW_ENTRY (winIdx p g w)
    if weCovers e dev lo hi then some e else none)

/-- First and last byte of an entry's range. -/
def weLo (e : Nat) : Nat := weBase e * 2 ^ 21
def weHi (e : Nat) : Nat := weLimit e * 2 ^ 21 + (2 ^ 21 - 1)

/-- The shape rules of R35 for a valid entry on the map of a variant; 0 when they hold. -/
def weShape (v : Variant) (e : Nat) : Nat :=
  if weBase e > weLimit e then St.WINDOW_BAD
  else match regionOf v (weLo e), regionOf v (weHi e) with
    | .view c _ n, .view c' x' _ => if c != c' || n * chanUsable ≤ x' || bit e 4 then St.WINDOW_BAD else 0
    | .doorbell _, .doorbell _ => if bits e 3 1 != 0 then St.WINDOW_BAD else 0
    | _, _ => St.WINDOW_BAD

/-- A local address lies in the view of an absent half or field (R5, R29). -/
def absentView (v : Variant) (a : Nat) : Bool :=
  match regionOf v a with
  | .view c _ _ => !viewPresent v c
  | _ => false

/-- First and last local address of a donor block, in its field's view (R166). -/
def donorLo (d : Nat) : Nat := viewBase (8 + dnField d) + dnBlock d * 2 ^ 31
def donorHi (d : Nat) : Nat := donorLo d + (2 ^ 31 - 1)

/-- A donor block in use overlaps the entry's range (R168). -/
def State.weDonor (s : State) (e : Nat) : Bool :=
  s.donors.any (fun x => decide (weLo e ≤ donorHi x.2 ∧ donorLo x.2 ≤ weHi e))

/-- Status of the rules of R35 and R168 for an entry; 0 when it may be installed. A remote DEVICE is held to the full map. -/
def State.weStatus (s : State) (e : Nat) : Nat :=
  let loc := weDevice e == s.devNum
  if weValid e && loc && (absentView s.variant (weLo e) || absentView s.variant (weHi e)) then St.UNIT_ABSENT
  else if !weReservedOk e then St.WINDOW_BAD
  else if !weValid e then 0
  else if loc && s.weDonor e then St.WINDOW_BAD
  else weShape (if loc then s.variant else .hn8f) e

/-- Result of the check of Table 2.5: it passes, it misses its window, or it fails with a status and a record type (0 for none). -/
inductive ChkRes where
  | pass
  | miss
  | fail (st rec27 : Nat)
  deriving DecidableEq, Repr

/-- Local bytes lo to hi are mapped and not reserved; the aperture takes only doorbell writes (R25, R27, R28). -/
def mappedOk (v : Variant) (lo hi : Nat) (bell : Bool) : Bool :=
  match regionOf v lo, regionOf v hi with
  | .view c _ n, .view c' x' _ => c == c' && x' < n * chanUsable
  | .doorbell o, .doorbell _ => bell && o % 64 == 0 && hi - lo == 7
  | _, _ => false

/-- Step 2 of Table 2.5: the partition is enabled, accepted by the link, not stopped; 0 when all hold. Link traffic of a disabled partition is
refused by R31 (log 201). -/
def State.partStatus (s : State) (p group source : Nat) : Nat :=
  if group == 2 && !(bit (s.rd D.LINK_PART_MASK source) p && s.rdB D.PART_ENABLE p) then St.LINK_PARTITION_DENIED
  else if !s.rdB D.PART_ENABLE p then St.PARTITION_DISABLED
  else if s.rd D.PART_FAULT_STATE p != 0 then St.PARTITION_STOPPED
  else 0

/-- Steps 4 and 5 of Table 2.5. -/
def State.winCheck (s : State) (p group dev lo hi : Nat) (acc : Acc) : ChkRes :=
  match s.winMatch p group dev lo hi with
  | none => .miss
  | some e => if bit e (accBit acc) then .pass else .fail St.WINDOW_PERM 0x21

/-- Steps 1 to 3 of Table 2.5 for bytes lo to hi; none when they pass. A refusal of a link's partition writes a type 0x23 record (R31). -/
def State.preCheck (s : State) (p group source dev lo hi : Nat) (acc : Acc) : Option ChkRes :=
  let loc := dev == s.devNum
  if loc && (absentView s.variant lo || absentView s.variant hi) then some (.fail St.UNIT_ABSENT 0)
  else
    let ps := s.partStatus p group source
    if ps != 0 then some (.fail ps (if ps = St.LINK_PARTITION_DENIED then 0x23 else 0))
    else if loc && !mappedOk s.variant lo hi (acc == .doorbell) then some (.fail St.ADDRESS_UNMAPPED 0x22)
    else none

/-- Steps 1 to 5 of Table 2.5. -/
def State.checkSpan (s : State) (p group source dev lo hi : Nat) (acc : Acc) : ChkRes :=
  match s.preCheck p group source dev lo hi acc with
  | some c => c
  | none => s.winCheck p group dev lo hi acc

/-- Status of a local format request's own rules (R96, R97): descriptor, unit, block and count, and for link traffic the payload. -/
def State.fmtStatus (s : State) (r : Req) : Nat :=
  let d := s.fdesc r.part (bits r.attr 5 0)
  let n := bits r.attr 7 6 + 1
  if !fdValid d then St.FORMAT_UNSET
  else if !fmtRangeOk d (r.kind == .scaledAcc) r.addr r.len n then St.FORMAT_RANGE
  else
    let want := match r.kind with | .fmtWrite => fmtWideBytes d n | .scaledAcc => fmtSourceBytes d n | _ => 0
    if r.group == 2 && r.record != ceilDiv want 16 then St.FORMAT_RANGE else 0

def isFmt (r : Req) : Bool := r.kind == .fmtRead || r.kind == .fmtWrite || r.kind == .scaledAcc

/-- First and last byte a request touches, for its window check (R36, R73, R97). -/
def State.reqSpan (s : State) (r : Req) : Nat × Nat :=
  match r.kind with
  | .prefetch => (r.addr / 128 * 128, r.addr / 128 * 128 + 127)
  | .fmtRead | .fmtWrite =>
    if r.dev == s.devNum then
      if s.fmtStatus r = 0 then
        let u := fmtUnit (fdStored (s.fdesc r.part (bits r.attr 5 0)))
        (r.addr, r.addr + (u - 1))
      else (r.addr, r.addr)
    else (r.addr / 512 * 512, r.addr / 512 * 512 + 511)
  | .scaledAcc => (r.addr / 512 * 512, r.addr / 512 * 512 + 511)
  | _ => (r.addr, r.addr + (r.len - 1))

/-- The rules of chapters 04 and 05 that a request is held to before its window: formats (R96) and atomics (R115, R116); 0 when they hold. -/
def State.ownStatus (s : State) (r : Req) : Nat :=
  if isFmt r then (if r.dev == s.devNum then s.fmtStatus r else 0)
  else if r.kind == .atomic then atStatus r.attr r.addr r.len
  else 0

/-- Permission a request needs (Table 2.6, Table 3.6). -/
def reqAcc (r : Req) : Acc :=
  match r.kind with
  | .read | .prefetch | .fmtRead | .fence => .read
  | .write | .fmtWrite => .write
  | .atomic | .scaledAcc => .atomic
  | .range => (match bits r.attr 3 0 with | 0 | 4 | 5 => .read | _ => .write)
  | .doorbell => .doorbell

/-- The check of a request: steps 1 to 3, the request's own rules, then its windows. -/
def State.checkReq (s : State) (r : Req) : ChkRes :=
  let sp := s.reqSpan r
  match s.preCheck r.part r.group r.source r.dev sp.1 sp.2 (reqAcc r) with
  | some c => c
  | none =>
    let st := s.ownStatus r
    if st != 0 then .fail st 0 else s.winCheck r.part r.group r.dev sp.1 sp.2 (reqAcc r)

/-! ### Fault records of the normal area -/

/-- FAULT_ID after `n` (R39). -/
def fidNext (n : Nat) : Nat := if n ≥ 0xFFFFFFFF then 1 else n + 1

/-- Fields of a record. -/
def recType (r : Nat) : Nat := bits r 7 0
def recFid (r : Nat) : Nat := bits r 159 128
def recCount (r : Nat) : Nat := bits r 175 160

/-- A record with `n` more in COUNT, saturating at 0xFFFF (Table 2.7, R420). -/
def recAddCount (r n : Nat) : Nat := setBits r 175 160 (min (recCount r + n) 0xFFFF)

/-- Table 2.7. -/
def record27 (ty p group acc source dev addr fid cnt gate : Nat) : Nat :=
  ty + p * 2 ^ 8 + group * 2 ^ 12 + acc * 2 ^ 14 + source * 2 ^ 16 + dev * 2 ^ 32 + (addr % 2 ^ 44) * 2 ^ 64 + fid * 2 ^ 128 +
    (min cnt 0xFFFF) * 2 ^ 160 + gate * 2 ^ 192

/-- FAULT_OVERFLOW is set and raised, at most once per millisecond (10^6 gate ticks) per partition (R422). -/
def State.overflow (s : State) (p : Nat) : State :=
  let s := s.wr D.FAULT_OVERFLOW p 1
  let x := s.part p
  let due := match x.lastOvf with | none => true | some t => decide (t + 1000000 ≤ s.gate)
  if due then (s.setPart p { x with lastOvf := some s.gate }).raise Ev.FAULT_OVERFLOW p p else s

/-- One record of a type is dropped and counted (R422). -/
def State.dropCount (s : State) (p ty : Nat) : State := s.count D.FAULT_TYPE_OVERFLOW (256 * p + ty) 1

/-- Records of a type in an area. -/
def typeCount (ty : Nat) (l : List Nat) : Nat := (l.filter (fun r => recType r == ty)).length

/-- The list without its first element that satisfies `q`. -/
def removeFirst (q : Nat → Bool) : List Nat → List Nat
  | [] => []
  | a :: r => if q a then r else a :: removeFirst q r

/-- The TYPE the normal area holds most of; ties go to the TYPE whose oldest record is the oldest (R422). -/
def mostType (l : List Nat) : Nat :=
  (l.foldl (fun (b : Nat × Nat) r => let n := typeCount (recType r) l; if n > b.2 then (recType r, n) else b) (0, 0)).1

/-- Append a record to the normal area, with the rules of R422 when it is full. -/
def State.pushNormal (s : State) (p r : Nat) : State :=
  let x := s.part p
  if x.normal.length < 4096 then s.setPart p { x with normal := x.normal ++ [r] }
  else if typeCount (recType r) x.normal > 0 then (s.dropCount p (recType r)).overflow p
  else
    let ty := mostType x.normal
    let s := s.setPart p { x with normal := removeFirst (fun q => recType q == ty) x.normal ++ [r] }
    (s.dropCount p ty).overflow p

/-- Write a new record of Table 2.7 with a new FAULT_ID. -/
def State.newRecord (s : State) (p ty group acc source dev addr cnt : Nat) : State :=
  let x := s.part p
  let s := s.setPart p { x with nextFid := fidNext x.nextFid }
  s.pushNormal p (record27 ty p group acc source dev addr x.nextFid cnt s.gate)

/-- Add to the COUNT of a queued record of the normal area. -/
def State.addCount (s : State) (p fid n : Nat) : State :=
  let x := s.part p
  s.setPart p { x with normal := x.normal.map (fun r => if recFid r == fid then recAddCount r n else r) }

/-- A type 0x23 record, or one more denial on the queued record of the same partition and link (R31). -/
def State.denialRecord (s : State) (p n dev addr acc : Nat) : State :=
  match (s.part p).normal.find? (fun r => recType r == 0x23 && bits r 31 16 == n) with
  | some r => s.addCount p (recFid r) 1
  | none => s.newRecord p 0x23 2 acc n dev addr 1

/-- The record of a failed check (Table 2.7): none, a denial, or one of its own event. -/
def State.failRecord (s : State) (r : Req) (ty : Nat) : State :=
  if ty = 0 then s
  else if ty = 0x23 then s.denialRecord r.part r.source r.dev r.addr (accCode (reqAcc r))
  else s.newRecord r.part ty r.group (accCode (reqAcc r)) r.source r.dev (s.reqSpan r).1 1

/-! ### Parking -/

/-- Park buffer of a requester: its field, or 8 for the host port (R38). -/
def parkField (group source : Nat) : Nat :=
  match group with
  | 0 => source / 64
  | 1 => source / 64
  | 2 => source / 8
  | _ => 8

/-- Places of a park buffer (R41). -/
def parkSize (f : Nat) : Nat := if f = 8 then 256 else 1024

def isParked (r : Req) : Bool := match r.stage with | .parked _ => true | _ => false

def parkedOn (fid : Nat) (r : Req) : Bool := match r.stage with | .parked f => f == fid | _ => false

/-- Requests in a park buffer. -/
def State.parkedIn (s : State) (f : Nat) : Nat :=
  (s.reqList.filter (fun x => isParked x.2 && parkField x.2.group x.2.source == f)).length

/-- Some request of partition `p` is still parked on the record. -/
def State.hasParked (s : State) (p fid : Nat) : Bool := s.reqList.any (fun x => x.2.part == p && parkedOn fid x.2)

/-- Granule of a miss with its device. -/
def missGranule (dev lo : Nat) : Nat := dev * 2 ^ 23 + lo / 2 ^ 21

/-- The unresolved record of a (partition, group, granule) that still has parked requests (R39). -/
def State.openMiss (s : State) (p group gr : Nat) : Option Nat :=
  match (s.part p).misses.find? (fun m => m.group == group && m.granule == gr && !m.resolved && s.hasParked p m.fid) with
  | some m => some m.fid
  | none => none

/-- A window miss writes its record, or attaches to the open one: the state and the FAULT_ID (R39). -/
def State.missRecord (s : State) (r : Req) (lo : Nat) : State × Nat :=
  let gr := missGranule r.dev lo
  match s.openMiss r.part r.group gr with
  | some fid => (s.addCount r.part fid 1, fid)
  | none =>
    let fid := (s.part r.part).nextFid
    let s := s.newRecord r.part 0x20 r.group (accCode (reqAcc r)) r.source r.dev lo 1
    let x := s.part r.part
    (s.setPart r.part { x with misses := x.misses ++ [{ fid := fid, group := r.group, granule := gr, resolved := false }] }, fid)

/-- Records whose parked requests are all gone are resolved (R42). -/
def State.dropMiss (s : State) (p fid : Nat) : State :=
  if s.hasParked p fid then s
  else let x := s.part p; s.setPart p { x with misses := x.misses.filter (fun m => m.fid != fid) }

/-! ### After the check -/

/-- Key by which R301 picks the link of a data-path request. -/
def routeKey (r : Req) : Nat := r.addr / 512

/-- Descriptor numbers of the requests an engine makes for the ring itself: 2^32 + i fetches the group from index i, 2^33 + i writes the
completion entry of index i (R130, R134). -/
def teFetchMark : Nat := 2 ^ 32
def teCompMark : Nat := 2 ^ 33

/-- An engine's own fetch or completion write takes effect at its check: it reads or writes the bytes as the slices hold them. -/
def State.teDirect (s : State) (rid : Nat) (r : Req) (d : Nat) : State :=
  if d < teCompMark then
    let v := s.peekMany 6 r.addr r.len
    (s.setReq rid r).complete rid (if v.2 then St.POISONED else 0) r.len v.1
  else ((State.pokeMany 2 s r.addr r.len r.data false).setReq rid r).complete rid 0 0 0

/-- A stamped request goes on its way: to its owner slice or ring engine through the mesh, or to the link of its device (R24, R301); the lines of a
hole that no slice caches answer SLICE_FAILED (R59); a range that is not aligned answers RANGE_ALIGN (R73). -/
def State.sendOne (s : State) (rid : Nat) (r : Req) : State :=
  let src := sourceEndpoint s.variant r.group r.source
  if r.kind == .range && (r.addr % 128 != 0 || r.len % 128 != 0) then (s.setReq rid r).complete rid St.RANGE_ALIGN 0 0
  else if r.dev != s.devNum then
    match s.pickLink r.dev (routeKey r) with
    | none => (s.setReq rid r).complete rid St.LINK_UNREACHABLE 0 0
    | some n =>
      (s.setReq rid { r with stage := .mesh }).inject (unitOf src (endpoint (linkNode n) 7 0) r.cls r.part rid)
  else match r.kind with
    | .doorbell =>
      let t := bits (s.rd (D.RING_CONTEXT (ringOfAddr r.addr / 65536)) (ringOfAddr r.addr % 65536)) 24 16
      (s.setReq rid { r with stage := .mesh }).inject (unitOf src (endpoint (teNode t) 8 (t % 2)) r.cls r.part rid)
    | .range => s.setReq rid { r with stage := .slice }
    | _ =>
      match s.reqServing r with
      | none => (s.setReq rid r).complete rid St.SLICE_FAILED 0 0
      | some (sl, _, _) =>
        (s.setReq rid { r with stage := .mesh }).inject (unitOf src (s.sliceEndpoint sl) r.cls r.part rid)

/-- The pieces of `len` bytes from `a` at line boundaries: offset and length of each (R55). -/
def linePieces : Nat → Nat → Nat → Nat → List (Nat × Nat)
  | 0, _, _, _ => []
  | fuel + 1, a, off, len =>
    let n := min len (128 - (a + off) % 128)
    if n < len then (off, n) :: linePieces fuel a (off + n) (len - n) else [(off, n)]

/-- A read or write that its ingress has to split (R55). -/
def crossesLine (r : Req) : Bool := (r.kind == .read || r.kind == .write) && decide (128 < r.addr % 128 + r.len)

/-- Send one piece of request `rid`. -/
def State.sendPiece (s : State) (rid : Nat) (r : Req) (x : Nat × Nat) : State :=
  let k := s.nextReq
  let q : Req := { r with origin := .split rid x.1, addr := r.addr + x.1, len := x.2, data := bytesOf r.data x.1 x.2, record := 0, chunks := 0 }
  (s.newReq q).sendOne k q

/-- A checked request is stamped with the epoch, frees its credits and is sent, whole or in pieces (R43, R55). -/
def State.send (s : State) (rid : Nat) (r : Req) : State :=
  let r := { r with epoch := s.rd D.WINDOW_EPOCH r.part, order := s.nextOrder }
  let s := ({ s with nextOrder := s.nextOrder + 1 }).freeChunks r
  let r := { r with chunks := 0 }
  let own := match r.origin with | .te _ d => if teFetchMark ≤ d then some d else none | _ => none
  if own.isSome then s.teDirect rid r (own.getD 0)
  else if crossesLine r then
    let l := linePieces 40 r.addr 0 r.len
    let kids := (List.range l.length).map (fun i => s.nextReq + i)
    let s := s.setReq rid { r with stage := .slice, parts := kids, record := 0, status := 0, data := 0 }
    l.foldl (fun t x => t.sendPiece rid r x) s
  else s.sendOne rid r

/-- What the result of a check does with request `rid`: it is sent, parked (or, when the park buffer is full, ended with WINDOW_FAULT),
or ended with the failing status and its record (R36, R38, R41). -/
def State.checked (s : State) (rid : Nat) (r : Req) (c : ChkRes) : State :=
  match c with
  | .pass => s.send rid r
  | .fail st ty => ((s.setReq rid r).failRecord r ty).complete rid st 0 0
  | .miss =>
    let f := parkField r.group r.source
    let lo := (s.reqSpan r).1
    if s.parkedIn f < parkSize f then
      let (s, fid) := s.missRecord r lo
      s.setReq rid { r with stage := .parked fid }
    else
      let (s, fid) := s.missRecord r lo
      (((s.count D.PARK_FULL_COUNT f 1).setReq rid r).complete rid St.WINDOW_FAULT 0 0).dropMiss r.part fid

/-- A parked request completes with WINDOW_FAULT (R40, R42). -/
def State.faultParked (s : State) (rid : Nat) : State :=
  match s.req? rid with
  | some r => (match r.stage with
    | .parked fid => (s.complete rid St.WINDOW_FAULT 0 0).dropMiss r.part fid
    | _ => s)
  | none => s

/-- Re-check one parked request from step 4: it proceeds when the tables now cover it (R40). -/
def State.recheck (s : State) (rid : Nat) : State :=
  match s.req? rid with
  | some r =>
    if isParked r then
      let sp := s.reqSpan r
      match s.winCheck r.part r.group r.dev sp.1 sp.2 (reqAcc r) with
      | .miss => s
      | c => s.checked rid r c
    else s
  | none => s

/-- Re-check every parked request of a partition, in the order they came (R40, R266). -/
def State.recheckAll (s : State) (p : Nat) : State :=
  (s.reqList.filter (fun x => x.2.part == p && isParked x.2)).foldl (fun t x => t.recheck x.1) s

/-- The pieces of a split request leave the machine. -/
def State.dropPieces (s : State) (r : Req) : State :=
  if crossesLine r then r.parts.foldl (fun t k => t.delReq k) s else s

/-- Every request of the list that is in flight completes with WINDOW_REVOKED; one type 0x25 record is formed from the one checked
earliest (R46). -/
def State.revoke (s : State) (p : Nat) (l : List (Nat × Req)) : State :=
  match l with
  | [] => s
  | x :: rest =>
    let first := rest.foldl (fun (b : Nat × Req) y => if y.2.order < b.2.order then y else b) x
    let r := first.2
    let s := s.newRecord p 0x25 r.group (accCode (reqAcc r)) r.source r.dev (s.reqSpan r).1 l.length
    l.foldl (fun t y => ((t.dropPieces y.2).complete y.1 St.WINDOW_REVOKED 0 0).count D.REVOKED_COUNT p 1) s

end Sys2Proof.Machine
end

