-- ==== Sys2Proof/Machine/Objects.lean ====
section
/-! DEFINITION. The checks of every object access (Table 13.3), and the write of a Stored object into the working copy (R329 to R338). -/

namespace Sys2Proof.Machine

/-- Bit of a route in the masks of R332. -/
def routeBit : Route → Nat
  | .hostPf => 0
  | .hostVf _ => 1
  | .phildofel => 2
  | .internal => 3

/-- The partition an instance belongs to; none when it belongs to no partition (R333). -/
def State.ownerOf (s : State) (o : Obj) (inst : Nat) : Option Nat :=
  match o.owner with
  | .none => none
  | .part => some inst
  | .part256 => some (inst / 256)
  | .part64 => some (inst / 64)
  | .port => some (s.rd D.PORT_PARTITION inst)
  | .te => some (s.rd D.TE_PARTITION inst)
  | .ring => some (bits (s.rd o inst) 7 4)
  | .pf => some (s.rd D.PF_DATA_PARTITION 0)
  | .func => if inst = 0 then some (s.rd D.PF_DATA_PARTITION 0) else some (inst - 1)

/-- R333 for a write by VF number v + 1. -/
def State.vfMayWrite (s : State) (v : Nat) (o : Obj) (inst : Nat) : Bool := s.ownerOf o inst == some v

/-- R333 for a read by VF number v + 1; the value of FAULT_LOG_ENTRY is limited by its PART_MASK (R431). -/
def State.vfMayRead (s : State) (v : Nat) (o : Obj) (inst : Nat) : Bool :=
  let own := s.ownerOf o inst
  if objKey o = objKey D.FAULT_LOG_ENTRY then true
  else if o.idx < 0xA000 || (0xE000 ≤ o.idx && o.idx < 0xF000) then own == none || own == some v
  else own == some v

/-- Steps 1 and 2 of Table 13.3; 0 when they pass. -/
def State.odPresent (s : State) (o : Obj) (inst : Nat) : Nat :=
  if (if o.insts = 0 then inst != 0 else o.insts ≤ inst) then St.OD_NO_OBJECT
  else if !unitPresent s.variant o.unit inst then St.UNIT_ABSENT
  else 0

/-- Step 3 for a write. -/
def accessWrite (a : Access) : Nat :=
  match a with
  | .ro => St.OD_READ_ONLY
  | .fro => St.OD_READ_ONLY
  | _ => 0

/-- Step 6: the length of a write. MGMT_PUBKEY takes 57 or 0 bytes. -/
def lengthOk (o : Obj) (seg : Bool) (n : Nat) : Bool :=
  (if o.ty = .domain then seg else true) &&
    (if o.fixed then n == o.len else if o.idx = 0xB010 then n == 57 || n == 0 else decide (n ≤ o.len))

/-- A check of steps 7 to 9 for a value of `len` bytes; 0 when it passes. -/
def checkValue (len v : Nat) : Check → Nat
  | .oneOf l => if l.contains v then 0 else St.OD_VALUE
  | .reserved m => if v &&& m = 0 then 0 else St.OD_VALUE
  | .emptyOnly => if len = 0 then 0 else St.OD_VALUE
  | .range lo hi => if lo ≤ v && v ≤ hi then 0 else St.OD_RANGE
  | .rangeNot x => if v = x then St.OD_RANGE else 0
  | .clamp c => if (toSigned 32 v).natAbs ≤ c then 0 else St.OD_CLAMP

/-- Steps 7 to 9: the first check that fails. -/
def checkValues (len v : Nat) : List Check → Nat
  | [] => 0
  | c :: r => if checkValue len v c = 0 then checkValues len v r else checkValue len v c

/-- The number a write carries. -/
def odNum (w : OdWrite) : Nat := w.val.val % 2 ^ (8 * w.val.len)

/-- Steps 1 to 9 of Table 13.3 for a write of a defined object; `seg` when the value was staged. -/
def State.odCheck (s : State) (o : Obj) (inst : Nat) (w : OdWrite) (seg : Bool) : Nat :=
  let p := s.odPresent o inst
  if p != 0 then p
  else if accessWrite o.acc != 0 then accessWrite o.acc
  else if !bit o.wmask (routeBit w.route) then St.OD_ROUTE_DENIED
  else if (match w.route with | .hostVf v => !s.vfMayWrite v.val o inst | _ => false) then St.OD_ROUTE_DENIED
  else if o.acc = .rwl && s.rdB D.CONFIG_LOCK 0 then St.OD_LOCKED
  else if !lengthOk o seg w.val.len then St.OD_LENGTH
  else if o.ty = .bool && odNum w > 1 then St.OD_VALUE
  else checkValues w.val.len (odNum w) o.chk

/-- Steps 1 to 6 of Table 13.3 for a read. -/
def State.odCheckRead (s : State) (o : Obj) (inst : Nat) (route : Route) : Nat :=
  let p := s.odPresent o inst
  if p != 0 then p
  else if o.acc = .wo then St.OD_WRITE_ONLY
  else if (match route with | .hostVf v => !s.vfMayRead v.val o inst | _ => false) then St.OD_ROUTE_DENIED
  else 0

/-! ### The working copy -/

/-- Objects that keep their value outside the object store: factory values, the defect map, the boot records and the boot NOR (R340, R393, R397,
R428). -/
def outsideStore : List Nat :=
  ((dictionary.filter (fun o => o.acc == .fro)).map objKey) ++
    [D.DEFECT_ENTRY, D.DEFECT_FACTORY_COUNT, D.DEFECT_ADDED_COUNT, D.BOOT_COUNT, D.FW_MIN_SVN, D.FW_BANK].map objKey

/-- Keys of the objects that the object store holds. -/
def storedKeys : List Nat := ((dictionary.filter (fun o => o.stored)).map objKey).filter (fun k => !outsideStore.contains k)

/-- Of the working copy, what a commit writes: every Stored object, or after STORE_DEFAULTS those that have been written or have changed since
(R339, R344). -/
def keepSince (base : Option (List (Nat × List (Nat × Nat)))) (since : List (Nat × Nat)) (l : List (Nat × List (Nat × Nat))) :
    List (Nat × List (Nat × Nat)) :=
  let l := l.filter (fun e => storedKeys.contains e.1)
  match base with
  | none => l
  | some b =>
    (l.map (fun e => (e.1, e.2.filter (fun x =>
      since.contains (e.1, x.1) || !((Table.get [] e.1 b).contains x))))).filter (fun e => !e.2.isEmpty)

def State.storedBody (s : State) : Body :=
  { objs := keepSince (s.mram.base.map (fun b => b.objs)) s.mram.since s.objs,
    lens := keepSince (s.mram.base.map (fun b => b.lens)) s.mram.since s.lens }

/-- The copy with the lower generation, an invalid copy counting as lowest (R339); false is A. -/
def lowerCopy (x : Store) : Bool :=
  let g (c : StoreCopy) : Nat := if c.valid then c.gen + 1 else 0
  decide (g x.b < g x.a)

/-- A commit starts: the working copy is captured (R339); STORE_STATE leaves 3 only when a commit succeeds (R343). -/
def State.startCommit (s : State) (body : Body) (waits : Bool) : State :=
  let x := s.mram
  { s with mram := { x with commit := some { copyB := lowerCopy x, body := body, waits := waits }, dirty := false, again := false } }.wr
    D.STORE_STATE 0 (if s.rd D.STORE_STATE 0 = 3 then 3 else 2)

/-- The Uttex controller's own moult pauses its firmware (Table 15.7). -/
def State.uttexPause (s : State) : Bool := match s.boot.moult with | some m => m.cur == some 0 | none => false

/-- A Stored object has been written: STORE_STATE reads 1, and with STORE_DELAY 0 a commit starts at once (R338, R339). -/
def State.storeTouch (s : State) : State :=
  if s.mram.sealed then s
  else
    let s := { s with mram := { s.mram with dirty := true } }
    if s.mram.commit.isSome then s
    else if s.rd D.STORE_DELAY 0 = 0 && !s.uttexPause then s.startCommit s.storedBody false
    else if s.rd D.STORE_STATE 0 = 3 then s else s.wr D.STORE_STATE 0 1

/-- A Stored object has been written by a route. -/
def State.storeWrote (s : State) (o : Obj) (inst : Nat) : State :=
  let x := s.mram
  ({ s with mram := if x.base.isSome && !x.since.contains (objKey o, inst) then { x with since := x.since ++ [(objKey o, inst)] } else x } :
    State).storeTouch

/-- A write sets an object's value in the working copy. -/
def State.setObj (s : State) (o : Obj) (inst : Nat) (w : OdWrite) : State :=
  let s := s.wr o inst (odNum w)
  let s := if o.fixed then s else s.wrLen o inst w.val.len
  if o.stored then s.storeWrote o inst else s

/-- The write completes with success (R336). -/
def State.odDone (s : State) : State := s.odAnswer 0 0 0

/-- The write is refused. -/
def State.odFail (s : State) (st : Nat) : State := s.odAnswer st 0 0

/-- A plain write: the value is set and the write completes. -/
def State.odSet (s : State) (o : Obj) (inst : Nat) (w : OdWrite) : State := (s.setObj o inst w).odDone

/-- A write waits for its own completion (R336). -/
def State.odHold (s : State) : State := { s with odWait := true }

/-- The controller is busy with a transaction or with a write that waits, or it is paused. -/
def State.odBusy (s : State) : Bool := s.odWait || s.odRun.isSome || s.uttexPause

/-- The Uttex controller runs: the device is not held in reset, and start-up has reached stage 3 (R387, R388). -/
def State.odUp (s : State) : Bool := s.boot.down.isNone && !s.boot.pin && decide (3 ≤ s.rd D.BOOT_STAGE 0)

/-- An object command: nothing answers before stage 3; then it runs at once, or waits its turn while the controller is busy (R336, R388). -/
def State.odCmd (s : State) (c : Instr) (k : State → State) : Host.Outcome State Fault Refusal :=
  .next (if !s.odUp then s else if s.odBusy || !s.backlog.isEmpty then { s with backlog := s.backlog ++ [c] } else k s)

/-- Units, as unit codes, that carry out a write which is a live change (R396): a retraining, a retirement or a power change. -/
def State.liveUnits (s : State) (o : Obj) (inst : Nat) (w : OdWrite) : List Nat :=
  let k := objKey o
  if k = objKey D.LINK_RETRAIN ∨ k = objKey D.LINK_POWER then [6 * 4096 + inst]
  else if k = objKey D.SLICE_RETIRE ∨ k = objKey D.SLICE_POWER_MODE then [2 * 4096 + s.homeKey inst]
  else if k = objKey D.CHANNEL_RETIRE then [2 * 4096 + s.homeKey (channelSlice inst)]
  else if k = objKey D.FIELD_POWER_MODE then [10 * 4096 + inst]
  else if k = objKey D.FIELD_CLOCK_REQ then (maskList 8 (odNum w)).map (fun f => 10 * 4096 + f)
  else []

/-- A live change waits for the moult of its unit (R396). -/
def State.liveWaits (s : State) (o : Obj) (inst : Nat) (w : OdWrite) : Bool :=
  match s.boot.moult with
  | some m => (match m.cur with | some u => (s.liveUnits o inst w).contains u | none => false)
  | none => false

/-- A write of a defined object: steps 1 to 9, then the owner's rules, once the unit that carries it out is not moulting. -/
def State.odWriteAs (s : State) (o : Obj) (inst : Nat) (w : OdWrite) (seg : Bool) (own : State → State) : State :=
  match s.odCheck o inst w seg with
  | 0 => if s.liveWaits o inst w then { s.odHold with boot := { s.boot with live := some (objKey o, inst, w) } } else own s
  | st => s.odFail st

def State.odWrite (s : State) (o : Obj) (inst : Nat) (w : OdWrite) (own : State → State) : State := s.odWriteAs o inst w false own

end Sys2Proof.Machine
end

