-- ==== Sys2Proof/Machine/Notify.lean ====
section
/-! DEFINITION. Notifications to attach ports and hosts (R256, R262, R322). -/

namespace Sys2Proof.Machine

/-- NTF header: opcode and payload chunks (R259). -/
def ntfHeader (op pch : Nat) : Nat := op + pch * 2 ^ 96

/-- A notification for a port: held in order while the port is ACTIVE, else discarded and counted (R256). -/
def State.portNotify (s : State) (p op len payload : Nat) : State :=
  if s.rd D.ATTACH_STATE p = 4 then
    let x := s.port p
    s.setPort p { x with ntfs := x.ntfs ++ [(ntfHeader op (ceilDiv len 16), payload % 2 ^ (8 * len))] }
  else s.count D.ATTACH_NTF_DROPPED p 1

/-- The vectors a notification may name (Table 12.7). -/
def notifyVectorOk (f v : Nat) : Bool := if f = 0 then decide (20 ≤ v ∧ v ≤ 63) else decide (4 ≤ v ∧ v ≤ 15)

/-- A notification of partition `p` for the host: to VF(p + 1) when enabled, else the PF; into its NLOG, then the vector (R322). -/
def State.hostNotify (s : State) (p vec op len payload : Nat) : State :=
  let f := if s.fnPresent (p + 1) then p + 1 else 0
  let h := s.fn f
  let entry := op + (payload % 2 ^ (8 * len)) * 2 ^ 128
  let s := s.setFn f { h with nlog := Table.set 0 (h.nlogProd % 64) entry h.nlog, nlogProd := (h.nlogProd + 1) % 2 ^ 64 }
  if notifyVectorOk f vec then s.msix f vec else s.count D.HOST_NOTIFY_DROPPED f 1

/-- A notification to the target `code` of NOTIFY or DONE_TARGET (Table 5.4); one for a port that the part does not have goes nowhere. -/
def State.notify (s : State) (p code op len payload : Nat) : State :=
  if !bit code 15 then s.hostNotify p (bits code 14 0) op len payload
  else if s.has .port (bits code 14 0) then s.portNotify (bits code 14 0) op len payload else s

end Sys2Proof.Machine
end

