-- ==== Sys2Proof/Machine/Launch.lean ====
section
/-! DEFINITION. Launch records, their queues and their completion (R222 to R230). -/

namespace Sys2Proof.Machine

/-- Fields of a launch record (Table 8.4). -/
def lrAction (r : Nat) : Nat := bits r 3 0
def lrLate (r : Nat) : Bool := bit r 4
def lrDoneNotify (r : Nat) : Bool := bit r 5
def lrDevice (r : Nat) : Nat := bits r 19 8
def lrDoneTarget (r : Nat) : Nat := bits r 47 32
def lrTime (r : Nat) : Nat := bits r 127 64
def lrMask (r : Nat) : Nat := bits r 191 128
def lrRing (r : Nat) : Nat := bits r 211 192
def lrSite (r : Nat) : Nat := bits r 194 192
def lrArg (r : Nat) : Nat := bits r 255 224

/-- The context of ring `r` and its storing (R126). -/
def State.ringCtx (s : State) (r : Nat) : Nat := s.rd (D.RING_CONTEXT (r / 65536)) (r % 65536)

def State.setCtx (s : State) (r v : Nat) : State := s.wr (D.RING_CONTEXT (r / 65536)) (r % 65536) v

/-- Fields of a ring context (Table 5.4). -/
def rcEnable (c : Nat) : Bool := bit c 0
def rcStopped (c : Nat) : Bool := bit c 1
def rcPart (c : Nat) : Nat := bits c 7 4
def rcSize (c : Nat) : Nat := bits c 12 8
def rcEngine (c : Nat) : Nat := bits c 24 16
def rcBase (c : Nat) : Nat := bits c 127 64
def rcComp (c : Nat) : Nat := bits c 191 128
def rcHead (c : Nat) : Nat := bits c 223 192
def rcTail (c : Nat) : Nat := bits c 255 224
def rcCompIndex (c : Nat) : Nat := bits c 287 256
def rcNotify (c : Nat) : Nat := bits c 303 288

/-- The targets of a launch (R225): the engine of a DOORBELL, the ports of a NOTIFY, the links of a link action. -/
def State.launchTargets (s : State) (r : Nat) : List Nat :=
  match lrAction r with
  | 1 => [rcEngine (s.ringCtx (lrRing r))]
  | 2 => (maskList 64 (lrMask r)).map (fun p => 64 * lrSite r + p)
  | _ => maskList 64 (lrMask r)

/-- The armed launches, by LAUNCH_ID. -/
def State.armed (s : State) : List (Nat × Launch) :=
  s.launches.filterMap (fun x => match x.2 with | some l => some (x.1, l) | none => none)

def State.launch? (s : State) (id : Nat) : Option Launch := Table.get none id s.launches

def State.setLaunch (s : State) (id : Nat) (l : Option Launch) : State := { s with launches := Table.set none id l s.launches }

/-- Entries used in the launch queue of a target of an action (Table 8.6): an engine, a site, or a link. -/
def State.queueUsed (s : State) (action target : Nat) : Nat :=
  (s.armed.filter (fun x =>
    match lrAction x.2.rec256 with
    | 1 => action == 1 && x.2.targets.contains target
    | 2 => action == 2 && x.2.targets.any (fun p => p / 64 == target / 64)
    | _ => action != 1 && action != 2 && x.2.targets.contains target)).length

/-- Entries of a launch queue (Table 8.6). -/
def queueSize (action : Nat) : Nat := if action = 1 then 16 else if action = 2 then 16 else 8

/-- Table 8.7. -/
def launchDone (id st : Nat) (missed remote : Bool) (acted : Nat) : Nat :=
  id + st * 2 ^ 32 + missed.toNat * 2 ^ 48 + remote.toNat * 2 ^ 49 + acted * 2 ^ 64

/-- The completion record is placed in GATE_LAUNCH_LAST and sent to DONE_TARGET when DONE_NOTIFY = 1 or the status is not success; a
launch received on a link has no DONE_TARGET (R227, R230). -/
def State.launchRecord (s : State) (part rec256 : Nat) (fromLink : Bool) (id st : Nat) (missed remote : Bool) (acted : Nat) : State :=
  let d := launchDone id st missed remote acted
  let s := s.wr D.GATE_LAUNCH_LAST 0 d
  if !fromLink && (lrDoneNotify rec256 || st != 0) then s.notify part (lrDoneTarget rec256) 0x3A 16 d else s

/-- A launch leaves the queues and completes (R230). -/
def State.launchEnd (s : State) (id : Nat) (l : Launch) (st : Nat) : State :=
  (s.setLaunch id none).launchRecord l.part l.rec256 l.remote id st l.missed false l.time

/-- The targets that `p` names leave a launch's queues; the launch completes with GATE_ABORTED when no target is left, and its status
keeps GATE_ABORTED otherwise (R229). -/
def State.launchDrop (s : State) (id : Nat) (l : Launch) (p : Nat → Nat → Bool) : State :=
  let keep := l.targets.filter (fun t => !p (lrAction l.rec256) t)
  if keep.length = l.targets.length then s
  else
    let l := { l with targets := keep, status := if l.status = 0 then St.GATE_ABORTED else l.status }
    if keep.isEmpty then s.launchEnd id l l.status else s.setLaunch id (some l)

/-- A reset takes the targets `p` names from every armed launch (R229). -/
def State.launchReset (s : State) (p : Nat → Nat → Bool) : State :=
  s.armed.foldl (fun t x => t.launchDrop x.1 x.2 p) s

/-- Every armed launch that a partition issued completes with GATE_ABORTED (R404, R424). -/
def State.launchAbort (s : State) (part : Nat) : State :=
  (s.armed.filter (fun x => x.2.part == part)).foldl (fun t x => t.launchEnd x.1 x.2 St.GATE_ABORTED) s

end Sys2Proof.Machine
end

