-- ==== Sys2Proof/Machine/RingOps.lean ====
section
/-! DEFINITION. What every ring command shares: completion entries, notifications, doorbells and the stop of a ring (R128 to R135). -/

namespace Sys2Proof.Machine

def State.ring (s : State) (r : Nat) : Ring := Table.get Ring.init r s.rings

def State.setRing (s : State) (r : Nat) (x : Ring) : State := { s with rings := Table.set Ring.init r x s.rings }

/-- Fields of a descriptor (Table 5.5). -/
def tdOp (d : Nat) : Nat := bits d 7 0
def tdComp (d : Nat) : Bool := bit d 8
def tdNotify (d : Nat) : Bool := bit d 9
def tdFence (d : Nat) : Bool := bit d 10
def tdLocked (d : Nat) : Bool := bit d 11
def tdDir (d : Nat) : Bool := bit d 12
def tdClass (d : Nat) : Nat := bits d 21 16
def tdFmt (d : Nat) : Nat := bits d 29 24
def tdLen (d : Nat) : Nat := bits d 63 32
def tdSrc (d : Nat) : Nat := bits d 119 64
def tdDst (d : Nat) : Nat := bits d 183 128
def tdImm (d : Nat) : Nat := bits d 255 192
def tdUser (d : Nat) : Nat := bits d 319 256

/-- Device and local address of a global address (Table 2.1). -/
def gaDev (a : Nat) : Nat := bits a 55 44
def gaLocal (a : Nat) : Nat := bits a 43 0

/-- RING_NOTIFY (Table 10.7). -/
def State.ringNotify (s : State) (r : Nat) (stopped : Bool) (idx st : Nat) : State :=
  let c := s.ringCtx r
  s.notify (rcPart c) (rcNotify c) 0x39 10 (r + stopped.toNat * 2 ^ 20 + idx * 2 ^ 32 + st * 2 ^ 64)

/-- DETAIL of a completion entry (Table 5.7): the record of a RANGE, bytes or blocks done of the operations that move data. -/
def compDetail (word done detail : Nat) : Nat :=
  if tdOp word = 5 then detail else if 1 ≤ tdOp word ∧ tdOp word ≤ 4 then done else 0

/-- The 32 bytes of completion entry `j` (Table 5.7). -/
def compEntry (size j idx st : Nat) (beyond : Bool) (word done detail : Nat) : Nat :=
  idx + st * 2 ^ 32 + (1 - (j >>> size) % 2) * 2 ^ 48 + beyond.toNat * 2 ^ 49 + tdUser word * 2 ^ 64 +
    (compDetail word done detail) * 2 ^ 128

/-- Local address of completion entry `j` of a ring. -/
def compAddr (c : Nat) : Nat := rcComp c + 32 * (rcCompIndex c % 2 ^ rcSize c)

/-- COMP_INDEX advances by one entry. -/
def State.compAdvance (s : State) (r : Nat) : State :=
  let c := s.ringCtx r
  s.setCtx r (setBits c 287 256 ((rcCompIndex c + 1) % 2 ^ 32))

/-- STOPPED, STOP_INDEX, STOP_STATUS and HEAD of a ring that stops at descriptor `idx`; nothing fetched is kept (R132). -/
def State.markStop (s : State) (r idx st : Nat) : State :=
  let c := s.ringCtx r
  let c := setBits (setBits (setBits (setBit c 1 true) 351 320 idx) 367 352 st) 223 192 idx
  (s.setCtx r c).setRing r { (s.ring r) with fetched := [], fetching := false }

/-- A completion write failed: the ring stops with that status, no entry is written, RING_COMP_FAULT is raised (R134). -/
def State.compFault (s : State) (r idx st : Nat) : State :=
  ((s.markStop r idx st).raise Ev.RING_COMP_FAULT (rcPart (s.ringCtx r)) r).ringNotify r true idx st

/-- The entry of a descriptor that a stop ends is written under the windows of its partition; a write that its windows refuse or do not cover
raises RING_COMP_FAULT (R134, R135). -/
def State.stopEntry (s : State) (r idx st : Nat) (beyond : Bool) (word done detail : Nat) : State :=
  let c := s.ringCtx r
  let a := compAddr c
  match s.winCheck (rcPart c) 1 s.devNum a (a + 31) .write with
  | .pass => (State.pokeMany 2 s a 32 (compEntry (rcSize c) (rcCompIndex c) idx st beyond word done detail) false).compAdvance r
  | _ => s.raise Ev.RING_COMP_FAULT (rcPart c) r

/-- The requests of a ring that are still in the machine have no requester any more. -/
def State.ringOrphan (s : State) (r : Nat) : State :=
  let s := s.reqList.foldl (fun t x =>
    match x.2.origin with
    | .te q _ => if q = r then t.setReq x.1 { x.2 with origin := .gone } else t
    | _ => t) s
  { s with teDone := s.teDone.filter (fun d => d.ring != r) }

/-- The status a descriptor ends with when its ring is stopped with `st`: its own when it, or one of its requests, has failed already. -/
def State.stopStatus (s : State) (r : Nat) (d : Desc) (st : Nat) : Nat :=
  match d.st with
  | .done x => if x = 0 then st else x
  | .entry x => if x = 0 then st else x
  | _ =>
    match s.teDone.find? (fun e => e.ring == r && e.desc == d.idx && e.status != 0) with
    | some e => e.status
    | none => st

/-- An enabled ring stops from outside: the descriptors in flight complete with `st` or their own failing status, their entries are written in index order, the ring
stops at the first of them or at HEAD, and the stop is notified (R132, R135). A ring that is disabled or stopped already stays so. -/
def State.ringStop (s : State) (r st : Nat) : State :=
  let c := s.ringCtx r
  if !rcEnable c || rcStopped c then s
  else
    let x := s.ring r
    let idx := match x.active with | d :: _ => d.idx | [] => rcHead c
    let s := x.active.foldl (fun t d => t.stopEntry r d.idx (s.stopStatus r d st) d.beyond d.word d.pos d.detail) s
    let s := (s.markStop r idx st).setRing r Ring.init
    let s := s.ringOrphan r
    s.ringNotify r true idx st

/-- The rings whose context satisfies `p`; only rings with a context that is not zero are listed. -/
def State.ringsWhere (s : State) (p : Nat → Bool) : List Nat :=
  (List.range 16).flatMap (fun q =>
    (Table.get [] (objKey (D.RING_CONTEXT q)) s.objs).filterMap (fun e => if p e.2 then some (65536 * q + e.1) else none))

/-- Every ring whose context satisfies `p` stops. -/
def State.ringStopAll (s : State) (p : Nat → Bool) (st : Nat) : State :=
  (s.ringsWhere p).foldl (fun t r => t.ringStop r st) s

/-- A doorbell with value `v` from a partition: its status, and the new TAIL when accepted (R128). -/
def State.doorbell (s : State) (r part v : Nat) : Nat × State :=
  let c := s.ringCtx r
  let tail := v % 2 ^ 32
  let dist (t : Nat) : Nat := (t + 2 ^ 32 - rcHead c) % 2 ^ 32
  if !rcEnable c then (St.RING_DISABLED, s)
  else if part != rcPart c then (St.RING_DENIED, s)
  else if dist (rcTail c) ≤ dist tail && dist tail ≤ 2 ^ rcSize c && v / 2 ^ 32 == 0 then (0, s.setCtx r (setBits c 255 224 tail))
  else (St.RING_TAIL_BAD, s)

end Sys2Proof.Machine
end

