-- ==== Sys2Proof/Machine/SweepOps.lean ====
section
/-! DEFINITION. The state of a sweep, its result and its early end (R136 to R144). -/

namespace Sys2Proof.Machine

def State.sweep? (s : State) (p : Nat) : Option SweepRun := Table.get none p s.sweeps

def State.setSweep (s : State) (p : Nat) (x : Option SweepRun) : State := { s with sweeps := Table.set none p x s.sweeps }

/-- Fields of a sweep command (Table 5.8). -/
def swOp (c : Nat) : Nat := bits c 3 0
def swFmt (c : Nat) : Nat := bits c 13 8
def swClass (c : Nat) : Nat := bits c 19 14
def swDir (c : Nat) : Bool := bit c 20
def swNotify (c : Nat) : Bool := bit c 21
def swNsrc (c : Nat) : Nat := bits c 26 24
def swTarget (c : Nat) : Nat := bits c 47 32
def swTime (c : Nat) : Nat := bits c 127 64
def swDst (c : Nat) : Nat := bits c 191 128
def swSrc (c : Nat) : Nat := bits c 255 192
def swStride (c : Nat) : Nat := bits c 319 256
def swLen (c : Nat) : Nat := bits c 383 320
def swImm (c : Nat) : Nat := bits c 447 384

/-- The operation uses a format descriptor. -/
def swUsesFmt (c : Nat) : Bool := swOp c == 3 || swOp c == 4 || swOp c == 6

/-- Sticky flags of flow `f` of partition `p` over every slice. -/
def State.flowFlags (s : State) (p f : Nat) : Nat :=
  (s.flows.filter (fun e => e.1 % 1024 == 64 * p + f)).foldl (fun a e => a ||| e.2.flags) 0

/-- Binary64 of an exact value, rounded to nearest even. -/
def f64Encode (v : Val) : Nat :=
  match v with
  | .nan _ => 0x7FF8000000000000
  | .inf n => n.toNat * 2 ^ 63 + 0x7FF0000000000000
  | .fin n m e =>
    let c := (floatCode { stoch := false, salt := 0 } { x := 0, k := 0 } 52 1023 m e).1
    n.toNat * 2 ^ 63 + min c 0x7FF0000000000000

/-- Binary64 decoded. -/
def f64Decode (c : Nat) : Val :=
  let n := bit c 63
  let e := bits c 62 52
  let m := bits c 51 0
  if e = 2047 then (if m = 0 then .inf n else .nan n)
  else if e = 0 then .fin n m (-1074)
  else .fin n (m + 2 ^ 52) ((e : Int) - 1075)

def f64Add (a b : Nat) : Nat := f64Encode (valAdd (f64Decode a) (f64Decode b))

/-- DETAIL of Table 5.11 of a sweep. -/
def sweepDetail (x : SweepRun) : Nat :=
  if swOp x.cmd = 6 then
    x.amax + (x.sums.foldl (fun a e => f64Add a e.2.1) 0) * 2 ^ 64 + (x.sums.foldl (fun a e => f64Add a e.2.2) 0) * 2 ^ 128 +
      (min x.cntNan 0xFFFFFFFF) * 2 ^ 192 + (min x.cntZero 0xFFFFFFFF) * 2 ^ 224
  else if swOp x.cmd = 5 then
    maskOf ((x.recv.filter (fun e => decide (swLen x.cmd ≤ e.2))).map (fun e => e.1)) + (maskOf ((x.acks.filter (fun e => decide (swLen x.cmd ≤ 128 * e.2))).map (fun e => e.1))) * 2 ^ 64
  else 0

/-- Table 5.11. -/
def State.sweepRecord (s : State) (p : Nat) (x : SweepRun) (st : Nat) : Nat :=
  st + swOp x.cmd * 2 ^ 16 + (if swUsesFmt x.cmd then s.flowFlags p (fdFlow (s.fdesc p (swFmt x.cmd))) else 0) * 2 ^ 32 +
    (x.unitsDone % 2 ^ 64) * 2 ^ 64 + x.time * 2 ^ 128 + s.gate * 2 ^ 192 + sweepDetail x * 2 ^ 256

/-- A sweep completes: SWEEP_STATE 3, SWEEP_RESULT, and its notification if asked (R144). -/
def State.sweepEnd (s : State) (p : Nat) (x : SweepRun) (st : Nat) : State :=
  let d := s.sweepRecord p x st
  let s := ((s.setSweep p none).wr D.SWEEP_STATE p 3).wr D.SWEEP_RESULT p d
  if swNotify x.cmd then s.notify p (swTarget x.cmd) 0x3B 64 d else s

/-- A sweep is ended early with `st`: an armed one completes at once, a running one stops each slice before its next line (R143). -/
def State.sweepStop (s : State) (p st : Nat) : State :=
  match s.sweep? p with
  | none => s
  | some x =>
    if s.rd D.SWEEP_STATE p = 1 then s.sweepEnd p x st
    else if s.rd D.SWEEP_STATE p = 2 then (s.setSweep p (some { x with early := st })).wr D.SWEEP_STATE p 4
    else s

/-- A slice ends its share of every running sweep with `st`: it works no more, and the sweep completes with `st` once the others have
finished (R139, R402). -/
def State.sweepSliceEnd (s : State) (sl st : Nat) : State :=
  (List.range 16).foldl (fun t p =>
    match t.sweep? p with
    | some x =>
      if x.work.any (fun e => e.1 == sl) then
        t.setSweep p (some { x with work := x.work.filter (fun e => e.1 != sl), early := if x.early = 0 then st else x.early })
      else t
    | none => t) s

end Sys2Proof.Machine
end

