-- ==== Sys2Proof/Machine/WinCmds.lean ====
section
/-! DEFINITION. Window commands in their partition's order, withdrawals and their drain (R42 to R49), and the end of a partition reset
(R404). -/

namespace Sys2Proof.Machine

/-- The change from `old` to `new` of an entry is a withdrawal (R44). -/
def narrows (old new : Nat) : Bool :=
  weValid old &&
    (!weValid new || decide (weBase new > weBase old) || decide (weLimit new < weLimit old) ||
      (bits old 4 1 &&& (15 - bits new 4 1)) != 0 || weDevice new != weDevice old)

/-- Answer who waits for a command. -/
def State.reply (s : State) (r : Reply) (st : Nat) : State :=
  match r with
  | .hostCmd f k => s.hostCmdDone f k st 0
  | .od => s.odAnswer st 0 0
  | .none => s

/-- The record `fid` is marked resolved (R42). -/
def State.resolve (s : State) (p fid : Nat) : State :=
  let x := s.part p
  let s := s.setPart p { x with misses := x.misses.map (fun m => if m.fid == fid then { m with resolved := true } else m) }
  s.dropMiss p fid

/-- The requests parked on a record, in the order they came. -/
def State.parkedList (s : State) (p : Nat) (q : Req → Bool) : List (Nat × Req) :=
  s.reqList.filter (fun x => x.2.part == p && isParked x.2 && q x.2)

/-- The parked requests that `q` picks complete with WINDOW_FAULT. -/
def State.faultAll (s : State) (p : Nat) (q : Req → Bool) : State :=
  (s.parkedList p q).foldl (fun t x => t.faultParked x.1) s

/-- The epoch advances from E to E + 1, and the command waits for epoch E's count to reach zero (R45). -/
def State.beginDrain (s : State) (p : Nat) (c : WCmd) (r : Reply) : State :=
  let e := s.rd D.WINDOW_EPOCH p
  (s.wr D.WINDOW_EPOCH p ((e + 1) % 2 ^ 32)).setPart p { (s.part p) with drain := some (c, r, e) }

/-- The valid windows of a partition, as instances of WINDOW_ENTRY. -/
def State.validWindows (s : State) (p : Nat) : List Nat :=
  ((List.range 256).map (fun i => 256 * p + i)).filter (fun i => weValid (s.rd D.WINDOW_ENTRY i))

/-- VALID of every window of a partition is cleared. -/
def State.clearWindows (s : State) (p : Nat) : State :=
  (s.validWindows p).foldl (fun t i => t.wr D.WINDOW_ENTRY i (setBit (t.rd D.WINDOW_ENTRY i) 0 false)) s

/-- Every window entry of a partition becomes zero (R404 step 2). -/
def State.zeroWindows (s : State) (p : Nat) : State :=
  ((List.range 256).map (fun i => 256 * p + i)).foldl (fun t i => t.wr D.WINDOW_ENTRY i 0) s

/-- A window command takes effect in its place (Table 2.8, R32, R49, R404, R424). -/
def State.wcmdStart (s : State) (p : Nat) (c : WCmd) (r : Reply) : State :=
  match c with
  | .install g w e fid =>
    let old := s.rd D.WINDOW_ENTRY (winIdx p g w)
    let s := (s.wr D.WINDOW_ENTRY (winIdx p g w) e).resolve p fid
    if narrows old e then (s.beginDrain p c r).recheckAll p else (s.recheckAll p).reply r 0
  | .withdraw g w =>
    let old := s.rd D.WINDOW_ENTRY (winIdx p g w)
    if weValid old then ((s.wr D.WINDOW_ENTRY (winIdx p g w) (setBit old 0 false)).beginDrain p c r).recheckAll p
    else s.reply r 0
  | .deny fid =>
    if (s.part p).misses.any (fun m => m.fid == fid && !m.resolved) then
      ((s.resolve p fid).faultAll p (parkedOn fid)).reply r 0
    else s.reply r St.NO_SUCH_FAULT
  | .disable =>
    if (s.validWindows p).isEmpty then (s.wr D.PART_ENABLE p 0).reply r 0
    else ((s.clearWindows p).beginDrain p c r).recheckAll p
  | .linkMask n => ((s.wr D.LINK_PART_MASK n (setBit (s.rd D.LINK_PART_MASK n) p false)).storeTouch).beginDrain p c r
  | .stop => s.beginDrain p c r
  | .reset => (s.zeroWindows p).beginDrain p c r

/-- A command takes its place in the partition's order: behind an unacknowledged withdrawal it waits (R42). -/
def State.wcmd (s : State) (p : Nat) (c : WCmd) (r : Reply) : State :=
  let x := s.part p
  if x.drain.isSome then s.setPart p { x with wcmds := x.wcmds ++ [(c, r)] } else s.wcmdStart p c r

/-- The waiting commands take effect until one of them has to wait for a drain. -/
def State.wcmdNext : Nat → State → Nat → State
  | 0, s, _ => s
  | fuel + 1, s, p =>
    let x := s.part p
    match x.drain, x.wcmds with
    | none, (c, r) :: rest => State.wcmdNext fuel ((s.setPart p { x with wcmds := rest }).wcmdStart p c r) p
    | _, _ => s

/-- Locked lines of a partition are unlocked, without being invalidated (R404). -/
def unlockPart (p : Nat) (x : Slice) : Slice :=
  { x with tags := x.tags.map (fun e => (e.1, match e.2 with
      | some l => if l.lock && l.lockPart == p then some { l with lock := false, lockPart := 0 } else some l
      | none => none)) }

/-- The flows of a partition are cleared (R112, R404). -/
def State.clearFlows (s : State) (p : Nat) : State :=
  { s with flows := s.flows.filter (fun e => e.1 / 64 % 16 != p) }

/-- A format descriptor becomes invalid. -/
def State.dropDesc (s : State) (i : Nat) : State := s.wr D.FORMAT_DESC i (setBit (s.rd D.FORMAT_DESC i) 0 false)

/-- Every format descriptor of a partition becomes invalid (R404 step 4). -/
def State.dropDescs (s : State) (p : Nat) : State := (List.range 64).foldl (fun t d => t.dropDesc (64 * p + d)) s

/-- Every line locked by a partition is unlocked (R404 step 8). -/
def State.unlockAll (s : State) (p : Nat) : State := { s with slices := s.slices.map (fun e => (e.1, unlockPart p e.2)) }

/-- PART_FAULT_STATE returns to 0 when the priority area has room (R424). -/
def State.faultStateClear (s : State) (p : Nat) : State :=
  if (s.part p).prio.length < 256 then s.wr D.PART_FAULT_STATE p 0 else s

/-- Steps 4 to 9 of R404, after the drain. -/
def State.partResetEnd (s : State) (p : Nat) : State :=
  let s := (s.dropDescs p).sweepStop p St.SWEEP_ABORTED
  let s := s.ringStopAll (fun c => rcPart c == p) St.RESET_ABORTED
  (((s.launchAbort p).clearFlows p).unlockAll p).faultStateClear p

/-- Some partition still waits for its part of a write of LINK_PART_MASK of link `n`. -/
def State.maskWaits (s : State) (n : Nat) : Bool :=
  (List.range 16).any (fun p =>
    let x := s.part p
    (match x.drain with | some (.linkMask m, .od, _) => m == n | _ => false) ||
      x.wcmds.any (fun c => match c with | (.linkMask m, .od) => m == n | _ => false))

/-- What an acknowledged withdrawal still does (R32, R49, R404, R424). -/
def State.wcmdEnd (s : State) (p : Nat) (c : WCmd) (r : Reply) : State :=
  match c with
  | .disable => (s.wr D.PART_ENABLE p 0).reply r 0
  | .linkMask n => if s.maskWaits n then s else s.reply r 0
  | .stop =>
    ((s.ringStopAll (fun c => rcPart c == p) St.PARTITION_STOPPED).sweepStop p St.SWEEP_ABORTED).launchAbort p
  | .reset => (s.partResetEnd p).reply r 0
  | _ => s.reply r 0

/-- The withdrawal of a partition is acknowledged, and the commands behind it go on (R42, R45). -/
def State.ackDrain (s : State) (p : Nat) : State :=
  let x := s.part p
  match x.drain with
  | none => s
  | some (c, r, _) =>
    let s := (s.setPart p { x with drain := none }).wcmdEnd p c r
    State.wcmdNext ((s.part p).wcmds.length) s p

/-- A stop or a reset holds the partition's requests (R404 step 1, R424 step 2). -/
def State.partHeld (s : State) (p : Nat) : Bool :=
  let x := s.part p
  let h : WCmd → Bool := fun c => c == .stop || c == .reset
  (match x.drain with | some (c, _, _) => h c | none => false) || x.wcmds.any (fun c => h c.1)

end Sys2Proof.Machine
end

