-- ==== Sys2Proof/Machine/Faults.lean ====
section
/-! DEFINITION. Unit and data fault records, their recipients, the priority area, and the stop of a partition (R418 to R424). -/

namespace Sys2Proof.Machine

/-- Values an event carries, a 32-bit word each in the order named (log 12). -/
def evWords : List Nat → Nat
  | [] => 0
  | a :: r => a % 2 ^ 32 + 2 ^ 32 * evWords r

/-- A partition stops on the record `fid` (R424): its parked requests complete with WINDOW_FAULT, what is in flight drains, and its rings, its sweep and its
launches end once the drain is over. -/
def State.partStop (s : State) (p fid : Nat) : State :=
  if s.rd D.PART_FAULT_STATE p != 0 then s
  else
    let s := (s.wr D.PART_FAULT_STATE p 1).raise Ev.PART_STOPPED p (evWords [p, fid])
    (s.faultAll p (fun _ => true)).wcmd p .stop .none

/-- Table 16.2. -/
def record162 (ty p cls unit cause addr fid cnt gate : Nat) : Nat :=
  ty + p * 2 ^ 8 + cls * 2 ^ 12 + unit * 2 ^ 16 + cause * 2 ^ 32 + (addr % 2 ^ 44) * 2 ^ 64 + fid * 2 ^ 128 + (min cnt 0xFFFF) * 2 ^ 160 +
    gate * 2 ^ 192

def recClass (r : Nat) : Nat := bits r 13 12
def recUnit (r : Nat) : Nat := bits r 31 16
def recAddr (r : Nat) : Nat := bits r 107 64

/-- CLASS values. -/
def clsCorrected : Nat := 0
def clsContained : Nat := 1
def clsFatal : Nat := 2

/-- A record types 0x40 to 0x45 concern data (Table 16.3). -/
def isDataRecord (ty : Nat) : Bool := 0x40 ≤ ty && ty ≤ 0x45

/-- The earlier record a data record merges into (R420). -/
def mergeTarget (l : List Nat) (ty unit addr : Nat) : Option Nat :=
  if isDataRecord ty then l.find? (fun r => recType r == ty && recUnit r == unit && recAddr r / 2 ^ 21 == addr / 2 ^ 21) else none

/-- Replace the record with the same FAULT_ID. -/
def putRecord (l : List Nat) (q : Nat) : List Nat := l.map (fun r => if recFid r == recFid q then q else r)

/-- A record arrives at the priority area (R422): appended, or in place of the oldest CORRECTED, else the oldest CONTAINED record; when
every record is FATAL it is dropped and the partition stops. -/
def State.pushPrio (s : State) (p r : Nat) : State :=
  let x := s.part p
  if x.prio.length < 256 then s.setPart p { x with prio := x.prio ++ [r] }
  else
    let victim (c : Nat) := x.prio.find? (fun q => recClass q == c)
    match victim clsCorrected, victim clsContained with
    | some q, _ => ((s.setPart p { x with prio := removeFirst (fun y => y == q) x.prio ++ [r] }).dropCount p (recType q)).overflow p
    | none, some q => ((s.setPart p { x with prio := removeFirst (fun y => y == q) x.prio ++ [r] }).dropCount p (recType q)).overflow p
    | none, none => ((s.dropCount p (recType r)).overflow p).partStop p (recFid r)

/-- Table 12.7: the vectors of a new record are those of its delivery (FAULT_RECORD_DELIVER). A record of Table 16.3 is written to the
queue of partition `p`; POISON_FATAL makes CONTAINED FATAL (R423); a FATAL record stops the partition (R424). -/
def State.unitRecord (s : State) (p ty cls unit cause addr cnt : Nat) : State :=
  let cls := if cls = clsContained && s.rdB D.POISON_FATAL p then clsFatal else cls
  let x := s.part p
  let fid := match mergeTarget x.prio ty unit addr with | some r => recFid r | none => x.nextFid
  let s := match mergeTarget x.prio ty unit addr with
    | some r =>
      let q := recAddCount r cnt
      let q := if cls = clsFatal then setBits q 13 12 clsFatal else q
      s.setPart p { x with prio := putRecord x.prio q }
    | none =>
      let s := s.setPart p { x with nextFid := fidNext x.nextFid }
      s.pushPrio p (record162 ty p cls unit cause addr x.nextFid cnt s.gate)
  if cls = clsFatal then s.partStop p fid else s

/-- Some valid window of `p` on this device, in any group, covers a byte at or between two local addresses of one view. -/
def State.windowTouches (s : State) (p lo hi : Nat) : Bool :=
  (List.range 256).any (fun i =>
    let e := s.rd D.WINDOW_ENTRY (256 * p + i)
    weValid e && weDevice e == s.devNum && decide (weLo e ≤ hi ∧ lo ≤ weHi e))

/-- Data recipients of offset `o` of the channel of slice `n` (R419). -/
def State.dataRecipients (s : State) (n o : Nat) : List Nat :=
  (List.range 16).filter (fun p => s.rdB D.PART_ENABLE p &&
    (viewsOfSlice n).any (fun c => let a := addrInView s.variant c n o; s.windowTouches p a a))

/-- Data recipients of a whole channel: a window of at least one granule in a view that holds the channel covers some of its bytes. -/
def State.chanRecipients (s : State) (n : Nat) : List Nat :=
  (List.range 16).filter (fun p => s.rdB D.PART_ENABLE p &&
    (viewsOfSlice n).any (fun c =>
      let b := viewBase c
      s.windowTouches p b (b + viewChans s.variant c * chanUsable - 1)))

/-- A partition's hash domain contains a unit of field `f` (R33). -/
def domainHas (d f : Nat) : Bool :=
  if d = 0 then true else if d = 1 then f < 4 else if d = 2 then 4 ≤ f else d == 8 + f

/-- Unit recipients of field `f`: the domain contains the unit, or a port, an engine or a ring's engine bound to the partition lies in the field
(R419). -/
def State.unitRecipients (s : State) (f : Nat) : List Nat :=
  (List.range 16).filter (fun p => s.rdB D.PART_ENABLE p &&
    (domainHas (s.rd D.PART_DOMAIN p) f ||
      (List.range 64).any (fun i => s.rd D.PORT_PARTITION (64 * f + i) == p || s.rd D.TE_PARTITION (64 * f + i) == p) ||
      !(s.ringsWhere (fun c => rcEnable c && rcPart c == p && rcEngine c / 64 == f)).isEmpty))

/-- The partitions of a list that get a new record, not one merged into an earlier record. -/
def State.newRecipients (s : State) (l : List Nat) (ty unit addr : Nat) : List Nat :=
  l.filter (fun p => (mergeTarget (s.part p).prio ty unit addr).isNone)

/-- A CONTAINED or FATAL record is logged once, with the mask of its recipients; the body is the record of the lowest of them (R430). -/
def State.logRecord (s : State) (l : List Nat) (ty cls unit cause addr cnt : Nat) : State :=
  match s.newRecipients l ty unit addr with
  | [] => s
  | p :: r => if cls = clsCorrected then s
              else s.logPush 0 (maskOf (p :: r)) (record162 ty p cls unit cause addr (s.part p).nextFid cnt s.gate)

/-- A record is written to each partition of a list, and logged (R419, R430). -/
def State.recordTo (s : State) (l : List Nat) (ty cls unit cause addr cnt : Nat) : State :=
  l.foldl (fun t p => t.unitRecord p ty cls unit cause addr cnt) (s.logRecord l ty cls unit cause addr cnt)

/-- Unit codes of Table 15.4; `k` of a slice is its physical number. -/
def ucSlice (k : Nat) : Nat := unitCode 2 k
def ucStack (m : Nat) : Nat := unitCode 3 m
def ucChannel (c : Nat) : Nat := unitCode 4 c
def ucRouter (r : Nat) : Nat := unitCode 5 r
def ucLink (n : Nat) : Nat := unitCode 6 n
def ucLane (l : Nat) : Nat := unitCode 7 l
def ucPort (i : Nat) : Nat := unitCode 8 i
def ucEngine (t : Nat) : Nat := unitCode 9 t
def ucFieldCtrl (n : Nat) : Nat := unitCode 10 n
def ucSite (n : Nat) : Nat := unitCode 11 n

/-- Entries of the defect map (R397). -/
def State.defects (s : State) : List Nat :=
  (List.range (s.rd D.DEFECT_FACTORY_COUNT 0 + s.rd D.DEFECT_ADDED_COUNT 0)).map (fun i => s.rd D.DEFECT_ENTRY i)

/-- An entry of DEFECT `d` names the unit and is in force: a factory entry, or one of an earlier start (R399). -/
def State.named (s : State) (unit d : Nat) : Bool :=
  s.defects.any (fun e => bits e 15 0 == unit && bits e 19 16 == d && (bits e 21 20 == 0 || decide (bits e 63 32 < s.rd D.BOOT_COUNT 0)))

/-- A data record of offset `o` of the channel of slice `n`: ADDRESS is the device-view address of its first byte (R418, R419). -/
def State.dataRecord (s : State) (n o ty unit cause cnt : Nat) : State :=
  s.recordTo (s.dataRecipients n o) ty clsContained unit cause (deviceAddr s.variant n o) cnt

/-- A data record of the whole channel of slice `n`: no single address applies. -/
def State.chanRecord (s : State) (n ty cls unit cause cnt : Nat) : State :=
  s.recordTo (s.chanRecipients n) ty cls unit cause 0 cnt

end Sys2Proof.Machine
end

