-- ==== Sys2Proof/Machine/PortOps.lean ====
section
/-! DEFINITION. Attach ports going down, and the frames a site's sideband sends (R258, R270, R271). -/

namespace Sys2Proof.Machine

/-- A CRC whose register shifts left, over the low `n` bits of `x`, highest first. -/
def crcMsb (w poly : Nat) : Nat → Nat → Nat → Nat
  | 0, c, _ => c
  | n + 1, c, x =>
    let b := (c >>> (w - 1)) % 2 ^^^ (x >>> n) % 2
    crcMsb w poly n ((c * 2) % 2 ^ w ^^^ (if b = 1 then poly else 0)) x

/-- CRC-8 of Table 10.9 over the 7 bytes of bits [55:0], the first byte first (log 13). -/
def sbCrc (x : Nat) : Nat := crcMsb 8 7 56 0 (byteSwap 7 x)

/-- A sideband frame (Table 10.9). -/
def sbFrame (ty seq arg data : Nat) : Nat :=
  let x := ty + seq * 2 ^ 8 + arg * 2 ^ 16 + (data % 2 ^ 32) * 2 ^ 24
  x + sbCrc x * 2 ^ 56

/-- The sideband is live: the site is on and its rails have settled at an operating point (R270). -/
def State.sbLive (s : State) (n : Nat) : Bool :=
  match (s.site n).run with
  | .up _ _ => false
  | .upGap _ => false
  | .down _ _ _ => false
  | .downGap _ _ => false
  | .idle => s.rd D.SITE_POWER n == 1
  | _ => true

/-- An unsolicited device frame: sent, and kept until its ACK (R271). -/
def State.sbSend (s : State) (n ty arg data : Nat) : State :=
  if s.sbLive n then
    let x := s.site n
    let f := sbFrame ty x.seq arg data
    (s.setSite n { x with seq := (x.seq + 1) % 256, unacked := x.unacked ++ [(f, 1)] }).emit (.sideband n f)
  else s

/-- The answer to a die frame echoes its SEQ and is kept for a repeat (R271). -/
def State.sbAnswer (s : State) (n seq ty arg data : Nat) : State :=
  let f := sbFrame ty seq arg data
  (s.setSite n { (s.site n) with lastSeq := some seq, lastAns := f }).emit (.sideband n f)

/-- PORT_STATE of half `h` of a site's ports: bit p is set while the port is ACTIVE (Table 10.10). -/
def State.portMask (s : State) (n h : Nat) : Nat :=
  maskOf ((List.range 32).filter (fun p => s.rd D.ATTACH_STATE (64 * n + 32 * h + p) == 4))

/-- PORT_STATE is sent whenever a port's ACTIVE bit changes. -/
def State.sbPorts (s : State) (i : Nat) : State :=
  s.sbSend (i / 64) 0x46 (i % 64 / 32) (s.portMask (i / 64) (i % 64 / 32))

/-- Requests of an attach port. -/
def fromPort (i : Nat) (r : Req) : Bool := match r.origin with | .attach p _ => p == i | _ => false

/-- The requests of a port that have not passed its ingress are dropped; the others lose their requester (R258). -/
def State.portDrop (s : State) (i : Nat) : State :=
  s.reqList.foldl (fun t x =>
    if fromPort i x.2 then
      (match x.2.stage with
      | .held => t.delReq x.1
      | .parked fid => (t.delReq x.1).dropMiss x.2.part fid
      | _ => t.setReq x.1 { x.2 with origin := .gone })
    else t) s

/-- Commands of the port that wait elsewhere lose their requester too. -/
def State.portOrphan (s : State) (i : Nat) : State :=
  let gone (o : Origin) : Origin := match o with | .attach p t => if p = i then .gone else .attach p t | o => o
  { s with forwards := s.forwards.map (fun f => { f with origin := gone f.origin }),
           rings := s.rings.map (fun e => (e.1, { e.2 with disabling := e.2.disabling.map gone })) }

/-- What a port forgets when it leaves ACTIVE: tags, credits, sequence numbers, and its notifications, which are counted (R256, R258). -/
def State.portClear (s : State) (i : Nat) : State :=
  let s := s.count D.ATTACH_NTF_DROPPED i (s.port i).ntfs.length
  ((s.portDrop i).portOrphan i).setPort i Port.init

/-- A port enters DOWN (R258). -/
def State.portDown (s : State) (i cause : Nat) : State :=
  let act := s.rd D.ATTACH_STATE i == 4
  let s := (((s.portClear i).wr D.ATTACH_STATE i 5).wr D.ATTACH_DOWN_CAUSE i cause).raise Ev.ATTACH_PORT_DOWN 0 (evWords [i, cause])
  if act then s.sbPorts i else s

end Sys2Proof.Machine
end

