-- ==== Sys2Proof/Machine/Ingress.lean ====
section
/-! DEFINITION. How a request enters the machine: the holds of its interface, the framing of attach messages, and the header of host
commands (R243, R247, R259 to R266, R315, R319, R320). -/

namespace Sys2Proof.Machine

/-! ### Holds -/

/-- The resource a requester is (R48). -/
def reqResource (group source : Nat) : Option Resource :=
  if group = 0 then (if h : source < 512 then some (.port ⟨source, h⟩) else none)
  else if group = 1 then (if h : source < 512 then some (.te ⟨source, h⟩) else none)
  else if group = 3 && source == 0 then some .pf
  else none

/-- A requester accepts no new request: it is being re-bound, or its partition is stopping or being reset (R48, R404, R424). -/
def State.resHeld (s : State) (group source part : Nat) : Bool :=
  s.partHeld part || s.rebinds.any (fun b => some b.res == reqResource group source)

/-- The request has not been sent yet. -/
def unsent (r : Req) : Bool := match r.stage with | .held => true | .parked _ => true | _ => false

/-- The lines of a local request as slice, first and last line; none for a remote one. -/
def State.lineSpan (s : State) (r : Req) : Option (Nat × Nat × Nat) :=
  if r.dev == s.devNum then
    let sp := s.reqSpan r
    match locate s.variant sp.1 with
    | some (n, o) => some (n, o / 128, o / 128 + (sp.2 / 128 - sp.1 / 128))
    | none => none
  else none

/-- Two requests touch a common line (R266). -/
def State.meets (s : State) (a b : Req) : Bool :=
  let x := s.reqSpan a
  let y := s.reqSpan b
  a.dev == b.dev &&
    (decide (x.1 / 128 ≤ y.2 / 128 ∧ y.1 / 128 ≤ x.2 / 128) ||
      match s.lineSpan a, s.lineSpan b with
      | some (n, l, h), some (n', l', h') => n == n' && decide (l ≤ h' ∧ l' ≤ h)
      | _, _ => false)

/-- Kinds a doorbell of an attach port waits for (R266). -/
def writesMemory (k : ReqKind) : Bool := [.write, .atomic, .fmtWrite, .scaledAcc, .range, .doorbell].contains k

/-- A posted write that its owner slice has not accepted (R315). -/
def unacceptedPosted (r : Req) : Bool :=
  (match r.origin with | .hostPosted _ => true | _ => false) && (match r.stage with | .waiting => false | _ => true)

/-- Commands of a port that are not answered yet: forwarded launches and cancels, and disables that wait. -/
def State.portCmds (s : State) (i : Nat) : List Nat :=
  let tag (o : Origin) : List Nat := match o with | .attach p t => if p = i then [t] else [] | _ => []
  s.forwards.flatMap (fun f => tag f.origin) ++
    s.rings.flatMap (fun e => match e.2.disabling with | some o => tag o | none => [])

/-- Tags of a port outstanding (R264). -/
def State.portTags (s : State) (i : Nat) : List Nat :=
  s.reqList.filterMap (fun x => match x.2.origin with | .attach p t => if p = i then some t else none | _ => none) ++ s.portCmds i

/-- The other requests of a requester that came before `rid`. -/
def State.earlier (s : State) (rid : Nat) (r : Req) : List Req :=
  (s.reqList.filter (fun x => decide (x.1 < rid) && sameRequester x.2 r &&
    (match x.2.origin with | .split _ _ => false | _ => true))).map (fun x => x.2)

/-- The class of the request is at its limit, or earlier requests of the class wait (R247). -/
def State.classHold (s : State) (rid : Nat) (r : Req) : Bool :=
  let l := s.reqList.filter (fun x => x.1 != rid && sameRequester x.2 r && x.2.cls == r.cls)
  let out := l.filter (fun x => x.2.stage != .held && (match x.2.origin with | .split _ _ => false | _ => true))
  decide (s.rd D.CLASS_OUTSTANDING r.cls ≤ out.length) ||
    l.any (fun x => decide (x.1 < rid) && x.2.stage == .held && x.2.kind != .doorbell && x.2.kind != .fence)

/-- The order an attach port keeps (R266). -/
def State.portOrder (s : State) (rid : Nat) (r : Req) : Bool :=
  let e := s.earlier rid r
  match r.kind with
  | .fence => !e.isEmpty || !(s.portCmds r.source).isEmpty
  | .doorbell => e.any (fun q => writesMemory q.kind)
  | _ => e.any (fun q => unsent q && q.cls == r.cls && s.meets q r)

/-- The order a host function keeps (R315). -/
def State.hostOrder (s : State) (rid : Nat) (r : Req) : Bool :=
  (s.earlier rid r).any (fun q => unacceptedPosted q && (if r.kind == .doorbell || !r.relaxed then true else s.meets q r))

/-- The request stays at its ingress for now. -/
def State.mustHold (s : State) (rid : Nat) (r : Req) : Bool :=
  s.resHeld r.group r.source r.part ||
    (r.dev != s.devNum && s.routeHold.contains r.dev) ||
    (r.kind != .fence && s.classHold rid r) ||
    (r.group == 0 && s.portOrder rid r) ||
    (r.group == 3 && s.hostOrder rid r)

/-- A held request leaves its ingress when nothing holds it: a FENCE is answered, any other request is checked. -/
def State.takeIn (s : State) (rid : Nat) : State :=
  match s.req? rid with
  | none => s
  | some r =>
    if r.stage != .held || s.mustHold rid r then s
    else if r.kind == .fence then s.complete rid 0 0 0
    else s.checked rid r (s.checkReq r)

/-- A new request enters: it is admitted at once or held, and counted in CLASS_HELD when its class holds it (R247). -/
def State.enter (s : State) (r : Req) : State :=
  let rid := s.nextReq
  let r := { r with stage := .held }
  let s := s.newReq r
  let s := if r.kind != .fence && s.classHold rid r then s.count D.CLASS_HELD r.cls 1 else s
  s.takeIn rid

/-- Deadline of a request (R243): the one it carries, else for a real-time class gate time plus DEFAULT_DEADLINE. -/
def State.deadlineOf (s : State) (cls : Nat) (given : Option Nat) : Option Nat :=
  match given with
  | some d => some d
  | none => if s.rdB D.CLASS_REALTIME cls then some ((s.gate + s.rd D.DEFAULT_DEADLINE cls) % 2 ^ 32) else none

/-- A write in the doorbell aperture is a doorbell write (R24, R28). -/
def writeKind (v : Variant) (a : Nat) : ReqKind := match regionOf v a with | .doorbell _ => .doorbell | _ => .write

/-! ### Attach messages -/

/-- Fields of a request header (Table 10.5). -/
def mhOp (h : Nat) : Nat := bits h 5 0
def mhTag (h : Nat) : Nat := bits h 17 6
def mhClass (h : Nat) : Nat := bits h 23 18
def mhDlx (h : Nat) : Bool := bit h 24
def mhLen (h : Nat) : Nat := bits h 31 25
def mhAttr (h : Nat) : Nat := bits h 39 32
def mhAddr (h : Nat) : Nat := bits h 95 40
def mhPch (h : Nat) : Nat := bits h 101 96

/-- Chunks of a message (R259). -/
def msgChunks (m : Msg) : Nat := 1 + (mhDlx m.hdr.toNat).toNat + mhPch m.hdr.toNat

/-- Payload chunks Table 10.6 gives an operation; none where a descriptor decides. -/
def pchOf (op len attr : Nat) : Option Nat :=
  match op with
  | 2 => some (ceilDiv (len + 1) 16)
  | 3 => some (ceilDiv ((len + 1) * (if bits attr 3 0 = 7 then 2 else 1)) 16)
  | 6 => none
  | 7 => none
  | 8 => some 1
  | 0x10 => some 1
  | 0x11 => some 4
  | 0x13 => some 4
  | 0x14 => some 2
  | 0x15 => some 1
  | _ => some 0

/-- The fields that Table 10.6 names as 0, or leaves unnamed, are zero (R260). -/
def fieldsOk (op len attr addr : Nat) : Bool :=
  match op with
  | 1 => attr == 0
  | 2 => attr == 0
  | 3 => true
  | 4 => len == 0 && attr == 0
  | 5 => true
  | 6 => true
  | 7 => true
  | 8 => len == 0 && bits attr 7 5 == 0 && bits attr 3 0 ≤ 5
  | 9 => len == 0 && attr == 0 && addr == 0
  | 0x10 => len == 0 && addr == 0 && bits attr 7 6 == 0
  | 0x11 => len == 0 && attr == 0 && addr < 2 ^ 20
  | 0x12 => len == 0 && attr == 0 && addr < 2 ^ 20
  | 0x13 => len == 0 && attr == 0 && addr == 0
  | 0x14 => len == 0 && attr == 0 && addr == 0
  | 0x15 => len == 0 && attr == 0 && addr == 0
  | 0x16 => len == 0 && attr == 0 && addr == 0
  | _ => false

/-- Step 1 of R263 passes for a message read as operation `op`. -/
def frameOk (m : Msg) (op : Nat) : Bool :=
  let h := m.hdr.toNat
  mhOp h == op && bits h 127 102 == 0 && (if mhDlx h then bits m.ext.toNat 127 32 == 0 else true) && mhPch h ≤ 32 &&
    fieldsOk op (mhLen h) (mhAttr h) (mhAddr h) &&
    (match pchOf op (mhLen h) (mhAttr h) with | some n => mhPch h == n | none => true)

/-- Deadline a message carries (R243). -/
def msgDeadline (m : Msg) : Option Nat := if mhDlx m.hdr.toNat then some (m.ext.toNat % 2 ^ 32) else none

/-- The chunks of a message completed at the port are freed, and it is answered (R256, R265). -/
def State.attachAnswer (s : State) (i : Nat) (m : Msg) (st len data : Nat) : State :=
  let x := s.port i
  (s.setPort i { x with reqFreed := (x.reqFreed + msgChunks m) % 2 ^ 16 }).rsp i (mhTag m.hdr.toNat) st len data

/-- Steps 1 to 3 of R263 for a message whose turn has come; `k` is what its operation does. -/
def State.attachRun (s : State) (i : Nat) (m : Msg) (op : Nat) (k : State → State) : State :=
  let tag := mhTag m.hdr.toNat
  let x := s.port i
  if (s.portTags i).contains tag then
    ((s.setPort i { x with reqFreed := (x.reqFreed + msgChunks m) % 2 ^ 16 }).count D.ATTACH_PROTOCOL_ERR i 1).portNotify i 0x3C 3
      (tag + 1 * 2 ^ 16)
  else if !frameOk m op then (s.count D.ATTACH_PROTOCOL_ERR i 1).attachAnswer i m St.ATTACH_MSG_BAD 0 0
  else k s

/-- Later messages of a port wait behind a FENCE, a re-binding or a stop (R266, R48, R424). -/
def State.portWaits (s : State) (i : Nat) : Bool :=
  !(s.port i).held.isEmpty || (s.port i).resetting.isSome || s.resHeld 0 i (s.rd D.PORT_PARTITION i) ||
    s.reqList.any (fun x => fromPort i x.2 && x.2.kind == .fence)

/-- A message arrives at a port: only an ACTIVE port receives; a chunk beyond the credit granted takes the port down with cause 3 (R256). -/
def State.attachTake (s : State) (i : Nat) (m : Msg) (op : Nat) (k : State → State) : State :=
  if s.rd D.ATTACH_STATE i != 4 then s
  else
    let x := s.port i
    let rx := (x.reqRx + msgChunks m) % 2 ^ 16
    if s.cur D.ATTACH_REQ_CREDITS i < (rx + 2 ^ 16 - x.reqFreed) % 2 ^ 16 then s.portDown i 3
    else
      let s := s.setPort i { x with reqRx := rx }
      if s.portWaits i then s.setPort i { (s.port i) with held := (s.port i).held ++ [m] } else s.attachRun i m op k

/-- The data-path request a message makes (Table 10.6). -/
def State.attachReq (s : State) (i : Nat) (m : Msg) (kind : ReqKind) (len attr data : Nat) : Req :=
  let h := m.hdr.toNat
  { origin := .attach i (mhTag h), kind := kind, group := 0, source := i, part := s.rd D.PORT_PARTITION i, cls := mhClass h,
    deadline := s.deadlineOf (mhClass h) (msgDeadline m), dev := gaDev (mhAddr h), addr := gaLocal (mhAddr h), len := len, attr := attr,
    data := data, poison := false, relaxed := false, epoch := 0, order := 0, stage := .held, chunks := msgChunks m, parts := [],
    record := mhPch h, status := 0 }

/-- Steps 4 and 5 of R263 for a local FMT_WRITE or SCALED_ACC; 0 when they pass. -/
def State.attachFmt (s : State) (i : Nat) (m : Msg) (acc : Bool) : Nat :=
  let h := m.hdr.toNat
  let a := mhAddr h
  let d := s.fdesc (s.rd D.PORT_PARTITION i) (bits (mhAttr h) 5 0)
  let n := bits (mhAttr h) 7 6 + 1
  if gaDev a != s.devNum then 0
  else if absentView s.variant (gaLocal a) then St.UNIT_ABSENT
  else if !fdValid d then St.FORMAT_UNSET
  else if mhPch h != ceilDiv (if acc then fmtSourceBytes d n else fmtWideBytes d n) 16 then St.ATTACH_MSG_BAD
  else 0

/-- What a data-path message does once steps 1 to 3 of R263 have passed. -/
def State.attachData (s : State) (i : Nat) (m : Msg) (op : Nat) : State :=
  let h := m.hdr.toNat
  match op with
  | 1 => s.enter (s.attachReq i m .read (mhLen h + 1) 0 0)
  | 2 => s.enter (s.attachReq i m (writeKind s.variant (gaLocal (mhAddr h))) (mhLen h + 1) 0 (m.payload % 2 ^ (8 * (mhLen h + 1))))
  | 3 => s.enter (s.attachReq i m .atomic (mhLen h + 1) (mhAttr h) m.payload)
  | 4 => s.enter (s.attachReq i m .prefetch 1 0 0)
  | 5 => s.enter (s.attachReq i m .fmtRead (mhLen h) (mhAttr h) 0)
  | 6 =>
    match s.attachFmt i m false with
    | 0 => s.enter (s.attachReq i m .fmtWrite (mhLen h) (mhAttr h) m.payload)
    | st => s.attachAnswer i m st 0 0
  | 7 =>
    match s.attachFmt i m true with
    | 0 => s.enter (s.attachReq i m .scaledAcc (mhLen h) (mhAttr h) m.payload)
    | st => s.attachAnswer i m st 0 0
  | 8 => s.enter (s.attachReq i m .range (m.payload % 2 ^ 64) (mhAttr h) 0)
  | _ => s.enter (s.attachReq i m .fence 1 0 0)

/-- A data-path message of operation `op` arrives at port `i`. -/
def State.attachOp (s : State) (i : Nat) (m : Msg) (op : Nat) : State := s.attachTake i m op (fun t => t.attachData i m op)

/-! ### Host commands -/

/-- Fields of a command header (Table 12.5). -/
def hcOp (h : Nat) : Nat := bits h 5 0
def hcGroup (h : Nat) : Nat := bits h 13 12
def hcIndex (h : Nat) : Nat := bits h 19 14
def hcRangeOp (h : Nat) : Nat := bits h 23 20
def hcLocked (h : Nat) : Bool := bit h 24
def hcArg (h : Nat) : Nat := bits h 63 32

/-- Partition a command acts on: PARTITION of a PF command, the VF's own (R320). -/
def hcPart (f h : Nat) : Nat := if f = 0 then bits h 11 8 else f - 1

/-- ARG a command may carry (Table 12.5). -/
def argOk (op arg : Nat) : Bool :=
  if op = 0x11 ∨ op = 0x12 then decide (arg < 2 ^ 20)
  else if op = 0x15 ∨ op = 0x20 ∨ op = 0x22 then true
  else arg == 0

/-- The header rules of R320 for a command read as operation `op`: HOST_CMD_BAD, then HOST_CMD_DENIED; 0 when they hold. -/
def hcStatus (f h op : Nat) : Nat :=
  if hcOp h != op || bit h 6 || bits h 31 25 != 0 || !argOk op (hcArg h) || (f != 0 && bits h 11 8 != 0) ||
      (op == 8 && decide (5 < hcRangeOp h)) then St.HOST_CMD_BAD
  else if f != 0 && (op == 0x20 || op == 0x21 || op == 0x22) then St.HOST_CMD_DENIED
  else 0

/-- A header write to a command slot (R319): a busy slot ignores it and counts it; with OWN = 1 the command starts, `k` being what it does; a
header with OWN = 0 is only stored. A function that does not exist has no slot (R311). -/
def State.hostCmd (s : State) (f slot h payload op : Nat) (k : State → State) : State :=
  if !s.fnPresent f then s
  else
    let x := s.fn f
    let c := Table.get Slot.init slot x.slots
    if c.own then s.count D.HOST_CMD_OVERRUN 0 1
    else
      let c' : Slot := { c with own := bit h 7, hdr := h, payload := payload }
      let s := s.setFn f { x with slots := Table.set Slot.init slot c' x.slots }
      if !bit h 7 then s
      else match hcStatus f h op with
        | 0 => k s
        | st => s.hostCmdDone f slot st 0

end Sys2Proof.Machine
end

