-- ==== Sys2Proof/Machine/FormatCmds.lean ====
section
/-! DEFINITION. The commands of the conversion path: descriptors, the rounding seed, and the flow counters (R94, R107, R110 to R113). -/

namespace Sys2Proof.Machine

/-- Install descriptor `i` = 64·p + d under R95: its status, and the state. A refused install leaves the table unchanged. -/
def State.installFmt (s : State) (i v : Nat) : Nat × State :=
  match fdStatus s.variant v with
  | 0 => (0, s.wr D.FORMAT_DESC i v)
  | st => (st, s)

/-- FORMAT_DESC's own rules (R94, R95). -/
def State.ownFormat (s : State) (i : Nat) (w : OdWrite) : State :=
  match s.installFmt i (odNum w) with
  | (0, t) => t.odDone
  | (st, t) => t.odFail st

/-- What FORMAT_SET does for a port. -/
def State.attachFormat (s : State) (i : Nat) (m : Msg) : State :=
  let x := s.installFmt (64 * s.rd D.PORT_PARTITION i + bits (mhAttr m.hdr.toNat) 5 0) (m.payload % 2 ^ 128)
  x.2.attachAnswer i m x.1 0 0

/-- FORMAT_SET (R94): an object write, a host command, or an attach command for the port's own partition. -/
def execFormatSet (src : CmdSrc) (s : State) : Host.Outcome State Fault Refusal :=
  match src with
  | .attach i m =>
    .next (s.attachTake i m 0x10 (fun t => t.attachFormat i m))
  | .host f slot h payload =>
    let hn := h.toNat
    .next (s.hostCmd f slot hn payload 0x10 (fun t =>
      let x := t.installFmt (64 * hcPart f hn + hcIndex hn) (payload % 2 ^ 128)
      x.2.hostCmdDone f slot x.1 0))
  | .object inst w => s.odCmd (.formatSet src) (fun t => t.odWrite D.FORMAT_DESC inst w (fun u => u.ownFormat inst w))
  | .descriptor _ => .next s

/-- Every generator stands at its seed (R107). -/
def reseed (x : Slice) : Slice := { x with rngX := 0, rngK := 0 }

/-- SR_SEED's own rules (R107): every slice is seeded again. -/
def State.ownSrSeed (s : State) (w : OdWrite) : State :=
  ({ s with slices := Table.mapVals Slice.init (fun _ x => reseed x) s.slices } : State).odSet D.SR_SEED 0 w

/-- SR_SEED (R107). -/
def execSrSeed (w : OdWrite) (s : State) : Host.Outcome State Fault Refusal :=
  s.odCmd (.srSeed w) (fun t => t.odWrite D.SR_SEED 0 w (fun u => u.ownSrSeed w))

/-- FLOW_SNAPSHOT's own rules (R111 step 1): the flow is kept until the snapshot is done. -/
def State.ownFlowSnapshot (s : State) (w : OdWrite) : State :=
  if s.rd D.FLOW_SNAP_STATE 0 = 1 then s.odFail St.FLOW_BUSY
  else ((s.wr D.FLOW_SNAPSHOT 0 (odNum w)).wr D.FLOW_SNAP_STATE 0 1).odDone

/-- FLOW_SNAPSHOT (R111). -/
def execFlowSnapshot (w : OdWrite) (s : State) : Host.Outcome State Fault Refusal :=
  s.odCmd (.flowSnapshot w) (fun t => t.odWrite D.FLOW_SNAPSHOT 0 w (fun u => u.ownFlowSnapshot w))

/-- The counters of flow `pf` = 64·p + f in each slice. -/
def State.flowRows (s : State) (pf : Nat) : List FlowCnt := (s.flows.filter (fun e => e.1 % 1024 == pf)).map (fun e => e.2)

/-- A sum over the slices. -/
def sumRows (l : List FlowCnt) (f : FlowCnt → Nat) : Nat := l.foldl (fun a c => a + f c) 0

/-- FLOW_SNAP_DONE (R111 steps 2 to 4). -/
def execFlowSnapDone (s : State) : Host.Outcome State Fault Refusal :=
  if s.rd D.FLOW_SNAP_STATE 0 != 1 then .next s
  else
    let l := s.flowRows (s.rd D.FLOW_SNAPSHOT 0)
    let s := s.wr D.SNAP_FLAGS 0 (l.foldl (fun a c => a ||| c.flags) 0)
    let s := s.wr D.SNAP_BLOCKS 0 (sumRows l (fun c => c.blocks))
    let s := s.wr D.SNAP_CLIP 0 (sumRows l (fun c => c.clip))
    let s := s.wr D.SNAP_SCALE_RAISED 0 (sumRows l (fun c => c.raised))
    let s := s.wr D.SNAP_SCALE_OVF 0 (sumRows l (fun c => c.ovf))
    let s := s.wr D.SNAP_UNDERFLOW 0 (sumRows l (fun c => c.underflow))
    let s := s.wr D.SNAP_NAN_BLOCKS 0 (sumRows l (fun c => c.nanBlocks))
    let s := s.wr D.SNAP_INF_ELEMENTS 0 (sumRows l (fun c => c.infs))
    let s := s.wr D.SNAP_RESERVED_CODE 0 (sumRows l (fun c => c.resv))
    let s := s.wr D.SNAP_AMAX 0 (l.foldl (fun a c => max a c.amax) 0)
    .next ((s.wr D.SNAP_GATE_TIME 0 s.gate).wr D.FLOW_SNAP_STATE 0 2)

/-- FLOW_CLEAR's own rules (R112). -/
def State.ownFlowClear (s : State) (w : OdWrite) : State :=
  ({ s with flows := s.flows.filter (fun e => e.1 % 1024 != odNum w) } : State).odDone

/-- FLOW_CLEAR (R112). -/
def execFlowClear (w : OdWrite) (s : State) : Host.Outcome State Fault Refusal :=
  s.odCmd (.flowClear w) (fun t => t.odWrite D.FLOW_CLEAR 0 w (fun u => u.ownFlowClear w))

end Sys2Proof.Machine
end

