-- ==== Sys2Proof/Machine/HbmOps.lean ====
section
/-! DEFINITION. The queues of the pseudo-channels and how a slice reaches them (R149 to R153, R165, R169, R249). -/

namespace Sys2Proof.Machine

def State.pc (s : State) (i : Nat) : Pc := Table.get Pc.init i s.pcs

def State.setPc (s : State) (i : Nat) (x : Pc) : State := { s with pcs := Table.set Pc.init i x s.pcs }

/-- Pseudo-channel of a cell address, and its line number in the channel (R150). -/
def cellPc (a : Nat) : Nat := 2 * (a / 2 ^ 31) + a / 128 % 2
def cellLine (a : Nat) : Nat := a % 2 ^ 31 / 128

/-- Bank and row of a line of a channel (Table 6.3); `cfg` is STACK_CONFIG. -/
def lineBank (cfg l : Nat) : Nat :=
  let p := l / 2
  if cfg = 0 then bits p 8 3 ^^^ bits p 14 9 else bits p 7 3 ^^^ bits p 12 8
def lineRow (cfg l : Nat) : Nat := if cfg = 0 then bits (l / 2) 22 9 else bits (l / 2) 22 8

/-- A backing request for this offset waits while its unit is being copied (R169), and while a unit of a failed channel has still to be
written as poison, so that what is written back afterwards survives (R170). -/
def State.unitWaits (s : State) (c o : Nat) : Bool :=
  s.rd D.CHAN_BACKING c == 1 && (o / 512 == s.rd D.MIG_PROGRESS c || (s.chan c).dead && decide (s.rd D.MIG_PROGRESS c < o / 512))

/-- Entries of a class in a queue. -/
def clsCount (c : Nat) (l : List Nat) : Nat := (l.filter (fun x => x == c)).length

/-- A queue of 64 takes an entry of class `c` (R249). -/
def State.qRoom (s : State) (c : Nat) (l : List Nat) : Bool :=
  decide (l.length < 64) && decide (clsCount c l < s.rd D.CLASS_CHQ_MAX c)

/-- A unit that needs field `f` wakes it: out of Doze at once, else through the chairlift (Table 14.6, R373). The flag says that it is awake. -/
def State.fieldUp (s : State) (f : Nat) : State × Bool :=
  match s.rd D.FIELD_POWER f with
  | 0 => (s, true)
  | 1 => (s.wr D.FIELD_POWER f 0, true)
  | _ => (s.demand (.field (Fin.ofNat 8 f)), false)

/-- The slice is being reset by itself or with its field (R402, R403). -/
def State.sliceResets (s : State) (n : Nat) : Bool :=
  s.boot.resets.any (fun x => match x with | .slice k => k == n | .field f _ => f == sliceField n)

/-- A request reaches slice `n`: it waits while the slice is being reset, or sleeps and is woken, its field first (R373, Table 15.10). The flag
says that it is served. -/
def State.sliceUp (s : State) (n : Nat) : State × Bool :=
  if s.sliceResets n then (s, false)
  else
    match s.rd D.SLICE_POWER n with
    | 0 => (s, true)
    | 1 => (s.wr D.SLICE_POWER n 0, true)
    | _ => (((s.fieldUp (sliceField n)).1).demand (.slice (Fin.ofNat 1024 n)), false)

/-- A request reaches a channel: a channel in power-down becomes Active, one in self-refresh begins its exit, unless its stack is in band D or
its slice sleeps on (Table 6.6, R165). -/
def State.wakeChan (s : State) (c : Nat) : State :=
  let p := s.rd D.CHAN_POWER c
  if p = 1 then s.wr D.CHAN_POWER c 0
  else if p = 2 && s.rd D.STACK_BAND (c / 32) != 3 then s.demand (.channel (Fin.ofNat 1024 c))
  else s

/-- The channel of a line's backing, as an offset in the owner's channel. -/
def State.lineBack (s : State) (p : Loc) : Option Nat := s.lineCell p.n p.src p.dist p.line

/-- A miss register hands its sectors to the channel when the read queue has room (R149, R249). A failed channel answers at once with poison
(R170). -/
def State.feed (s : State) (key n : Nat) (m : MissReg) : State :=
  let c := sliceChannel (sourceSlice n m.src m.dist)
  let need := m.want &&& (3 - (m.sent ||| m.have_))
  if need = 0 || s.unitWaits c (m.line * 128) then s
  else match s.lineCell n m.src m.dist m.line with
    | none => s.setCache key (missPut (s.cache key) { m with have_ := m.have_ ||| need, pois := m.pois ||| need })
    | some a =>
      let q := s.pc (cellPc a)
      if s.qRoom m.cls (q.rd.map (fun e => e.cls)) then
        let e : RdEnt := { key := key, n := n, src := m.src, dist := m.dist, line := m.line, phys := cellLine a, sectors := need,
                           cls := m.cls, deadline := m.deadline, at_ := s.gate }
        let s := s.setPc (cellPc a) { q with rd := q.rd ++ [e] }
        (s.setCache key (missPut (s.cache key) { m with sent := m.sent ||| need })).wakeChan (a / 2 ^ 31)
      else s

/-- The logical slice a physical slice serves, or served while it retires. -/
def State.logicalOf (s : State) (k : Nat) : Nat :=
  if k < 1024 then k
  else match s.retiring.find? (fun e => e.2 == some (k - 1024)) with
    | some e => e.1
    | none => (((List.range 1024).find? (fun n => s.homeKey n == k)).getD 0)

/-- Every miss register that still has sectors to hand over tries again. -/
def State.feedAll (s : State) : State :=
  s.slices.foldl (fun t e =>
    if e.2.miss.any (fun m => m.want &&& (3 - (m.sent ||| m.have_)) != 0) then
      let n := s.logicalOf e.1
      e.2.miss.foldl (fun u m => u.feed e.1 n m) t
    else t) s

/-- The write queue of the line's pseudo-channel takes its writeback (R152, R249). -/
def State.wrRoom (s : State) (p : Loc) (cls : Nat) : Bool :=
  !s.unitWaits (sliceChannel p.owner) (p.line * 128) &&
    (match s.lineBack p with
     | none => true
     | some a => s.qRoom cls ((s.pc (cellPc a)).wr.map (fun e => e.cls)))

/-- A writeback is issued: memory takes the dirty sectors, and the write queue holds their transfer (R82, R152). -/
def State.issueWrite (s : State) (p : Loc) (ln : Line) : State :=
  match s.lineBack p with
  | none => s
  | some a =>
    let s := s.writeLine p.n ln
    let q := s.pc (cellPc a)
    (s.setPc (cellPc a) { q with
      wr := q.wr ++ [{ line := cellLine a, sectors := ln.dirty, cls := ln.cls, at_ := s.gate }],
      drain := q.drain || decide (48 ≤ q.wr.length + 1) }).wakeChan (a / 2 ^ 31)

/-- Registers held by a class, and the registers a class may still take (R249). -/
def heldRegs (x : Slice) (c : Nat) : Nat := (x.miss.filter (fun m => m.cls == c)).length

/-- Registers other classes have reserved and not taken. -/
def State.reservedRegs (s : State) (x : Slice) : Nat :=
  (List.range 64).foldl (fun a d => a + (s.rd D.CLASS_MISS_MIN d - heldRegs x d)) 0

/-- A class may take a free miss register (R249). -/
def State.regFree (s : State) (x : Slice) (c : Nat) : Bool :=
  decide (x.miss.length < 128) && decide (heldRegs x c < s.rd D.CLASS_MISS_MAX c) &&
    (decide (heldRegs x c < s.rd D.CLASS_MISS_MIN c) || decide (s.reservedRegs x < 128 - x.miss.length))

end Sys2Proof.Machine
end

