-- ==== Sys2Proof/Machine/RegOps.lean ====
section
/-! DEFINITION. Capacities, effective guarantees and token buckets of the regulation points (R234 to R246). -/

namespace Sys2Proof.Machine

/-- The pin rate in force, in tenths of a Gbit/s (Table 6.7). -/
def State.pinRate (s : State) : Nat :=
  match s.cur D.HBM_PIN_RATE 0 with | 0 => 64 | 1 => 80 | 2 => 96 | _ => 100

/-- Refresh share in per mille, and the band factor in quarters (Table 9.2). -/
def bandRefresh (b : Nat) : Nat := if b = 0 then 35 else 70
def bandQuarters (b : Nat) : Nat := if b = 3 then 0 else if b = 2 then 3 else 4

/-- Derated capacity of channel `c` in MB/s (Table 9.2). -/
def State.chanCapacity (s : State) (c : Nat) : Nat :=
  if !s.has .chan c || 2 ≤ s.rd D.CHAN_BACKING c then 0
  else
    let b := s.rd D.STACK_BAND (c / 32)
    800 * s.pinRate * s.rd D.MEM_EFFICIENCY 0 * (1000 - bandRefresh b) * bandQuarters b / 4000000

/-- Channels of group `m`. -/
def groupChans (m : Nat) : List Nat := (List.range 32).map (fun k => 32 * m + k)

/-- Derated capacity of group `m` (Table 9.2). -/
def State.groupCapacity (s : State) (m : Nat) : Nat :=
  (groupChans m).foldl (fun a c => a + s.chanCapacity c) 0 -
    (if (groupChans m).any (fun c => s.rd D.CHAN_BACKING c == 1) then 1000 * s.cur D.MIGRATE_RATE 0 else 0)

/-- Units the active table schedules on link `n` in the fullest aligned window of 256 strides (Table 9.2). -/
def State.linkScheduled (s : State) (n : Nat) : Nat :=
  match s.lapA with
  | none => 0
  | some t =>
    if s.rd D.LAP_STATE 0 = 1 then
      let l := (t.entries.filter (fun e => e.1 % 1024 == linkNode n && bits e.2 27 24 != 0)).map (fun e => e.1 / 1024 / 256)
      (List.range 32).foldl (fun a w => max a (l.filter (fun x => x == w)).length) 0
    else 0

/-- Derated capacity of link `n` (Table 9.2). -/
def State.linkCapacity (s : State) (n : Nat) : Nat :=
  if s.has .link n && linkUsable (s.rd D.LINK_STATE n) then
    50000 * s.rd D.LINK_TRAINED_WIDTH n * s.rd D.LINK_EFFICIENCY 0 / 1000 - 2000 * s.linkScheduled n
  else 0

/-- Configured guarantee of class `c` at group `m` and at link `n` (chapter 09, Guarantees and admission). -/
def State.memG (s : State) (m c : Nat) : Nat := if bit (s.rd D.MEM_GROUP_MASK c) m then s.rd D.MEM_GUARANTEE c else 0
def State.linkG (s : State) (n c : Nat) : Nat := if bit (s.rd D.LINK_MASK c) n then s.rd D.LINK_GUARANTEE c else 0

/-- The sums of the guarantees at a point. -/
def State.memSum (s : State) (m : Nat) : Nat := (List.range 64).foldl (fun a c => a + s.memG m c) 0
def State.linkSum (s : State) (n : Nat) : Nat := (List.range 64).foldl (fun a c => a + s.linkG n c) 0

/-- R246: the effective guarantee, and the scale factor F. -/
def effG (g total cap : Nat) : Nat := if total ≤ cap then g else g * cap / total
def scaleF (total cap : Nat) : Nat := if total ≤ cap then 65536 else 65536 * cap / total

def State.memEff (s : State) (m c : Nat) : Nat := effG (s.memG m c) (s.memSum m) (s.rd D.MEM_CAPACITY m)
def State.linkEff (s : State) (n c : Nat) : Nat := effG (s.linkG n c) (s.linkSum n) (s.rd D.LINK_CAPACITY n)

/-- The events of R246: point kind 0 for a group and 1 for a link, its number, and F. -/
def State.scaleEvent (s : State) (kind point old new : Nat) : State :=
  if new = old then s
  else if new < 65536 then s.raise Ev.GUARANTEE_SCALED 0 (evWords [kind, point, new])
  else s.raise Ev.GUARANTEE_RESTORED 0 (evWords [kind, point, new])

/-- A group's capacity and scale are computed again and published (R234, R246). -/
def State.refreshGroup (s : State) (m : Nat) : State :=
  if s.has .stack m then
    let cap := s.groupCapacity m
    let old := s.rd D.MEM_SCALE m
    let f := scaleF (s.memSum m) cap
    ((s.wr D.MEM_CAPACITY m cap).wr D.MEM_SCALE m f).scaleEvent 0 m old f
  else s

/-- The same of a link. -/
def State.refreshLink (s : State) (n : Nat) : State :=
  if s.has .link n then
    let cap := s.linkCapacity n
    let old := s.rd D.LINK_SCALE n
    let f := scaleF (s.linkSum n) cap
    ((s.wr D.LINK_CAPACITY n cap).wr D.LINK_SCALE n f).scaleEvent 1 n old f
  else s

/-- Every point of a kind. -/
def State.refreshGroups (s : State) : State := (List.range 32).foldl (fun t m => t.refreshGroup m) s
def State.refreshLinks (s : State) : State := (List.range 64).foldl (fun t n => t.refreshLink n) s

/-- A point is reset: its estimators start at the effective guarantees (R242). -/
def State.resetGroupEst (s : State) (m : Nat) : State :=
  (List.range 64).foldl (fun t c => t.wr D.MEM_BW_EST (64 * m + c) (t.memEff m c)) s
def State.resetLinkEst (s : State) (n : Nat) : State :=
  (List.range 64).foldl (fun t c => t.wr D.LINK_BW_EST (64 * n + c) (t.linkEff n c)) s

/-! ### Token buckets (R239): points 2·pc + (1 for writes) of pseudo-channels, 4096 + n of links; tokens in thousandths of a byte -/

/-- Fill rate in MB/s, which is thousandths of a byte in a nanosecond. -/
def State.pcRate (s : State) (pc c : Nat) : Nat :=
  let m := pc / 64
  let n := ((groupChans m).filter (fun k => s.chanCapacity k != 0)).length
  s.memEff m c / (2 * n)

/-- Tokens of a class at a point with rate `r`, now. -/
def State.tokens (s : State) (point r c : Nat) : Nat :=
  let b := Table.get (0, 0) (64 * point + c) s.buckets
  min (max 256000 (r * 1000)) (b.1 + r * (s.gate - b.2))

/-- Bytes are spent. -/
def State.spend (s : State) (point r c bytes : Nat) : State :=
  { s with buckets := Table.set (0, 0) (64 * point + c) (s.tokens point r c - 1000 * bytes, s.gate) s.buckets }

/-- Bytes served since the estimators were updated. -/
def State.noteServed (s : State) (key bytes : Nat) : State :=
  { s with served := Table.set 0 key (Table.get 0 key s.served + bytes) s.served }

/-- Slack of a deadline (R243): D minus the low 32 bits of gate time, signed. -/
def State.slack (s : State) (d : Nat) : Int := toSigned 32 ((d + 2 ^ 32 - s.gate % 2 ^ 32) % 2 ^ 32)

/-- A real-time request is served with negative slack (R244). -/
def State.missed (s : State) (o : Obj) (i c : Nat) (d : Option Nat) : State :=
  match d with
  | none => s
  | some x =>
    if s.rdB D.CLASS_REALTIME c && decide (s.slack x < 0) then
      let s := s.count o i 1
      match Table.get none c s.missEv with
      | some t => if s.gate < t + 1000000 then s
                  else ({ s with missEv := Table.set none c (some s.gate) s.missEv }).raise Ev.DEADLINE_MISS 0 0
      | none => ({ s with missEv := Table.set none c (some s.gate) s.missEv }).raise Ev.DEADLINE_MISS 0 0
    else s

/-! ### The choice of Table 9.3 -/

/-- A waiting request as the service order sees it: place in its queue, class, deadline, age in ns, and whether its row is open. -/
structure Cand where
  at_ : Nat
  cls : Nat
  deadline : Option Nat
  age : Nat
  hit : Bool
  deriving DecidableEq, Repr

/-- R151 within a set of candidates, oldest first: one waiting longer than 1 µs, else an open row, else the oldest. -/
def pick151 (l : List Cand) : Option Cand :=
  match l.find? (fun x => decide (1000 < x.age)) with
  | some x => some x
  | none => match l.find? (fun x => x.hit) with
    | some x => some x
    | none => l.head?

/-- The candidates with the earliest deadline; those without one come last. -/
def State.earliest (s : State) (l : List Cand) : List Cand :=
  let sl := l.filterMap (fun x => x.deadline.map s.slack)
  match sl with
  | [] => l
  | a :: r =>
    let m := r.foldl min a
    l.filter (fun x => match x.deadline with | some d => s.slack d == m | none => false)

/-- The class of least (E − G_eff)/w among the candidates (step 4): `est` and `eff` are per class. -/
def State.leastClass (s : State) (est eff : Nat → Nat) (l : List Cand) : Option Nat :=
  ((List.range 64).filter (fun c => l.any (fun x => x.cls == c))).foldl (fun b c =>
    match b with
    | none => some c
    | some d =>
      if (est c - eff c) * s.rd D.CLASS_WEIGHT d < (est d - eff d) * s.rd D.CLASS_WEIGHT c then some c else some d) none

/-- Table 9.3: `credit` says which classes hold tokens, `pick` is the rule within a set (R151, or arrival order at a link). -/
def State.choose (s : State) (credit : Nat → Bool) (est eff : Nat → Nat) (pick : List Cand → Option Cand) (l : List Cand) : Option Cand :=
  let urgent := l.filter (fun x => s.rdB D.CLASS_REALTIME x.cls && credit x.cls &&
    (match x.deadline with | some d => decide (s.slack d ≤ (s.rd D.RT_SLACK 0 : Int)) | none => false))
  match pick (s.earliest urgent) with
  | some x => some x
  | none =>
    match pick (l.filter (fun x => credit x.cls)) with
    | some x => some x
    | none =>
      match s.leastClass est eff l with
      | none => none
      | some c =>
        let m := l.filter (fun x => x.cls == c)
        pick (if s.rdB D.CLASS_REALTIME c then s.earliest m else m)

end Sys2Proof.Machine
end

