-- ==== Sys2Proof/Machine/LinkOps.lean ====
section
/-! DEFINITION. The link layer: headers, request tables, the way of a request onto a link, and a link going down (R293 to R305). -/

namespace Sys2Proof.Machine

def State.lnk (s : State) (n : Nat) : Lnk := Table.get Lnk.init n s.lnks

def State.setLnk (s : State) (n : Nat) (x : Lnk) : State := { s with lnks := Table.set Lnk.init n x s.lnks }

/-- Fields of a routed message header (Table 11.5). -/
def lhOp (h : Nat) : Nat := bits h 5 0
def lhHops (h : Nat) : Nat := bits h 9 6
def lhReqId (h : Nat) : Nat := bits h 27 10
def lhClass (h : Nat) : Nat := bits h 33 28
def lhPart (h : Nat) : Nat := bits h 37 34
def lhDev (h : Nat) : Nat := bits h 49 38
def lhLen (h : Nat) : Nat := bits h 56 50
def lhAttr (h : Nat) : Nat := bits h 64 57
def lhAddr (h : Nat) : Nat := bits h 120 65
def lhStatus (h : Nat) : Nat := bits h 80 65
def lhPch (h : Nat) : Nat := bits h 126 121
def lhDlx (h : Nat) : Bool := bit h 127

/-- Chunks of a link message (R296); a SCHED_START is followed by the chunks of its unit (Table 11.10). -/
def linkChunks (h : Nat) : Nat :=
  if lhOp h = 0x20 then 1
  else if lhOp h = 0x22 then 1 + bits h 11 6
  else 1 + (lhDlx h).toNat + lhPch h

/-- A request header. -/
def linkReqHeader (op reqId cls part dev len attr addr pch : Nat) (dlx : Bool) : Nat :=
  op + reqId * 2 ^ 10 + cls * 2 ^ 28 + part * 2 ^ 34 + dev * 2 ^ 38 + (len % 128) * 2 ^ 50 + (attr % 256) * 2 ^ 57 + addr * 2 ^ 65 +
    pch * 2 ^ 121 + dlx.toNat * 2 ^ 127

/-- Opcode, LEN, ATTR, payload chunks and payload of a remote request (Table 11.7, Table 10.6). -/
def linkForm (r : Req) : Nat × Nat × Nat × Nat × Nat :=
  match r.kind with
  | .read => (1, r.len - 1, 0, 0, 0)
  | .write =>
    match r.origin with
    | .sweep _ _ _ => (0x0A, r.len - 1, r.attr % 256, ceilDiv r.len 16, r.data)
    | _ => (2, r.len - 1, r.poison.toNat, ceilDiv r.len 16, r.data)
  | .doorbell => (2, r.len - 1, 0, ceilDiv r.len 16, r.data)
  | .atomic => (3, r.len - 1, r.attr, (pchOf 3 (r.len - 1) r.attr).getD 0, r.data)
  | .prefetch => (4, 0, 0, 0, 0)
  | .fmtRead => (5, r.len, r.attr, 0, 0)
  | .fmtWrite => (6, r.len, r.attr, r.record, r.data)
  | .scaledAcc => (7, r.len, r.attr, r.record, r.data)
  | .range => (8, 0, r.attr, 1, r.len)
  | .fence => (9, 0, 0, 0, 0)

/-- Header, extension and payload of request `r` under REQ_ID `id`. -/
def State.linkEncode (s : State) (r : Req) (id : Nat) : Nat × Nat × Nat :=
  let (op, len, attr, pch, data) := linkForm r
  (linkReqHeader op id r.cls r.part s.devNum len attr (r.addr + r.dev * 2 ^ 44) pch r.deadline.isSome, r.deadline.getD 0,
   data % 2 ^ (128 * pch))

/-- The request table entry is free: it holds no request and no forwarded launch, and is not quarantined (R303). -/
def State.entryFree (s : State) (k : Nat) : Bool :=
  (Table.get none k s.linkTab).isNone && !s.quarantine.contains k && s.forwards.all (fun f => f.key != k)

/-- The lowest free entry of link `n`. -/
def State.freeEntry (s : State) (n : Nat) : Option Nat := ((List.range 4096).map (fun e => 4096 * n + e)).find? s.entryFree

/-- REQ_ID of an entry: origin link and entry (Table 11.5). -/
def reqIdOf (k : Nat) : Nat := k

/-- A request takes an entry of link `n`; the entry and the encoded message. -/
def State.linkTake (s : State) (n rid : Nat) : Option (State × TxMsg) :=
  match s.req? rid, s.freeEntry n with
  | some r, some k =>
    let e := s.linkEncode r (reqIdOf k)
    some (({ s with linkTab := Table.set none k (some rid) s.linkTab } : State).setReq rid { r with stage := .link n },
      { step := 5, hdr := e.1, ext := e.2.1, payload := e.2.2, cls := r.cls, deadline := r.deadline })
  | _, _ => none

/-- Chunks of a message on the link as one number, header first. -/
def txChunks (m : TxMsg) : Nat := linkChunks m.hdr
def txBits (m : TxMsg) : Nat :=
  if lhDlx m.hdr then m.hdr + m.ext * 2 ^ 128 + m.payload * 2 ^ 256 else m.hdr + m.payload * 2 ^ 128

/-- A free-skate unit reaches the LINK endpoint: its requests join the regulated queue while entries last. -/
def State.linkQueue (s : State) (n : Nat) (rids : List Nat) : Option State :=
  rids.foldl (fun a rid =>
    match a with
    | none => none
    | some t =>
      if (t.req? rid).isNone then some t
      else (t.linkTake n rid).map (fun x => x.1.sendLink n x.2)) (some s)

/-- A scheduled unit reaches the LINK sink (R305): SCHED_START with the sink's gate time, then its messages. -/
def State.linkSched (s : State) (n : Nat) (rids : List Nat) : Option State :=
  let r := rids.foldl (fun a rid =>
    match a with
    | none => none
    | some (t, ms) =>
      if (t.req? rid).isNone then some (t, ms)
      else (t.linkTake n rid).map (fun x => (x.1, ms ++ [x.2]))) (some (s, ([] : List TxMsg)))
  match r with
  | none => none
  | some (t, ms) =>
    let body := ms.foldl (fun a m => (a.1 + txBits m * 2 ^ (128 * a.2), a.2 + txChunks m)) (0, 0)
    some (t.sendLink n { step := 3, hdr := 0x22 + body.2 * 2 ^ 6 + s.gate32 * 2 ^ 32, ext := 0, payload := body.1,
                         cls := (ms.head?.map (fun m => m.cls)).getD 0, deadline := none })

/-- Entries of link `n` that hold a request, with the request. -/
def State.linkEntries (s : State) (n : Nat) : List (Nat × Nat) :=
  s.linkTab.filterMap (fun e => match e.2 with | some r => if e.1 / 4096 = n then some (e.1, r) else none | none => none)

/-- A forwarded launch completes at the sender with a record, REMOTE = 1, MISSED = 0 and no local ID; an accepted one can be cancelled later. A
forwarded cancel that succeeded, or found no launch, ends that (R227, R228, R230). -/
def State.forwardEnd (s : State) (f : Forward) (st id time : Nat) : State :=
  if f.cancel then
    let gone := st == 0 || st == St.NO_SUCH_LAUNCH
    let s := if gone then { s with farLaunches := s.farLaunches.filter (fun l => !(l.id == f.id && l.dev == f.dev)) } else s
    s.answer 0 f.origin st 0 0
  else
    let s := s.launchRecord f.part f.rec256 false id st false true time
    let s := if st = 0 then { s with farLaunches := s.farLaunches ++ [{ id := id, dev := f.dev, part := f.part, time := time }] } else s
    s.answer 0 f.origin st (if st = 0 then 16 else 0) (if st = 0 then id + time * 2 ^ 64 else 0)

/-- Requests received on link `n` run to completion, and their responses are discarded (R303). -/
def State.linkOrphan (s : State) (n : Nat) : State :=
  s.reqList.foldl (fun t x =>
    match x.2.origin with
    | .link m _ => if m = n then t.setReq x.1 { x.2 with origin := .gone } else t
    | _ => t) s

/-- Every request outstanding on link `n` completes with LINK_LOST, and its entries are quarantined (R303); also the launches and cancels
forwarded on it. -/
def State.linkLose (s : State) (n : Nat) : State :=
  let es := s.linkEntries n
  let fs := s.forwards.filter (fun f => f.key / 4096 == n)
  let s := { s with linkTab := es.foldl (fun t e => Table.set none e.1 none t) s.linkTab
                    forwards := s.forwards.filter (fun f => f.key / 4096 != n)
                    quarantine := s.quarantine ++ es.map (fun e => e.1) ++ fs.map (fun f => f.key)
                    linkQ := Table.set [] n [] s.linkQ }
  let s := es.foldl (fun t e => t.complete e.2 St.LINK_LOST 0 0) s
  fs.foldl (fun t f => t.forwardEnd f St.LINK_LOST 0 0) s

/-- Requests outstanding to device `d` on some link (R302). -/
def State.outTo (s : State) (d : Nat) : Bool :=
  s.reqList.any (fun x => x.2.dev == d && d != s.devNum && (match x.2.stage with | .mesh => true | .link _ => true | _ => false))

/-- A link joins the set for device `d`: new requests for it wait while requests to it are outstanding (R302). -/
def State.routeJoin (s : State) (d : Nat) : State :=
  if s.outTo d && !s.routeHold.contains d then { s with routeHold := s.routeHold ++ [d] } else s

/-- Devices whose set names link `n`. -/
def State.devsOf (s : State) (n : Nat) : List Nat :=
  (((Table.get [] (objKey D.LINK_ROUTE) s.objs).filter (fun e => bit e.2 n)).map (fun e => e.1)) ++
    (if s.rdB D.LINK_ROUTE_AUTO 0 && s.rd D.LINK_PARTNER_DEVICE n < 4096 then [s.rd D.LINK_PARTNER_DEVICE n] else [])

/-- A link leaves the states that carry traffic: what is outstanding is lost, its layer state is gone, its capacity is 0 (R293, R294, R303). -/
def State.linkStop (s : State) (n st : Nat) : State :=
  let s := (s.linkLose n).linkOrphan n
  let x := s.lnk n
  let w := s.rd D.LINK_TRAINED_WIDTH n
  let s := s.setLnk n { Lnk.init with lastWidth := if w = 0 then x.lastWidth else w, lanes := x.lanes, offs := x.offs, band := x.band }
  let s := ((s.wr D.LINK_STATE n st).wr D.LINK_TX_IDLE n 0).wr D.LINK_SCHED_LEAD n 0xFFFFFFFF
  ((s.wr D.LINK_TRAINED_WIDTH n 0).wr D.LINK_LANE_MASK n 0).refreshLink n

/-- DOWN is entered (R293): LINK_FAILED with the cause, LINK_DOWN_CAUSE, the requests lost and the record of Table 16.3, whose CAUSE is 0: a cause
of Table 11.6 has no code of R427 (R418). -/
def State.linkFail (s : State) (n cause : Nat) : State :=
  if s.rd D.LINK_STATE n = 5 ∨ s.rd D.LINK_STATE n = 0 then s
  else
    let lost := (s.linkEntries n).length
    let s := (s.wr D.LINK_DOWN_CAUSE n cause).raise Ev.LINK_FAILED 0 (evWords [cause])
    let s := if s.rd D.LINK_STATE n = 2 then s.wr D.LINK_TRAIN_MODE_LAST n 3 else s
    (s.linkStop n 5).recordTo (maskList 16 (s.rd D.LINK_PART_MASK n)) 0x49 clsCorrected (ucLink n) 0 0 lost

end Sys2Proof.Machine
end

