-- ==== Sys2Proof/Machine/SliceOps.lean ====
section
/-! DEFINITION. What a request does to the lines it touches, and how it passes the ordering point of its slice (R55, R66 to R72, R82, R83,
R96 to R123). -/

namespace Sys2Proof.Machine

/-! ### The bytes a request touches -/

/-- What a request touches: the slice whose channel holds it, the first line and the number of lines, the sectors it needs present (two bits
a line), the bytes it writes, and the byte offset in its first line. -/
structure Plan where
  h : Nat
  line : Nat
  cnt : Nat
  need : Nat
  wm : Nat
  off : Nat
  deriving DecidableEq, Repr

/-- `n` bytes from byte `off` as a byte mask. -/
def byteMask (off n : Nat) : Nat := (2 ^ n - 1) * 2 ^ off

/-- The 64 bytes of sector `j` in a byte mask. -/
def sectorOf (m j : Nat) : Nat := m / 2 ^ (64 * j) % 2 ^ 64

/-- Sectors of `n` that a byte mask touches, touches only in part, and covers. -/
def secTouched (n m : Nat) : Nat := maskOf ((List.range n).filter (fun j => sectorOf m j != 0))
def secPartial (n m : Nat) : Nat := maskOf ((List.range n).filter (fun j => sectorOf m j != 0 && sectorOf m j != 2 ^ 64 - 1))
def secWhole (n m : Nat) : Nat := maskOf ((List.range n).filter (fun j => sectorOf m j == 2 ^ 64 - 1))

/-- Blocks and descriptor of a format request (Table 10.6 ATTR). -/
def reqBlocks (r : Req) : Nat := bits r.attr 7 6 + 1
def State.reqDesc (s : State) (r : Req) : Nat := s.fdesc r.part (bits r.attr 5 0)

/-- Bytes of a unit that hold blocks b0 to b0 + n − 1, their scales and their tags (R91). -/
def unitBytes (c b0 n : Nat) : Nat :=
  let w := fmtBits c
  byteMask (4 * w * b0) (4 * w * n) |||
    (if fmtBlock c then
      byteMask (fmtScaleOff c + b0) n ||| byteMask (fmtTagOff c + b0 / 4) ((b0 + n - 1) / 4 - b0 / 4 + 1)
     else 0)

/-- Bytes beyond the tag area, which the quantiser writes as zero (R91). -/
def unitSpare (c : Nat) : Nat :=
  if fmtBlock c then
    let e := fmtTagOff c + (fmtBlocks c * 2 + 7) / 8
    byteMask e (512 - e)
  else 0

/-- The plan of a request at its owner slice. -/
def State.plan (s : State) (r : Req) : Option Plan :=
  match locate s.variant r.addr with
  | none => none
  | some (h, o) =>
    let off := o % 128
    let l := o / 128
    let m := byteMask off r.len
    some (match r.kind with
      | .write => { h := h, line := l, cnt := 1, need := secPartial 2 m, wm := m, off := off }
      | .atomic => { h := h, line := l, cnt := 1, need := secTouched 2 m, wm := m, off := off }
      | .prefetch => { h := h, line := l, cnt := 1, need := 3, wm := 0, off := off }
      | .fmtRead =>
        let c := fdStored (s.reqDesc r)
        let n := fmtUnit c / 128
        { h := h, line := l, cnt := n, need := secTouched (2 * n) (unitBytes c r.len (reqBlocks r)), wm := 0, off := 0 }
      | .fmtWrite =>
        let c := fdStored (s.reqDesc r)
        let n := fmtUnit c / 128
        let m := unitBytes c r.len (reqBlocks r) ||| unitSpare c
        { h := h, line := l, cnt := n, need := secPartial (2 * n) m, wm := m, off := 0 }
      | .scaledAcc =>
        let n := reqBlocks r
        { h := h, line := l + r.len, cnt := n, need := 2 ^ (2 * n) - 1, wm := 2 ^ (128 * n) - 1, off := 0 }
      | _ => { h := h, line := l, cnt := 1, need := secTouched 2 m, wm := 0, off := off })

/-- Lines of a plan that the request touches, as offsets from its first line. -/
def Plan.lines (p : Plan) : List Nat :=
  (List.range p.cnt).filter (fun i => bits p.need (2 * i + 1) (2 * i) != 0 || p.wm / 2 ^ (128 * i) % 2 ^ 128 != 0)

/-- Sectors needed of line `i`, and bytes written in it. -/
def Plan.needOf (p : Plan) (i : Nat) : Nat := bits p.need (2 * i + 1) (2 * i)
def Plan.maskOf (p : Plan) (i : Nat) : Nat := p.wm / 2 ^ (128 * i) % 2 ^ 128

/-! ### Effects on the bytes -/

/-- What a request does to the bytes and poison of its lines, and its answer. -/
structure Eff where
  u : Nat
  pois : Nat
  st : Nat
  rlen : Nat
  rdata : Nat
  changed : Bool
  deriving DecidableEq, Repr

/-- The generator of a physical slice; one not used since its seeding stands at its seed (R107). -/
def State.rng (s : State) (key : Nat) : Rng :=
  let x := s.cache key
  if x.rngX = 0 then rngSeed (s.rd D.SR_SEED 0) key else { x := x.rngX, k := x.rngK }

def State.setRng (s : State) (key : Nat) (g : Rng) : State := s.setCache key { (s.cache key) with rngX := g.x, rngK := g.k }

/-- Poison after a write of the bytes `m` (R66): whole sectors are cleared; written parts of poisoned sectors leave POISONED. -/
def writePoison (n m pois : Nat) : Nat × Nat :=
  let p := pois &&& (2 ^ n - 1 - secWhole n m)
  (p, if p &&& secTouched n m = 0 then 0 else St.POISONED)

/-- A write with the poison mark sets POISON on every sector it touches, and completes with success (R133, R296). -/
def markPoison (r : Req) (n m q st : Nat) : Nat × Nat := if r.poison then (q ||| secTouched n m, 0) else (q, st)

/-- Blocks of a format-on-read, in block order (R102). -/
def readBlocks (d : Nat) : List Nat → Nat → Rng → Nat × Nat × FlowCnt × Rng
  | [], _, g => (0, 0, FlowCnt.zero, g)
  | b :: r, u, g =>
    let c := fdStored d
    let w := fmtBits c
    let scale := if fmtBlock c then bytesOf u (fmtScaleOff c + b) 1 else 127
    let tag := if fmtBlock c then bits u (8 * fmtTagOff c + 2 * b + 1) (8 * fmtTagOff c + 2 * b) else 0
    let (x, ev, g) := readBlock d scale (bytesOf u (4 * w * b) (4 * w)) tag g
    let (y, n, ev', g) := readBlocks d r u g
    let sz := 4 * fmtBits (fdDelivered d)
    (x + y * 2 ^ (8 * sz), n + 1, flowAdd ev ev', g)

/-- Blocks of a format-on-write, in block order (R103): payload block `k` to block `b`. -/
def writeBlocks (d : Nat) : List (Nat × Nat) → Nat → Nat → Rng → Nat × FlowCnt × Rng
  | [], _, u, g => (u, FlowCnt.zero, g)
  | (k, b) :: r, pay, u, g =>
    let c := fdStored d
    let w := fmtBits c
    let dw := fmtBits (fdDelivered d)
    let raw := bytesOf pay (4 * dw * k) (4 * dw)
    let vals := wideVals (fdDelivered d) raw
    if fmtBlock c then
      let (data, scale, tag, ev, g) := writeBlock d vals g
      let u := setBytes u (4 * w * b) (4 * w) data
      let u := setBytes u (fmtScaleOff c + b) 1 scale
      let u := setBits u (8 * fmtTagOff c + 2 * b + 1) (8 * fmtTagOff c + 2 * b) tag
      let (u, ev', g) := writeBlocks d r pay u g
      (u, flowAdd ev ev', g)
    else
      let elems := (List.range 32).map (fun i => bits raw (dw * i + dw - 1) (dw * i))
      let (data, ev, g) := writeWide d (vals.zip elems) g
      let u := setBytes u (4 * w * b) (4 * w) data
      let (u, ev', g) := writeBlocks d r pay u g
      (u, flowAdd (flowAdd (sourceEvents true vals) ev) ev', g)

/-- Lines of a scaled accumulate, in line order (R108): payload block `k` into line `k`. -/
def accBlocks (d : Nat) : List Nat → Nat → Nat → Rng → Nat × FlowCnt × Rng
  | [], _, u, g => (u, FlowCnt.zero, g)
  | k :: r, pay, u, g =>
    let vs := accVals d pay k
    let (y, ev, g) := accLine d vs (bytesOf u (128 * k) 128) g
    let (u, ev', g) := accBlocks d r pay (setBytes u (128 * k) 128 y) g
    (u, flowAdd (flowAdd (sourceEvents true vs) ev) ev', g)

/-- The effect of request `r` on the bytes `u` and the poison `pois` of its lines, at slice `key` counting in logical slice `n`. -/
def State.eff (s : State) (key n : Nat) (r : Req) (p : Plan) (u pois : Nat) : Eff × State :=
  let none_ (st : Nat) : Eff := { u := u, pois := pois, st := st, rlen := 0, rdata := 0, changed := false }
  match r.kind with
  | .read =>
    if pois &&& p.need != 0 then (none_ St.POISONED, s)
    else ({ none_ 0 with rlen := r.len, rdata := bytesOf u p.off r.len }, s)
  | .write =>
    let (q, st) := writePoison 2 p.wm pois
    let (q, st) := markPoison r 2 p.wm q st
    ({ u := setBytes u p.off r.len r.data, pois := q, st := st, rlen := 0, rdata := 0, changed := true }, s)
  | .atomic =>
    if pois &&& p.need != 0 then (none_ St.POISONED, s)
    else
      let c := r.len / atWidth (atTy r.attr)
      ({ u := atApply c (atOp r.attr) (atTy r.attr) p.off r.data u, pois := pois, st := 0, rlen := atRspLen r.attr r.len,
         rdata := bytesOf u p.off r.len, changed := true }, s.count D.ATOMIC_OPS n 1)
  | .fmtRead =>
    if pois &&& p.need != 0 then (none_ St.POISONED, s)
    else
      let d := s.reqDesc r
      let (x, k, ev, g) := readBlocks d ((List.range (reqBlocks r)).map (fun i => r.len + i)) u (s.rng key)
      ({ none_ 0 with rlen := k * (4 * fmtBits (fdDelivered d)), rdata := x }, (s.setRng key g).flowEvents n r.part (fdFlow d) ev)
  | .fmtWrite =>
    let d := s.reqDesc r
    let (q, st) := writePoison (2 * p.cnt) p.wm pois
    let (q, st) := markPoison r (2 * p.cnt) p.wm q st
    let blank := u - (u &&& expandMask (128 * p.cnt) (unitSpare (fdStored d)))
    let (u', ev, g) := writeBlocks d ((List.range (reqBlocks r)).map (fun i => (i, r.len + i))) r.data blank (s.rng key)
    ({ u := u', pois := q, st := st, rlen := 0, rdata := 0, changed := true }, (s.setRng key g).flowEvents n r.part (fdFlow d) ev)
  | .scaledAcc =>
    if pois != 0 || r.poison then (none_ St.POISONED, s)
    else
      let d := s.reqDesc r
      let (u', ev, g) := accBlocks d (List.range (reqBlocks r)) r.data u (s.rng key)
      ({ u := u', pois := pois, st := 0, rlen := 0, rdata := 0, changed := true }, (s.setRng key g).flowEvents n r.part (fdFlow d) ev)
  | _ => (none_ 0, s)

/-! ### Combined entries (R120, R121) -/

/-- Request `b` may combine with an entry whose last request is `a`. -/
def State.combines (s : State) (a b : Req) : Bool :=
  match a.kind, b.kind with
  | .atomic, .atomic =>
    a.addr / 128 == b.addr / 128 && bits a.attr 6 0 == bits b.attr 6 0 && !atFetch a.attr &&
      atCombinable b.attr (s.rdB D.ATOMIC_COMBINE_FP b.part)
  | .scaledAcc, .scaledAcc =>
    a.part == b.part && a.attr == b.attr && reqBlocks a == 1 && a.addr == b.addr && a.len == b.len &&
      fdAcc (s.reqDesc a) == 0 && s.rdB D.ATOMIC_COMBINE_FP b.part
  | _, _ => false

/-- A request that may be collected into a combined entry at all. -/
def State.posted (s : State) (r : Req) : Bool := s.combines r r

/-- Join the last entry of a list when it combines with it; none when it does not. -/
def State.joinLast (s : State) (r : Req) (rid : Nat) (l : List (List Nat)) : Option (List (List Nat)) :=
  match l.getLast? with
  | none => none
  | some g =>
    match g.getLast? with
    | none => none
    | some a =>
      match s.req? a with
      | some q => if s.combines q r && decide (g.length < 64) then some (l.dropLast ++ [g ++ [rid]]) else none
      | none => none

/-- The combined effect of posted atomics on a line: the partial results of all, applied once. -/
def State.groupAtomic (s : State) (op ty : Nat) (g : List Req) (u : Nat) : Nat :=
  applyPartials op ty
    (g.foldl (fun ps r =>
      let o := match locate s.variant r.addr with | some (_, o) => o % 128 | none => 0
      gather (r.len / atWidth ty) op ty o r.data ps) []) u

/-- The FP32 partial of scaled accumulates (R121), element order. -/
def accPartial (d : Nat) (g : List Req) : List Val :=
  let rows := g.map (fun r => accVals d r.data 0)
  (List.range 32).map (fun i =>
    match rows with
    | [] => .fin false 0 0
    | a :: rest =>
      decodeElem 0 (rest.foldl (fun c row => encodeIeee 0 (valAdd (decodeElem 0 c) (row.getD i (.fin false 0 0))))
        (encodeIeee 0 (a.getD i (.fin false 0 0)))))

/-- The effect of a combined entry of two or more requests as one operation. -/
def State.effGroup (s : State) (key n : Nat) (g : List Req) (r : Req) (u pois : Nat) : Eff × State :=
  let none_ (st : Nat) : Eff := { u := u, pois := pois, st := st, rlen := 0, rdata := 0, changed := false }
  if r.kind == .atomic then
    let need := g.foldl (fun m q => m ||| ((s.plan q).map (fun x => x.need)).getD 0) 0
    if pois &&& need != 0 then (none_ St.POISONED, s)
    else ({ none_ 0 with u := s.groupAtomic (atOp r.attr) (atTy r.attr) g u, changed := true }, s.count D.ATOMIC_OPS n 1)
  else if pois != 0 || g.any (fun q => q.poison) then (none_ St.POISONED, s)
  else
    let d := s.reqDesc r
    let (y, ev, gen) := accLine d (accPartial d g) u (s.rng key)
    let src := g.foldl (fun a q => flowAdd a (sourceEvents true (accVals d q.data 0))) FlowCnt.zero
    ({ none_ 0 with u := y, changed := true }, (s.setRng key gen).flowEvents n r.part (fdFlow d) (flowAdd src ev))

/-- The effect of an entry: one request, or several that have combined, which count in ATOMIC_COMBINED but for the first. -/
def State.effEntry (s : State) (key n : Nat) (g : List Nat) (r : Req) (p : Plan) (u pois : Nat) : Eff × State :=
  match g with
  | [_] => s.eff key n r p u pois
  | _ => (s.count D.ATOMIC_COMBINED n (g.length - 1)).effGroup key n (g.filterMap (fun k => s.req? k)) r u pois

/-- Every request of an entry completes with its status. -/
def State.completeAll (s : State) (g : List Nat) (e : Eff) : State := g.foldl (fun t k => t.complete k e.st e.rlen e.rdata) s

/-! ### Lines in the arrays -/

/-- A present line: in the tag array, else in the victim buffer. -/
def State.lineAt (s : State) (p : Loc) : Option Line :=
  let x := s.cache p.key
  match tagFind x p.line p.src p.dist with
  | some (_, ln) => some ln
  | none => (victimFind x p.line p.src p.dist).map (fun v => v.line)

/-- Store a present line back where it is. -/
def State.putLine (s : State) (p : Loc) (ln : Line) : State :=
  let x := s.cache p.key
  match tagFind x p.line p.src p.dist with
  | some (k, _) => s.setCache p.key (tagSet x k (some ln))
  | none =>
    match victimFind x p.line p.src p.dist with
    | some v => s.setCache p.key (victimPut x { v with line := ln })
    | none => s

/-- A demand use of a line in the tag array: most recent, and the first use of a prefetched line is counted (R71, R72). -/
def State.useLine (s : State) (p : Loc) : State :=
  let x := s.cache p.key
  match tagFind x p.line p.src p.dist with
  | none => s
  | some (k, ln) =>
    let s := s.setCache p.key (touchWay (tagSet x k (some { ln with prefetched := false })) k false)
    if ln.prefetched then s.count D.PREFETCH_USED p.n 1 else s

/-- Kinds that mark their lines atomic-busy (R83, R99). -/
def marksBusy (k : ReqKind) : Bool := k == .atomic || k == .fmtWrite || k == .scaledAcc

/-- Line `i` of a plan whose first line is at `p`. -/
def Loc.plus (p : Loc) (i : Nat) : Loc := { p with line := p.line + i }

/-- The bytes and poison of the lines of a plan, as the arrays hold them (absent lines read 0: nothing of them is used). -/
def State.gatherLines (s : State) (p : Loc) (pl : Plan) : Nat × Nat :=
  (List.range pl.cnt).foldl (fun a i =>
    match s.lineAt (p.plus i) with
    | some ln => (a.1 + ln.data * 2 ^ (1024 * i), a.2 + ln.poison * 2 ^ (2 * i))
    | none => a) (0, 0)

/-- Store the result of an effect into the lines of a plan: written sectors become valid and dirty (R66). -/
def State.scatterLines (s : State) (p : Loc) (pl : Plan) (busy : Bool) (e : Eff) : State :=
  pl.lines.foldl (fun t i =>
    match t.lineAt (p.plus i) with
    | none => t
    | some ln =>
      let w := secTouched 2 (pl.maskOf i)
      t.putLine (p.plus i) { ln with
        data := bytesOf e.u (128 * i) 128, poison := bits e.pois (2 * i + 1) (2 * i),
        valid := ln.valid ||| w, dirty := ln.dirty ||| w, abusy := ln.abusy || (busy && pl.maskOf i != 0) }) s

/-- The byte mask an entry writes. -/
def State.entryMask (s : State) (g : List Nat) (pl : Plan) : Nat :=
  g.foldl (fun m k => match s.req? k with | some q => m ||| ((s.plan q).map (fun x => x.wm)).getD 0 | none => m) pl.wm

/-- An entry takes effect: every line it needs is present at `p`. -/
def State.perform (s : State) (p : Loc) (g : List Nat) (r : Req) (pl : Plan) : State :=
  let (u, pois) := s.gatherLines p pl
  let (e, s) := s.effEntry p.key p.n g r pl u pois
  let s := pl.lines.foldl (fun t i => if r.kind == .prefetch then t else t.useLine (p.plus i)) s
  let s := if e.changed then s.scatterLines p { pl with wm := s.entryMask g pl } (marksBusy r.kind) e else s
  s.completeAll g e

/-! ### Misses, victims and hot lines -/

/-- The request waits past the ordering point. -/
def State.setStage (s : State) (g : List Nat) (st : Stage) : State :=
  g.foldl (fun t k => match t.req? k with | some q => t.setReq k { q with stage := st } | none => t) s

/-- Requests go to the replay queue; when it is full they wait at the input and the stall is counted (R70). -/
def State.toReplay (s : State) (p : Loc) (g : List Nat) : State :=
  let x := s.cache p.key
  if x.replay.length + g.length ≤ 32 then (s.setCache p.key { x with replay := x.replay ++ g }).setStage g .replay
  else (s.count D.MISS_REG_FULL_COUNT p.n 1).setStage g .slice

/-- A new miss register for a line; the sectors of `want` are asked of the channel. -/
def State.newMiss (s : State) (p : Loc) (r : Req) (want : Nat) (prefetch : Bool) (lock : Option Nat) : State :=
  let x := s.cache p.key
  let m : MissReg :=
    { line := p.line, src := p.src, dist := p.dist, cls := r.cls, part := r.part, deadline := r.deadline, prefetch := prefetch,
      lockPart := lock, noAlloc := x.lost.contains (lineSet p.line), want := want, sent := 0, have_ := 0, pois := 0, data := 0, mask := 0,
      merged := [], waiters := [], swarm := [] }
  (s.setCache p.key { x with miss := x.miss ++ [m] }).feed p.key p.n m

/-- Change a register, then ask for what it lacks. -/
def State.updMiss (s : State) (p : Loc) (f : MissReg → MissReg) : State :=
  match missFind (s.cache p.key) p.line p.src p.dist with
  | none => s
  | some m => (s.setCache p.key (missPut (s.cache p.key) (f m))).feed p.key p.n (f m)

/-- A write merges into a register's line buffer (R68). -/
def mergeWrite (rid : Nat) (r : Req) (pl : Plan) (m : MissReg) : MissReg :=
  { m with data := mergeBytes m.data (r.data % 2 ^ (8 * r.len) * 2 ^ (8 * pl.off)) pl.wm, mask := m.mask ||| pl.wm,
           want := m.want ||| (pl.need &&& (3 - m.have_)), merged := m.merged ++ [rid] }

/-- Next-line prefetch of a demand read miss (R71). -/
def State.nextLine (s : State) (p : Loc) (r : Req) : State :=
  let q := p.plus 1
  let x := s.cache p.key
  if r.kind == .read && p.line % 4 != 3 && s.rdB D.PREFETCH_NEXT r.part && !s.holds q && decide (x.miss.length ≤ 112) && s.regFree x r.cls then
    (s.newMiss q r 3 true none).count D.PREFETCH_ISSUED p.n 1
  else s

/-- READ_AFTER_DEAD: a read miss, plain or with a format, of a line in the dead record (R80). -/
def State.afterDead (s : State) (p : Loc) (r : Req) : State :=
  let x := s.cache p.key
  let k := p.owner * 2 ^ 24 + p.line
  if (r.kind == .read || r.kind == .fmtRead) && x.dead.contains k then
    (s.setCache p.key { x with dead := x.dead.filter (fun d => d != k) }).count D.READ_AFTER_DEAD p.n 1
  else s

/-- A waiting or replayed format request of the slice other than `rid` touches one of these lines (R97, R98). -/
def State.fmtWaiting (s : State) (rid : Nat) (h lo hi : Nat) : Bool :=
  s.reqList.any (fun x => x.1 != rid && isFmt x.2 && x.2.stage == .waiting &&
    match s.plan x.2 with
    | some q => q.h == h && decide (q.line ≤ hi ∧ lo < q.line + q.cnt)
    | none => false)

/-- Sectors of a line that are missing for a plan: those needed and not valid; a whole line for a miss that is no write (R68). -/
def missingSectors (ln : Option Line) (r : Req) (need : Nat) : Nat :=
  match ln with
  | some l => need &&& (3 - l.valid)
  | none => if r.kind == .write || r.kind == .fmtWrite then need else 3

/-- The line may be used as it stands: it is present with every needed sector, and no register holds it. -/
def State.lineReady (s : State) (p : Loc) (need : Nat) : Bool :=
  (match s.lineAt p with | some l => need &&& (3 - l.valid) == 0 | none => false) &&
    (missFind (s.cache p.key) p.line p.src p.dist).isNone

/-- Evict a line to make room for a fill of class `c` in the set of `p`: the way, or none when the fill has to wait (R72). -/
def State.makeRoom (s : State) (p : Loc) (c : Nat) : Option (Nat × State) :=
  let x := s.cache p.key
  match chooseWay x (lineSet p.line) c (s.rd D.CLASS_WAYS c) with
  | none => none
  | some k =>
    match Table.get none k x.tags with
    | none => some (k, s)
    | some ln =>
      if ln.dirty = 0 || ln.valid = 0 then some (k, s.setCache p.key (tagSet x k none))
      else if 16 ≤ x.victims.length then none
      else some (k, s.setCache p.key { (tagSet x k none) with victims := x.victims ++ [{ line := ln, issued := false, waiters := [] }] })

/-- The hot-line buffer of a line. -/
def hotBufOf (x : Slice) (p : Loc) : Option HotBuf :=
  x.hotBufs.find? (fun b => b.line == p.line && b.src == p.src && b.dist == p.dist)

/-- A hot-line buffer is applied as one operation (R123). -/
def State.applyHot (s : State) (p : Loc) : State :=
  let x := s.cache p.key
  match hotBufOf x p with
  | none => s
  | some b =>
    let s := s.setCache p.key { x with hotBufs := x.hotBufs.filter (fun y => y != b) }
    match b.rids with
    | [] => s
    | a :: _ =>
      match s.req? a with
      | none => s
      | some r =>
        match s.plan r with
        | none => s
        | some pl => s.perform p b.rids r pl

/-- The fill's place in its set after its hot-line buffers have been applied: buffers of the set's lines go first (R123). -/
def State.flushHotSet (s : State) (p : Loc) : State :=
  (s.cache p.key).hotBufs.foldl (fun t b =>
    if lineSet b.line = lineSet p.line then t.applyHot { p with line := b.line, src := b.src, dist := b.dist } else t) s

/-- Merge a victim that has not been issued back into its set (R82): none when no way can be chosen. -/
def State.remerge (s : State) (p : Loc) : Option State :=
  let x := s.cache p.key
  match victimFind x p.line p.src p.dist with
  | none => none
  | some v =>
    match (s.setCache p.key (victimDrop x p.line p.src p.dist)).makeRoom p v.line.cls with
    | none => none
    | some (k, t) => some (t.setCache p.key (touchWay (tagSet (t.cache p.key) k (some v.line)) k false))

/-- Wait on a victim entry (R82, R83). -/
def State.waitVictim (s : State) (p : Loc) (g : List Nat) : State :=
  let x := s.cache p.key
  match victimFind x p.line p.src p.dist with
  | none => s
  | some v => (s.setCache p.key (victimPut x { v with waiters := v.waiters ++ g })).setStage g .waiting

/-- Key of a line in the hot-line tables. -/
def hotKey (p : Loc) : Nat := (p.src * 16 + p.dist) * 2 ^ 24 + p.line

/-- Add one to a line's count in the 8-entry table; the least recently incremented entry makes room (R122). -/
def hotBump (k : Nat) (l : List (Nat × Nat)) : List (Nat × Nat) × Nat :=
  let n := match l.find? (fun e => e.1 == k) with | some e => e.2 + 1 | none => 1
  let rest := l.filter (fun e => e.1 != k)
  let rest := if rest.length < 8 then rest else rest.drop 1
  (rest ++ [(k, n)], n)

/-- Count an atomic or scaled accumulate at the ordering point; at the threshold the line becomes hot (R122). -/
def State.hotCount (s : State) (p : Loc) (r : Req) : State :=
  if !(r.kind == .atomic || r.kind == .scaledAcc) then s
  else
    let x := s.cache p.key
    let (l, n) := hotBump (hotKey p) x.hotCounts
    let s := s.setCache p.key { x with hotCounts := l }
    if n != s.cur D.HOT_LINE_THRESHOLD 0 then s
    else
      let x := s.cache p.key
      let due := match x.hotEvent with | none => true | some t => decide (t + 1000000 ≤ s.gate)
      let s := s.setCache p.key { x with hot := x.hot.filter (fun e => e.1 != hotKey p) ++ [(hotKey p, 16)],
                                         hotEvent := if due then some s.gate else x.hotEvent }
      let s := (s.count D.HOT_LINE_EVENTS p.n 1).wr D.HOT_LINE_LAST p.n p.line
      if due then s.raise Ev.HOT_LINE 0 (evWords [p.n, p.line]) else s

/-- The line is hot. -/
def isHot (x : Slice) (p : Loc) : Bool := x.hot.any (fun e => e.1 == hotKey p)

/-- Collect a posted request to a hot line: into its line's buffer when it combines with it, else a buffer of its own; the oldest of four
is applied first (R123). -/
def State.collect (s : State) (p : Loc) (rid : Nat) (r : Req) : State :=
  let x := s.cache p.key
  let joined := match hotBufOf x p with
    | some b => (s.joinLast r rid [b.rids]).map (fun (l : List (List Nat)) => l.headD [])
    | none => none
  match joined with
  | some l =>
    (s.setCache p.key { x with hotBufs := x.hotBufs.map (fun b =>
      if b.line == p.line && b.src == p.src && b.dist == p.dist then { b with rids := l } else b) }).setStage [rid] .waiting
  | none =>
    let s := s.applyHot p
    let s := match (s.cache p.key).hotBufs with
      | b :: _ => if 4 ≤ (s.cache p.key).hotBufs.length then s.applyHot { p with line := b.line, src := b.src, dist := b.dist } else s
      | [] => s
    match s.lineAt p with
    | some ln =>
      if ln.abusy then
        let x := s.cache p.key
        (s.setCache p.key { x with busyQ := x.busyQ ++ [[rid]] }).setStage [rid] .waiting
      else
        let x := s.cache p.key
        (s.setCache p.key { x with hotBufs := x.hotBufs ++ [{ line := p.line, src := p.src, dist := p.dist, rids := [rid] }] }).setStage
          [rid] .waiting
    | none => s

/-! ### The ordering point -/

/-- Join an existing register's line, for a plain request (R68, R69, R120). -/
def State.joinMiss (s : State) (p : Loc) (m : MissReg) (g : List Nat) (rid : Nat) (r : Req) (pl : Plan) : State :=
  if r.kind == .prefetch then s.completeAll g { u := 0, pois := 0, st := 0, rlen := 0, rdata := 0, changed := false }
  else
    let s := if m.prefetch then (s.updMiss p (fun m => { m with prefetch := false })).count D.PREFETCH_USED p.n 1 else s
    if r.kind == .write && m.waiters.isEmpty && m.swarm.isEmpty then
      (s.updMiss p (mergeWrite rid r pl)).setStage g .waiting
    else
      let need (m : MissReg) : Nat := m.want ||| (pl.need &&& (3 - m.have_))
      match s.joinLast r rid m.waiters with
      | some l => (s.updMiss p (fun m => { m with waiters := l, want := need m })).setStage g .waiting
      | none =>
        if m.waiters.length < 8 then (s.updMiss p (fun m => { m with waiters := m.waiters ++ [g], want := need m })).setStage g .waiting
        else if r.kind == .read then (s.updMiss p (fun m => { m with swarm := m.swarm ++ g, want := need m })).setStage g .waiting
        else s.toReplay p g

/-- A miss of a plain request: a register is allocated, or the request is replayed (R67, R68, R70, R249). -/
def State.missOne (s : State) (p : Loc) (g : List Nat) (rid : Nat) (r : Req) (pl : Plan) : State :=
  if s.rd D.CHAN_BACKING (sliceChannel p.owner) = 3 && (s.lineAt p).isNone then
    g.foldl (fun t k => t.complete k (if r.kind == .prefetch then 0 else St.POISONED) 0 0) s
  else if !s.regFree (s.cache p.key) r.cls then s.toReplay p g
  else
    let s := s.afterDead p r
    let s := s.newMiss p r (missingSectors (s.lineAt p) r pl.need) (r.kind == .prefetch) none
    let s := match r.kind with
      | .write => (s.updMiss p (mergeWrite rid r pl)).setStage g .waiting
      | .prefetch => g.foldl (fun t k => t.complete k 0 0 0) s
      | _ => (s.updMiss p (fun m => { m with waiters := [g] })).setStage g .waiting
    s.nextLine p r

/-- A format request whose lines are not all ready: registers are taken or joined for the missing ones (R98). -/
def State.missFmt (s : State) (p : Loc) (g : List Nat) (r : Req) (pl : Plan) : State :=
  let x := s.cache p.key
  let bad := pl.lines.filter (fun i => !s.lineReady (p.plus i) (pl.needOf i))
  let joinable (i : Nat) : Bool := match missFind x (p.plus i).line p.src p.dist with
    | some m => decide (m.waiters.length < 8)
    | none => true
  let fresh := bad.filter (fun i => (missFind x (p.plus i).line p.src p.dist).isNone)
  if s.rd D.CHAN_BACKING (sliceChannel p.owner) = 3 then g.foldl (fun t k => t.complete k St.POISONED 0 0) s
  else if !bad.all joinable || !s.regFree x r.cls && !fresh.isEmpty || decide (128 < x.miss.length + fresh.length) then s.toReplay p g
  else
    let s := fresh.foldl (fun t i => (t.afterDead (p.plus i) r).newMiss (p.plus i) r (missingSectors (t.lineAt (p.plus i)) r (pl.needOf i)) false none) s
    let s := bad.foldl (fun t i => t.updMiss (p.plus i) (fun m =>
      { m with waiters := m.waiters ++ [g], want := m.want ||| (pl.needOf i &&& (3 - m.have_)) })) s
    s.setStage g .waiting

/-- A request to a line whose eviction is under way (R82, R83); one behind a request that waits there keeps its place (R55). -/
def State.hitVictim (s : State) (p : Loc) (v : Victim) (g : List Nat) (rid : Nat) (r : Req) (pl : Plan) : State :=
  if r.kind == .prefetch then g.foldl (fun t k => t.complete k 0 0 0) s
  else if v.line.abusy || !v.waiters.isEmpty then s.waitVictim p g
  else if r.kind == .read then
    if s.lineReady p pl.need then (s.count D.VICTIM_HIT_COUNT p.n 1).perform p g r pl else s.waitVictim p g
  else if v.issued then s.waitVictim p g
  else match s.remerge p with
    | none => s.toReplay p g
    | some t =>
      let t := t.count D.VICTIM_HIT_COUNT p.n 1
      if t.lineReady p pl.need then t.perform p g r pl else t.missOne p g rid r pl

/-- The line moves from a retiring slice to its new owner, dirty state and lock included (Table 3.4 phase 2); nothing moves while it is busy,
being evicted, or no way is free. -/
def State.pull (s : State) (q p : Loc) : State :=
  let x := s.cache q.key
  match tagFind x q.line q.src q.dist with
  | none => s
  | some (k, ln) =>
    if ln.abusy || (missFind x q.line q.src q.dist).isSome then s
    else
      let s := s.applyHot q
      match tagFind (s.cache q.key) q.line q.src q.dist with
      | none => s
      | some (_, ln) =>
        if ln.abusy then s
        else match s.makeRoom p ln.cls with
          | none => s
          | some (w, t) =>
            let t := t.setCache p.key (touchWay (tagSet (t.cache p.key) w (some { ln with src := p.src, dist := p.dist })) w false)
            t.setCache q.key (tagSet (t.cache q.key) k none)

/-- The lines of a plan that are still at a retiring slice are moved to the new owner, which is asked first (R61). -/
def State.pullLines (s : State) (pl : Plan) : State :=
  if s.retiring.isEmpty then s
  else pl.lines.foldl (fun t i =>
    match t.locNew pl.h (pl.line + i), t.locOld pl.h (pl.line + i) with
    | some p, some q => if t.holds p then t else t.pull q p
    | _, _ => t) s

/-- The place where a plan is served: where its first line is. -/
def State.planLoc (s : State) (pl : Plan) : Option Loc := s.loc pl.h pl.line

/-- Every requests of an entry completes with a status and no effect. -/
def State.failAll (s : State) (g : List Nat) (st : Nat) : State := g.foldl (fun t k => t.complete k st 0 0) s

/-- Some line of the plan is atomic-busy in the tag array. -/
def State.busyLine (s : State) (p : Loc) (pl : Plan) : Bool :=
  pl.lines.any (fun i =>
    match tagFind (s.cache p.key) (p.plus i).line p.src p.dist with
    | some (_, ln) => ln.abusy
    | none => false)

/-- Wait in the busy queue of 16 entries, combining with its last entry if possible, else replay (R119, R120). -/
def State.toBusyQ (s : State) (p : Loc) (g : List Nat) (rid : Nat) (r : Req) : State :=
  let x := s.cache p.key
  match s.joinLast r rid x.busyQ with
  | some l => (s.setCache p.key { x with busyQ := l }).setStage g .waiting
  | none =>
    if x.busyQ.length < 16 then (s.setCache p.key { x with busyQ := x.busyQ ++ [g] }).setStage g .waiting
    else s.toReplay p g

/-- A format request whose lines include victims: re-merged first when it writes (R82); none when it has to wait, with the state that waits. -/
def State.fmtVictims (s : State) (p : Loc) (g : List Nat) (pl : Plan) : Option State × State :=
  let vs := pl.lines.filterMap (fun i => (victimFind (s.cache p.key) (p.plus i).line p.src p.dist).map (fun v => (i, v)))
  match vs.find? (fun e => e.2.line.abusy || !e.2.waiters.isEmpty || (e.2.issued && pl.wm != 0) ||
      (pl.wm == 0 && pl.needOf e.1 &&& (3 - e.2.line.valid) != 0)) with
  | some e => (none, s.waitVictim (p.plus e.1) g)
  | none =>
    let u := if vs.isEmpty then s else s.count D.VICTIM_HIT_COUNT p.n 1
    if pl.wm = 0 then (some u, u)
    else
      match vs.foldl (fun (a : Option State) e => match a with | some t => t.remerge (p.plus e.1) | none => none) (some u) with
      | some t => (some t, t)
      | none => (none, s.toReplay p g)

/-- An entry passes the ordering point at `p`: Table 3.5 with R68 to R72, R82, R98, R119 and R123. `g` is the entry, `rid` its last request. -/
def State.order (s : State) (p : Loc) (g : List Nat) (rid : Nat) (r : Req) (pl : Plan) : State :=
  if s.fmtWaiting rid pl.h pl.line (pl.line + pl.cnt - 1) then s.toReplay p g
  else
    let s := if isHot (s.cache p.key) p && s.posted r && pl.cnt == 1 && s.lineReady p pl.need && !s.busyLine p pl then s
             else pl.lines.foldl (fun t i => t.applyHot (p.plus i)) s
    if s.busyLine p pl then s.toBusyQ p g rid r
    else if pl.cnt == 1 && !isFmt r then
      let x := s.cache p.key
      match missFind x p.line p.src p.dist with
      | some m => s.joinMiss p m g rid r pl
      | none =>
        match tagFind x p.line p.src p.dist with
        | some (_, ln) =>
          if r.kind == .prefetch then s.failAll g 0
          else if pl.need &&& (3 - ln.valid) = 0 then
            if g.length == 1 && isHot x p && s.posted r then s.collect p rid r else s.perform p g r pl
          else s.missOne p g rid r pl
        | none =>
          match victimFind x p.line p.src p.dist with
          | some v => s.hitVictim p v g rid r pl
          | none => s.missOne p g rid r pl
    else
      match s.fmtVictims p g pl with
      | (none, t) => t
      | (some t, _) =>
        if pl.lines.all (fun i => t.lineReady (p.plus i) (pl.needOf i)) then
          if g.length == 1 && isHot (t.cache p.key) p && pl.cnt == 1 && t.posted r then t.collect p rid r else t.perform p g r pl
        else t.missFmt p g r pl

/-- An entry reaches its slice: a donor run answers ADDRESS_UNMAPPED (R168), lines that no slice caches and a failed slice SLICE_FAILED (R59,
R84); otherwise it passes the ordering point, `k` being what its lookup finds first. -/
def State.arrive (s : State) (g : List Nat) (k : State → Loc → Req → Plan → State) : State :=
  match g.getLast? with
  | none => s
  | some rid =>
    match s.req? rid with
    | none => s
    | some r =>
      match s.plan r with
      | none => s.failAll g St.ADDRESS_UNMAPPED
      | some pl =>
        if s.inDonor pl.h (pl.line * 128) then s.failAll g St.ADDRESS_UNMAPPED
        else
          let s := s.pullLines pl
          match s.planLoc pl with
          | none => s.failAll g St.SLICE_FAILED
          | some p => if (s.cache p.key).failed then s.failAll g St.SLICE_FAILED else k s p r pl

/-- An entry that waited is handled at the ordering point again. -/
def State.again (s : State) (g : List Nat) : State :=
  s.arrive g (fun t p r pl => match g.getLast? with | some rid => t.order p g rid r pl | none => t)

/-- Several entries, in order. -/
def State.againAll (s : State) (l : List (List Nat)) : State := l.foldl (fun t g => t.again g) s

/-! ### Parity of tags and errors of data (R63 to R65) -/

/-- A set is lost: every line of every source that maps to it and is cached here is poisoned, its ways leave service (R65). -/
def State.poisonSet (s : State) (p : Loc) (set : Nat) : State :=
  let lines := (List.range 16384).map (fun t => t * 1024 + (set ^^^ (t % 1024)))
  let owners := (List.range 1024).filter (fun h => s.isOut h && sliceField h == sliceField p.n)
  let own := lines.foldl (fun t l => t.poisonLine p.n 0 0 l) s
  owners.foldl (fun t h =>
    lines.foldl (fun u l =>
      match u.serving h l with
      | some (n, src, dist) => if n = p.n then u.poisonLine n src dist l else u
      | none => u) t) own

/-- Drop every way of a set. -/
def dropSet (x : Slice) (set : Nat) : Slice :=
  { (List.range 16).foldl (fun y w => tagSet y (16 * set + w) none) x with lost := x.lost ++ [set] }

end Sys2Proof.Machine
end

