-- ==== Sys2Proof/Machine/TopoOps.lean ====
section
/-! DEFINITION. The defect map, and what a failed slice leads to (R84, R398 to R401), with its effect on the lap table (R192, R193). -/

namespace Sys2Proof.Machine

/-- A defect entry (Table 15.8). -/
def defectEntry (unit defect src boot detail : Nat) : Nat :=
  unit + defect * 2 ^ 16 + src * 2 ^ 20 + boot * 2 ^ 32 + (detail % 2 ^ 64) * 2 ^ 64

/-- Add an entry unless an equal one is there; at 4,096 additions the map is full (R398). -/
def State.addDefect (s : State) (unit defect src detail : Nat) : State :=
  let e := defectEntry unit defect src (s.rd D.BOOT_COUNT 0) detail
  let same (x : Nat) : Bool := bits x 19 0 == bits e 19 0 && x / 2 ^ 64 == e / 2 ^ 64
  if s.defects.any same then s
  else if 4096 ≤ s.rd D.DEFECT_ADDED_COUNT 0 then s.raise Ev.DEFECT_MAP_FULL 0 (evWords [unit])
  else
    let n := s.rd D.DEFECT_FACTORY_COUNT 0 + s.rd D.DEFECT_ADDED_COUNT 0
    ((s.wr D.DEFECT_ENTRY n e).wr D.DEFECT_ADDED_COUNT 0 (s.rd D.DEFECT_ADDED_COUNT 0 + 1)).raise Ev.DEFECT_ADDED 0 e

/-- A unit fails in the boot stage that runs; before stage 3 nothing is raised yet (R387, R388). -/
def State.noteFail (s : State) (unit cause : Nat) : State :=
  let g := s.rd D.BOOT_STAGE 0
  let s := { s with boot := { s.boot with fails := s.boot.fails ++ [(g, unit, cause)] } }
  if g < 3 then s else s.raise Ev.STARTUP_UNIT_FAIL 0 (g + cause * 2 ^ 16 + unit * 2 ^ 32)

/-- Source and destination endpoints of a flow record (Table 7.3). -/
def flowSrc (f : Nat) : Nat := endpoint (bits f 4 0 + 32 * bits f 9 5) (bits f 13 10) (bits f 15 14)
def flowDst (f : Nat) : Nat := endpoint (bits f 26 22 + 32 * bits f 31 27) (bits f 35 32) (bits f 37 36)

/-- Causes a suspension carries: router, clock, topology (R192). -/
def lapRouter : Nat := 1
def lapClock : Nat := 2
def lapTopology : Nat := 3

/-- The active table will be suspended at the next 256-multiple stride (R192). -/
def State.suspendLap (s : State) (cause : Nat) : State :=
  if s.rd D.LAP_STATE 0 = 1 && s.lapCause.isNone then { s with lapCause := some cause } else s

/-- A slice's endpoint changes: a table with a flow at the old endpoint is suspended, and its flows are demoted until then (R192, R193). -/
def State.topoChange (s : State) (ep : Nat) : State :=
  match s.lapA with
  | none => s
  | some t =>
    if t.flows.any (fun f => flowSrc f == ep || flowDst f == ep) then
      { s.suspendLap lapTopology with demoted := s.demoted ++ [ep] }
    else s

/-- The free, working spare of a slice's field nearest to its boot node; ties go to the lower number (R15). -/
def State.nearestSpare (s : State) (n : Nat) : Option Nat :=
  let cand := ((List.range 8).map (fun j => 8 * sliceField n + j)).filter (fun j =>
    s.rd D.SPARE_STATE j == 0 && s.adopting.all (fun a => a.2.1 != j) && s.retiring.all (fun r => r.2 != some j))
  cand.foldl (fun b j =>
    match b with
    | none => some j
    | some k => if nodeDist n (spareNode j) < nodeDist n (spareNode k) then some j else some k) none

/-- SLICE_HOME of a slice that spare `j` serves, and of a hole (Table 1.7). -/
def homeOfSpare (j : Nat) : Nat := spareNode j % 32 + 32 * (spareNode j / 32) + 1024 * j + 2 ^ 16
def homeOfHole : Nat := 2 ^ 17

/-- The slice becomes a hole: its stand-ins take its share (R59, R401). -/
def State.makeHole (s : State) (n : Nat) : State :=
  ((s.topoChange (s.sliceEndpoint n)).wr D.SLICE_HOME n homeOfHole).raise Ev.SLICE_HOLE 0 (evWords [n])

/-- The channel switch and the tables name spare `j` (R15, R20, R401). -/
def State.adopt (s : State) (n j : Nat) : State :=
  (((s.topoChange (s.sliceEndpoint n)).wr D.SLICE_HOME n (homeOfSpare j)).wr D.SPARE_STATE j 1).raise Ev.SPARE_ADOPTED 0 (evWords [n, j])

/-- Dirty sectors of a cache section that have not been written back: tags, and victims not issued; poison is written to each (R84). -/
def State.poisonDirty (s : State) (n : Nat) (x : Slice) : State × Nat :=
  let l := x.tags.filterMap (fun e => e.2) ++ (x.victims.filter (fun v => !v.issued)).map (fun v => v.line)
  l.foldl (fun a ln => (a.1.poisonSectors n ln.src ln.dist ln.line (ln.dirty &&& ln.valid), a.2 + popCount 2 (ln.dirty &&& ln.valid))) (s, 0)

/-- The requests of the machine that are at, or past the ordering point of, logical slice `n`. -/
def State.atSlice (s : State) (n : Nat) : List Nat :=
  (s.reqList.filter (fun x =>
    (x.2.stage == .slice || x.2.stage == .waiting || x.2.stage == .replay) && x.2.kind != .range && x.2.kind != .doorbell &&
      !crossesLine x.2 &&
      match s.plan x.2 with
      | some p => (match s.planLoc p with | some q => q.n == n | none => false)
      | none => false)).map (fun x => x.1)

/-- A slice fails (R84, R401): its requests complete with SLICE_FAILED, its dirty sectors are poisoned, the failure is recorded and entered in
the defect map, and a spare or the stand-ins take its number. -/
def State.failSlice (s : State) (n : Nat) : State :=
  let k := s.homeKey n
  let x := s.cache k
  if x.failed || s.isHole n then s
  else
    let rids := s.atSlice n
    let (s, cnt) := s.poisonDirty n x
    let s := s.setCache k { Slice.init with failed := true }
    let s := s.failAll rids St.SLICE_FAILED
    let s := s.chanRecord n 0x43 clsContained (ucSlice k) St.SLICE_FAILED cnt
    let s := s.addDefect (ucSlice k) 0 2 St.SLICE_FAILED
    let s := s.sweepSliceEnd n St.SLICE_FAILED
    let s := if 1024 ≤ k then s.wr D.SPARE_STATE (k - 1024) 2 else s
    match s.retireTo n with
    | some dst =>
      let s := ({ s with retiring := s.retiring.filter (fun r => r.1 != n) } : State).wr D.RETIRE_STATE n 0
      (match dst with
       | some j => s.adopt n j
       | none => s.makeHole n)
    | none =>
      match s.nearestSpare n with
      | some j => { s with adopting := s.adopting ++ [(n, j, false)], lift := s.lift ++ [.spare (Fin.ofNat 64 j)] }
      | none => s.makeHole n

/-- A set of a slice is lost (R65): its ways leave service, its lines are poisoned for every source, the loss is recorded; a ninth lost set
fails the slice. -/
def State.loseSet (s : State) (p : Loc) (set : Nat) : State :=
  let x := s.cache p.key
  if x.lost.contains set then s
  else
    let mine (k : Nat) : Bool := match s.req? k with
      | some r => (match s.plan r with | some q => lineSet q.line == set | none => false)
      | none => false
    let hot := (x.hotBufs.filter (fun b => lineSet b.line == set)).map (fun b => b.rids)
    let busy := x.busyQ.filter (fun g => g.any mine)
    let x := { dropSet x set with hotBufs := x.hotBufs.filter (fun b => lineSet b.line != set), busyQ := x.busyQ.filter (fun g => !g.any mine) }
    let s := (s.setCache p.key x).count D.TAG_SETS_LOST p.n 1
    let s := (s.poisonSet p set).raise Ev.TAG_SET_LOST 0 (evWords [p.n, set])
    let s := s.chanRecord p.n 0x41 clsContained (ucSlice p.key) 0 16384
    let s := (List.range 1024).foldl (fun t h =>
      if t.isOut h && sliceField h == sliceField p.n then
        let q := (List.range 4).filter (fun q => match t.serving h (4 * q) with | some (n, _, _) => n == p.n | none => false)
        if q.isEmpty then t else t.chanRecord h 0x41 clsContained (ucSlice p.key) 0 (4096 * q.length)
      else t) s
    let s := if 8 < (s.cache p.key).lost.length then s.failSlice p.n else s
    s.againAll (hot ++ busy)

end Sys2Proof.Machine
end

