-- ==== Sys2Proof/Machine/Slices.lean ====
section
/-! DEFINITION. The commands of the slice: requests at the ordering point, fills, writebacks, races, failure and retirement (chapters 03
to 05). -/

namespace Sys2Proof.Machine

/-! ### Requests -/

/-- The parity of the tag entries at a lookup (R64, R65): a bad copy is rewritten and counted; with both bad the set is lost. -/
def State.tagCheck (s : State) (p : Loc) (tag : TagChk) : State :=
  if (s.cache p.key).lost.contains (lineSet p.line) then s
  else match tag with
    | .good => s
    | .bothBad => s.loseSet p (lineSet p.line)
    | _ => s.count D.TAG_CE_COUNT p.n 1

/-- What SEC-DED finds in the line a request hits (R63): a double-bit error drops a clean sector and poisons a dirty one. -/
def State.dataCheck (s : State) (p : Loc) (c : DataChk) : State :=
  match tagFind (s.cache p.key) p.line p.src p.dist, c with
  | none, _ => s
  | some _, .good => s
  | some _, .single => s.count D.CACHE_CE_COUNT p.n 1
  | some (k, ln), .double j =>
    if !bit ln.valid j then s
    else
      let s := s.count D.CACHE_UE_COUNT p.n 1
      if bit ln.dirty j then
        let s := s.setCache p.key (tagSet (s.cache p.key) k (some { ln with poison := setBit ln.poison j true }))
        (s.raise Ev.CACHE_UE 0 (evWords [ucSlice p.key])).dataRecord p.owner (p.line * 128 + 64 * j) 0x40 (ucSlice p.key) 0 1
      else s.setCache p.key (tagSet (s.cache p.key) k
        (some { ln with valid := setBit ln.valid j false, poison := setBit ln.poison j false }))

/-- A request of the given kinds that has reached its slice passes the ordering point (R55, R66). -/
def State.pass (s : State) (rid : Nat) (ok : ReqKind → Bool) (tag : TagChk) (data : DataChk) : State :=
  match s.req? rid with
  | none => s
  | some r =>
    if r.stage == .slice && ok r.kind && !crossesLine r then
      s.arrive [rid] (fun t p r pl =>
        let u := t.sliceUp p.n
        if !u.2 then u.1
        else
          let t := u.1.tagCheck p tag
          if (t.cache p.key).failed then t
          else (((t.dataCheck p data).hotCount p r).order p [rid] rid r pl))
    else s

/-- SLICE_READ (R66). -/
def execSliceRead (rid : Nat) (tag : TagChk) (data : DataChk) (s : State) : Host.Outcome State Fault Refusal :=
  .next (s.pass rid (fun k => k == .read) tag data)

/-- SLICE_WRITE (R67). -/
def execSliceWrite (rid : Nat) (tag : TagChk) (s : State) : Host.Outcome State Fault Refusal :=
  .next (s.pass rid (fun k => k == .write) tag .good)

/-- SLICE_ATOMIC (R118). -/
def execSliceAtomic (rid : Nat) (tag : TagChk) (data : DataChk) (s : State) : Host.Outcome State Fault Refusal :=
  .next (s.pass rid (fun k => k == .atomic) tag data)

/-- SLICE_PREFETCH (R66). -/
def execSlicePrefetch (rid : Nat) (tag : TagChk) (s : State) : Host.Outcome State Fault Refusal :=
  .next (s.pass rid (fun k => k == .prefetch) tag .good)

/-- FORMAT_ON_READ (R97, R102). -/
def execFormatOnRead (rid : Nat) (s : State) : Host.Outcome State Fault Refusal :=
  .next (s.pass rid (fun k => k == .fmtRead) .good .good)

/-- FORMAT_ON_WRITE (R97, R99, R103). -/
def execFormatOnWrite (rid : Nat) (s : State) : Host.Outcome State Fault Refusal :=
  .next (s.pass rid (fun k => k == .fmtWrite) .good .good)

/-- SCALED_ACCUMULATE (R99, R108). -/
def execScaledAccumulate (rid : Nat) (s : State) : Host.Outcome State Fault Refusal :=
  .next (s.pass rid (fun k => k == .scaledAcc) .good .good)

/-! ### Fills -/

/-- The physical slices a command that names logical slice `n` may mean: its new owner, and itself while it retires. -/
def State.keysOf (s : State) (n : Nat) : List Nat :=
  if s.sliceKey n = s.homeKey n then [s.homeKey n] else [s.sliceKey n, s.homeKey n]

/-- A waiting entry takes effect once its line is there; a format request once its last line is there (R68, R98). -/
def State.serve (s : State) (g : List Nat) : State :=
  s.arrive g (fun t p r pl =>
    if pl.lines.all (fun i => t.lineReady (p.plus i) (pl.needOf i)) then t.perform p g r pl
    else if isFmt r && pl.lines.any (fun i =>
        match missFind (t.cache p.key) (p.plus i).line p.src p.dist with
        | some m => m.waiters.contains g
        | none => false) then t
    else match g.getLast? with
      | some rid => t.order p g rid r pl
      | none => t)

/-- Poison and statuses of the writes merged into a register, in order (R66, R68). -/
def State.mergedWrites (s : State) (l : List Nat) (pois : Nat) : Nat × List (Nat × Nat) :=
  l.foldl (fun a k =>
    match s.req? k with
    | none => a
    | some r =>
      let wm := ((s.plan r).map (fun p => p.wm)).getD 0
      let (q, st) := writePoison 2 wm a.1
      let (q, st) := markPoison r 2 wm q st
      (q, a.2 ++ [(k, st)])) (pois, [])

/-- The line a fill gives: the present line, if any, with the register's sectors and merged bytes over it; with the merged writes' statuses. -/
def State.filled (s : State) (m : MissReg) (old : Option Line) : Line × List (Nat × Nat) :=
  let o : Line := old.getD { line := m.line, src := m.src, dist := m.dist, valid := 0, dirty := 0, poison := 0, lock := false,
                             lockPart := 0, prefetched := m.prefetch, abusy := false, cls := m.cls, data := 0 }
  let (pois, sts) := s.mergedWrites m.merged ((o.poison &&& o.valid) ||| (m.pois &&& m.have_))
  let w := secTouched 2 m.mask
  ({ o with data := mergeBytes o.data m.data (sectorBytes m.have_ ||| m.mask), valid := o.valid ||| m.have_ ||| w, dirty := o.dirty ||| w,
            poison := pois, lock := o.lock || m.lockPart.isSome, lockPart := if o.lock then o.lockPart else m.lockPart.getD 0 }, sts)

/-- Serve everything that waited on a register, in order, and one swarm fill (R68, R69). -/
def State.serveAll (s : State) (p : Loc) (m : MissReg) (sts : List (Nat × Nat)) : State :=
  let s := sts.foldl (fun t e => t.complete e.1 e.2 0 0) s
  let s := m.waiters.foldl (fun t g => t.serve g) s
  if m.swarm.isEmpty then s
  else (m.swarm.foldl (fun t k => t.serve [k]) s).count D.SWARM_FILL_COUNT p.n 1

/-- A register whose sectors have all arrived fills its line; nothing changes while the fill has to wait for a way or a victim entry, or, in a
lost set, for the writeback (R65, R68, R72). -/
def State.fill (s : State) (p : Loc) (m : MissReg) : State :=
  if m.noAlloc then
    let (ln, sts) := s.filled m none
    if s.wrRoom p m.cls then
      let s := s.setCache p.key (missDrop (s.cache p.key) p.line p.src p.dist)
      let x := s.cache p.key
      let s := s.setCache p.key { x with victims := x.victims ++ [{ line := ln, issued := true, waiters := [] }] }
      let s := s.serveAll p m sts
      match victimFind (s.cache p.key) p.line p.src p.dist with
      | none => s
      | some v =>
        let s := s.setCache p.key (victimDrop (s.cache p.key) p.line p.src p.dist)
        let s := if v.line.dirty = 0 then s else s.issueWrite p v.line
        s.againAll (v.waiters.map (fun k => [k]))
    else s
  else match tagFind (s.cache p.key) p.line p.src p.dist with
    | some (k, old) =>
      let (ln, sts) := s.filled m (some old)
      let x := missDrop (s.cache p.key) p.line p.src p.dist
      (s.setCache p.key (tagSet x k (some ln))).serveAll p m sts
    | none =>
      let s' := s.flushHotSet p
      match s'.makeRoom p m.cls with
      | none => s
      | some (k, t) =>
        let (ln, sts) := t.filled m none
        let x := missDrop (t.cache p.key) p.line p.src p.dist
        (t.setCache p.key (touchWay (tagSet x k (some ln)) k m.prefetch)).serveAll p m sts

/-- LINE_FILL (R68): the sectors of a register of the line have all arrived. -/
def execLineFill (n : Fin 1024) (line : Nat) (s : State) : Host.Outcome State Fault Refusal :=
  .next ((s.keysOf n).foldl (fun t k =>
    match (t.cache k).miss.find? (fun m => m.line == line && m.want &&& (3 - m.have_) == 0) with
    | some m => t.fill { key := k, n := n, src := m.src, dist := m.dist, line := line } m
    | none => t) s)

/-- REPLAY_RETRY (R70). -/
def execReplayRetry (n : Fin 1024) (s : State) : Host.Outcome State Fault Refusal :=
  .next ((s.keysOf n).foldl (fun t k =>
    let x := t.cache k
    (t.setCache k { x with replay := [] }).againAll (x.replay.map (fun r => [r]))) s)

/-! ### Writebacks -/

/-- WRITEBACK_ISSUED (R82, R152): the write queue takes a victim that is not atomic-busy. -/
def execWritebackIssued (n : Fin 1024) (line : Nat) (s : State) : Host.Outcome State Fault Refusal :=
  .next ((s.keysOf n).foldl (fun t k =>
    match (t.cache k).victims.find? (fun v => v.line.line == line && !v.issued && !v.line.abusy) with
    | none => t
    | some v =>
      let p : Loc := { key := k, n := n, src := v.line.src, dist := v.line.dist, line := line }
      if t.wrRoom p v.line.cls then
        (t.setCache k (victimPut (t.cache k) { v with issued := true })).issueWrite p v.line
      else t) s)

/-- WRITEBACK_ACK (R82): the entry frees, and what waited on it is handled as a miss. -/
def execWritebackAck (n : Fin 1024) (line : Nat) (s : State) : Host.Outcome State Fault Refusal :=
  .next ((s.keysOf n).foldl (fun t k =>
    match (t.cache k).victims.find? (fun v => v.line.line == line && v.issued) with
    | none => t
    | some v =>
      (t.setCache k (victimDrop (t.cache k) line v.line.src v.line.dist)).againAll (v.waiters.map (fun r => [r]))) s)

/-! ### Atomic-busy and hot lines -/

/-- An entry waits for line `l` of SOURCE and DIST of a slice. -/
def State.waitsOn (s : State) (p : Loc) (g : List Nat) : Bool :=
  g.any (fun k => match s.req? k with
    | some r => (match s.plan r with
      | some q => decide (q.line ≤ p.line ∧ p.line < q.line + q.cnt) && (match s.planLoc q with
        | some z => z.key == p.key && z.src == p.src && z.dist == p.dist
        | none => false)
      | none => false)
    | none => false)

/-- ATOMIC_BUSY_CLEAR (R83, R119). -/
def execAtomicBusyClear (n : Fin 1024) (line : Nat) (s : State) : Host.Outcome State Fault Refusal :=
  .next ((s.keysOf n).foldl (fun t k =>
    let x := t.cache k
    let busy : Option Line := (x.tags.filterMap (fun e => e.2)).find? (fun l => l.line == line && l.abusy)
    match busy, x.victims.find? (fun v => v.line.line == line && v.line.abusy) with
    | some ln, _ =>
      let p : Loc := { key := k, n := n, src := ln.src, dist := ln.dist, line := line }
      let mine := x.busyQ.filter (t.waitsOn p)
      let t := t.putLine p { ln with abusy := false }
      let y := t.cache k
      (t.setCache k { y with busyQ := y.busyQ.filter (fun g => !mine.contains g) }).againAll mine
    | none, some v =>
      (t.setCache k (victimPut x { v with line := { v.line with abusy := false }, waiters := [] })).againAll
        (v.waiters.map (fun r => [r]))
    | none, none => t) s)

/-- HOT_LINE_INTERVAL (R122): the counts are cleared, hot lines age, and HOT_LINE_THRESHOLD comes into force. -/
def execHotLineInterval (n : Fin 1024) (s : State) : Host.Outcome State Fault Refusal :=
  .next (((s.keysOf n).foldl (fun t k =>
    let x := t.cache k
    t.setCache k { x with hotCounts := [], hot := (x.hot.filter (fun e => decide (1 < e.2))).map (fun e => (e.1, e.2 - 1)) }) s).enforce
      D.HOT_LINE_THRESHOLD 0)

/-- HOT_BUFFER_APPLY (R123). -/
def execHotBufferApply (n : Fin 1024) (line : Nat) (s : State) : Host.Outcome State Fault Refusal :=
  .next ((s.keysOf n).foldl (fun t k =>
    match (t.cache k).hotBufs.find? (fun b => b.line == line) with
    | some b => t.applyHot { key := k, n := n, src := b.src, dist := b.dist, line := line }
    | none => t) s)

/-! ### Range operations -/

/-- The operation of a range request, and INCLUDE_LOCKED. -/
def rgOp (r : Req) : Nat := bits r.attr 3 0
def rgLocked (r : Req) : Bool := bit r.attr 4

/-- Add one to a field of the record (Table 3.7): 0 ACTED, 1 SKIPPED_LOCKED, 2 OTHER. -/
def recBump (f rec : Nat) : Nat := setBits rec (32 * f + 31) (32 * f) (satAdd 32 (bits rec (32 * f + 31) (32 * f)) 1)

def State.bump (s : State) (rid f : Nat) : State :=
  match s.req? rid with
  | some r => s.setReq rid { r with record := recBump f r.record }
  | none => s

/-- A line of a range acted on, with a poisoned sector counted in OTHER. -/
def State.acted (s : State) (rid : Nat) (op pois : Nat) : State :=
  let s := s.bump rid 0
  if op != 4 && pois != 0 then s.bump rid 2 else s

/-- A set may take one more locked line (R77): its locked ways and the locks on their way are below PIN_WAY_LIMIT. -/
def State.mayLock (s : State) (p : Loc) : Bool :=
  let x := s.cache p.key
  let set := lineSet p.line
  decide (lockedWays x set + (x.miss.filter (fun m => m.lockPart.isSome && lineSet m.line == set)).length < s.rd D.PIN_WAY_LIMIT 0) &&
    !x.lost.contains set

/-- The line enters the dead record (R79). -/
def State.deadNote (s : State) (p : Loc) : State :=
  let x := s.cache p.key
  let d := x.dead.filter (fun k => k != p.owner * 2 ^ 24 + p.line)
  let d := if d.length < 64 then d else d.drop 1
  s.setCache p.key { x with dead := d ++ [p.owner * 2 ^ 24 + p.line] }

/-- What a dropped line leaves in memory: poison under DEAD_STRICT (R80, R81). -/
def State.deadMark (s : State) (p : Loc) (part : Nat) : State :=
  let s := s.deadNote p
  if s.rdB D.DEAD_STRICT part then s.poisonLine p.n p.src p.dist p.line else s

/-- A locked line that INVALIDATE or DEAD has to skip (R75). -/
def skipLocked (r : Req) (ln : Line) : Bool := ln.lock && !(rgLocked r && ln.lockPart == r.part)

/-- A line leaves the tag array by force (R83): its dirty sectors go to the write queue; an atomic-busy line moves to the victim buffer; none
while it has to wait. The flag says that the victim entry is to be waited for. -/
def State.forceOut (s : State) (p : Loc) (k : Nat) (ln : Line) : Option (State × Bool) :=
  let x := s.cache p.key
  if ln.dirty = 0 && !ln.abusy then some (s.setCache p.key (tagSet x k none), false)
  else if ln.abusy then
    if x.victims.length < 16 then
      some (s.setCache p.key { (tagSet x k none) with
        victims := x.victims ++ [{ line := { ln with lock := false, lockPart := 0 }, issued := false, waiters := [] }] }, true)
    else none
  else if s.wrRoom p ln.cls then some ((s.setCache p.key (tagSet x k none)).issueWrite p ln, false)
  else none

/-- Requests that passed the ordering point wait for the line to become free, so that the walk waits behind them (R74). -/
def State.lineWaits (s : State) (p : Loc) : Bool :=
  let x := s.cache p.key
  x.busyQ.any (s.waitsOn p) || (match victimFind x p.line p.src p.dist with | some v => !v.waiters.isEmpty | none => false)

/-- What a range operation does at a line (Table 3.6): the state and whether the line is to be waited for; none while the walk waits here. -/
def State.rangeLine (s : State) (rid : Nat) (r : Req) (p : Loc) : Option (State × Bool) :=
  let op := rgOp r
  let s := s.applyHot p
  let x := s.cache p.key
  if op != 0 && s.lineWaits p then none
  else match missFind x p.line p.src p.dist with
  | some m =>
    if op = 0 then some (s.bump rid 0, true)
    else if op = 4 then
      if m.lockPart.isSome then some (s.bump rid 0, true)
      else if s.mayLock p then some ((s.updMiss p (fun m => { m with lockPart := some r.part })).bump rid 0, true)
      else some (s.bump rid 2, false)
    else none
  | none =>
    match tagFind x p.line p.src p.dist with
    | some (k, ln) =>
      (match op with
       | 1 =>
         if ln.dirty = 0 then some (s.acted rid op ln.poison, false)
         else if s.wrRoom p ln.cls then some (((s.issueWrite p ln).putLine p { ln with dirty := 0 }).acted rid op ln.poison, false)
         else none
       | 2 =>
         if skipLocked r ln then some (s.bump rid 1, false)
         else (s.forceOut p k ln).map (fun t => (t.1.acted rid op ln.poison, t.2))
       | 3 =>
         if skipLocked r ln then some (s.bump rid 1, false)
         else some (((s.setCache p.key (tagSet x k none)).deadMark p r.part).acted rid op ln.poison, false)
       | 4 =>
         if ln.lock then some (s.bump rid 0, false)
         else if s.mayLock p then some ((s.putLine p { ln with lock := true, lockPart := r.part }).bump rid 0, false)
         else some (s.bump rid 2, false)
       | 5 =>
         some ((if ln.lock && ln.lockPart == r.part then s.putLine p { ln with lock := false, lockPart := 0 } else s).acted rid op ln.poison,
               false)
       | _ => some (s.acted rid op ln.poison, false))
    | none =>
      match victimFind x p.line p.src p.dist with
      | some v =>
        (match op with
         | 1 => some (s.acted rid op v.line.poison, true)
         | 2 => some (s.acted rid op v.line.poison, true)
         | 3 =>
           if v.issued then some ((s.deadMark p r.part).acted rid op v.line.poison, false)
           else some ((((s.setCache p.key (victimDrop x p.line p.src p.dist)).deadMark p r.part).againAll
             (v.waiters.map (fun k => [k]))).acted rid op v.line.poison, false)
         | 4 =>
           if v.issued || v.line.abusy then none
           else if !s.mayLock p then some (s.bump rid 2, false)
           else (s.remerge p).map (fun t =>
             match t.lineAt p with
             | some ln => ((t.putLine p { ln with lock := true, lockPart := r.part }).bump rid 0, false)
             | none => (t, false))
         | _ => some (s.acted rid op v.line.poison, false))
      | none =>
        (match op with
         | 0 => if s.regFree x r.cls then some ((s.newMiss p r 3 true none).bump rid 0, true) else none
         | 4 =>
           if !s.mayLock p then some (s.bump rid 2, false)
           else if s.regFree x r.cls then some ((s.newMiss p r 3 false (some r.part)).bump rid 0, true)
           else none
         | _ => some (s.bump rid 0, false))

/-- Lines of a range request. -/
def rangeCount (r : Req) : Nat := r.len / 128

/-- Slice and line of line `i` of a range. -/
def State.rangeAt (s : State) (r : Req) (i : Nat) : Option (Nat × Nat) :=
  (locate s.variant (r.addr + 128 * i)).map (fun x => (x.1, x.2 / 128))

/-- The part of one slice goes on until it has to wait or ends (R74): a part that reaches a failed slice, or lines no slice caches, ends with
SLICE_FAILED (R76); lines of a donor run are left alone (R168). -/
def State.walkRun : Nat → State → Walk → Req → State × Walk
  | 0, s, w, _ => (s, w)
  | fuel + 1, s, w, r =>
    if rangeCount r ≤ w.next then (s, w)
    else
      let on (s : State) (w : Walk) := State.walkRun fuel s { w with next := w.next + 1 } r
      match s.rangeAt r w.next with
      | none => on s w
      | some (h, l) =>
        if h != w.slice then on s w
        else if s.inDonor h (l * 128) then on s { w with status := if w.status = 0 then St.ADDRESS_UNMAPPED else w.status }
        else
          let s := s.pullLines { h := h, line := l, cnt := 1, need := 3, wm := 0, off := 0 }
          match s.loc h l with
          | none => on s { w with status := St.SLICE_FAILED }
          | some p =>
            if (s.cache p.key).failed then (s, { w with next := rangeCount r, status := St.SLICE_FAILED })
            else if !(s.sliceUp p.n).2 then ((s.sliceUp p.n).1, w)
            else match (s.sliceUp p.n).1.rangeLine w.rid r p with
              | none => (s, w)
              | some (t, wait) => on t { w with waits := if wait then w.waits ++ [l] else w.waits }

/-- The slices a range falls on. -/
def State.rangeSlices (s : State) (r : Req) : List Nat :=
  (List.range (rangeCount r)).foldl (fun a i =>
    match s.rangeAt r i with
    | some (h, _) => if a.contains h then a else a ++ [h]
    | none => a) []

/-- The parts of a range that has just been sent (R73). -/
def State.startWalks (s : State) (rid : Nat) (r : Req) : State :=
  let l := s.rangeSlices r
  ({ s with walks := s.walks ++ l.map (fun h => { rid := rid, slice := h, next := 0, waits := [], status := 0 }) } : State).setReq rid
    { r with parts := l, record := setBits (setBits 0 99 96 (rgOp r)) 100 100 (rgLocked r).toNat, status := 0, data := 0, stage := .waiting }

/-- RANGE_PART (R74): each owner slice goes on with its part. -/
def execRangePart (rid : Nat) (s : State) : Host.Outcome State Fault Refusal :=
  match s.req? rid with
  | none => .next s
  | some r =>
    if r.kind != .range || r.dev != s.devNum then .next s
    else
      let s := if r.stage == .slice then s.startWalks rid r else s
      .next ((s.walks.filter (fun w => w.rid == rid)).foldl (fun t w =>
        let (t, w') := State.walkRun (rangeCount r + 1) t w r
        { t with walks := t.walks.map (fun v => if v.rid == rid && v.slice == w.slice then w' else v) }) s)

/-- A part waits for nothing any more: its fetched lines are filled, its writebacks accepted (R74). -/
def State.walkDone (s : State) (r : Req) (w : Walk) : Bool :=
  decide (rangeCount r ≤ w.next) && w.waits.all (fun l =>
    match s.loc w.slice l with
    | none => true
    | some p =>
      let x := s.cache p.key
      if rgOp r = 0 || rgOp r = 4 then (missFind x l p.src p.dist).isNone else (victimFind x l p.src p.dist).isNone)

/-- RANGE_PART_DONE (R76): finished parts leave; when none is left the range completes with the status of the lowest part that failed, and
its record. -/
def execRangePartDone (rid : Nat) (s : State) : Host.Outcome State Fault Refusal :=
  match s.req? rid with
  | none => .next s
  | some r =>
    if r.kind != .range || r.stage != .waiting then .next s
    else
      let done := s.walks.filter (fun w => w.rid == rid && s.walkDone r w)
      let r := done.foldl (fun q w =>
        let q := { q with parts := q.parts.filter (fun h => h != w.slice) }
        if w.status != 0 && (q.status = 0 || decide (w.slice < q.data)) then { q with status := w.status, data := w.slice } else q) r
      let s := { s with walks := s.walks.filter (fun w => !(w.rid == rid && done.contains w)) }
      if r.parts.isEmpty then .next ((s.setReq rid r).complete rid r.status 16 r.record)
      else .next (s.setReq rid r)

/-! ### Failure, adoption and retirement -/

/-- SLICE_FAIL (R84, R401). -/
def execSliceFail (n : Fin 1024) (s : State) : Host.Outcome State Fault Refusal := .next (s.failSlice n)

/-- SPARE_ADOPTION_SWITCH (R401): acts once the spare is in Run. -/
def execSpareAdoptionSwitch (n : Fin 1024) (s : State) : Host.Outcome State Fault Refusal :=
  match s.adopting.find? (fun a => a.1 == n.val) with
  | some (_, j, true) => .next (({ s with adopting := s.adopting.filter (fun a => a.1 != n.val) } : State).adopt n j)
  | _ => .next s

/-- The slice can be reached by its objects: it is no hole and has not failed (R85). -/
def State.sliceStatus (s : State) (n : Nat) : Nat :=
  if s.isHole n || (s.cache (s.homeKey n)).failed then St.SLICE_FAILED else 0

/-- A migration runs on a channel whose share slice `n` caches (R167). -/
def State.sliceMigrates (s : State) (n : Nat) : Bool :=
  s.rd D.CHAN_BACKING (sliceChannel n) == 1 ||
    (List.range 1024).any (fun h => s.isHole h && s.rd D.CHAN_BACKING (sliceChannel h) == 1 && (List.range 4).any (fun q =>
      match s.serving h (4 * q) with | some (t, _, _) => t == n | none => false))

/-- SLICE_RETIRE's own rules (R61, R62, R167). -/
def State.ownSliceRetire (s : State) (n : Nat) : State :=
  if s.sliceStatus n != 0 then s.odFail (s.sliceStatus n)
  else if s.retiring.any (fun r => sliceField r.1 == sliceField n) then s.odFail St.RETIRE_BUSY
  else if s.sliceMigrates n then s.odFail St.CHAN_RETIRE_BUSY
  else
    (({ s with retiring := s.retiring ++ [(n, s.nearestSpare n)] } : State).wr D.RETIRE_STATE n 1).odDone

/-- SLICE_RETIRE (R61). -/
def execSliceRetire (n : Fin 1024) (w : OdWrite) (s : State) : Host.Outcome State Fault Refusal :=
  s.odCmd (.sliceRetire n w) (fun t => t.odWrite D.SLICE_RETIRE n w (fun u => u.ownSliceRetire n))

/-- A line the walk reaches goes to its new owner; one that finds no room there is written back (Table 3.4 phase 3). -/
def State.pushLine (s : State) (q : Loc) : State :=
  match s.locNew q.owner q.line with
  | none => s
  | some p =>
    let s := s.pull q p
    match tagFind (s.cache q.key) q.line q.src q.dist with
    | none => s
    | some (k, ln) =>
      let s := s.setCache q.key (tagSet (s.cache q.key) k none)
      if ln.dirty = 0 then s else s.issueWrite q ln

/-- RETIRE_WALK_END (Table 3.4 phases 3 and 4): acts once nothing is outstanding at the retiring slice. -/
def execRetireWalkEnd (n : Fin 1024) (s : State) : Host.Outcome State Fault Refusal :=
  match s.retireTo n with
  | none => .next s
  | some dst =>
    let k := s.homeKey n
    let x := s.cache k
    let busy := !x.miss.isEmpty || !x.victims.isEmpty || !x.busyQ.isEmpty || !x.replay.isEmpty ||
      x.tags.any (fun e => match e.2 with | some l => l.abusy | none => false)
    if busy then .next s
    else
      let s := x.hotBufs.foldl (fun t b => t.applyHot { key := k, n := n, src := b.src, dist := b.dist, line := b.line }) s
      let s := (s.cache k).tags.foldl (fun t e =>
        match e.2 with
        | some l => if l.valid = 0 then t else t.pushLine { key := k, n := n, src := l.src, dist := l.dist, line := l.line }
        | none => t) s
      let s := (s.topoChange (if 1024 ≤ k then endpoint (spareNode (k - 1024)) 8 2 else endpoint n 5 0)).setCache k Slice.init
      let s := { s with retiring := s.retiring.filter (fun r => r.1 != n.val) }
      let s := if 1024 ≤ k then s.wr D.SPARE_STATE (k - 1024) 2 else s
      let s := match dst with
        | some j => (s.wr D.SLICE_HOME n (homeOfSpare j)).wr D.SPARE_STATE j 1
        | none => s.wr D.SLICE_HOME n homeOfHole
      .next ((s.wr D.RETIRE_STATE n 2).raise Ev.SLICE_RETIRED 0 (evWords [n]))

/-! ### Tag capture -/

/-- A tag entry without its parity bit (Table 3.2). -/
def tagWord (ln : Option Line) : Nat :=
  match ln with
  | none => 0
  | some l =>
    l.line / 1024 % 2 ^ 14 + l.src * 2 ^ 14 + l.valid * 2 ^ 17 + l.dirty * 2 ^ 19 + l.poison * 2 ^ 21 + l.lock.toNat * 2 ^ 23 +
      l.lockPart * 2 ^ 24 + l.prefetched.toNat * 2 ^ 28 + l.abusy.toNat * 2 ^ 29 + l.cls * 2 ^ 32 + l.dist * 2 ^ 38

/-- TAG_PEEK_SELECT's own rules (R64, Table 3.8): the entry is captured; the entries of a lost set hold what failed, a free value. -/
def State.ownTagPeek (s : State) (n : Nat) (w : OdWrite) : State :=
  if s.sliceStatus n != 0 then s.odFail (s.sliceStatus n)
  else
    let v := odNum w
    let x := s.cache (s.sliceKey n)
    let s := s.setObj D.TAG_PEEK_SELECT n w
    if x.lost.contains (bits v 9 0) then ((s.wr D.TAG_PEEK_VALUE n (s.fresh % 2 ^ 50)).drew).odDone
    else
      let t := tagWord (Table.get none (16 * bits v 9 0 + bits v 13 10) x.tags)
      (s.wr D.TAG_PEEK_VALUE n (t + parityBit 47 t * 2 ^ 47 + 3 * 2 ^ 48)).odDone

/-- TAG_PEEK_SELECT (R64). -/
def execTagPeekSelect (n : Fin 1024) (w : OdWrite) (s : State) : Host.Outcome State Fault Refusal :=
  s.odCmd (.tagPeekSelect n w) (fun t => t.odWrite D.TAG_PEEK_SELECT n w (fun u => u.ownTagPeek n w))

/-! ### Reduction units (R201) -/

/-- Lines of a 512-byte unit that the requests of a list touch, with the plan of each. -/
def State.unitPlans (s : State) (l : List Nat) : List (Nat × Req × Plan) :=
  l.filterMap (fun k => match s.req? k with
    | some r => (s.plan r).map (fun p => (k, r, p))
    | none => none)

/-- The partial results of a reduction unit by element number: what routers have merged, or its requests in order (R121, R200). -/
def State.unitPartials (s : State) (u : MUnit) : Partials :=
  if u.merged.isEmpty then
    (s.unitPlans u.rids).foldl (fun ps x =>
      let (_, r, p) := x
      let off := 128 * (p.line % 4) + p.off
      if r.kind == .scaledAcc then
        (List.range (reqBlocks r)).foldl (fun qs k =>
          (enumList (accVals (s.reqDesc r) r.data k) 0).foldl (fun q e =>
            let o := 128 * (p.line % 4 + k) + 4 * e.1
            let v := encodeIeee 0 e.2
            partialSet q o (match partialAt q o with | none => v | some z => atElem 0 4 z v 0)) qs) ps
      else gather (r.len / 4) (atOp r.attr) (atTy r.attr) off r.data ps) []
  else u.merged.filterMap (fun e => e.2.map (fun v => (e.1, v)))

/-- REDUCTION_UNIT_APPLY (R201): the first reduction unit at the slice is applied line by line once its lines are there; missing lines are
fetched first. -/
def execReductionUnitApply (n : Fin 1024) (s : State) : Host.Outcome State Fault Refusal :=
  let k := s.sliceKey n
  let up := if (s.cache k).units.isEmpty then (s, true) else s.sliceUp n
  let s := up.1
  if !up.2 then .next s
  else match (s.cache k).units with
  | [] => .next s
  | u :: rest =>
    let l := s.unitPlans u.rids
    match l with
    | [] => .next (s.setCache k { (s.cache k) with units := rest })
    | (_, r, p0) :: _ =>
      match s.planLoc p0 with
      | none => .next ((s.setCache k { (s.cache k) with units := rest }).failAll u.rids St.SLICE_FAILED)
      | some p =>
        if (s.cache p.key).failed then .next ((s.setCache k { (s.cache k) with units := rest }).failAll u.rids St.SLICE_FAILED)
        else
          let base : Loc := { p with line := p0.line / 4 * 4 }
          let lines := (List.range 4).filter (fun i => l.any (fun x => x.2.2.lines.any (fun j => (x.2.2.line + j) % 4 == i)))
          let s := lines.foldl (fun t i => t.applyHot (base.plus i)) s
          let missing := lines.filter (fun i => !s.lineReady (base.plus i) 3)
          let stuck := lines.any (fun i => match tagFind (s.cache p.key) (base.plus i).line p.src p.dist with
            | some (_, ln) => ln.abusy
            | none => (victimFind (s.cache p.key) (base.plus i).line p.src p.dist).isSome)
          if stuck then .next s
          else if !missing.isEmpty then
            .next (missing.foldl (fun t i =>
              if (missFind (t.cache p.key) (base.plus i).line p.src p.dist).isSome || !t.regFree (t.cache p.key) r.cls then t
              else t.newMiss (base.plus i) r 3 false none) s)
          else
            let ps := s.unitPartials u
            let bad := lines.filter (fun i => match s.lineAt (base.plus i) with | some ln => ln.poison != 0 | none => true)
            let s := lines.foldl (fun t i =>
              match t.lineAt (base.plus i) with
              | none => t
              | some ln =>
                if ln.poison != 0 then t
                else
                  let qs := ps.filterMap (fun e => if e.1 / 128 = i then some (e.1 % 128, e.2) else none)
                  let ty := if r.kind == .scaledAcc then 4 else atTy r.attr
                  let op := if r.kind == .scaledAcc then 0 else atOp r.attr
                  let t := if r.kind == .atomic then t.count D.ATOMIC_OPS n 1 else t
                  let t := t.useLine (base.plus i)
                  t.putLine (base.plus i) { ln with data := applyPartials op ty qs ln.data, dirty := 3, prefetched := false, abusy := true }) s
            let s := l.foldl (fun t x =>
              let st := if x.2.2.lines.any (fun j => bad.contains ((x.2.2.line + j) % 4)) then St.POISONED else 0
              t.complete x.1 st 0 0) s
            let s := s.setCache p.key { (s.cache p.key) with units := rest }
            .next (s.count D.ATOMIC_COMBINED n (u.rids.length - 1))

end Sys2Proof.Machine
end

