-- ==== Sys2Proof/Machine/MeshOps.lean ====
section
/-! DEFINITION. Routers, routes, the active lap table and what one stride moves (R174 to R203). -/

namespace Sys2Proof.Machine

/-! ### Routers and routes (R174, R195, R204) -/

/-- The neighbour of router `r` through mesh port 1 N, 2 E, 3 S, 4 W (Table 7.1). -/
def neighbour (v : Variant) (r p : Nat) : Option Nat :=
  let x := r % 32
  let y := r / 32
  match p with
  | 1 => if 0 < y then some (r - 32) else none
  | 2 => if x < 31 && !(x == 15 && isHn4s v) then some (r + 1) else none
  | 3 => if y < 31 then some (r + 32) else none
  | 4 => if 0 < x && !(x == 16 && isHn4s v) then some (r - 1) else none
  | _ => none

/-- The input port at which a unit sent through mesh port `p` arrives. -/
def facing (p : Nat) : Nat := match p with | 1 => 3 | 2 => 4 | 3 => 1 | _ => 2

/-- Field of a router. -/
def routerField (r : Nat) : Nat := nodeField (r % 32) (r / 32)

/-- The router is present. -/
def State.routerHere (s : State) (r : Nat) : Bool := r < 1024 && s.has .field (routerField r)

/-- First in x, then in y (R195). -/
def xyPort (r d : Nat) : Nat :=
  if r % 32 < d % 32 then 2 else if d % 32 < r % 32 then 4 else if r / 32 < d / 32 then 3 else 1

/-- The odd–even turn model: from heading `a` (0: from an endpoint, which may leave by any port) to heading `b` in column `x` (R204). -/
def turnOk (x a b : Nat) : Bool :=
  (a == 0 || b != facing a) &&
    (if x % 2 = 0 then !(a == 2 && (b == 1 || b == 3)) else !((a == 1 || a == 3) && b == 4))

/-- One layer of the search: states are (router, heading, first port). -/
def layerStep (v : Variant) (ok : Nat → Bool) (l : List (Nat × Nat × Nat)) (seen : List Nat) : List (Nat × Nat × Nat) × List Nat :=
  l.foldl (fun a st =>
    [1, 2, 3, 4].foldl (fun b p =>
      match neighbour v st.1 p with
      | none => b
      | some n =>
        if ok n && turnOk (st.1 % 32) st.2.1 p && !b.2.contains (8 * n + p) then
          (b.1 ++ [(n, p, if st.2.2 = 0 then p else st.2.2)], b.2 ++ [8 * n + p])
        else b) a) ([], seen)

/-- Shortest allowed paths from a set of states: the first port towards `d`, and the number of hops. -/
def search (v : Variant) (ok : Nat → Bool) (d : Nat) : Nat → List (Nat × Nat × Nat) → List Nat → Nat → Option (Nat × Nat)
  | 0, _, _, _ => none
  | fuel + 1, l, seen, k =>
    match l.find? (fun st => st.1 == d) with
    | some st => some (st.2.2, k)
    | none =>
      match layerStep v ok l seen with
      | ([], _) => none
      | (l', seen') => search v ok d fuel l' seen' (k + 1)

/-- Shortest path from router `r`, entered with heading `a` (0: from an endpoint). -/
def State.pathTo (s : State) (r a d : Nat) : Option (Nat × Nat) :=
  search s.variant (fun n => s.routerHere n && !s.routeFails.contains n) d 4096 [(r, a, 0)] [] 0

/-- The output a free-skate unit takes at router `r` (R195, R204). -/
def State.outPort (s : State) (r a dst : Nat) : Nat :=
  let d := epNode dst
  if d = r then epPort dst
  else if s.routeFails.isEmpty then xyPort r d
  else match s.pathTo r a d with | some x => x.1 | none => xyPort r d

/-! ### Pace and offsets (R177, R178) -/

/-- Pace of a field now. -/
def State.pace (s : State) (f : Nat) : Nat := max 1 (s.rd D.FIELD_PACE f)

/-- A slot of the field begins in this stride. -/
def State.slotNow (s : State) (f : Nat) : Bool := s.gate % s.pace f == 0

/-- D of a hop from router `r` to `n`; a reducing output adds one (R178). -/
def State.hopOffset (s : State) (r n : Nat) (red : Bool) : Nat :=
  let a := s.pace (routerField r)
  let b := s.pace (routerField n)
  (if routerField r = routerField n then a else ceilDiv (a + 3) b * b) + red.toNat

/-- The seam a hop crosses (Table 7.12). -/
def seamOf (r n : Nat) : Nat :=
  if r / 32 = n / 32 then 0 else max (r / 32) (n / 32) / 8 + (if r % 32 < 16 then 0 else 3)

/-! ### The lap table (R179, R181) -/

/-- Source of output `p` in an entry. -/
def outSrc (e p : Nat) : Nat := bits e (4 * p - 1) (4 * p - 4)
def entRedMask (e : Nat) : Nat := bits e 39 32
def entRedFlow (e : Nat) : Nat := bits e 45 40
def entInjFlow (e : Nat) : Nat := bits e 59 48
def entInj (e : Nat) : Bool := bit e 60

def flowClass (f : Nat) : Nat := bits f 21 16
def flowRed (f : Nat) : Bool := bit f 44
def flowRedFlow (f : Nat) : Nat := bits f 43 38
def flowRedSrc (f : Nat) : Nat := bits f 48 45

/-- The table that is applied now. -/
def State.activeLap (s : State) : Option LapTable := if s.rd D.LAP_STATE 0 = 1 then s.lapA else none

/-- The entries applied in this stride, as router and entry. -/
def State.entriesNow (s : State) : List (Nat × Nat) :=
  match s.activeLap with
  | none => []
  | some t => (t.entries.filter (fun e => e.1 / 1024 == s.gate % t.len)).map (fun e => (e.1 % 1024, e.2))

/-- The operation code of a reduction record in Table 5.1, and its element type in Table 5.2. -/
def redOp (r : Nat) : Nat := bits r 1 0
def redType (r : Nat) : Nat := if bits r 12 8 = 0 then 4 else 1

/-- A request may be merged in a reduction flow (R199). -/
def State.redEligible (s : State) (rr : Nat) (r : Req) : Bool :=
  (redType rr == 1 || s.rdB D.ATOMIC_COMBINE_FP r.part) &&
    match r.kind with
    | .atomic => !atFetch r.attr && atOp r.attr == redOp rr && atTy r.attr == redType rr
    | .scaledAcc => redOp rr == 0 && redType rr == 4 && fdStored (s.reqDesc r) == 0 && fdAcc (s.reqDesc r) == 0
    | _ => false

/-- The unit's requests. -/
def State.unitReqs (s : State) (u : MUnit) : List Req := u.rids.filterMap s.req?

/-- A unit belongs to flow `f` of the table (R182, R199). -/
def State.inFlow (s : State) (t : LapTable) (f : Nat) (u : MUnit) : Bool :=
  flowSrc f == u.src && flowDst f == u.dst && flowClass f == u.cls && !s.demoted.contains u.dst &&
    (!flowRed f ||
      let rr := (t.reds[flowRedFlow f]?).getD 0
      let l := s.unitReqs u
      u.part == bits rr 35 32 && l.all (s.redEligible rr) &&
        (match l with | [] => false | r :: _ => l.all (fun q => q.addr / 512 == r.addr / 512 && q.kind == r.kind)))

/-- A unit belongs to some flow of the active table. -/
def State.inSomeFlow (s : State) (u : MUnit) : Bool :=
  match s.activeLap with
  | none => false
  | some t => t.flows.any (fun f => s.inFlow t f u)

/-! ### Queues -/

def State.fsQueue (s : State) (k : Nat) : List MUnit := Table.get [] k s.fsq
def State.setFsq (s : State) (k : Nat) (l : List MUnit) : State := { s with fsq := Table.set [] k l s.fsq }
def State.landAt (s : State) (e : Nat) : List MUnit := Table.get [] e s.landing
def State.setLand (s : State) (e : Nat) (l : List MUnit) : State := { s with landing := Table.set [] e l s.landing }
def State.injAt (s : State) (e : Nat) : List MUnit := Table.get [] e s.inj
def State.setInj (s : State) (e : Nat) (l : List MUnit) : State := { s with inj := Table.set [] e l s.inj }
def State.seamAt (s : State) (k : Nat) : List MUnit := Table.get [] k s.seamq
def State.setSeam (s : State) (k : Nat) (l : List MUnit) : State := { s with seamq := Table.set [] k l s.seamq }

/-- Output `p` of router `r`. -/
def outKey (r p : Nat) : Nat := 16 * r + p

/-- A unit that has to wait goes to the head of an output's free-skate queue, and the slip is counted (R184, R192, R194). -/
def State.slip (s : State) (r p : Nat) (u : MUnit) : State :=
  (s.setFsq (outKey r p) (u :: s.fsQueue (outKey r p))).count D.LAP_SLIP 0 1

/-! ### Delivery at an endpoint -/

/-- The endpoint accepts units: a slice withholds credits while its replay queue is full (R70), and takes one unit in two strides (R184). -/
def State.accepts (s : State) (e : Nat) : Bool :=
  if epPort e = 5 then s.gate % 2 == 0 && decide ((s.cache (epNode e)).replay.length < 32)
  else if epPort e = 8 && epSub e == 2 then s.gate % 2 == 0
  else true

/-- Requests of a unit reach their endpoint. -/
def State.landed (s : State) (u : MUnit) (st : Stage) : State :=
  u.rids.foldl (fun t rid => match t.req? rid with | some r => t.setReq rid { r with stage := st } | none => t) s

/-- Cache section at a slice endpoint or a spare. -/
def epCache (v : Variant) (e : Nat) : Nat :=
  if epPort e = 5 then epNode e
  else 1024 + ((List.range 64).find? (fun j => fieldPresent v (j / 8) && spareNode j == epNode e)).getD 0

/-- The request chooses its link again, its own link having left the set (R301, R302). -/
def State.relink (s : State) (rids : List Nat) : State :=
  rids.foldl (fun t rid => match t.req? rid with | some r => t.sendOne rid r | none => t) s

/-- A unit leaves the landing buffer into its endpoint; none while it has to wait. -/
def State.deliverUnit (s : State) (u : MUnit) : Option State :=
  if epPort u.dst = 7 then
    let n := ((List.range 64).find? (fun k => linkNode k == epNode u.dst)).getD 0
    if linkUsable (s.rd D.LINK_STATE n) then s.linkQueue n u.rids else some (s.relink u.rids)
  else if u.bitmap = 0 then some (s.landed u .slice)
  else
    let k := epCache s.variant u.dst
    let s := s.landed u .waiting
    some (s.setCache k { (s.cache k) with units := (s.cache k).units ++ [u] })

/-- One unit of each landing buffer goes on. -/
def State.drainLanding (s : State) : State :=
  (s.landing.map (fun e => e.1)).foldl (fun t e =>
    match t.landAt e with
    | [] => t
    | u :: l => if t.accepts e then (match t.deliverUnit u with | some t' => t'.setLand e l | none => t) else t) s

/-! ### In-mesh reduction (R200 to R202) -/

/-- NaN and infinity of a binary32 code. -/
def isNan32 (x : Nat) : Bool := bits x 30 23 == 255 && bits x 22 0 != 0
def isInf32 (x : Nat) : Bool := bits x 30 23 == 255 && bits x 22 0 == 0

/-- RED_FLAGS bits of one FP32 merge: NAN_IN 3, NAN_OUT 6, ACC_OVF 10 (Table 4.10, R202). -/
def redFlagBits (a b c : Nat) : Nat :=
  (if isNan32 a || isNan32 b then 2 ^ 3 else 0) + (if isNan32 c then 2 ^ 6 else 0) +
    (if isInf32 c && !isInf32 a && !isInf32 b then 2 ^ 10 else 0)

/-- The partial results of two units, element by element (R121, R200), and the flags met. -/
def mergePartials (op ty : Nat) (a b : Partials) : Partials × Nat :=
  b.foldl (fun acc e =>
    match partialAt acc.1 e.1 with
    | none => (partialSet acc.1 e.1 e.2, acc.2)
    | some x =>
      let z := atElem op ty x e.2 0
      (partialSet acc.1 e.1 z, if ty = 4 then acc.2 ||| redFlagBits x e.2 z else acc.2)) (a, 0)

/-- Two units may be merged: same target address and kind, and for I32 the same operation (R200). -/
def State.mergeable (s : State) (a b : MUnit) : Bool :=
  match s.unitReqs a, s.unitReqs b with
  | x :: _, y :: _ => x.addr / 512 == y.addr / 512 && x.kind == y.kind && (x.kind != .atomic || x.attr == y.attr)
  | _, _ => false

/-- Merge unit `b` into `a` for reduction flow `f`. -/
def State.mergeUnits (s : State) (f : Nat) (a b : MUnit) : MUnit × State :=
  let o : Nat × Nat := match s.unitReqs a with | x :: _ => (if x.kind == .atomic then (atOp x.attr, atTy x.attr) else (0, 4)) | [] => (0, 4)
  let m := mergePartials o.1 o.2 (s.unitPartials a) (s.unitPartials b)
  ({ a with rids := a.rids ++ b.rids, bitmap := a.bitmap ||| b.bitmap, merged := m.1.map (fun e => (e.1, some e.2)) },
   (s.wr D.RED_FLAGS f (s.rd D.RED_FLAGS f ||| m.2)).count D.RED_MERGES 0 1)

/-- The REDUCE output: the units present merge into the lowest-numbered input's unit, and the others go to the output's free-skate queue. -/
def State.reduce (s : State) (f k : Nat) : List MUnit → State × Option MUnit
  | [] => (s, none)
  | a :: rest =>
    let r := rest.foldl (fun acc b =>
      if acc.1.mergeable acc.2 b then let m := acc.1.mergeUnits f acc.2 b; (m.2, m.1)
      else ((acc.1.setFsq k (acc.1.fsQueue k ++ [b])).count D.RED_UNMERGED 0 1, acc.2)) (s, a)
    (r.1, some r.2)

/-! ### Scheduled units -/

/-- The link takes a scheduled unit in its slot (R194, R305). -/
def State.linkTakes (s : State) (n : Nat) : Bool :=
  s.rd D.LINK_STATE n == 3 &&
    (match s.activeLap with
     | some t => decide ((t.width[n]?).getD 0 ≤ s.rd D.LINK_TRAINED_WIDTH n) || (s.txq n).all (fun m => m.step != 3)
     | none => true)

/-- The output is still sending: the field's clock has fallen below the floor of its declared pace (R192). -/
def State.stillSending (s : State) (r : Nat) : Bool :=
  let f := routerField r
  let mhz := s.rd D.FIELD_FREQ f
  let p := if 2000 ≤ mhz then 1 else if 1000 ≤ mhz then 2 else if 500 ≤ mhz then 4 else 8
  decide (s.pace f < p) && s.gate % p != 0

/-- A scheduled unit leaves router `r` on output `p`. -/
def State.sendSched (s : State) (r p : Nat) (u : MUnit) (red : Bool) : State :=
  if s.stillSending r then s.slip r p u
  else if p ≤ 4 then
    match neighbour s.variant r p with
    | none => s.slip r p u
    | some n => { s with flying := s.flying ++ [(s.gate + s.hopOffset r n red, n, facing p, u)] }
  else if p = 7 then
    let n := ((List.range 64).find? (fun k => linkNode k == r)).getD 0
    if s.linkTakes n then (match s.linkSched n u.rids with | some t => t | none => s.slip r p u) else s.slip r p u
  else if (s.landAt u.dst).length < 32 then s.setLand u.dst (s.landAt u.dst ++ [u])
  else s.slip r p u

/-- A unit taken out of an injection queue: the first that belongs to the flow (R182). -/
def State.takeFlow (s : State) (t : LapTable) (f : Nat) : State × Option MUnit :=
  let l := s.injAt (flowSrc f)
  match l.find? (s.inFlow t f) with
  | none => (s, none)
  | some u =>
    let s := s.setInj (flowSrc f) (l.erase u)
    (s, some (if flowRed f then { u with bitmap := 2 ^ flowRedSrc f } else u))

/-- What one router's entry does with the units at its inputs; the outputs that sent in this slot are added to `used`. -/
def State.applyEntry (s : State) (t : LapTable) (stop : Bool) (arr : List (Nat × MUnit)) (r e : Nat) : State × List Nat :=
  let f := (t.flows[entInjFlow e]?).getD 0
  let x := if entInj e && !stop then s.takeFlow t f else (s, none)
  let ins := arr ++ (match x.2 with | some u => [(epPort u.src, u)] | none => [])
  let at_ (k : Nat) : Option MUnit := (ins.find? (fun i => i.1 == k)).map (fun i => i.2)
  [1, 2, 3, 4, 5, 6, 7, 8].foldl (fun a p =>
    match outSrc e p with
    | 0 => a
    | 9 =>
      let us := (maskList 8 (entRedMask e)).filterMap (fun k => at_ (k + 1))
      let m := a.1.reduce (entRedFlow e) (outKey r p) us
      (match m.2 with
       | none => (m.1, a.2)
       | some u => (m.1.sendSched r p u true, outKey r p :: a.2))
    | k => match at_ k with
      | none => a
      | some u => (a.1.sendSched r p u false, outKey r p :: a.2)) (x.1, [])

/-- A unit goes on as free skate from router `r`, which it entered with heading `a`. -/
def State.freeAt (s : State) (r a : Nat) (u : MUnit) : State :=
  let k := outKey r (s.outPort r a u.dst)
  s.setFsq k (s.fsQueue k ++ [u])

/-- The inputs an entry uses. -/
def entUses (e k : Nat) : Bool := [1, 2, 3, 4, 5, 6, 7, 8].any (fun p => outSrc e p == k) || bit (entRedMask e) (k - 1)

/-- Scheduled units move (R176 to R184, R200): those that arrive in this stride, and those injected. -/
def State.schedMove (s : State) : State × List Nat :=
  let now := s.flying.filter (fun x => decide (x.1 ≤ s.gate))
  let s := { s with flying := s.flying.filter (fun x => decide (s.gate < x.1)) }
  let es := s.entriesNow
  let stop := match s.lapOp with | some o => o.tail | none => false
  let lost := now.filter (fun x => !es.any (fun e => e.1 == x.2.1 && entUses e.2 x.2.2.1))
  let s := lost.foldl (fun t x => t.freeAt x.2.1 (facing x.2.2.1) x.2.2.2) s
  match s.activeLap with
  | none => (s, [])
  | some t =>
    es.foldl (fun a e =>
      let arr := (now.filter (fun x => x.2.1 == e.1 && entUses e.2 x.2.2.1)).map (fun x => x.2.2)
      let y := a.1.applyEntry t stop arr e.1 e.2
      (y.1, y.2 ++ a.2)) (s, [])

/-! ### Free skate (R195, R197) -/

/-- Units in seam buffers enter the receiving router's queue, one in a slot, when it has room. -/
def State.seamMove (s : State) : State :=
  (s.seamq.map (fun e => e.1)).foldl (fun t k =>
    match t.seamAt k, neighbour t.variant (k / 16) (k % 16) with
    | u :: l, some n =>
      let out := outKey n (t.outPort n (k % 16) u.dst)
      if t.slotNow (routerField n) && decide ((t.fsQueue out).length < 32) then
        (t.setSeam k l).setFsq out (t.fsQueue out ++ [u])
      else t
    | _, _ => t) s

/-- The head of an output's queue leaves in an open or reclaimed slot when there is room where it goes. -/
def State.skateOut (s : State) (k : Nat) : State :=
  let r := k / 16
  let p := k % 16
  match s.fsQueue k with
  | [] => s
  | u :: l =>
    if !s.slotNow (routerField r) then s
    else match neighbour s.variant r p with
      | some n =>
        if s.rd D.ROUTER_STATE n != 0 then s
        else if !(s.fieldUp (routerField n)).2 then (s.fieldUp (routerField n)).1
        else if routerField n = routerField r then
          let out := outKey n (s.outPort n p u.dst)
          if (s.fsQueue out).length < 32 then (s.setFsq k l).setFsq out ((s.setFsq k l).fsQueue out ++ [u]) else s
        else if (s.seamAt k).length < 6 then (s.setFsq k l).setSeam k (s.seamAt k ++ [u])
        else s.count D.SEAM_CREDIT_STALL (seamOf r n) 1
      | none => if (s.landAt u.dst).length < 32 then (s.setFsq k l).setLand u.dst (s.landAt u.dst ++ [u]) else s

/-- Every output that did not send a scheduled unit serves its queue; each unit moves at most one hop in a stride. -/
def State.skateMove (s : State) (used : List Nat) : State :=
  ((s.fsq.map (fun e => e.1)).filter (fun k => !used.contains k)).foldl (fun t k => t.skateOut k) s

/-- The first free-skate unit of each endpoint enters its router's queue when there is room; demoted units are counted (R182, R193). -/
def State.skateIn (s : State) : State :=
  (s.inj.map (fun e => e.1)).foldl (fun t e =>
    match (t.injAt e).find? (fun u => !t.inSomeFlow u) with
    | none => t
    | some u =>
      let r := epNode e
      let k := outKey r (t.outPort r 0 u.dst)
      let up := t.fieldUp (routerField r)
      let t := up.1
      if !up.2 then t
      else if t.slotNow (routerField r) && decide ((t.fsQueue k).length < 32) && t.rd D.ROUTER_STATE r == 0 then
        let t := (t.setInj e ((t.injAt e).erase u)).setFsq k (t.fsQueue k ++ [u])
        if t.demoted.contains u.dst then t.count D.FLOW_DEMOTED 0 1 else t
      else t) s

/-- What the routers do in one stride (R176). -/
def State.strideMove (s : State) : State :=
  let s := s.drainLanding
  let x := s.schedMove
  ((x.1.seamMove).skateMove x.2).skateIn

/-- Gate time passes one count while the counter runs (R207). -/
def State.tickGate (s : State) : State := if s.gateRun then { s with gate := (s.gate + 1) % 2 ^ 64 } else s

end Sys2Proof.Machine
end

