-- ==== Sys2Proof/Machine/LapCheck.lean ====
section
/-! DEFINITION. Tlaund files: reading, the checks of Table 7.7, and the wait bound of free skate (R185 to R188, R196). -/

namespace Sys2Proof.Machine

/-- Where a load check fails: status, step, router, stride, record index (LAP_LOAD_DETAIL). -/
structure LapErr where
  st : Nat
  step : Nat
  router : Nat
  stride : Nat
  rec_ : Nat
  deriving DecidableEq, Repr

/-- LAP_LOAD_DETAIL. -/
def LapErr.detail (e : LapErr) : Nat :=
  e.st + e.step * 2 ^ 16 + (e.router % 32) * 2 ^ 20 + (e.router / 32) * 2 ^ 25 + (e.stride % 2 ^ 13) * 2 ^ 32 + (e.rec_ % 2 ^ 32) * 2 ^ 64

def lapErr (st step : Nat) : LapErr := { st := st, step := step, router := 0, stride := 0, rec_ := 0 }

/-! ### The file (Table 7.4) -/

def lfLog (h : Nat) : Nat := bits h 55 48
def lfFlows (h : Nat) : Nat := bits h 671 656
def lfReds (h : Nat) : Nat := bits h 679 672
def lfRecs (h : Nat) : Nat := bits h 735 704

/-- Reserved bits of the header are zero. -/
def lfReservedOk (h : Nat) : Bool := bits h 63 56 == 0 && bits h 703 680 == 0 && bits h 1023 736 == 0

/-- Records of `w` bytes from byte `off`. -/
def lfRecords (x off w n : Nat) : List Nat := (List.range n).map (fun i => bytesOf x (off + w * i) w)

def lfFlowList (x : Nat) : List Nat := lfRecords x 256 8 (lfFlows x)
def lfRedList (x : Nat) : List Nat := lfRecords x (256 + 8 * lfFlows x) 16 (lfReds x)
def lfEntryList (x : Nat) : List Nat := lfRecords x (256 + 8 * lfFlows x + 16 * lfReds x) 16 (lfRecs x)

/-- Fields of an entry record (Table 7.5). -/
def erStride (r : Nat) : Nat := bits r 12 0
def erRouter (r : Nat) : Nat := bits r 20 16 + 32 * bits r 25 21
def erEntry (r : Nat) : Nat := bits r 127 64

/-- The table a file holds; its identity is the first 8 bytes of FILE_DIGEST (R187). -/
def lapTable (x : Nat) : LapTable :=
  { id := bytesOf x 192 8, len := 2 ^ lfLog x, pace := (List.range 8).map (fun n => 2 ^ bytesOf x (8 + n) 1),
    width := (List.range 64).map (fun n => bytesOf x (16 + n) 1), tail := bits x 655 640, flows := lfFlowList x, reds := lfRedList x,
    entries := (lfEntryList x).foldl (fun t r => Table.set 0 (1024 * erStride r + erRouter r) (erEntry r) t) [],
    topo := bytesOf x 128 64 }

/-- FILE_DIGEST's input: bytes 0 to 191, then every byte after byte 255. -/
def lapDigest (x len : Nat) : Nat := shake256 (len - 64) (bytesOf x 0 192 + (x >>> (8 * 256)) * 2 ^ (8 * 192))

/-- The topology image and its digest (R186). -/
def State.topoDigest (s : State) : Nat :=
  let a := (List.range 1024).foldr (fun r acc => s.rd D.ROUTER_STATE r + 256 * acc) 0
  let b := (List.range 1024).foldr (fun n acc => s.rd D.SLICE_HOME n + 2 ^ 32 * acc) 0
  shake256 5120 (a + b * 2 ^ (8 * 1024))

/-! ### Reading (R185) -/

/-- The reads of the file pass the windows of PF_DATA_PARTITION, granule by granule; 0, or the first status. -/
def State.lapReadStatus (s : State) (a len : Nat) : Nat :=
  let p := s.rd D.PF_DATA_PARTITION 0
  let lo := a / 2 ^ 21
  let n := (a + len - 1) / 2 ^ 21 - lo + 1
  ((List.range n).findSome? (fun i =>
    let x := max a ((lo + i) * 2 ^ 21)
    let y := min (a + len - 1) ((lo + i) * 2 ^ 21 + (2 ^ 21 - 1))
    match s.checkSpan p 3 0 s.devNum x y .read with
    | .pass => none
    | .miss => some St.WINDOW_FAULT
    | .fail st _ => some st)).getD 0

/-! ### Presence (step 3) -/

/-- Port `p` is present at node `r` (Table 7.1). -/
def State.portHere (s : State) (r p : Nat) : Bool :=
  s.routerHere r &&
    match p with
    | 5 => true
    | 6 => (List.range 512).any (fun i => portNode i == r && s.has .port i)
    | 7 => (List.range 64).any (fun n => linkNode n == r && s.has .link n)
    | 8 => (List.range 4).any (fun k => subHere r k)
    | _ => (neighbour s.variant r p).isSome
where
  /-- Sub-endpoints of a UNIT port: two engines, the spare, and the management block or field controller. -/
  subHere (r k : Nat) : Bool :=
    match k with
    | 0 => (List.range 512).any (fun t => t % 2 == 0 && teNode t == r && s.has .te t)
    | 1 => (List.range 512).any (fun t => t % 2 == 1 && teNode t == r && s.has .te t)
    | 2 => (List.range 64).any (fun j => spareNode j == r && s.has .spare j)
    | _ => false

/-- An endpoint a flow names is present. -/
def State.epHere (s : State) (e : Nat) : Bool :=
  s.portHere (epNode e) (epPort e) && (epPort e != 8 || State.portHere.subHere s (epNode e) (epSub e))

/-- Sources and outputs an entry uses are present; source 9 needs reducers. -/
def State.entryHere (s : State) (r e : Nat) : Bool :=
  [1, 2, 3, 4, 5, 6, 7, 8].all (fun p =>
    let k := outSrc e p
    k == 0 || (s.portHere r p && (if k = 9 then fullFeatures s.variant else if k ≤ 8 then s.portHere r k else true))) &&
    (maskList 8 (entRedMask e)).all (fun k => s.portHere r (k + 1))

/-- Step 3 of Table 7.7. -/
def State.lapStep3 (s : State) (t : LapTable) (recs : List Nat) : Option LapErr :=
  if (List.range 8).any (fun f => (t.pace[f]?).getD 1 != 1 && !s.has .field f) ||
      (List.range 64).any (fun n => (t.width[n]?).getD 0 != 0 && !s.has .link n) then some (lapErr St.UNIT_ABSENT 3)
  else match findIdxFrom (fun f => !(s.epHere (flowSrc f) && s.epHere (flowDst f))) t.flows 0 with
    | some (i, _) => some { lapErr St.UNIT_ABSENT 3 with rec_ := i }
    | none =>
      if !fullFeatures s.variant && !t.reds.isEmpty then some (lapErr St.UNIT_ABSENT 3)
      else match findIdxFrom (fun r => !(s.routerHere (erRouter r) && s.entryHere (erRouter r) (erEntry r))) recs 0 with
        | some (i, r) => some { st := St.UNIT_ABSENT, step := 3, router := erRouter r, stride := erStride r, rec_ := i }
        | none => none

/-! ### Codes (step 4) -/

/-- Reserved codes of a flow record. -/
def flowOk (nred f : Nat) : Bool :=
  bits f 63 49 == 0 && 5 ≤ bits f 13 10 && bits f 13 10 ≤ 8 && 5 ≤ bits f 35 32 && bits f 35 32 ≤ 8 &&
    bits f 15 14 ≤ (if bits f 13 10 = 8 then 2 else 0) && bits f 37 36 ≤ (if bits f 35 32 = 8 then 2 else 0) &&
    (if flowRed f then decide (flowRedFlow f < nred) else true)

/-- Reserved codes of a reduction record. -/
def redOk (r : Nat) : Bool :=
  bits r 1 0 != 3 && bits r 7 2 == 0 && (bits r 12 8 == 0 || bits r 12 8 == 3) && bits r 15 13 == 0 && r / 2 ^ 36 == 0

/-- Reserved codes and numbers of an entry. -/
def entryOk (nflow nred e : Nat) : Bool :=
  bits e 47 46 == 0 && bits e 63 61 == 0 && [1, 2, 3, 4, 5, 6, 7, 8].all (fun p => outSrc e p ≤ 9) &&
    (if entInj e then decide (entInjFlow e < nflow) else true) && (if entRedMask e != 0 then decide (entRedFlow e < nred) else true)

/-- Step 4 of Table 7.7. -/
def lapStep4 (x : Nat) (t : LapTable) (recs : List Nat) : Option LapErr :=
  if !lfReservedOk x || 4096 < lfFlows x || 64 < lfReds x || (List.range 8).any (fun n => 3 < bytesOf x (8 + n) 1) ||
      t.width.any (fun w => !([0, 1, 2, 4, 8].contains w)) then some (lapErr St.LAP_BAD 4)
  else match findIdxFrom (fun f => !flowOk (lfReds x) f) t.flows 0 with
    | some (i, _) => some { lapErr St.LAP_BAD 4 with rec_ := i }
    | none => match findIdxFrom (fun r => !redOk r) t.reds 0 with
      | some (i, _) => some { lapErr St.LAP_BAD 4 with rec_ := i }
      | none =>
        let bad (i r : Nat) : Bool := bits r 15 13 != 0 || bits r 63 26 != 0 || decide (t.len ≤ erStride r) ||
          !entryOk (lfFlows x) (lfReds x) (erEntry r) ||
          (recs.take i).any (fun q => erStride q == erStride r && erRouter q == erRouter r)
        match (enumList recs 0).find? (fun e => bad e.1 e.2) with
        | some (i, r) => some { st := St.LAP_BAD, step := 4, router := erRouter r, stride := erStride r, rec_ := i }
        | none => none

/-! ### Entries and paths (step 5) -/

/-- Declared pace of a router's field. -/
def LapTable.paceAt (t : LapTable) (r : Nat) : Nat := max 1 ((t.pace[routerField r]?).getD 1)

/-- D under the declared paces (R178). -/
def LapTable.offset (t : LapTable) (r n : Nat) (red : Bool) : Nat :=
  let a := t.paceAt r
  let b := t.paceAt n
  (if routerField r = routerField n then a else ceilDiv (a + 3) b * b) + red.toNat

def LapTable.entry (t : LapTable) (stride r : Nat) : Nat := Table.get 0 (1024 * stride + r) t.entries

/-- Inputs an entry names, with repeats. -/
def entInputs (e : Nat) : List Nat :=
  ([1, 2, 3, 4, 5, 6, 7, 8].filterMap (fun p => if outSrc e p = 0 ∨ outSrc e p = 9 then none else some (outSrc e p))) ++
    (maskList 8 (entRedMask e)).map (fun k => k + 1)

/-- No number occurs twice. -/
def noDup : List Nat → Bool
  | [] => true
  | a :: r => !r.contains a && noDup r

/-- The neighbour's output towards router `r` carries a unit that arrives at input `k` in this stride (R178, R180). -/
def LapTable.fed (t : LapTable) (v : Variant) (stride r k : Nat) : Bool :=
  match neighbour v r k with
  | none => false
  | some n =>
    [false, true].any (fun red =>
      let d := t.offset n r red
      let e := t.entry ((stride + t.len - d % t.len) % t.len) n
      let src := outSrc e (facing k)
      src != 0 && (src == 9) == red)

/-- R180. -/
def LapTable.entryValid (t : LapTable) (v : Variant) (stride r e : Nat) : Bool :=
  let ins := entInputs e
  let ends := ins.filter (fun k => 5 ≤ k)
  let reds := ([1, 2, 3, 4, 5, 6, 7, 8].filter (fun p => outSrc e p == 9)).length
  (e == 0 || stride % t.paceAt r == 0) && noDup ins && reds == (if entRedMask e = 0 then 0 else 1) &&
    (entRedMask e == 0 || decide (2 ≤ popCount 8 (entRedMask e))) &&
    [1, 2, 3, 4, 5, 6, 7, 8].all (fun p => outSrc e p != p) &&
    (ins.filter (fun k => k ≤ 4)).all (fun k => t.fed v stride r k) &&
    entInj e == !ends.isEmpty && decide (ends.length ≤ 1) &&
    (!entInj e || (let f := (t.flows[entInjFlow e]?).getD 0
                   epNode (flowSrc f) == r && ends.head? == some (epPort (flowSrc f))))

/-- Follow a unit from input `k` of router `r` in stride `a` (not reduced): the sink it reaches and the strides it took, none when its path
breaks off. A flow passes REDUCE outputs of its own reduction flow only. -/
def LapTable.trace (t : LapTable) (v : Variant) (f : Nat) : Nat → Nat → Nat → Nat → Nat → Option (Nat × Nat × Nat)
  | 0, _, _, _, _ => none
  | fuel + 1, a, r, k, n =>
    let e := t.entry (a % t.len) r
    let red := bit (entRedMask e) (k - 1)
    let out := [1, 2, 3, 4, 5, 6, 7, 8].find? (fun p => if red then outSrc e p == 9 else outSrc e p == k)
    if red && !(flowRed f && flowRedFlow f == entRedFlow e) then none
    else match out with
      | none => none
      | some p =>
        if 5 ≤ p then some (r, p, n + 1)
        else match neighbour v r p with
          | none => none
          | some m => let d := t.offset r m red; t.trace v f fuel (a + d) m (facing p) (n + d)

/-- Injections of a flow: stride and router. -/
def LapTable.injections (t : LapTable) (i : Nat) : List (Nat × Nat) :=
  t.entries.filterMap (fun x => if entInj x.2 && entInjFlow x.2 == i then some (x.1 / 1024, x.1 % 1024) else none)

/-- Lengths of the paths of flow `i`; none when one of them does not end at its destination, or the flow has no path. -/
def LapTable.flowPaths (t : LapTable) (v : Variant) (i f : Nat) : Option (List Nat) :=
  let l := (t.injections i).map (fun x => t.trace v f 8192 x.1 x.2 (epPort (flowSrc f)) 0)
  if l.isEmpty then none
  else if l.all (fun x => match x with | some (r, p, _) => r == epNode (flowDst f) && p == epPort (flowDst f) | none => false) then
    some (l.filterMap (fun x => x.map (fun y => y.2.2)))
  else none

/-- The contributors of each reduction flow deliver to one sink. -/
def LapTable.redSinks (t : LapTable) : Bool :=
  (List.range 64).all (fun g =>
    match (t.flows.filter (fun f => flowRed f && flowRedFlow f == g)).map flowDst with
    | [] => true
    | d :: r => r.all (fun x => x == d))

/-- Step 5 of Table 7.7. -/
def LapTable.step5 (t : LapTable) (v : Variant) (recs : List Nat) : Option LapErr :=
  match findIdxFrom (fun r => !t.entryValid v (erStride r) (erRouter r) (erEntry r)) recs 0 with
  | some (i, r) => some { st := St.LAP_BAD, step := 5, router := erRouter r, stride := erStride r, rec_ := i }
  | none => match (enumList t.flows 0).find? (fun e => (t.flowPaths v e.1 e.2).isNone) with
    | some (i, _) => some { lapErr St.LAP_BAD 5 with rec_ := i }
    | none => if t.redSinks then none else some (lapErr St.LAP_BAD 5)

/-! ### Floors (step 6) and the wait bound (R196) -/

/-- Strides in which output `p` of router `r` is scheduled. -/
def LapTable.busyAt (t : LapTable) (r p : Nat) : List Nat :=
  t.entries.filterMap (fun x => if x.1 % 1024 == r && outSrc x.2 p != 0 then some (x.1 / 1024) else none)

/-- The most scheduled strides in any aligned window of `w` strides; a lap shorter than the window repeats in it. -/
def mostIn (len w : Nat) (l : List Nat) : Nat :=
  if len < w then l.length * (w / len)
  else (List.range (len / w)).foldl (fun a i => max a (l.filter (fun x => x / w == i)).length) 0

/-- Units a LINK output may carry in a window (Table 7.8). -/
def linkMost (w : Nat) : Nat := if w = 8 then 187 else if w = 4 then 93 else if w = 2 then 46 else if w = 1 then 23 else 0

/-- Routers and outputs that the table schedules. -/
def LapTable.outputs (t : LapTable) : List (Nat × Nat) :=
  (List.range 1024).flatMap (fun r =>
    if t.entries.any (fun x => x.1 % 1024 == r) then [1, 2, 3, 4, 5, 6, 7, 8].map (fun p => (r, p)) else [])

/-- The floors of one output. -/
def LapTable.floorOk (t : LapTable) (r p : Nat) : Bool :=
  let l := t.busyAt r p
  let w := 256 * t.paceAt r
  if p ≤ 4 then decide (mostIn t.len w l ≤ 240)
  else if p = 5 ∨ p = 6 then decide (mostIn t.len w l ≤ 128)
  else if p = 7 then
    decide (mostIn t.len 256 l ≤ linkMost ((t.width[((List.range 64).find? (fun n => linkNode n == r)).getD 0]?).getD 0))
  else true

/-- Longest path of any flow. -/
def LapTable.longest (t : LapTable) (v : Variant) : Nat :=
  (enumList t.flows 0).foldl (fun a e => ((t.flowPaths v e.1 e.2).getD []).foldl max a) 0

/-- Step 6 of Table 7.7. -/
def LapTable.step6 (t : LapTable) (v : Variant) : Option LapErr :=
  (t.outputs.find? (fun o => !t.floorOk o.1 o.2)).elim
    (if t.longest v ≤ t.tail && decide (4 * t.tail ≤ t.len) then none else some (lapErr St.LAP_BAD 6))
    (fun o => some { lapErr St.LAP_BAD 6 with router := o.1 })

/-- Longest run of consecutive scheduled slots, counted cyclically over the lap. -/
def longestRun (len pace : Nat) (l : List Nat) : Nat :=
  let n := len / pace
  ((List.range (2 * n)).foldl (fun a i =>
    if l.contains (i % n * pace) then (a.1 + 1, max a.2 (a.1 + 1)) else (0, a.2)) (0, 0)).2 |> min n

/-- W of an output (R196); `pace` is the larger one at a seam. -/
def waitBound (len slot pace p : Nat) (l : List Nat) : Nat :=
  let m := 256 - mostIn len (256 * slot) l
  let g := longestRun len slot l
  let w := pace * min (32 * (g + 1)) ((ceilDiv 32 m + 1) * 256)
  if p = 5 ∨ p = 6 then 2 * w else w

/-- LAP_FS_WORST of a router: the largest W among its outputs. -/
def State.fsWorst (s : State) (r : Nat) : Nat :=
  ((List.range 8).map (fun k => k + 1)).foldl (fun a p =>
    if s.portHere r p then
      let slot := s.pace (routerField r)
      let pace := match neighbour s.variant r p with | some n => max slot (s.pace (routerField n)) | none => slot
      match s.activeLap with
      | none => max a (pace * (if p = 5 ∨ p = 6 then 64 else 32))
      | some t => max a (waitBound t.len slot pace p (t.busyAt r p))
    else a) 0

/-- LAP_FS_BOUND. -/
def State.fsBound (s : State) : Nat := (List.range 1024).foldl (fun a r => max a (s.fsWorst r)) 0

/-! ### Steps 7 to 9, and the whole check -/

/-- A link is up (R284). -/
def State.linkUp (s : State) (n : Nat) : Bool := linkUsable (s.rd D.LINK_STATE n)

/-- Steps 7 to 9 of Table 7.7. -/
def State.lapStep789 (s : State) (t : LapTable) : Option LapErr :=
  if t.topo != s.topoDigest then some (lapErr St.LAP_TOPOLOGY 7)
  else if (List.range 64).any (fun n => (t.width[n]?).getD 0 != 0 &&
      !(s.linkUp n && decide ((t.width[n]?).getD 0 ≤ s.rd D.LINK_TRAINED_WIDTH n))) then some (lapErr St.LAP_LINK_MISMATCH 8)
  else if (List.range 8).any (fun f => s.has .field f && decide (s.rd D.FIELD_FREQ f * (t.pace[f]?).getD 1 < 2000)) then
    some (lapErr St.LAP_CLOCK_FLOOR 9)
  else none

/-- Table 7.7 for the file `x` of `len` bytes. -/
def State.lapCheck (s : State) (x len : Nat) : Option LapErr :=
  let t := lapTable x
  let recs := lfEntryList x
  if len < 256 || bits x 31 0 != 0x444E4C54 || bits x 47 32 != 1 || lfLog x < 8 || 13 < lfLog x ||
      len != 256 + 8 * lfFlows x + 16 * lfReds x + 16 * lfRecs x then some (lapErr St.LAP_BAD 2)
  else if lapDigest x len != bytesOf x 192 64 then some (lapErr St.LAP_DIGEST 2)
  else match s.lapStep3 t recs with
    | some e => some e
    | none => match lapStep4 x t recs with
      | some e => some e
      | none => match t.step5 s.variant recs with
        | some e => some e
        | none => match t.step6 s.variant with
          | some e => some e
          | none => s.lapStep789 t

end Sys2Proof.Machine
end

