-- ==== Sys2Proof/Machine/ClockOps.lean ====
section
/-! DEFINITION. Field clocks and pace, and the changes of the active lap table (R177, R189 to R198, R365 to R367). -/

namespace Sys2Proof.Machine

def State.clk (s : State) (f : Nat) : Clk := Table.get Clk.init f s.clks
def State.setClk (s : State) (f : Nat) (x : Clk) : State := { s with clks := Table.set Clk.init f x s.clks }

/-- The smallest pace whose floor does not exceed the clock (R177). -/
def paceFor (mhz : Nat) : Nat := if 2000 ≤ mhz then 1 else if 1000 ≤ mhz then 2 else if 500 ≤ mhz then 4 else 8

/-- FIELD_PACE of every field: declared by the active table, else by the field's clock (R177). -/
def State.refreshPace (s : State) : State :=
  (presentFields s.variant).foldl (fun t f =>
    t.wr D.FIELD_PACE f (match t.activeLap with | some x => max 1 ((x.pace[f]?).getD 1) | none => paceFor (t.rd D.FIELD_FREQ f))) s

/-- FIELD_PACE_SHADOW and the identities of the two copies. -/
def State.refreshShadow (s : State) : State :=
  let s := (s.wr D.LAP_ACTIVE_ID 0 ((s.lapA.map (fun t => t.id)).getD 0)).wr D.LAP_SHADOW_ID 0 ((s.lapS.map (fun t => t.id)).getD 0)
  (presentFields s.variant).foldl (fun t f =>
    t.wr D.FIELD_PACE_SHADOW f (match t.lapS with | some x => (x.pace[f]?).getD 0 | none => 0)) s

/-- After the active table has changed: paces, identities and link capacities (R177, R234). -/
def State.lapChanged (s : State) : State := ((s.refreshPace).refreshShadow).refreshLinks

/-- Gate time is synchronised: SYNC or HOLDOVER (R214). -/
def State.synced (s : State) : Bool := s.rd D.GATE_SYNC_STATE 0 != 0

/-- The table declares some link width. -/
def LapTable.usesLinks (t : LapTable) : Bool := t.width.any (fun w => w != 0)

/-- R189 for a table to apply at T, with lap lengths that T has to be a multiple of; 0 when it may be armed. -/
def State.armStatus (s : State) (t : LapTable) (len time : Nat) : Nat :=
  if s.lapOp.isSome then St.LAP_BUSY
  else if time % len != 0 || time < s.gate + 20000 then St.LAP_SWITCH_TIME
  else match s.lapStep789 t with
    | some e => e.st
    | none => if t.usesLinks && !s.synced then St.GATE_UNSYNCED else 0

/-- Lap length of the active side; 256 with none (R189). -/
def State.activeLen (s : State) : Nat := (s.lapA.map (fun t => t.len)).getD 256

/-- A change is armed for T. -/
def State.armLap (s : State) (k : LapKind) (time : Nat) (clock : Bool) : State :=
  ({ s with lapOp := some { kind := k, time := time, tail := false, clock := clock } } : State).wr D.LAP_SWITCH_STATE 0 1

/-- The status of a switch to the shadow table at T (R189). -/
def State.switchStatus (s : State) (time : Nat) : Nat :=
  match s.lapS with
  | none => St.LAP_NO_SHADOW
  | some t => s.armStatus t (max s.activeLen t.len) time

/-- The earliest T that R189 allows for a switch to the shadow table. -/
def State.earliestSwitch (s : State) : Nat :=
  let l := max s.activeLen ((s.lapS.map (fun t => t.len)).getD 256)
  ceilDiv (s.gate + 20000) l * l

/-! ### Field clocks (R365 to R367) -/

/-- Fields of a field clock request (Table 14.3). -/
def fcFields (r : Nat) : List Nat := maskList 8 (bits r 7 0)
def fcMhz (r : Nat) : Nat := bits r 27 16
def fcFallback (r : Nat) : Nat := bits r 127 64

/-- A field runs at `mhz` now: its frequency and, with no table, its pace; below the active table's floor the table is suspended (R192). -/
def State.fieldRuns (s : State) (f mhz : Nat) : State :=
  let s := (s.wr D.FIELD_FREQ f mhz).refreshPace
  match s.activeLap with
  | some t => if mhz * (t.pace[f]?).getD 1 < 2000 then s.suspendLap lapClock else s
  | none => s

/-- The request starts to glide; a rise of a field that is awake asks the chairlift first (R365, R374). -/
def State.glide (s : State) (r : Nat) : State :=
  (fcFields r).foldl (fun t f =>
    if t.rd D.FIELD_POWER f < 2 && decide (t.rd D.FIELD_FREQ f < fcMhz r) then t.demand (.glide (Fin.ofNat 8 f)) else t)
    (s.wr D.FIELD_CLOCK_STATE 0 2)

/-- The request behind a switch starts to glide. -/
def State.clockGo (s : State) : State := match s.clkReq with | some r => s.glide r | none => s

/-- The request fails with the switch behind it (R198, R367). -/
def State.clockFail (s : State) (st : Nat) : State :=
  if s.clkReq.isSome then (({ s with clkReq := none } : State).wr D.FIELD_CLOCK_STATE 0 4).wr D.FIELD_CLOCK_STATUS 0 st else s

end Sys2Proof.Machine
end

