-- ==== Sys2Proof/Machine/GateOps.lean ====
section
/-! DEFINITION. Gate time: the synchronisation state, the time exchange on a link, the choice of the upstream, the servo and its step, and the
time receiver of PTP (R213 to R221). -/

namespace Sys2Proof.Machine

/-- Hop count a reply carries (R215, Table 11.9): 0 for a root, 15 when unknown. -/
def State.ghops (s : State) : Nat := if s.rd D.GATE_SOURCE 0 != 2 then 0 else min 15 (s.rd D.GATE_HOPS 0)

/-- GATE_ERR_BOUND (R220). -/
def State.errBound (s : State) : Nat :=
  match s.rd D.GATE_SYNC_STATE 0 with
  | 0 => 0xFFFFFFFF
  | st =>
    let h := s.rd D.GATE_HOPS 0
    min 0xFFFFFFFF (2 + 10 * (if h = 0xFF then 0 else h) + (if st = 2 then (s.gate - s.gsv.holdAt) / 10000 else 0))

/-- The synchronisation state changes, with its event (R214). -/
def State.setSync (s : State) (st : Nat) : State :=
  if s.rd D.GATE_SYNC_STATE 0 = st then s
  else
    let g := { s.gsv with lock := 0, holdAt := if st = 2 then s.gate else s.gsv.holdAt }
    (({ s with gsv := g } : State).wr D.GATE_SYNC_STATE 0 st).raise
      (if st = 1 then Ev.GATE_SYNCED else if st = 2 then Ev.GATE_HOLDOVER else Ev.GATE_SYNC_LOST) 0 0

/-- A launch, a sweep or a lap switch is armed (R219). -/
def State.somethingArmed (s : State) : Bool :=
  !s.armed.isEmpty || (List.range 16).any (fun p => s.rd D.SWEEP_STATE p == 1) || s.lapOp.isSome

/-- A step is allowed (R219). -/
def State.stepOk (s : State) : Bool := s.rd D.LAP_STATE 0 == 0 && !s.somethingArmed

/-- Half of a sum of nanoseconds; the rounding of an odd sum is left open, so it is a free value (log 3). -/
def State.halved (s : State) (x : Int) : Int × State :=
  if x % 2 = 0 then (x / 2, s) else (x / 2 + ((s.fresh % 2 : Nat) : Int), s.drew)

/-- A signed value of `w` bits; the spec gives none for a number that does not fit (log 3). -/
def State.fits (s : State) (w : Nat) (x : Int) : Nat × State :=
  if -((2 : Int) ^ (w - 1)) ≤ x ∧ x < (2 : Int) ^ (w - 1) then (ofSigned w x, s) else (s.fresh % 2 ^ w, s.drew)

/-- An offset beyond ±1 µs in UNSYNC: the step waits for a sync word, or is blocked (R219). `off` is in ns. -/
def State.wantStep (s : State) (off : Int) : State :=
  if s.stepOk then { s with gsv := { s.gsv with step := some (-off) } } else s.raise Ev.GATE_STEP_BLOCKED 0 0

/-- The lock count after an offset that is good or not. -/
def State.noteLock (s : State) (good : Bool) : State :=
  { s with gsv := { s.gsv with lock := if good then s.gsv.lock + 1 else 0 } }

/-- The servo of a follower on an offset of its upstream, given as twice its value and rounded (R214, R218, R219). -/
def State.servo (s : State) (off2 off : Int) : State :=
  let big := decide (2000 < off2.natAbs)
  let s := if big then s.setSync 0 else s
  let s := s.noteLock (decide (off2.natAbs ≤ 16))
  if big then s.wantStep off
  else if s.rd D.GATE_SYNC_STATE 0 != 1 && decide (8 ≤ s.gsv.lock) then s.setSync 1 else s

/-! ### The upstream (R217) -/

/-- The exchange of a link. -/
def State.tmx (s : State) (n : Nat) : Tmx := (s.lnk n).tmx

def State.setTmx (s : State) (n : Nat) (x : Tmx) : State := s.setLnk n { (s.lnk n) with tmx := x }

/-- The link qualifies as an upstream. -/
def State.qualifies (s : State) (n : Nat) : Bool :=
  let x := s.tmx n
  s.has .link n && s.rd D.LINK_STATE n == 3 && bit (s.rd D.GATE_UPSTREAM_MASK 0) n && x.known && (x.state == 1 || x.state == 2) &&
    decide (x.hops ≤ 14)

/-- Of the qualifying links, the one with the smallest hop count, the lowest number first. -/
def State.bestUpstream (s : State) : Option Nat :=
  ((List.range 64).filter s.qualifies).foldl (fun b n =>
    match b with
    | none => some n
    | some m => if (s.tmx n).hops < (s.tmx m).hops then some n else some m) none

/-- Another upstream is taken: the count of good offsets starts again. -/
def State.takeUpstream (s : State) (n : Nat) : State :=
  (({ s with gsv := { s.gsv with lock := 0 } } : State).wr D.GATE_UPSTREAM_LINK 0 n).count D.GATE_UPSTREAM_CHANGES 0 1

/-- Two qualifying partners disagree by more than 100 ns, by their last offsets. -/
def State.rootsDiffer (s : State) : Bool :=
  let l := ((List.range 64).filter s.qualifies).filterMap (fun n => (s.tmx n).off2)
  l.any (fun a => l.any (fun b => decide (200 < a - b)))

/-- The choice of R217, made again. -/
def State.chooseUpstream (s : State) : State :=
  if s.rd D.GATE_SOURCE 0 != 2 then s
  else
    let clash := s.rootsDiffer
    let s := if clash && !s.gsv.conflict then s.raise Ev.GATE_ROOT_CONFLICT 0 0 else s
    let s := { s with gsv := { s.gsv with conflict := clash } }
    let cur := s.rd D.GATE_UPSTREAM_LINK 0
    match s.bestUpstream with
    | none => if cur = 0xFF then s else s.wr D.GATE_UPSTREAM_LINK 0 0xFF
    | some b =>
      if cur != 0xFF && s.qualifies cur then
        (if clash then s else if (s.tmx b).hops + 2 ≤ (s.tmx cur).hops then s.takeUpstream b else s)
      else s.takeUpstream b

/-- GATE_HOPS of a follower: its upstream's hop count and one more (R215). -/
def State.noteHops (s : State) : State :=
  let u := s.rd D.GATE_UPSTREAM_LINK 0
  if s.rd D.GATE_SOURCE 0 = 2 && u != 0xFF && (s.tmx u).known then s.wr D.GATE_HOPS 0 ((s.tmx u).hops + 1) else s

/-! ### TIMEX (R215, R216, R300) -/

/-- Header of a TIMEX message (Table 11.9). -/
def timexHdr (kind xseq state hops err : Nat) : Nat :=
  0x21 + kind * 2 ^ 6 + xseq * 2 ^ 8 + state * 2 ^ 24 + hops * 2 ^ 26 + err * 2 ^ 30 + 2 ^ 121

def txKind (m : Nat) : Nat := bits m 7 6
def txXseq (m : Nat) : Nat := bits m 23 8

/-- Queue a TIMEX message. -/
def State.sendTimex (s : State) (n hdr time : Nat) : State :=
  s.sendLink n { step := 2, hdr := hdr, ext := 0, payload := time, cls := 0, deadline := none }

/-- What sending a TIMEX message does: a request takes t1, a reply's t3 goes into its follow-up (R215, R300). -/
def State.timexSent (s : State) (n hdr : Nat) : State :=
  match txKind hdr with
  | 0 => if txXseq hdr = (s.tmx n).seq then s.setTmx n { s.tmx n with t1 := some s.gate } else s
  | 1 => s.sendTimex n (timexHdr 2 (txXseq hdr) 0 0 0) s.gate
  | _ => s

/-- The exchange is complete (R216): the fixed delays, 7.5 ns and 11.5 ns at each end, leave the offset as it is and take 19 ns from the delay. -/
def State.exchanged (s : State) (n t1 t2 t3 t4 : Nat) : State :=
  let raw2 : Int := ((t1 : Int) - t2) + ((t4 : Int) - t3)
  let off2 := raw2 + toSigned 32 (s.rd D.LINK_ASYM_USER n)
  let del2 : Int := ((t4 : Int) - t1) - ((t3 : Int) - t2) - 38
  let (o, s) := s.halved off2
  let (ov, s) := s.fits 32 o
  let (d, s) := s.halved del2
  let (dv, s) := if 0 ≤ d ∧ d < 2 ^ 32 then (d.toNat, s) else (s.fresh % 2 ^ 32, s.drew)
  let s := (s.wr D.LINK_TIME_OFFSET n ov).wr D.LINK_TIME_DELAY n dv
  let s := (s.setTmx n { s.tmx n with wait := false, off2 := some off2 }).chooseUpstream.noteHops
  if s.rd D.GATE_SOURCE 0 = 2 && s.rd D.GATE_UPSTREAM_LINK 0 == n then s.servo off2 o else s

/-! ### PTP (R221) -/

/-- The servo of a PTP time receiver on an offset from its time transmitter, given as twice its value and rounded. -/
def State.ptpServo (s : State) (off2 off : Int) : State :=
  let big := decide (2000 < off2.natAbs)
  let first := !s.gsv.corrected
  let s := if big && s.synced then (s.setSync 0).wr D.PTP_STATE 0 1 else s
  let s := s.noteLock (decide (off2.natAbs ≤ 200))
  let s := if big && first then s.wantStep off else s
  let s := { s with gsv := { s.gsv with corrected := true } }
  if s.rd D.GATE_SYNC_STATE 0 != 1 && decide (16 ≤ s.gsv.lock) then ((s.wr D.GATE_HOPS 0 0).setSync 1).wr D.PTP_STATE 0 2 else s

/-- The better of two time transmitters: lower priority, then lower identity. -/
def ptpBetter (a b : Nat × Nat) : Bool := decide (a.1 < b.1) || (a.1 == b.1 && decide (a.2 < b.2))

/-- A message of the time transmitter. -/
def State.fromMaster (s : State) (domain : BitVec 8) (identity : Nat) : Bool :=
  domain.toNat == s.rd D.PTP_DOMAIN 0 && (match s.gsv.master with | some m => m.2 == identity | none => false)

/-- A PTP message at the management port. -/
def State.ptpTake (s : State) (m : PtpMsg) : State :=
  match m with
  | .announce d p i =>
    if d.toNat != s.rd D.PTP_DOMAIN 0 then s
    else match s.gsv.master with
      | some old =>
        if old.2 = i then { s with gsv := { s.gsv with master := some (p, i) } }
        else if ptpBetter (p, i) old then
          ({ s with gsv := { s.gsv with master := some (p, i), ptpT1 := none, ptpT2 := none, lock := 0 } } : State).wr D.PTP_STATE 0 1
        else s
      | none => ({ s with gsv := { s.gsv with master := some (p, i), lock := 0 } } : State).wr D.PTP_STATE 0 1
  | .syncOneStep d i t1 t2 =>
    if s.fromMaster d i then { s with gsv := { s.gsv with ptpT1 := some t1, ptpT2 := some t2 } } else s
  | .syncTwoStep d i t2 => if s.fromMaster d i then { s with gsv := { s.gsv with ptpT1 := none, ptpT2 := some t2 } } else s
  | .followUp d i t1 =>
    if s.fromMaster d i && s.gsv.ptpT2.isSome then { s with gsv := { s.gsv with ptpT1 := some t1 } } else s
  | .delayResp d i t3 t4 =>
    if s.fromMaster d i then
      (match s.gsv.ptpT1, s.gsv.ptpT2 with
       | some t1, some t2 =>
         let off2 : Int := ((t2 : Int) - t1) - ((t4 : Int) - t3)
         let (o, s) := s.halved off2
         let (v, s) := s.fits 64 o
         (({ s with gsv := { s.gsv with ptpT1 := none, ptpT2 := none } } : State).wr D.PTP_OFFSET 0 v).ptpServo off2 o
       | _, _ => s)
    else s

end Sys2Proof.Machine
end

