-- ==== Sys2Proof/Machine/Rings.lean ====
section
/-! DEFINITION. Ring contexts, doorbells, descriptors and their completion (R124 to R135). -/

namespace Sys2Proof.Machine

/-! ### Engines -/

/-- Rings of an engine that have state. -/
def State.ringsOf (s : State) (t : Nat) : List (Nat × Ring) := s.rings.filter (fun e => rcEngine (s.ringCtx e.1) == t)

/-- TE_STATE of an engine that has not failed (Table 5.12). -/
def State.teRefresh (s : State) (t : Nat) : State :=
  if s.rd D.TE_STATE t = 3 then s
  else
    let l := s.ringsOf t
    let busy := l.any (fun e => !e.2.active.isEmpty || e.2.fetching)
    let stopping := l.any (fun e => e.2.disabling.isSome || e.2.stopAt.isSome)
    s.wr D.TE_STATE t (if stopping then 2 else if busy then 1 else 0)

/-- An engine serves a ring: of more than 16 contexts the least recently served is displaced (R130). -/
def State.teServe (s : State) (r : Nat) : State :=
  let t := rcEngine (s.ringCtx r)
  let l := Table.get [] t s.teCtx
  let rest := l.filter (fun x => x != r)
  if l.contains r || l.length < 16 then { s with teCtx := Table.set [] t (rest ++ [r]) s.teCtx }
  else ({ s with teCtx := Table.set [] t (rest.drop 1 ++ [r]) s.teCtx } : State).count D.TE_CONTEXT_SWAPS t 1

/-- Descriptors of the ring may be fetched and started. -/
def State.ringRuns (s : State) (r : Nat) : Bool :=
  let c := s.ringCtx r
  let x := s.ring r
  rcEnable c && !rcStopped c && x.disabling.isNone && x.stopAt.isNone && s.rd D.TE_STATE (rcEngine c) != 3

/-- A request of an engine for ring `r` (Table 9.1, R131). -/
def State.teEnter (s : State) (r mark cls : Nat) (kind : ReqKind) (dev addr len attr data : Nat) (poison : Bool) : State :=
  let c := s.ringCtx r
  s.enter { origin := .te r mark, kind := kind, group := 1, source := rcEngine c, part := rcPart c, cls := cls,
            deadline := s.deadlineOf cls none, dev := dev, addr := addr, len := len, attr := attr, data := data, poison := poison,
            relaxed := false, epoch := 0, order := 0, stage := .held, chunks := 0, parts := [], record := 0, status := 0 }

/-! ### Descriptors -/

/-- Bytes of a block's wide elements, and of its stored data. -/
def tdWide (d : Nat) : Nat := 4 * fmtBits (fdDelivered d)
def tdData (d : Nat) : Nat := 4 * fmtBits (fdStored d)

/-- Unit address and block number in it of block `k` from `a` (R91). -/
def blockUnit (d a k : Nat) : Nat := a + fmtUnit (fdStored d) * (k / fmtBlocks (fdStored d))
def blockIdx (d k : Nat) : Nat := k % fmtBlocks (fdStored d)

/-- Two local ranges overlap in one view. -/
def State.sameViewOverlap (s : State) (a b n : Nat) : Bool :=
  match regionOf s.variant a, regionOf s.variant b with
  | .view c _ _, .view c' _ _ => c == c' && decide (a < b + n ∧ b < a + n)
  | _, _ => false

/-- The rules of R129 and Tables 5.5 and 5.6 that a descriptor keeps; `f` is its format descriptor. -/
def State.descOk (s : State) (w f : Nat) : Bool :=
  let loc (a : Nat) : Bool := gaDev a == s.devNum
  bits w 15 13 == 0 && bits w 23 22 == 0 && bits w 31 30 == 0 && bits w 127 120 == 0 && bits w 191 184 == 0 && bits w 511 320 == 0 &&
    tdLen w != 0 &&
    (match tdOp w with
     | 1 => !(loc (tdSrc w) && loc (tdDst w) && s.sameViewOverlap (gaLocal (tdSrc w)) (gaLocal (tdDst w)) (tdLen w))
     | 2 => tdDst w % 8 == 0 && tdLen w % 8 == 0
     | 3 =>
       let blk := if tdDir w then tdDst w else tdSrc w
       let wide := if tdDir w then tdSrc w else tdDst w
       loc blk && loc wide && (!fdValid f || (gaLocal blk % fmtUnit (fdStored f) == 0 && wide % tdWide f == 0))
     | 4 => tdDst w % 512 == 0
     | 5 => loc (tdDst w) && tdDst w % 128 == 0 && tdLen w % 128 == 0 && tdImm w ≤ 5
     | 6 => tdLen w == 1
     | 7 => tdLen w == 1
     | _ => false)

/-- A descriptor is replaced in its ring. -/
def State.putDesc (s : State) (r : Nat) (d : Desc) : State :=
  let x := s.ring r
  s.setRing r { x with active := x.active.map (fun e => if e.idx = d.idx then d else e) }

/-- The status does not stop the ring: success, a COPY or CONVERT done whose source was poisoned (R133; the error of its own write is R132's),
or the end a disable gives (R127). -/
def keepsRunning (d : Desc) (st : Nat) : Bool :=
  st == 0 || (st == St.POISONED && (tdOp d.word == 1 || tdOp d.word == 3) && decide (tdLen d.word ≤ d.pos)) || st == St.RING_DISABLED

/-- Where a ring stops when descriptor `idx` in flight fails with `st`: at the first of those that have failed (R132). -/
def Ring.stopTo (x : Ring) (idx st : Nat) : Nat × Nat :=
  match x.stopAt with
  | some (i, q) =>
    if x.active.any (fun d => d.idx == i) && (x.active.takeWhile (fun d => d.idx != i)).any (fun d => d.idx == idx) then (idx, st) else (i, q)
  | none => (idx, st)

/-- A descriptor has done its work, or has failed: the ring starts no other when the status stops it (R132). -/
def State.descEnd (s : State) (r : Nat) (d : Desc) (st : Nat) : State :=
  let s := s.putDesc r { d with st := .done st }
  let x := s.ring r
  if keepsRunning d st then s else s.setRing r { x with stopAt := some (x.stopTo d.idx st) }

/-- The next address a descriptor's streams reach stands at a 2 MiB crossing, or nothing has been requested yet (R127). -/
def atCrossing (f : Nat) (d : Desc) : Bool :=
  let w := d.word
  let z (a : Nat) : Bool := a % 2 ^ 21 == 0
  d.pos == 0 ||
    (match tdOp w with
     | 1 => z (tdSrc w + d.pos) || z (tdDst w + d.pos)
     | 2 => z (tdDst w + d.pos)
     | 3 =>
       let blk := if tdDir w then tdDst w else tdSrc w
       let wide := if tdDir w then tdSrc w else tdDst w
       z (wide + tdWide f * d.pos) || (blockIdx f d.pos == 0 && z (blockUnit f blk d.pos))
     | 4 => z (tdDst w + 128 * d.pos) || (blockIdx f d.pos == 0 && z (blockUnit f (tdSrc w) d.pos))
     | _ => false)

/-- Bytes of a request from `a`: within its line and `n` (R131). -/
def lineBytes (a n : Nat) : Nat := min n (128 - a % 128)

/-- Blocks of the next format request of a CONVERT, and of an ACCUMULATE. -/
def convBlocks (f : Nat) (d : Desc) : Nat := min (min 4 (tdLen d.word - d.pos)) (fmtBlocks (fdStored f) - blockIdx f d.pos)
def accBlocksOf (f : Nat) (d : Desc) : Nat := min (convBlocks f d) (4 - d.pos % 4)

/-- Bytes an ACCUMULATE reads for `n` blocks: data, then the scales of a block format. -/
def accRead (f n : Nat) : Nat := n * tdData f + (if fmtBlock (fdStored f) then n else 0)

/-- The payload of a scaled accumulate from the bytes read: each block's data, then its scale (Table 4.5). -/
def accPayload (f n data : Nat) : Nat → Nat
  | 0 => 0
  | k + 1 =>
    let sz := tdData f + 1
    if fmtBlock (fdStored f) then
      accPayload f n data k + (bytesOf data (k * tdData f) (tdData f) + bytesOf data (n * tdData f + k) 1 * 2 ^ (8 * tdData f)) *
        2 ^ (8 * (k * sz))
    else data

/-- ATTR of a format request of `n` blocks. -/
def fmtAttr (w n : Nat) : Nat := tdFmt w + (n - 1) * 64

/-- Issue the next request of a descriptor that stands between requests, or end it (R129 to R133). -/
def State.descNext (s : State) (r : Nat) (d : Desc) : State :=
  let w := d.word
  let f := s.fdesc (rcPart (s.ringCtx r)) (tdFmt w)
  let go (d : Desc) (kind : ReqKind) (a len attr data : Nat) (poison : Bool) (st : DescSt) : State :=
    (s.putDesc r { d with st := st }).teEnter r d.idx (tdClass w) kind (gaDev a) (gaLocal a) len attr data poison
  let last := if d.poisoned then St.POISONED else 0
  if tdOp w != 5 && tdLen w ≤ d.pos && d.unit == 0 then s.descEnd r d last
  else if d.unit == 0 && (s.ring r).disabling.isSome && atCrossing f d then s.descEnd r d St.RING_DISABLED
  else match tdOp w with
    | 1 =>
      if d.unit = 0 then
        let n := min (lineBytes (tdSrc w + d.pos) (tdLen w - d.pos)) (lineBytes (tdDst w + d.pos) 128)
        go { d with unit := n } .read (tdSrc w + d.pos) n 0 0 false .reading
      else go d .write (tdDst w + d.pos) d.unit 0 d.data d.hot .writing
    | 2 =>
      let n := lineBytes (tdDst w + d.pos) (tdLen w - d.pos)
      go { d with unit := n } .write (tdDst w + d.pos) n 0 ((List.range 16).foldl (fun a k => a + tdImm w * 2 ^ (64 * k)) 0 % 2 ^ (8 * n))
        false .writing
    | 3 =>
      if !fdValid f then s.descEnd r d St.FORMAT_UNSET
      else if !tdDir w then
        if d.unit = 0 then
          let n := convBlocks f d
          go { d with unit := n, sub := 0 } .fmtRead (blockUnit f (tdSrc w) d.pos) (blockIdx f d.pos) (fmtAttr w n) 0 false .reading
        else
          let a := tdDst w + tdWide f * d.pos + d.sub
          let n := lineBytes a (tdWide f * d.unit - d.sub)
          go d .write a n 0 (bytesOf d.data d.sub n) d.hot .writing
      else if d.unit = 0 || d.sub < tdWide f * d.unit then
        let u := if d.unit = 0 then convBlocks f d else d.unit
        let sub := if d.unit = 0 then 0 else d.sub
        let a := tdSrc w + tdWide f * d.pos + sub
        go { d with unit := u, sub := sub, data := if d.unit = 0 then 0 else d.data, hot := d.hot && d.unit != 0 } .read a
          (lineBytes a (tdWide f * u - sub)) 0 0 false .reading
      else go d .fmtWrite (blockUnit f (tdDst w) d.pos) (blockIdx f d.pos) (fmtAttr w d.unit) d.data d.hot .writing
    | 4 =>
      if !fdValid f then s.descEnd r d St.FORMAT_UNSET
      else
        let u := if d.unit = 0 then accBlocksOf f d else d.unit
        let sub := if d.unit = 0 then 0 else d.sub
        let base := blockUnit f (tdSrc w) d.pos
        let b := blockIdx f d.pos
        if sub < accRead f u then
          let (a, n) := if sub < u * tdData f then (base + b * tdData f + sub, u * tdData f - sub)
                        else (base + fmtScaleOff (fdStored f) + b + (sub - u * tdData f), accRead f u - sub)
          go { d with unit := u, sub := sub, data := if d.unit = 0 then 0 else d.data } .read a (lineBytes a n) 0 0 false .reading
        else go d .scaledAcc (tdDst w + 512 * (d.pos / 4)) (d.pos % 4) (fmtAttr w u) (accPayload f u d.data u) false .writing
    | 5 => go d .range (tdDst w) (tdLen w) (tdImm w + (tdLocked w).toNat * 16) 0 false .writing
    | 6 => s.putDesc r { d with st := .gateWait }
    | _ => s.descEnd r d 0

/-- The bytes the read of a descriptor asked for. -/
def State.readSize (s : State) (r : Nat) (d : Desc) : Nat :=
  let w := d.word
  let f := s.fdesc (rcPart (s.ringCtx r)) (tdFmt w)
  match tdOp w with
  | 3 => let a := tdSrc w + tdWide f * d.pos + d.sub; lineBytes a (tdWide f * d.unit - d.sub)
  | _ =>
    let base := blockUnit f (tdSrc w) d.pos
    let b := blockIdx f d.pos
    if d.sub < d.unit * tdData f then lineBytes (base + b * tdData f + d.sub) (d.unit * tdData f - d.sub)
    else lineBytes (base + fmtScaleOff (fdStored f) + b + (d.sub - d.unit * tdData f)) (accRead f d.unit - d.sub)

/-- A read of a descriptor ended: a poisoned source of COPY or CONVERT goes on with the mark (R133), any other error ends it (R132). -/
def State.descRead (s : State) (r : Nat) (d : Desc) (st data : Nat) : State :=
  let w := d.word
  let bad := st != 0 && !(st == St.POISONED && (tdOp w == 1 || tdOp w == 3))
  if bad then s.descEnd r { d with unit := 0 } st
  else
    let hot := st != 0
    match tdOp w, tdDir w with
    | 1, _ => s.descNext r { d with st := .ready, data := data, hot := hot, poisoned := d.poisoned || hot }
    | 3, false => s.descNext r { d with st := .ready, data := data, hot := hot, poisoned := d.poisoned || hot }
    | _, _ =>
      let n := s.readSize r d
      s.descNext r { d with st := .ready, data := d.data + data * 2 ^ (8 * d.sub), sub := d.sub + n, hot := d.hot || hot,
                            poisoned := d.poisoned || hot }

/-- A write, format request or range of a descriptor ended (R132). DONE counts whole groups that succeeded; bytes written of a group that
then failed are beyond that prefix. -/
def State.descWrote (s : State) (r : Nat) (d : Desc) (st data : Nat) : State :=
  let w := d.word
  if st != 0 then s.descEnd r { d with unit := 0, beyond := d.beyond || (tdOp w == 3 && !tdDir w && d.sub != 0),
                                       detail := if tdOp w = 5 then data else d.detail } st
  else match tdOp w with
    | 3 =>
      let f := s.fdesc (rcPart (s.ringCtx r)) (tdFmt w)
      if tdDir w then s.descNext r { d with st := .ready, pos := d.pos + d.unit, unit := 0, sub := 0 }
      else
        let sub := d.sub + lineBytes (tdDst w + tdWide f * d.pos + d.sub) (tdWide f * d.unit - d.sub)
        if sub < tdWide f * d.unit then s.descNext r { d with st := .ready, sub := sub }
        else s.descNext r { d with st := .ready, pos := d.pos + d.unit, unit := 0, sub := 0 }
    | 5 => s.descEnd r { d with pos := tdLen w, unit := 0, detail := data } 0
    | _ => s.descNext r { d with st := .ready, pos := d.pos + d.unit, unit := 0, sub := 0 }

/-! ### Completion -/

/-- A ring that has drained stops, or ends its disable (R127, R132). -/
def State.ringDrained (s : State) (r : Nat) : State :=
  let x := s.ring r
  let s := if !x.active.isEmpty then s
    else match x.stopAt, x.disabling with
      | some (i, st), o =>
        let s := (s.markStop r i st).setRing r Ring.init
        let s := s.ringNotify r true i st
        (match o with
         | some q => (s.setCtx r (setBit (s.ringCtx r) 0 false)).answer s.nextReq q 0 0 0
         | none => s)
      | none, some q =>
        if x.fetching then s
        else ((s.setCtx r (setBit (s.ringCtx r) 0 false)).setRing r Ring.init).answer s.nextReq q 0 0 0
      | none, none => s
  s.teRefresh (rcEngine (s.ringCtx r))

/-- The first descriptor in flight leaves the ring; its notification is sent unless the stop's own follows (R134). -/
def State.descLeave (s : State) (r : Nat) (d : Desc) (st : Nat) : State :=
  let x := s.ring r
  let s := s.setRing r { x with active := x.active.filter (fun e => e.idx != d.idx) }
  let s := if tdNotify d.word && keepsRunning d st then s.ringNotify r false d.idx st else s
  s.ringDrained r

/-- Where a ring stops whose completion write for descriptor `idx` failed with `st`: at an earlier descriptor that stopped it already (R132),
else there (R134). -/
def Ring.faultAt (x : Ring) (idx st : Nat) : Nat × Nat :=
  match x.stopAt with
  | some (i, q) => if x.active.any (fun d => d.idx == i) then (idx, st) else (i, q)
  | none => (idx, st)

/-- A completion write failed (R134): the ring stops with its status, and what was in flight is dropped. -/
def State.compFailed (s : State) (r idx st : Nat) : State :=
  let o := (s.ring r).disabling
  let a := (s.ring r).faultAt idx st
  let s := (s.compFault r a.1 a.2).setRing r Ring.init
  let s := s.ringOrphan r
  let s := match o with
    | some q => (s.setCtx r (setBit (s.ringCtx r) 0 false)).answer s.nextReq q 0 0 0
    | none => s
  s.teRefresh (rcEngine (s.ringCtx r))

/-- The words of a fetched group. -/
def groupWords : Nat → Nat → Nat → List (Nat × Nat)
  | 0, _, _ => []
  | n + 1, i, v => (i % 2 ^ 32, v % 2 ^ 512) :: groupWords n (i + 1) (v / 2 ^ 512)

/-- Descriptors of the group an engine fetches next: available, not fetched, at most 8, not past the end of the ring (R130). -/
def State.fetchCount (s : State) (r : Nat) : Nat :=
  let c := s.ringCtx r
  let i := (rcHead c + (s.ring r).fetched.length) % 2 ^ 32
  let n := (rcTail c + 2 ^ 32 - i) % 2 ^ 32
  if 2 ^ rcSize c < n then 0 else min (min 8 n) (2 ^ rcSize c - i % 2 ^ rcSize c)

/-- A fetch ended: its descriptors are held, or its first is treated as failed before its first request (R134). USER of a descriptor that
could not be read is a free value. -/
def State.fetched (s : State) (r i st data n : Nat) : State :=
  let x := s.ring r
  if st = 0 then s.setRing r { x with fetching := false, fetched := x.fetched ++ groupWords n i data }
  else
    let d : Desc := { idx := i % 2 ^ 32, word := s.fresh * 2 ^ 256, st := .done st, pos := 0, unit := 0, sub := 0, data := 0, hot := false,
                      poisoned := false, beyond := false, detail := 0 }
    s.drew.setRing r { x with fetching := false, active := x.active ++ [d], stopAt := if x.stopAt.isSome then x.stopAt else some (d.idx, st) }

/-! ### Commands -/

/-- DOORBELL (R128): a doorbell write that has reached the ring engine. -/
def execDoorbell (rid : Nat) (s : State) : Host.Outcome State Fault Refusal :=
  match s.req? rid with
  | none => .next s
  | some r =>
    if r.kind == .doorbell && r.stage == .slice then
      let (st, t) := s.doorbell (ringOfAddr r.addr) r.part r.data
      .next (t.complete rid st 0 0)
    else .next s

/-- DESCRIPTOR_FETCH (R130). -/
def execDescriptorFetch (r : Fin 1048576) (s : State) : Host.Outcome State Fault Refusal :=
  let c := s.ringCtx r
  let x := s.ring r
  let n := s.fetchCount r
  if s.ringRuns r && !x.fetching && x.fetched.length < 8 && n != 0 then
    let i := (rcHead c + x.fetched.length) % 2 ^ 32
    let s := (s.teServe r).setRing r { x with fetching := true }
    .next ((s.teEnter r (teFetchMark + i) 0 .read s.devNum (rcBase c + 64 * (i % 2 ^ rcSize c)) (64 * n) 0 0 false).teRefresh (rcEngine c))
  else .next s

/-- DESCRIPTOR_START (R129, R130): the next descriptor starts; a RANGE is left for RANGE to send. -/
def execDescriptorStart (r : Fin 1048576) (s : State) : Host.Outcome State Fault Refusal :=
  let c := s.ringCtx r
  let x := s.ring r
  match x.fetched with
  | [] => .next s
  | (i, w) :: rest =>
    let waits := x.active.any (fun d => d.st == .gateWait || (tdOp d.word == 6 && (match d.st with | .done _ => false | _ => true)))
    if !s.ringRuns r || waits || 4 ≤ x.active.length || (tdFence w && !x.active.isEmpty) then .next s
    else
      let f := s.fdesc (rcPart c) (tdFmt w)
      let d : Desc := { idx := i, word := w, st := .ready, pos := 0, unit := 0, sub := 0, data := 0, hot := false, poisoned := false,
                        beyond := false, detail := 0 }
      let s := (s.setCtx r (setBits c 223 192 ((rcHead c + 1) % 2 ^ 32))).teServe r
      let s := s.setRing r { x with fetched := rest, active := x.active ++ [d] }
      let s := if !s.descOk w f then s.descEnd r d St.DESC_BAD else if tdOp w = 5 then s else s.descNext r d
      .next (s.teRefresh (rcEngine c))

/-- The next result for a ring. -/
def State.takeDone (s : State) (r : Nat) : Option (TeDone × State) :=
  match findIdxFrom (fun (d : TeDone) => d.ring == r) s.teDone 0 with
  | some (i, d) => some (d, { s with teDone := s.teDone.take i ++ s.teDone.drop (i + 1) })
  | none => none

/-- TE_REQUEST_DONE (R132, R133, R134): a request of the ring's engine has completed. -/
def execTeRequestDone (r : Fin 1048576) (s : State) : Host.Outcome State Fault Refusal :=
  match s.takeDone r with
  | none => .next s
  | some (e, s) =>
    if teCompMark ≤ e.desc then
      match (s.ring r).active.find? (fun d => d.idx == e.desc - teCompMark) with
      | none => .next s
      | some d =>
        if e.status != 0 then .next (s.compFailed r d.idx e.status)
        else match d.st with
          | .entry st => .next ((s.compAdvance r).descLeave r d st)
          | _ => .next s
    else if teFetchMark ≤ e.desc then
      let i := e.desc - teFetchMark
      .next ((s.fetched r i e.status e.data (s.fetchCount r)).ringDrained r)
    else
      match (s.ring r).active.find? (fun d => d.idx == e.desc) with
      | none => .next s
      | some d =>
        match d.st with
        | .reading => .next (s.descRead r d e.status e.data)
        | .writing => .next (s.descWrote r d e.status e.data)
        | _ => .next s

/-- DESCRIPTOR_COMPLETE (R134): the lowest descriptor in flight has finished; its entry is written when asked or when it failed. -/
def execDescriptorComplete (r : Fin 1048576) (s : State) : Host.Outcome State Fault Refusal :=
  match (s.ring r).active with
  | [] => .next s
  | d :: _ =>
    match d.st with
    | .done st =>
      if tdComp d.word || st != 0 then
        let c := s.ringCtx r
        let s := s.putDesc r { d with st := .entry st }
        .next (s.teEnter r (teCompMark + d.idx) 0 .write s.devNum (compAddr c) 32 0
          (compEntry (rcSize c) (rcCompIndex c) d.idx st d.beyond d.word d.pos d.detail) false)
      else .next (s.descLeave r d st)
    | _ => .next s

/-- GATE_WAIT_DONE (R129): gate time has reached IMM. -/
def execGateWaitDone (r : Fin 1048576) (s : State) : Host.Outcome State Fault Refusal :=
  match (s.ring r).active.find? (fun d => d.st == .gateWait) with
  | none => .next s
  | some d => if tdImm d.word ≤ s.gate then .next (s.descEnd r d 0) else .next s

/-- An engine fails: its rings stop, their owners get an ENGINE_FAIL record, and the defect map an entry (R398, R419). -/
def State.failEngine (s : State) (t cause : Nat) : State :=
  if s.rd D.TE_STATE t = 3 then s
  else
    let rs := s.ringsWhere (fun c => rcEnable c && !rcStopped c && rcEngine c == t)
    let own := (List.range 16).filter (fun p => s.rdB D.PART_ENABLE p && !(s.ringsWhere (fun c => rcEngine c == t && rcEnable c && rcPart c == p)).isEmpty)
    let s := rs.foldl (fun u r => u.ringStop r cause) s
    let s := s.wr D.TE_STATE t 3
    (s.recordTo own 0x47 clsContained (ucEngine t) cause 0 rs.length).addDefect (ucEngine t) 0 2 cause

/-- ENGINE_FAIL (R419). -/
def execEngineFail (t : Fin 512) (s : State) : Host.Outcome State Fault Refusal :=
  .next (if s.has .te t then s.failEngine t Ca.SELFTEST_FAIL else s)

/-! ### Ring contexts -/

/-- Reserved bits of a context, and the address bits that are zero (Table 5.4). -/
def rcReserved (c : Nat) : Bool :=
  bits c 3 2 != 0 || bits c 15 13 != 0 || bits c 63 25 != 0 || bits c 69 64 != 0 || bits c 127 108 != 0 || bits c 132 128 != 0 ||
    bits c 191 172 != 0 || bits c 319 304 != 0 || bits c 511 368 != 0

/-- A disable: fetched descriptors are dropped, each in flight stops at a crossing or runs to the next (R127). -/
def State.ringDisable (s : State) (r : Nat) (o : Origin) : State :=
  let f (w : Nat) := s.fdesc (rcPart (s.ringCtx r)) (tdFmt w)
  let x := s.ring r
  let s := s.setRing r { x with fetched := [], disabling := some o }
  let s := x.active.foldl (fun t d =>
    match d.st with
    | .ready => if d.unit == 0 && atCrossing (f d.word) d then t.descEnd r d St.RING_DISABLED else t
    | .gateWait => t.descEnd r d St.RING_DISABLED
    | _ => t) s
  s.ringDrained r

/-- A write of context `v` to ring `r`; `who` is the partition of a host or attach command, and `o` who is answered (R124, R126, R127, R261). -/
def State.ringWrite (s : State) (r v : Nat) (who : Option Nat) (o : Origin) : State :=
  let c := s.ringCtx r
  let ans (s : State) (st : Nat) : State := s.answer s.nextReq o st 0 0
  if rcEnable v && !s.has .te (rcEngine v) then ans s St.UNIT_ABSENT
  else if (match who with | some p => rcPart c != p || rcPart v != p | none => false) then ans s St.RING_DENIED
  else if rcEnable c && !rcStopped c then
    if setBits v 303 288 0 = setBits c 303 288 0 then ans (s.setCtx r v) 0
    else if (s.ring r).disabling.isNone && v = setBit c 0 false then s.ringDisable r o
    else ans s St.RING_BUSY
  else if rcReserved v then ans s St.DESC_BAD
  else if rcEnable v && !(decide (4 ≤ rcSize v ∧ rcSize v ≤ 16)) then ans s St.DESC_BAD
  else if rcEnable v && s.rd D.TE_PARTITION (rcEngine v) != rcPart v then ans s St.RING_DENIED
  else ans ((s.ringOrphan r).setCtx r v |>.setRing r Ring.init) 0

/-- RING_CONTEXT's own rules. -/
def State.ownRing (s : State) (r : Nat) (w : OdWrite) : State := s.odHold.ringWrite r (odNum w) none .od

/-- The chunks of a command that has left its port are freed (R256). -/
def State.portFree (s : State) (i : Nat) (m : Msg) : State :=
  let x := s.port i
  s.setPort i { x with reqFreed := (x.reqFreed + msgChunks m) % 2 ^ 16 }

/-- What RING_WRITE and RING_READ do for a port. -/
def State.attachRingWrite (s : State) (i : Nat) (m : Msg) : State :=
  (s.portFree i m).ringWrite (mhAddr m.hdr.toNat % 2 ^ 20) (m.payload % 2 ^ 512) (some (s.rd D.PORT_PARTITION i))
    (.attach i (mhTag m.hdr.toNat))
def State.attachRingRead (s : State) (i : Nat) (m : Msg) : State :=
  let c := s.ringCtx (mhAddr m.hdr.toNat % 2 ^ 20)
  if rcPart c = s.rd D.PORT_PARTITION i then s.attachAnswer i m 0 64 c else s.attachAnswer i m St.RING_DENIED 0 0

/-- RING_WRITE (R126, R127). -/
def execRingWrite (src : CmdSrc) (s : State) : Host.Outcome State Fault Refusal :=
  match src with
  | .attach i m =>
    .next (s.attachTake i m 0x11 (fun t => t.attachRingWrite i m))
  | .host f slot h payload =>
    let hn := h.toNat
    .next (s.hostCmd f slot hn payload 0x11 (fun t => t.ringWrite (hcArg hn % 2 ^ 20) (payload % 2 ^ 512) (some (hcPart f hn)) (.hostCmd f slot)))
  | .object inst w =>
    s.odCmd (.ringWrite src) (fun t => t.odWrite (D.RING_CONTEXT (inst / 65536)) (inst % 65536) w (fun u => u.ownRing inst w))
  | .descriptor _ => .next s

/-- RING_READ (R126). -/
def execRingRead (src : CmdSrc) (s : State) : Host.Outcome State Fault Refusal :=
  match src with
  | .attach i m =>
    .next (s.attachTake i m 0x12 (fun t => t.attachRingRead i m))
  | .host f slot h payload =>
    let hn := h.toNat
    .next (s.hostCmd f slot hn payload 0x12 (fun t =>
      let c := t.ringCtx (hcArg hn % 2 ^ 20)
      if rcPart c = hcPart f hn then t.hostCmdDone f slot 0 c else t.hostCmdDone f slot St.RING_DENIED 0))
  | .object inst w =>
    s.odCmd (.ringRead src) (fun t =>
      match t.odCheckRead (D.RING_CONTEXT (inst / 65536)) (inst % 65536) w.route with
      | 0 => t.odAnswer 0 64 (t.ringCtx inst)
      | st => t.odAnswer st 0 0)
  | .descriptor _ => .next s

/-- RANGE (R73): an attach message, a host command, or the request of a ring's RANGE descriptor; no object carries it. -/
def execRange (src : CmdSrc) (s : State) : Host.Outcome State Fault Refusal :=
  match src with
  | .attach i m => .next (s.attachOp i m 8)
  | .host f slot h payload =>
    let hn := h.toNat
    .next (s.hostCmd f slot hn payload 8 (fun t =>
      let cls := t.rd D.HOST_CLASS f
      let a := payload % 2 ^ 64
      t.enter { origin := .hostCmd f slot, kind := .range, group := 3, source := f, part := hcPart f hn, cls := cls,
                deadline := t.deadlineOf cls none, dev := t.devNum, addr := a, len := payload / 2 ^ 64 % 2 ^ 64,
                attr := hcRangeOp hn + (hcLocked hn).toNat * 16, data := 0, poison := false, relaxed := false, epoch := 0, order := 0,
                stage := .held, chunks := 0, parts := [], record := 0, status := 0 }))
  | .object _ _ => s.odCmd (.range src) (fun t => t.odFail St.OD_NO_OBJECT)
  | .descriptor r =>
    match (s.ring r).active.find? (fun d => d.st == .ready && tdOp d.word == 5) with
    | some d => .next (s.descNext r d)
    | none => .next s

end Sys2Proof.Machine
end

