-- ==== Sys2Proof/Machine/Sweeps.lean ====
section
/-! DEFINITION. The commands of sweeps (R136 to R145). -/

namespace Sys2Proof.Machine

/-! ### Acceptance -/

/-- Units of 512 or 128 bytes that hold `n` blocks of a format. -/
def fmtUnits (c n : Nat) : Nat := ceilDiv n (fmtBlocks c)

/-- Source `j` of a REDUCE. -/
def swSrcAt (c j : Nat) : Nat := (swSrc c + j * swStride c) % 2 ^ 64

/-- Members of an ALL_GATHER group, in rank order (Table 5.12). -/
def groupSize (g : Nat) : Nat := g % 2 ^ 16
def groupRank (g k : Nat) : Nat := bits g (16 * k + 31) (16 * k + 16)
def groupList (g : Nat) : List Nat := (List.range (min 64 (groupSize g))).map (groupRank g)

/-- The group is valid: 2 to 64 different device numbers, every other byte zero. -/
def groupValid (g : Nat) : Bool :=
  let l := groupList g
  2 ≤ groupSize g && groupSize g ≤ 64 && l.all (fun d => d < 4096) && decide l.Nodup && g / 2 ^ (16 + 16 * groupSize g) == 0

/-- Rank of this device in a group. -/
def State.ownRank (s : State) (g : Nat) : Nat := ((findIdxFrom (fun d => d == s.devNum) (groupList g) 0).map (fun x => x.1)).getD 0

/-- The regions a sweep reads, and those it writes, as first byte and length (Table 5.9, R140, R141). -/
def State.sweepSrcs (s : State) (p c : Nat) : List (Nat × Nat) :=
  let f := s.fdesc p (swFmt c)
  let n := swLen c
  match swOp c with
  | 2 => [(swSrc c, n)]
  | 3 => if swDir c then [(swSrc c, tdWide f * n)] else [(swSrc c, fmtUnit (fdStored f) * fmtUnits (fdStored f) n)]
  | 4 => (List.range (swNsrc c + 1)).map (fun j => (swSrcAt c j, fmtUnit (fdStored f) * fmtUnits (fdStored f) n))
  | 5 => [(swSrc c, n)]
  | 6 => [(swSrc c, fmtUnit (fdStored f) * fmtUnits (fdStored f) n)]
  | _ => []

def State.sweepDsts (s : State) (p c : Nat) : List (Nat × Nat) :=
  let f := s.fdesc p (swFmt c)
  let n := swLen c
  match swOp c with
  | 1 => [(swDst c, n)]
  | 2 => [(swDst c, n)]
  | 3 => if swDir c then [(swDst c, fmtUnit (fdStored f) * fmtUnits (fdStored f) n)] else [(swDst c, tdWide f * n)]
  | 4 => [(swDst c, 128 * n)]
  | 5 => [(swDst c, n * max 1 (groupSize (s.rd D.SWEEP_GROUP p)))]
  | _ => []

/-- Two regions share a byte. -/
def overlap (a b : Nat × Nat) : Bool := decide (0 < a.2 ∧ 0 < b.2 ∧ a.1 < b.1 + b.2 ∧ b.1 < a.1 + a.2)

/-- Step 4 of Table 5.10: alignment and overlap of each operation (Table 5.9, R91, R140). -/
def State.sweepShape (s : State) (p c : Nat) : Bool :=
  let f := s.fdesc p (swFmt c)
  let u := fmtUnit (fdStored f)
  match swOp c with
  | 1 => swLen c % 128 == 0 && swDst c % 128 == 0
  | 2 => swLen c % 128 == 0 && swDst c % 128 == 0 && swSrc c % 128 == 0 && !overlap (swSrc c, swLen c) (swDst c, swLen c)
  | 3 =>
    let blk := if swDir c then swDst c else swSrc c
    let wide := if swDir c then swSrc c else swDst c
    blk % u == 0 && wide % tdWide f == 0
  | 4 =>
    swDst c % 128 == 0 && (List.range (swNsrc c + 1)).all (fun j =>
      swSrcAt c j % u == 0 &&
        ((j == 0 && swSrc c == swDst c && fdStored f == fdAcc f) ||
          !overlap (swSrcAt c j, u * fmtUnits (fdStored f) (swLen c)) (swDst c, 128 * swLen c)))
  | 5 => swLen c % 128 == 0 && swDst c % 128 == 0 && swSrc c % 128 == 0
  | 6 => swSrc c % u == 0
  | _ => false

/-- Reserved bits of a sweep command (Table 5.8). -/
def swReserved (c : Nat) : Bool :=
  bits c 7 4 != 0 || bits c 23 22 != 0 || bits c 31 27 != 0 || bits c 63 48 != 0 || bits c 191 172 != 0 || bits c 255 236 != 0

/-- A region lies in the usable range of the view of a hash domain (step 5). -/
def inDomainView (v : Variant) (dom : Nat) (r : Nat × Nat) : Bool :=
  r.2 == 0 || match regionOf v r.1, regionOf v (r.1 + r.2 - 1) with
    | .view a _ n, .view b x _ => a == dom && b == dom && x < n * chanUsable
    | _, _ => false

/-- A region is covered by one window of the TE group with a permission (step 6). -/
def State.sweepCovered (s : State) (p : Nat) (acc : Acc) (r : Nat × Nat) : Bool :=
  r.2 == 0 || match s.winCheck p 1 s.devNum r.1 (r.1 + r.2 - 1) acc with | .pass => true | _ => false

/-- Every region of a sweep is covered. -/
def State.sweepWindows (s : State) (p c : Nat) : Bool :=
  (s.sweepSrcs p c).all (s.sweepCovered p .read) && (s.sweepDsts p c).all (s.sweepCovered p .write)

/-- Every unit a sweep names is present: the views of its addresses and the port it notifies (step 1). -/
def State.sweepPresent (s : State) (c : Nat) : Bool :=
  let ok (a : Nat) : Bool := !absentView s.variant a
  (swOp c == 6 || ok (swDst c)) && (swOp c == 1 || ok (swSrc c)) &&
    (if swNotify c && bit (swTarget c) 15 then s.has .port (bits (swTarget c) 14 0) else true)

/-- The lead of a sweep (R223). -/
def swLead (c : Nat) : Nat := if swOp c = 5 then 50000 else 5000

/-- Table 5.10 and steps 4 and 5 of Table 8.5; 0 when the command is accepted. -/
def State.sweepStatus (s : State) (p c : Nat) : Nat :=
  let rs := s.sweepSrcs p c ++ s.sweepDsts p c
  if !s.rdB D.CAP_SWEEP 0 || !s.sweepPresent c then St.UNIT_ABSENT
  else if !s.rdB D.PART_ENABLE p then St.PARTITION_DISABLED
  else if s.rd D.PART_FAULT_STATE p != 0 then St.PARTITION_STOPPED
  else if s.rd D.SWEEP_STATE p != 0 && s.rd D.SWEEP_STATE p != 3 then St.SWEEP_BUSY
  else if swReserved c || !s.sweepShape p c then St.SWEEP_BAD
  else if !rs.all (inDomainView s.variant (s.rd D.PART_DOMAIN p)) then St.SWEEP_VIEW
  else if !s.sweepWindows p c then St.SWEEP_WINDOW
  else if swUsesFmt c && !fdValid (s.fdesc p (swFmt c)) then St.FORMAT_UNSET
  else if swOp c == 5 && !(groupValid (s.rd D.SWEEP_GROUP p) && (groupList (s.rd D.SWEEP_GROUP p)).contains s.devNum) then St.SWEEP_GROUP_BAD
  else if swOp c == 5 && s.rd D.GATE_SYNC_STATE 0 == 0 then St.GATE_UNSYNCED
  else if swTime c != 0 && decide (swTime c < s.gate + swLead c) then St.GATE_TOO_LATE
  else 0

/-- An accepted sweep is armed; T = 0 is the earliest time its lead allows (R137, R223). -/
def State.sweepArm (s : State) (p c : Nat) : State :=
  (s.setSweep p (some { cmd := c, time := if swTime c = 0 then s.gate + swLead c else swTime c, work := [], holes := [], linesDone := 0,
                        unitsDone := 0, early := 0, poisoned := false, epoch := s.rd D.WINDOW_EPOCH p, amax := 0, sums := [], cntNan := 0,
                        cntZero := 0, recv := [], acks := [] })).wr D.SWEEP_STATE p 1

/-- A command for partition `p`: its status and the state. -/
def State.sweepSubmit (s : State) (p c : Nat) : Nat × State :=
  match s.sweepStatus p c with
  | 0 => (0, s.sweepArm p c)
  | st => (st, s)

/-- SWEEP_COMMAND's own rules. -/
def State.ownSweep (s : State) (p : Nat) (w : OdWrite) : State :=
  match s.sweepSubmit p (odNum w) with
  | (0, t) => t.odDone
  | (st, t) => t.odFail st

/-- What SWEEP does for a port. -/
def State.attachSweep (s : State) (i : Nat) (m : Msg) : State :=
  let x := s.sweepSubmit (s.rd D.PORT_PARTITION i) (m.payload % 2 ^ 512)
  x.2.attachAnswer i m x.1 0 0

/-- SWEEP (R136, R137). -/
def execSweep (src : CmdSrc) (s : State) : Host.Outcome State Fault Refusal :=
  match src with
  | .attach i m =>
    .next (s.attachTake i m 0x13 (fun t => t.attachSweep i m))
  | .host f slot h payload =>
    let hn := h.toNat
    .next (s.hostCmd f slot hn payload 0x13 (fun t =>
      let x := t.sweepSubmit (hcPart f hn) (payload % 2 ^ 512)
      x.2.hostCmdDone f slot x.1 0))
  | .object inst w => s.odCmd (.sweep src) (fun t => t.odWrite D.SWEEP_COMMAND inst w (fun u => u.ownSweep inst w))
  | .descriptor _ => .next s

/-! ### Shares -/

/-- Items of a sweep and the local address that decides whose each is: destination lines or units, source lines or units (R138, R140). -/
def State.sweepItems (s : State) (p c : Nat) : Nat :=
  let f := s.fdesc p (swFmt c)
  match swOp c with
  | 3 => if swDir c then fmtUnits (fdStored f) (swLen c) else ceilDiv (swDst c % 128 + tdWide f * swLen c) 128
  | 4 => swLen c
  | 6 => fmtUnits (fdStored f) (swLen c)
  | _ => swLen c / 128

def State.sweepItemAt (s : State) (p c i : Nat) : Nat :=
  let f := s.fdesc p (swFmt c)
  match swOp c with
  | 3 => if swDir c then swDst c + fmtUnit (fdStored f) * i else swDst c / 128 * 128 + 128 * i
  | 5 => swSrc c + 128 * i
  | 6 => swSrc c + fmtUnit (fdStored f) * i
  | _ => swDst c + 128 * i

/-- The slice whose share an address is in, by the tables the sweep started with. -/
def State.shareOf (s : State) (holes : List Nat) (a : Nat) : Option Nat :=
  match locate s.variant a with
  | none => none
  | some (h, o) => (servingBy (fun n => !holes.contains n) (fun n => holes.contains n) h (o / 128)).map (fun x => x.1)

/-- The next item from `i` in a slice's share. -/
def State.sweepNext (s : State) (p : Nat) (x : SweepRun) (n : Nat) : Nat → Nat → Option Nat
  | 0, _ => none
  | fuel + 1, i =>
    if s.shareOf x.holes (s.sweepItemAt p x.cmd i) == some n then some i else State.sweepNext s p x n fuel (i + 1)

def State.nextItem (s : State) (p : Nat) (x : SweepRun) (n i : Nat) : Option Nat := s.sweepNext p x n (s.sweepItems p x.cmd - i) i

/-- Present slices of a hash domain. -/
def domainSlices (v : Variant) (dom : Nat) : List Nat :=
  (List.range 1024).filter (fun n => fieldPresent v (sliceField n) && domainHas dom (sliceField n))

/-- SWEEP_LAUNCH (R138): at T every slice of the domain starts; lines that no slice caches end the sweep with SLICE_FAILED (R59). -/
def execSweepLaunch (p : Fin 16) (s : State) : Host.Outcome State Fault Refusal :=
  match s.sweep? p with
  | none => .next s
  | some x =>
    if s.rd D.SWEEP_STATE p != 1 || s.gate < x.time then .next s
    else
      let l := domainSlices s.variant (s.rd D.PART_DOMAIN p)
      let holes := l.filter (fun n => s.isOut n || (s.cache (s.sliceKey n)).failed)
      let alone := holes.any (fun n => (standIn (fun t => !holes.contains t) n 0).isNone)
      let lost := alone && (List.range (s.sweepItems p x.cmd)).any (fun i => (s.shareOf holes (s.sweepItemAt p x.cmd i)).isNone)
      let x := { x with work := (l.filter (fun n => !holes.contains n)).map (fun n => (n, 0)), holes := holes,
                        early := if lost then St.SLICE_FAILED else 0 }
      .next ((s.setSweep p (some x)).wr D.SWEEP_STATE p 2)

/-! ### One item -/

/-- The lines at `k` consecutive line addresses from `a`; none where no slice caches one of them. -/
def State.lineLocs (s : State) (a k : Nat) : Option (List Loc) :=
  (List.range k).foldr (fun i r =>
    match r, locate s.variant (a + 128 * i) with
    | some l, some (n, o) => (s.loc n (o / 128)).map (fun p => p :: l)
    | _, _ => none) (some [])

/-- A sweep request waits at a line with a miss register, an operation under way, or a writeback under way (R138, R82, R83). -/
def State.lineHeld (s : State) (p : Loc) : Bool :=
  let x := s.cache p.key
  (missFind x p.line p.src p.dist).isSome ||
    (match tagFind x p.line p.src p.dist with | some (_, l) => l.abusy | none => false) ||
    (victimFind x p.line p.src p.dist).isSome

/-- Hot-line buffers of the lines are applied, and the channels behind absent lines are woken. -/
def State.openLines (s : State) (l : List Loc) : State :=
  l.foldl (fun t p =>
    let t := t.applyHot p
    if (tagFind (t.cache p.key) p.line p.src p.dist).isSome then t
    else match t.lineBack p with
      | some a => t.wakeChan (a / 2 ^ 31)
      | none => t) s

/-- The bytes of lines and the poison bits of their sectors. -/
def State.seeLines (s : State) (l : List Loc) : Nat × Nat :=
  (enumList l 0).foldl (fun a e =>
    let v := s.viewLine e.2
    (a.1 + v.1 * 2 ^ (1024 * e.1), a.2 + v.2 * 2 ^ (2 * e.1))) (0, 0)

/-- Write bytes of 64-byte sector `a`: whole, or byte by byte under a mask. -/
def State.sectorPut (s : State) (a v mask : Nat) (pois : Bool) : State :=
  if mask = 0 then s
  else if mask = 2 ^ 64 - 1 then s.poke a 64 v pois
  else (maskList 64 mask).foldl (fun t b => t.poke (a + b) 1 (bytesOf v b 1) pois) s

/-- Write bytes of `n` sectors from `a` under a byte mask, with a poison mark per sector. -/
def State.sectorsPut (s : State) (a n v mask pois : Nat) : State :=
  (List.range n).foldl (fun t j => t.sectorPut (a + 64 * j) (bytesOf v (64 * j) 64) (sectorOf mask j) (bit pois j)) s

/-- The sectors of a block in its unit that are poisoned. -/
def blockPoison (c b pois : Nat) : Bool :=
  pois &&& secTouched (fmtUnit c / 64) (unitBytes c b 1) != 0

/-- Stored block `b` of a unit: its values, its tag, its reserved codes (R102, R110). -/
def unitVals (c u b : Nat) : List Val :=
  let w := fmtBits c
  blockVals c (if fmtBlock c then bytesOf u (fmtScaleOff c + b) 1 else 127) (bytesOf u (4 * w * b) (4 * w))
def unitTag (c u b : Nat) : Nat := if fmtBlock c then bits u (8 * fmtTagOff c + 2 * b + 1) (8 * fmtTagOff c + 2 * b) else 0

/-- What an item did: lines and units completed, and whether it met poison. -/
structure ItemDone where
  lines : Nat
  units : Nat
  pois : Bool
  deriving DecidableEq, Repr

/-- FILL of one line. -/
def State.itemFill (s : State) (c a : Nat) : Option (State × ItemDone) :=
  match s.lineLocs a 1 with
  | none => some (s, { lines := 0, units := 0, pois := false })
  | some l =>
    if l.any s.lineHeld then none
    else
      let v := (List.range 16).foldl (fun x k => x + swImm c * 2 ^ (64 * k)) 0
      some ((s.openLines l).poke a 128 v false, { lines := 1, units := 128, pois := false })

/-- Copy of the line at `b` to the line at `a`, with poison per sector. -/
def State.itemCopy (s : State) (a b : Nat) : Option (State × ItemDone) :=
  match s.lineLocs a 1, s.lineLocs b 1 with
  | some l, some k =>
    if (l ++ k).any s.lineHeld then none
    else
      let s := s.openLines (l ++ k)
      let v := s.seeLines k
      some (s.sectorsPut a 2 v.1 (2 ^ 128 - 1) v.2, { lines := 1, units := 128, pois := v.2 != 0 })
  | _, _ => some (s, { lines := 0, units := 0, pois := true })

/-- The remote writes of one line of an ALL_GATHER (R141): ATTR 0x100 + rank marks them. -/
def State.gatherSend (s : State) (p : Nat) (x : SweepRun) (i v : Nat) (pois : Bool) : State :=
  let g := s.rd D.SWEEP_GROUP p
  let own := s.ownRank g
  (enumList (groupList g) 0).foldl (fun t e =>
    if e.1 = own then t
    else
      let a := swDst x.cmd + own * swLen x.cmd + 128 * i
      let k := t.nextReq
      let r : Req := { origin := .sweep p e.1 x.time, kind := .write, group := 1, source := 0, part := p, cls := swClass x.cmd,
                       deadline := t.deadlineOf (swClass x.cmd) none, dev := e.2, addr := a, len := 128, attr := 0x100 + own, data := v,
                       poison := pois, relaxed := false, epoch := t.rd D.WINDOW_EPOCH p, order := t.nextOrder, stage := .mesh, chunks := 0,
                       parts := [], record := 0, status := 0 }
      (({ t with nextOrder := t.nextOrder + 1 } : State).newReq r).sendOne k r) s

/-- Bytes of a rank's contribution counted (R141). -/
def State.gatherCount (s : State) (p g n : Nat) : State :=
  match s.sweep? p with
  | some x => s.setSweep p (some { x with recv := Table.set 0 g (Table.get 0 g x.recv + n) x.recv })
  | none => s

/-- The generator, the flow and the descriptor a sweep's conversions of a slice use. -/
def State.convUse (s : State) (n p f : Nat) (ev : FlowCnt) (g : Rng) : State :=
  (s.setRng (s.sliceKey n) g).flowEvents n p (fdFlow f) ev

/-- One destination line of an expanding CONVERT: every block that lies in it. -/
def State.itemExpand (s : State) (p n c i : Nat) : Option (State × ItemDone) :=
  let f := s.fdesc p (swFmt c)
  let st := fdStored f
  let w := tdWide f
  let a := swDst c / 128 * 128 + 128 * i
  let ks := (List.range (128 / w)).filterMap (fun j =>
    let b := a + w * j
    if swDst c ≤ b ∧ (b - swDst c) / w < swLen c then some (j, (b - swDst c) / w) else none)
  let src (k : Nat) : Option (List Loc) := s.lineLocs (blockUnit f (swSrc c) k) (fmtUnit st / 128)
  match s.lineLocs a 1 with
  | none => some (s, { lines := 0, units := 0, pois := true })
  | some l =>
    if (ks.all (fun e => (src e.2).isSome)) then
      let locs := ks.flatMap (fun e => (src e.2).getD [])
      if (l ++ locs).any s.lineHeld then none
      else
        let s := s.openLines (l ++ locs)
        let g0 := s.rng (s.sliceKey n)
        let out := ks.foldl (fun (acc : Nat × Nat × Nat × FlowCnt × Rng) e =>
          let (v, m, ps, ev, g) := acc
          let u := s.seeLines ((s.lineLocs (blockUnit f (swSrc c) e.2) (fmtUnit st / 128)).getD [])
          let b := blockIdx f e.2
          let m := m ||| byteMask (w * e.1) w
          if blockPoison st b u.2 then (v, m, ps ||| secTouched 2 (byteMask (w * e.1) w), ev, g)
          else
            let (x, ev', g) := readBlock f (if fmtBlock st then bytesOf u.1 (fmtScaleOff st + b) 1 else 127)
              (bytesOf u.1 (tdData f * b) (tdData f)) (unitTag st u.1 b) g
            (v + x * 2 ^ (8 * w * e.1), m, ps, flowAdd ev ev', g)) (0, 0, 0, FlowCnt.zero, g0)
        some ((s.convUse n p f out.2.2.2.1 out.2.2.2.2).sectorsPut a 2 out.1 out.2.1 out.2.2.1,
              { lines := 1, units := ks.length, pois := out.2.2.1 != 0 })
    else some (s, { lines := 0, units := 0, pois := true })

/-- Blocks of a quantising CONVERT in unit `i`: number in the unit. -/
def unitBlocks (c f i : Nat) : Nat := min (fmtBlocks (fdStored f)) (swLen c - fmtBlocks (fdStored f) * i)

/-- One destination unit of a quantising CONVERT, as a format-on-write of its blocks. -/
def State.itemQuant (s : State) (p n c i : Nat) : Option (State × ItemDone) :=
  let f := s.fdesc p (swFmt c)
  let st := fdStored f
  let k := unitBlocks c f i
  let a := swDst c + fmtUnit st * i
  let b := swSrc c + tdWide f * (fmtBlocks st * i)
  let sLine := b / 128 * 128
  let sCnt := (b + tdWide f * k - 1) / 128 - b / 128 + 1
  match s.lineLocs a (fmtUnit st / 128), s.lineLocs sLine sCnt with
  | some l, some ls =>
    if (l ++ ls).any s.lineHeld then none
    else
      let s := s.openLines (l ++ ls)
      let src := s.seeLines ls
      let dst := s.seeLines l
      let pay := bytesOf src.1 (b % 128) (tdWide f * k)
      let bad (j : Nat) : Bool := src.2 &&& secTouched (2 * sCnt) (byteMask (b % 128 + tdWide f * j) (tdWide f)) != 0
      let good := (List.range k).filter (fun j => !bad j)
      let mask := unitBytes st 0 k ||| unitSpare st
      let ps := ((List.range k).filter bad).foldl (fun m j => m ||| secTouched (fmtUnit st / 64) (unitBytes st j 1)) 0
      let blank := dst.1 - (dst.1 &&& expandMask (fmtUnit st) (unitSpare st))
      let (u, ev, g) := writeBlocks f (good.map (fun j => (j, j))) pay blank (s.rng (s.sliceKey n))
      some ((s.convUse n p f ev g).sectorsPut a (fmtUnit st / 64) u mask ps, { lines := fmtUnit st / 128, units := k, pois := ps != 0 })
  | _, _ => some (s, { lines := 0, units := 0, pois := true })

/-- A sum rounded once to ACC (R108, R140): `skipped` when a non-finite source element was left out of an INT32 sum. -/
def roundAcc (f : Nat) (g : Rng) (v : Val) (skipped : Bool) : Nat × FlowCnt × Rng :=
  let (y, ev, g) := accElem f g 0 v
  (y, if skipped then flowAdd ev (flagBit 7) else ev, g)

/-- Sums of the elements of several blocks, element order. -/
def sumBlocks (f : Nat) (rows : List (List Val)) : List Nat → Rng → Nat × FlowCnt × Rng
  | [], g => (0, FlowCnt.zero, g)
  | i :: r, g =>
    let vs := rows.map (fun l => l.getD i (.fin false 0 0))
    let fin := if fdAcc f = 3 then vs.filter (fun v => !valNan v && !valInf v) else vs
    let v := match fin with | [] => .fin false 0 0 | a :: t => t.foldl valAdd a
    let (y, ev, g) := roundAcc f g v (decide (fin.length < vs.length))
    let (z, ev', g) := sumBlocks f rows r g
    (y + z * 2 ^ 32, flowAdd ev ev', g)

/-- One destination line of a REDUCE (R140). -/
def State.itemReduce (s : State) (p n c k : Nat) : Option (State × ItemDone) :=
  let f := s.fdesc p (swFmt c)
  let st := fdStored f
  let a := swDst c + 128 * k
  let b := blockIdx f k
  let units := (List.range (swNsrc c + 1)).map (fun j => s.lineLocs (blockUnit f (swSrcAt c j) k) (fmtUnit st / 128))
  match s.lineLocs a 1 with
  | none => some (s, { lines := 0, units := 0, pois := true })
  | some l =>
    if units.all (fun u => u.isSome) then
      let locs := units.flatMap (fun u => u.getD [])
      if (l ++ locs).any s.lineHeld then none
      else
        let s := s.openLines (l ++ locs)
        let us := units.map (fun u => s.seeLines (u.getD []))
        let bad := us.any (fun u => blockPoison st b u.2)
        if bad then some (s.sectorsPut a 2 0 (2 ^ 128 - 1) 3, { lines := 1, units := 1, pois := true })
        else
          let rows := us.map (fun u => unitVals st u.1 b)
          let (y, ev, g) := sumBlocks f rows (List.range 32) (s.rng (s.sliceKey n))
          let src := rows.foldl (fun e r => flowAdd e (sourceEvents true r)) FlowCnt.zero
          some ((s.convUse n p f (flowAdd src ev) g).poke a 128 y false, { lines := 1, units := 1, pois := false })
    else some (s, { lines := 0, units := 0, pois := true })

/-- The square of a value. -/
def valSquare (v : Val) : Val :=
  match v with
  | .fin _ m e => .fin false (m * m) (2 * e)
  | v => v

/-- The statistics of one block added to a sweep (R142). -/
def statsBlock (x : SweepRun) (n : Nat) (vs : List Val) : SweepRun :=
  let fin := vs.filter (fun v => !valNan v && !valInf v)
  let old := Table.get (0, 0) n x.sums
  let sum := fin.foldl (fun a v => (f64Add a.1 (f64Encode v), f64Add a.2 (f64Encode (valSquare v)))) old
  let m := amaxOf vs
  { x with sums := Table.set (0, 0) n sum x.sums, amax := max x.amax (if m.1 = 0 then 0 else amaxBits m.1 m.2),
           cntNan := x.cntNan + (vs.filter valNan).length,
           cntZero := x.cntZero + (vs.filter (fun v => match v with | .fin _ m _ => m == 0 | _ => false)).length }

/-- Events of a block that STATS reads (R110, R142). -/
def statsEvents (c data tag : Nat) (vs : List Val) : FlowCnt :=
  let src := sourceEvents false vs
  let resv := reservedCodes c data
  { src with blocks := 0, flags := src.flags + (if resv > 0 then 2 ^ 8 else 0) + (if tag != 0 then 2 ^ 9 else 0), resv := resv }

/-- One source unit of STATS; poisoned blocks are left out (R142, R425). -/
def State.itemStats (s : State) (p n c i : Nat) : Option (State × ItemDone) :=
  let f := s.fdesc p (swFmt c)
  let st := fdStored f
  match s.lineLocs (swSrc c + fmtUnit st * i) (fmtUnit st / 128) with
  | none => some (s, { lines := 0, units := 0, pois := true })
  | some l =>
    if l.any s.lineHeld then none
    else
      let s := s.openLines l
      let u := s.seeLines l
      let k := unitBlocks c f i
      let good := (List.range k).filter (fun b => !blockPoison st b u.2)
      let ev := good.foldl (fun e b =>
        flowAdd e (statsEvents st (bytesOf u.1 (tdData f * b) (tdData f)) (unitTag st u.1 b) (unitVals st u.1 b))) FlowCnt.zero
      let s := s.flowEvents n p (fdFlow f) ev
      let s := match s.sweep? p with
        | some x => s.setSweep p (some (good.foldl (fun y b => statsBlock y n (unitVals st u.1 b)) x))
        | none => s
      some (s, { lines := fmtUnit st / 128, units := k, pois := decide (good.length < k) })

/-- One item of a sweep by slice `n`; none while it waits. -/
def State.sweepItem (s : State) (p : Nat) (x : SweepRun) (n i : Nat) : Option (State × ItemDone) :=
  let c := x.cmd
  match swOp c with
  | 1 => s.itemFill c (swDst c + 128 * i)
  | 2 => s.itemCopy (swDst c + 128 * i) (swSrc c + 128 * i)
  | 3 => if swDir c then s.itemQuant p n c i else s.itemExpand p n c i
  | 4 => s.itemReduce p n c i
  | 5 =>
    let own := s.ownRank (s.rd D.SWEEP_GROUP p)
    let a := swSrc c + 128 * i
    (match s.itemCopy (swDst c + own * swLen c + 128 * i) a with
     | none => none
     | some (t, d) =>
       let v := s.peek a 128
       some ((t.gatherSend p x i v.1 v.2).gatherCount p own 128, d))
  | _ => s.itemStats p n c i

/-- A slice has finished or stopped. -/
def sliceOut (x : SweepRun) (n st : Nat) : SweepRun :=
  { x with work := x.work.filter (fun e => e.1 != n), early := if x.early = 0 then st else x.early }

/-- SWEEP_SLICE_LINE (R138, R139): a slice's next item takes effect, unless the sweep is being ended, or its windows no longer cover it. -/
def execSweepSliceLine (p : Fin 16) (n : Fin 1024) (s : State) : Host.Outcome State Fault Refusal :=
  match s.sweep? p with
  | none => .next s
  | some x =>
    match x.work.find? (fun e => e.1 == n.val) with
    | none => .next s
    | some (_, i) =>
      if s.rd D.SWEEP_STATE p = 4 then .next (s.setSweep p (some (sliceOut x n 0)))
      else if s.rd D.SWEEP_STATE p != 2 then .next s
      else if !(s.sliceUp n).2 then .next (s.sliceUp n).1
      else if s.rd D.WINDOW_EPOCH p != x.epoch && !s.sweepWindows p x.cmd then .next (s.setSweep p (some (sliceOut x n St.WINDOW_REVOKED)))
      else match s.nextItem p x n i with
        | none => .next (s.setSweep p (some (sliceOut x n 0)))
        | some j =>
          let a := s.sweepItemAt p x.cmd j
          let donor := match locate s.variant a with | some (h, o) => s.inDonor h o | none => false
          if donor then .next (s.setSweep p (some (sliceOut x n St.ADDRESS_UNMAPPED)))
          else match s.sweepItem p x n j with
            | none => .next s
            | some (t, d) =>
              match t.sweep? p with
              | none => .next t
              | some y =>
                .next (t.setSweep p (some { y with
                  work := y.work.map (fun e => if e.1 = n.val then (e.1, j + 1) else e),
                  linesDone := y.linesDone + d.lines, unitsDone := y.unitsDone + d.units,
                  early := if d.lines = 0 && y.early = 0 then St.SLICE_FAILED else y.early, poisoned := y.poisoned || d.pois }))

/-- Every contribution of an ALL_GATHER has been received and acknowledged (R141). -/
def State.gatherDone (s : State) (p : Nat) (x : SweepRun) : Bool :=
  let g := s.rd D.SWEEP_GROUP p
  let own := s.ownRank g
  (List.range (groupList g).length).all (fun k =>
    k == own || (decide (swLen x.cmd ≤ Table.get 0 k x.recv) && decide (swLen x.cmd ≤ 128 * Table.get 0 k x.acks)))

/-- SWEEP_COMPLETE (R139, R141, R144): acts once every slice has finished or stopped. -/
def execSweepComplete (p : Fin 16) (s : State) : Host.Outcome State Fault Refusal :=
  match s.sweep? p with
  | none => .next s
  | some x =>
    if s.rd D.SWEEP_STATE p = 4 then .next (s.sweepEnd p x x.early)
    else if s.rd D.SWEEP_STATE p != 2 || x.work.any (fun e => (s.nextItem p x e.1 e.2).isSome) then .next s
    else if x.early != 0 then .next (s.sweepEnd p x x.early)
    else if swOp x.cmd == 5 && !s.gatherDone p x then .next s
    else .next (s.sweepEnd p x (if x.poisoned then St.POISONED else 0))

/-- SWEEP_ABORT's own rules (R143). -/
def State.ownSweepAbort (s : State) (p : Nat) : State :=
  if s.rd D.SWEEP_STATE p = 0 ∨ s.rd D.SWEEP_STATE p = 3 then s.odFail St.SWEEP_NONE
  else (s.sweepStop p St.SWEEP_ABORTED).odDone

/-- SWEEP_ABORT (R143). -/
def execSweepAbort (p : Fin 16) (w : OdWrite) (s : State) : Host.Outcome State Fault Refusal :=
  s.odCmd (.sweepAbort p w) (fun t => t.odWrite D.SWEEP_ABORT p w (fun u => u.ownSweepAbort p))

/-- SWEEP_TIMEOUT_EXPIRY (R143): the sweep completes with SWEEP_TIMEOUT; one that is already being ended early keeps its status. -/
def execSweepTimeoutExpiry (p : Fin 16) (s : State) : Host.Outcome State Fault Refusal :=
  match s.sweep? p with
  | none => .next s
  | some x =>
    if s.rd D.SWEEP_STATE p = 2 then .next (s.sweepEnd p x St.SWEEP_TIMEOUT)
    else if s.rd D.SWEEP_STATE p = 4 then .next (s.sweepEnd p x x.early)
    else .next s

/-- SWEEP_PROGRESS_REFRESH (R143). -/
def execSweepProgressRefresh (p : Fin 16) (s : State) : Host.Outcome State Fault Refusal :=
  match s.sweep? p with
  | none => .next s
  | some x => .next (s.wr D.SWEEP_PROGRESS p x.linesDone)

/-- SWEEP_GROUP's own rules (Table 5.12). -/
def State.ownSweepGroup (s : State) (p : Nat) (w : OdWrite) : State :=
  if s.rd D.SWEEP_STATE p = 0 ∨ s.rd D.SWEEP_STATE p = 3 then s.odSet D.SWEEP_GROUP p w else s.odFail St.SWEEP_BUSY

/-- SWEEP_GROUP (R145). -/
def execSweepGroup (p : Fin 16) (w : OdWrite) (s : State) : Host.Outcome State Fault Refusal :=
  s.odCmd (.sweepGroup p w) (fun t => t.odWrite D.SWEEP_GROUP p w (fun u => u.ownSweepGroup p w))

end Sys2Proof.Machine
end

