-- ==== Sys2Proof/Machine/LinkIn.lean ====
section
/-! DEFINITION. Messages received on a link: the check of R31, requests for this device, relays, and responses (R31, R141, R301 to R304). -/

namespace Sys2Proof.Machine

/-- Payload chunks as one number, lowest first. -/
def joinChunks (l : List Nat) : Nat := l.foldr (fun c a => c + a * 2 ^ 128) 0

/-- A message from its chunks (R259). -/
def msgOf (l : List Nat) (dlx : Bool) : Msg :=
  match l with
  | [] => { hdr := 0, ext := 0, payload := 0 }
  | h :: r =>
    { hdr := BitVec.ofNat 128 h, ext := BitVec.ofNat 128 (if dlx then r.headD 0 else 0), payload := joinChunks (if dlx then r.drop 1 else r) }

/-- Target device of a request header (R304). -/
def lhTarget (h : Nat) : Nat := bits (lhAddr h) 55 44

/-- The chunks of a message leave the REQ or RSP pool of a link (R298). Below, `c` is the chunks a message holds there: none for a message of a
scheduled unit, which holds a place of the SCHED pool. -/
def State.linkFreeReq (s : State) (n k : Nat) : State :=
  s.setLnk n { (s.lnk n) with reqFree := ((s.lnk n).reqFree + k) % 2 ^ 24 }
def State.linkFreeRsp (s : State) (n k : Nat) : State :=
  s.setLnk n { (s.lnk n) with rspFree := ((s.lnk n).rspFree + k) % 2 ^ 24 }

/-- R31: the link carries the partition, and it is enabled. -/
def State.r31 (s : State) (n p : Nat) : Bool := bit (s.rd D.LINK_PART_MASK n) p && s.rdB D.PART_ENABLE p

/-- A request that R31 refuses: its record, of ACCESS write where the request has no access of its own, and its answer (R31, Table 2.7). -/
def State.linkDeny (s : State) (n h acc k : Nat) : State :=
  ((s.denialRecord (lhPart h) n (lhTarget h) (lhAddr h % 2 ^ 44) acc).linkFreeReq n k).linkRespond h St.LINK_PARTITION_DENIED 0 0

/-- ACCESS of a routed request (Tables 2.6 and 2.7). -/
def linkAccess (h : Nat) : Nat :=
  match lhOp h with
  | 1 => 0 | 4 => 0 | 5 => 0
  | 3 => 2 | 7 => 2
  | 8 => if [0, 4, 5].contains (bits (lhAttr h) 3 0) then 0 else 1
  | _ => 1

/-- HOPS of a relayed header is one more. -/
def hopped (h : Nat) : Nat := setBits h 9 6 (lhHops h + 1)

/-- A message for another device is sent on (R304). -/
def State.relayOn (s : State) (k : Nat) (m : Msg) : State :=
  let h := m.hdr.toNat
  s.sendLink k { step := if lhOp h = 0x14 ∨ lhOp h = 0x15 then 4 else 5, hdr := hopped h, ext := m.ext.toNat, payload := m.payload,
                 cls := lhClass h, deadline := if lhDlx h then some (m.ext.toNat % 2 ^ 32) else none }

/-- Key of a relayed request (R301). -/
def relayKey (h : Nat) : Nat := if lhOp h = 0x14 ∨ lhOp h = 0x15 then 0 else lhAddr h % 2 ^ 44 / 512

/-- A request for another device: R31, then the relay, or LINK_UNREACHABLE (R304). -/
def State.relayReq (s : State) (n : Nat) (m : Msg) (c : Nat) : State :=
  let h := m.hdr.toNat
  if !s.r31 n (lhPart h) then s.linkDeny n h (linkAccess h) c
  else
    let s := s.linkFreeReq n c
    let no := s.linkRespond h St.LINK_UNREACHABLE 0 0
    if !s.rdB D.LINK_RELAY n || decide (7 < lhHops h + 1) then no
    else match s.pickLink (lhTarget h) (relayKey h) with
      | some k => s.relayOn k m
      | none => no

/-- A response for another device is relayed or discarded (R304). -/
def State.relayRsp (s : State) (n : Nat) (m : Msg) (c : Nat) : State :=
  let h := m.hdr.toNat
  let s := s.linkFreeRsp n c
  if s.boot.hold || !s.rdB D.LINK_RELAY n || decide (7 < lhHops h + 1) then s
  else match s.pickLink (lhDev h) (lhReqId h) with
    | some k => s.relayOn k m
    | none => s

/-- The data-path request a routed message makes: none for a command (Table 11.7, R296). -/
def State.linkReqOf (s : State) (n : Nat) (m : Msg) (c : Nat) : Option Req :=
  let h := m.hdr.toNat
  let a := lhAddr h % 2 ^ 44
  let len := lhLen h + 1
  let mk (kind : ReqKind) (len attr data : Nat) (poison : Bool) : Req :=
    { origin := .link n h, kind := kind, group := 2, source := n, part := lhPart h, cls := lhClass h,
      deadline := s.deadlineOf (lhClass h) (if lhDlx h then some (m.ext.toNat % 2 ^ 32) else none), dev := lhTarget h, addr := a, len := len,
      attr := attr, data := data, poison := poison, relaxed := false, epoch := 0, order := 0, stage := .held, chunks := c,
      parts := [], record := lhPch h, status := 0 }
  match lhOp h with
  | 1 => some (mk .read len 0 0 false)
  | 2 => some (mk (writeKind s.variant a) len 0 (m.payload % 2 ^ (8 * len)) (bit (lhAttr h) 0))
  | 3 => some (mk .atomic len (lhAttr h) m.payload false)
  | 4 => some (mk .prefetch 1 0 0 false)
  | 5 => some (mk .fmtRead (lhLen h) (lhAttr h) 0 false)
  | 6 => some (mk .fmtWrite (lhLen h) (lhAttr h) m.payload false)
  | 7 => some (mk .scaledAcc (lhLen h) (lhAttr h) m.payload false)
  | 8 => some (mk .range (m.payload % 2 ^ 64) (lhAttr h) 0 false)
  | 0x0A => some (mk .write len 0 (m.payload % 2 ^ (8 * len)) false)
  | _ => none

/-- The descriptor of PARTITION at this device, for a FMT_WRITE or a SCALED_ACC (R97, step 5 of R263); 0 when it passes. -/
def State.linkFmt (s : State) (h : Nat) : Nat :=
  if lhOp h != 6 && lhOp h != 7 || absentView s.variant (lhAddr h % 2 ^ 44) then 0
  else
    let d := s.fdesc (lhPart h) (bits (lhAttr h) 5 0)
    let n := bits (lhAttr h) 7 6 + 1
    if !fdValid d then St.FORMAT_UNSET
    else if lhPch h != ceilDiv (if lhOp h = 7 then fmtSourceBytes d n else fmtWideBytes d n) 16 then St.ATTACH_MSG_BAD
    else 0

/-- The first or last byte of a routed request lies in the view of an absent half or field (step 1 of Table 2.5). -/
def State.linkAbsent (s : State) (n : Nat) (m : Msg) : Bool :=
  match s.linkReqOf n m 0 with
  | some r => absentView s.variant (s.reqSpan r).1 || absentView s.variant (s.reqSpan r).2
  | none => false

/-- A data-path request for this device: Table 2.5 in the LINK group of its partition, where R31 is step 2 (R304). -/
def State.serveReq (s : State) (n : Nat) (m : Msg) (c : Nat) : State :=
  let h := m.hdr.toNat
  if !s.linkAbsent n m && !s.r31 n (lhPart h) then s.linkDeny n h (linkAccess h) c
  else match s.linkFmt h with
    | 0 => (match s.linkReqOf n m c with | some r => s.enter r | none => s)
    | st => (s.linkFreeReq n c).linkRespond h st 0 0

/-- During a link-hold reset a routed request is answered with DEVICE_RESETTING (R409). -/
def State.linkResetting (s : State) (n : Nat) (m : Msg) (c : Nat) : State :=
  (s.linkFreeReq n c).sendLink n
    { step := 5, hdr := linkRspHeader m.hdr.toNat St.DEVICE_RESETTING 0, ext := 0, payload := 0, cls := 0, deadline := none }

/-- A routed request of Table 11.7 other than a launch or a cancel. -/
def State.linkRequest (s : State) (n : Nat) (m : Msg) (c : Nat) : State :=
  if s.boot.hold then s.linkResetting n m c
  else if lhTarget m.hdr.toNat != s.devNum then s.relayReq n m c else s.serveReq n m c

/-- A marked write of an ALL_GATHER (R141): written like any other; its bytes count for the sender's rank while the partition's sweep is
armed or running, and else in SWEEP_STRAY. A write that is refused at once counts nowhere. -/
def State.gatherTake (s : State) (n : Nat) (m : Msg) (c : Nat) : State :=
  let h := m.hdr.toNat
  if s.boot.hold then s.linkResetting n m c
  else if lhTarget h != s.devNum then s.relayReq n m c
  else
    let rid := s.nextReq
    let s := s.serveReq n m c
    if (s.req? rid).isNone then s
    else
      let p := lhPart h
      let st := s.rd D.SWEEP_STATE p
      if (st == 1 || st == 2) && (match s.sweep? p with | some x => swOp x.cmd == 5 | none => false) then
        s.gatherCount p (lhAttr h) (lhLen h + 1)
      else s.count D.SWEEP_STRAY p (lhLen h + 1)

/-- Bytes of response data a request expects. -/
def rspLen (r : Req) (pch : Nat) : Nat := if r.kind == .read then r.len else 16 * pch

/-- A routed response: relayed, or it completes its request-table entry; one for a free or quarantined entry is counted as stale (R303, R304). -/
def State.linkRsp (s : State) (n : Nat) (m : Msg) (c : Nat) : State :=
  let h := m.hdr.toNat
  if lhDev h != s.devNum then s.relayRsp n m c
  else
    let s := s.linkFreeRsp n c
    let k := lhReqId h
    let st := lhStatus h
    match Table.get none k s.linkTab, s.forwards.find? (fun f => f.key == k) with
    | some rid, _ =>
      let s := { s with linkTab := Table.set none k none s.linkTab }
      (match s.req? rid with
       | some r => s.complete rid st (if st = 0 then rspLen r (lhPch h) else 0) (if st = 0 then m.payload else 0)
       | none => s)
    | none, some f =>
      ({ s with forwards := s.forwards.filter (fun g => g.key != k) } : State).forwardEnd f st (m.payload % 2 ^ 32) (bits m.payload 127 64)
    | none, none => s.count D.LINK_STALE_RSP (k / 4096) 1

end Sys2Proof.Machine
end

