-- ==== Sys2Proof/Machine/LaunchOps.lean ====
section
/-! DEFINITION. Launches: the checks of Table 8.5, their queues, the forwarding to another device, cancelling, and the act at T (R222 to
R230). -/

namespace Sys2Proof.Machine

/-- A requester of a launch: its stamp, whether it is the host PF or Phildofel, its class on a link, and who waits. -/
structure Asker where
  part : Nat
  priv : Bool
  cls : Nat
  origin : Origin
  deriving DecidableEq, Repr

/-- The launch names a remote unit (R223). -/
def State.namesRemote (s : State) (r : Nat) : Bool := lrDevice r != s.devNum || lrAction r == 3 || lrAction r == 4

/-- Step 1 of Table 8.5 for units of this device: ports of a NOTIFY, links of a link action. -/
def State.launchPresent (s : State) (r : Nat) : Bool :=
  match lrAction r with
  | 2 => (maskList 64 (lrMask r)).all (fun p => s.has .port (64 * lrSite r + p))
  | 3 => (maskList 64 (lrMask r)).all (fun n => s.has .link n)
  | 4 => (maskList 64 (lrMask r)).all (fun n => s.has .link n)
  | _ => true

/-- Step 3: codes and reserved bits. -/
def State.launchForm (s : State) (r : Nat) : Bool :=
  let a := lrAction r
  decide (1 ≤ a ∧ a ≤ 4) && bits r 7 6 == 0 && bits r 31 20 == 0 && bits r 63 48 == 0 && bits r 223 212 == 0 &&
    (if a = 1 then lrMask r == 0 else lrMask r != 0) &&
    (if a = 1 then true else if a = 2 then bits r 211 195 == 0 else bits r 211 192 == 0 && lrArg r == 0) &&
    decide (lrTime r ≤ s.gate + 60000000000)

/-- Step 6 for units of this device; `link` says that link actions pass. -/
def State.launchAllowed (s : State) (r part : Nat) (link : Bool) : Nat :=
  match lrAction r with
  | 1 => if rcPart (s.ringCtx (lrRing r)) = part then 0 else St.RING_DENIED
  | 2 => if (maskList 64 (lrMask r)).all (fun p => s.rd D.PORT_PARTITION (64 * lrSite r + p) == part) then 0 else St.GATE_TARGET_DENIED
  | _ => if link then 0 else St.GATE_TARGET_DENIED

/-- A lap switch mark for link `n` takes an entry of its queue (Table 8.6). -/
def State.lapMark (s : State) (n : Nat) : Nat :=
  let uses (t : Option LapTable) : Bool := match t with | some t => (t.width[n]?).getD 0 != 0 | none => false
  if s.lapOp.isSome && (uses s.lapA || uses s.lapS) then 1 else 0

/-- Step 7: every target's queue has room. -/
def State.launchRoom (s : State) (r : Nat) : Bool :=
  let a := lrAction r
  (s.launchTargets r).all (fun t =>
    decide (s.queueUsed a t + (if a = 3 ∨ a = 4 then s.lapMark t else 0) < queueSize a))

/-- Step 5: the T at which the launch will act; none is GATE_TOO_LATE. -/
def State.launchTime (s : State) (r lead : Nat) : Option Nat :=
  if lrTime r = 0 then some (s.gate + lead)
  else if s.gate + lead ≤ lrTime r then some (lrTime r)
  else if lrLate r then some (s.gate + lead) else none

/-- Steps 1 to 7 of Table 8.5: the status and T. `far` leaves out the checks of the remote device's units (R227); `lead` is that of R223. -/
def State.launchCheck (s : State) (r part : Nat) (link far : Bool) (lead : Nat) : Nat × Nat :=
  if !far && !s.launchPresent r then (St.UNIT_ABSENT, 0)
  else if !s.rdB D.PART_ENABLE part then (St.PARTITION_DISABLED, 0)
  else if s.rd D.PART_FAULT_STATE part != 0 then (St.PARTITION_STOPPED, 0)
  else if !s.launchForm r then (St.GATE_LAUNCH_BAD, 0)
  else if s.namesRemote r && !s.synced then (St.GATE_UNSYNCED, 0)
  else match s.launchTime r lead with
    | none => (St.GATE_TOO_LATE, 0)
    | some t =>
      if far then ((if (lrAction r = 3 ∨ lrAction r = 4) ∧ !link then St.GATE_TARGET_DENIED else 0), t)
      else
        let a := s.launchAllowed r part link
        if a != 0 then (a, 0) else if !s.launchRoom r then (St.GATE_QUEUE_FULL, 0) else (0, t)

/-- An accepted launch takes the next LAUNCH_ID and its place in every target's queue (R224). -/
def State.launchQueue (s : State) (r part t : Nat) (remote : Bool) : State × Nat :=
  let id := (s.rd D.GATE_LAUNCH_ID 0 + 1) % 2 ^ 32
  ((s.wr D.GATE_LAUNCH_ID 0 id).setLaunch id (some
    { rec256 := r, part := part, time := t, targets := s.launchTargets r, remote := remote, status := 0, late := 0, missed := false,
      woken := false }), id)

/-! ### Forwarding (R227, R228) -/

/-- The key of a forwarded message that waits for an entry of a link's request table. -/
def waitKey : Nat := 2 ^ 18

/-- The message of a forwarded launch or cancel, under REQ_ID `k`. -/
def State.forwardMsg (s : State) (f : Forward) (k : Nat) : TxMsg :=
  { step := 4,
    hdr := linkReqHeader (if f.cancel then 0x15 else 0x14) (reqIdOf k) f.cls f.part s.devNum 0 (if f.cancel then 0 else f.priv.toNat)
      (f.dev * 2 ^ 44) (if f.cancel then 1 else 2) false,
    ext := 0, payload := if f.cancel then f.id else f.rec256, cls := f.cls, deadline := none }

/-- The message goes onto the link that R301 selects; it waits while that link's table is full or the device's route is held (R302, R303). -/
def State.forward (s : State) (f : Forward) : State :=
  if s.routeHold.contains f.dev then { s with forwards := s.forwards ++ [{ f with key := waitKey }] }
  else match s.pickLink f.dev 0 with
    | none => s.forwardEnd f St.LINK_UNREACHABLE 0 0
    | some n =>
      match s.freeEntry n with
      | none => { s with forwards := s.forwards ++ [{ f with key := waitKey }] }
      | some k => ({ s with forwards := s.forwards ++ [{ f with key := k }] } : State).sendLink n (s.forwardMsg f k)

/-- The forwarded messages that wait try again, in order. -/
def State.forwardAgain (s : State) : State :=
  let l := s.forwards.filter (fun f => f.key == waitKey)
  l.foldl (fun t f => t.forward f) { s with forwards := s.forwards.filter (fun f => f.key != waitKey) }

/-- Who waits keeps waiting: an object write holds the controller (R228, R336). -/
def State.keepAsker (s : State) (o : Origin) : State := match o with | .od => s.odHold | _ => s

/-- A launch record is submitted (R224, R227). -/
def State.launchSubmit (s : State) (a : Asker) (r : Nat) : State :=
  let far := lrDevice r != s.devNum
  match s.launchCheck r a.part a.priv far (if s.namesRemote r then 50000 else 5000) with
  | (0, t) =>
    if far then
      (s.keepAsker a.origin).forward
        { key := waitKey, cancel := false, id := 0, rec256 := setBits r 127 64 t, part := a.part, dev := lrDevice r, cls := a.cls,
          priv := a.priv, origin := a.origin }
    else
      let (s, id) := s.launchQueue r a.part t false
      s.answer 0 a.origin 0 16 (id + t * 2 ^ 64)
  | (st, _) => s.answer 0 a.origin st 0 0

/-- A cancel on this device: only the partition that issued the launch, the host PF and Phildofel may withdraw it, and only while T is 1 µs
ahead (R228). -/
def State.cancelHere (s : State) (id part : Nat) (priv : Bool) : Nat × State :=
  match s.launch? id with
  | none => (St.NO_SUCH_LAUNCH, s)
  | some l =>
    if l.part != part && !priv then (St.NO_SUCH_LAUNCH, s)
    else if l.time < s.gate + 1000 then (St.GATE_CANCEL_LATE, s)
    else (0, s.launchEnd id l St.GATE_CANCELLED)

/-- The launch of another device that an ID names, the last accepted first. -/
def State.farLaunch (s : State) (id part : Nat) (priv : Bool) : Option FarLaunch :=
  s.farLaunches.reverse.find? (fun l => l.id == id && (priv || l.part == part))

/-- A cancel is submitted (R228): a launch of this device first, then one forwarded to another device. -/
def State.cancelSubmit (s : State) (a : Asker) (id : Nat) : State :=
  match s.cancelHere id a.part a.priv with
  | (0x0808, s) =>
    (match s.farLaunch id a.part a.priv with
     | none => s.answer 0 a.origin St.NO_SUCH_LAUNCH 0 0
     | some l =>
       if l.time ≤ s.gate then
         ({ s with farLaunches := s.farLaunches.filter (fun x => x != l) } : State).answer 0 a.origin St.NO_SUCH_LAUNCH 0 0
       else if l.time < s.gate + 1000 then s.answer 0 a.origin St.GATE_CANCEL_LATE 0 0
       else (s.keepAsker a.origin).forward
         { key := waitKey, cancel := true, id := id, rec256 := 0, part := l.part, dev := l.dev, cls := a.cls, priv := a.priv,
           origin := a.origin })
  | (st, s) => s.answer 0 a.origin st 0 0

/-- Stamp and privilege of an object write (R222). -/
def State.odAsker (s : State) (w : OdWrite) : Asker :=
  match w.route with
  | .hostVf v => { part := v.val, priv := false, cls := 0, origin := .od }
  | _ => { part := s.rd D.PF_DATA_PARTITION 0, priv := true, cls := 0, origin := .od }

/-- GATE_LAUNCH's and GATE_CANCEL's own rules. -/
def State.ownLaunch (s : State) (w : OdWrite) : State := s.launchSubmit (s.odAsker w) (odNum w)
def State.ownCancel (s : State) (w : OdWrite) : State := s.cancelSubmit (s.odAsker w) (odNum w)

/-! ### Frames from another device -/

/-- A launch frame for this device (R227): R31, then steps 1 to 7, then its own LAUNCH_ID; the answer carries the ID and T. -/
def State.launchFrame (s : State) (n : Nat) (m : Msg) (c : Nat) : State :=
  let h := m.hdr.toNat
  if s.boot.hold then s.linkResetting n m c
  else if lhTarget h != s.devNum then s.relayReq n m c
  else if !s.r31 n (lhPart h) then s.linkDeny n h 1 c
  else
    let s := s.linkFreeReq n c
    let r := m.payload % 2 ^ 256
    match s.launchCheck r (lhPart h) (bit (lhAttr h) 0) false 5000 with
    | (0, t) =>
      let (s, id) := s.launchQueue r (lhPart h) t true
      s.linkRespond h 0 16 (id + t * 2 ^ 64)
    | (st, _) => s.linkRespond h st 0 0

/-- A cancel frame for this device, on its own gate time (R228). -/
def State.cancelFrame (s : State) (n : Nat) (m : Msg) (c : Nat) : State :=
  let h := m.hdr.toNat
  if s.boot.hold then s.linkResetting n m c
  else if lhTarget h != s.devNum then s.relayReq n m c
  else if !s.r31 n (lhPart h) then s.linkDeny n h 1 c
  else
    let (st, s) := (s.linkFreeReq n c).cancelHere (m.payload % 2 ^ 32) (lhPart h) false
    s.linkRespond h st 0 0

/-! ### Acting at T (R225, R226) -/

/-- Every flit of a link is acknowledged, nothing waits on it, and the active table declares no width on it (R294). -/
def State.linkQuiet (s : State) (n : Nat) : Bool :=
  let x := s.lnk n
  s.rd D.LINK_STATE n == 3 && !s.rdB D.LINK_TX_IDLE n && (x.txSeq + 4095) % 4096 == x.txAck && x.txPos == 0 && (s.txq n).isEmpty &&
    !x.nakDue && (match s.activeLap with | some t => (t.width[n]?).getD 0 == 0 | none => true)

/-- Electrical idle is entered (R294). -/
def State.linkIdle (s : State) (n : Nat) : State := (s.setLnk n { (s.lnk n) with idleAsk := false }).wr D.LINK_TX_IDLE n 1

/-- A LINK_IDLE launch acts: at once when the link is quiet, else once it is (R225, R294). -/
def State.linkIdleAsk (s : State) (n : Nat) : State :=
  if s.rd D.LINK_STATE n != 3 then s
  else if s.linkQuiet n then s.linkIdle n else s.setLnk n { (s.lnk n) with idleAsk := true }

/-- Electrical idle ends with the burst of 12 training codewords (R294), and the rise that let it (R374). -/
def State.linkWake (s : State) (n : Nat) : State :=
  let s := ({ s with rising := s.rising.filter (fun u => u != .link (Fin.ofNat 64 n)) } : State).setLnk n { (s.lnk n) with idleAsk := false }
  if s.rdB D.LINK_TX_IDLE n then (s.wr D.LINK_TX_IDLE n 0).emit (.linkBurst n) else s

/-- One target of a launch acts (R225). -/
def State.launchTarget (s : State) (id : Nat) (l : Launch) (t : Nat) : Nat × State :=
  match lrAction l.rec256 with
  | 1 => s.doorbell (lrRing l.rec256) l.part (lrArg l.rec256)
  | 2 => (0, s.portNotify t 0x38 16 (lrArg l.rec256 + id * 2 ^ 32 + l.time * 2 ^ 64))
  | 3 => (0, s.linkWake t)
  | _ => (0, s.linkIdleAsk t)

/-- A launch is missed: counted, with the largest lateness, and an event at most once per millisecond (R226). -/
def State.noteMissed (s : State) (late : Nat) : State :=
  let s := (s.count D.GATE_MISSED_COUNT 0 1).wr D.GATE_LATE_MAX 0 (max (s.rd D.GATE_LATE_MAX 0) (min late 0xFFFFFFFF))
  if (match s.gsv.missEv with | some t => decide (t + 1000000 ≤ s.gate) | none => true) then
    ({ s with gsv := { s.gsv with missEv := some s.gate } } : State).raise Ev.GATE_LAUNCH_MISSED 0 0
  else s

/-- Every target acts, in order; the status is the first one met (R225, R230). -/
def State.launchRun (s : State) (id : Nat) (l : Launch) (late : Nat) : State :=
  let (st, s) := l.targets.foldl (fun a t =>
    let (x, u) := a.2.launchTarget id l t
    (if a.1 = 0 then x else a.1, u)) (l.status, s)
  let s := if late = 0 then s else s.noteMissed late
  s.launchEnd id { l with missed := l.missed || late != 0 } st

/-- Field of a target of a launch. -/
def targetField (action t : Nat) : Nat := if action = 1 ∨ action = 2 then t / 64 else t / 8

/-- Which queue of Table 8.6 holds a launch: engine, site or link. -/
def launchQueueOf (l : Launch) : Nat := min 3 (lrAction l.rec256)

/-- The launch's turn: T has come, no launch with the same T and a lower LAUNCH_ID shares a target, and every target's tap has reloaded
(R208, R225). -/
def State.launchTurn (s : State) (id : Nat) (l : Launch) : Bool :=
  decide (l.time ≤ s.gate) &&
    l.targets.all (fun t => !s.gsv.stale.contains (targetField (lrAction l.rec256) t)) &&
    s.armed.all (fun x => !(decide (x.1 < id) && x.2.time == l.time && launchQueueOf x.2 == launchQueueOf l &&
      x.2.targets.any (fun t => l.targets.contains t)))

/-- What has to wake for a target: the field of an engine or a site that sleeps, or a link in electrical idle. -/
def State.targetSleep (s : State) (action t : Nat) : List PowerUnit :=
  let f := targetField action t
  (if 2 ≤ s.rd D.FIELD_POWER f then [.field (Fin.ofNat 8 f)] else []) ++
    (if action = 3 && s.rdB D.LINK_TX_IDLE t then [.link (Fin.ofNat 64 t)] else [])

/-- A launch asks the chairlift for a unit (R226, R374). -/
def State.launchDemand (s : State) (u : PowerUnit) : State :=
  let s := s.demand u
  if s.lift.contains u && !s.liftFirst.contains u then { s with liftFirst := s.liftFirst ++ [u] } else s

end Sys2Proof.Machine
end

