-- ==== Sys2Proof/Machine/LaunchCmds.lean ====
section
/-! DEFINITION. The launch commands (R212, R222 to R230). -/

namespace Sys2Proof.Machine

/-- The requester of a command of a port or a host function. -/
def State.portAsker (s : State) (i : Nat) (m : Msg) : Asker :=
  { part := s.rd D.PORT_PARTITION i, priv := false, cls := mhClass m.hdr.toNat, origin := .attach i (mhTag m.hdr.toNat) }
def hostAsker (f slot h : Nat) : Asker := { part := hcPart f h, priv := f == 0, cls := 0, origin := .hostCmd f slot }

/-- What LAUNCH does for a port, and for a host command slot. -/
def State.attachLaunch (s : State) (i : Nat) (m : Msg) : State := (s.portFree i m).launchSubmit (s.portAsker i m) (m.payload % 2 ^ 256)
def State.hostLaunch (s : State) (f slot h payload : Nat) : State := s.launchSubmit (hostAsker f slot h) (payload % 2 ^ 256)

/-- LAUNCH (R224). -/
def execLaunch (src : CmdSrc) (s : State) : Host.Outcome State Fault Refusal :=
  match src with
  | .attach i m => .next (s.attachTake i m 0x14 (fun t => t.attachLaunch i m))
  | .host f slot h payload => .next (s.hostCmd f slot h.toNat payload 0x14 (fun t => t.hostLaunch f slot h.toNat payload))
  | .object i w => s.odCmd (.launch (.object i w)) (fun t => t.odWrite D.GATE_LAUNCH i w (fun u => u.ownLaunch w))
  | .descriptor _ => .next s

/-- What LAUNCH_CANCEL does for a port, and for a host command slot. -/
def State.attachCancel (s : State) (i : Nat) (m : Msg) : State := (s.portFree i m).cancelSubmit (s.portAsker i m) (m.payload % 2 ^ 32)
def State.hostCancel (s : State) (f slot h : Nat) : State := s.cancelSubmit (hostAsker f slot h) (hcArg h)

/-- LAUNCH_CANCEL (R228). -/
def execLaunchCancel (src : CmdSrc) (s : State) : Host.Outcome State Fault Refusal :=
  match src with
  | .attach i m => .next (s.attachTake i m 0x15 (fun t => t.attachCancel i m))
  | .host f slot h payload => .next (s.hostCmd f slot h.toNat payload 0x15 (fun t => t.hostCancel f slot h.toNat))
  | .object i w => s.odCmd (.launchCancel (.object i w)) (fun t => t.odWrite D.GATE_CANCEL i w (fun u => u.ownCancel w))
  | .descriptor _ => .next s

/-- GATE_READ (R212, Table 8.1): through its object it is a read of GATE_TIME. -/
def execGateRead (src : CmdSrc) (s : State) : Host.Outcome State Fault Refusal :=
  match src with
  | .attach i m => .next (s.attachTake i m 0x16 (fun t => t.attachAnswer i m 0 8 t.gate))
  | .host f slot h payload => .next (s.hostCmd f slot h.toNat payload 0x16 (fun t => t.hostCmdDone f slot 0 t.gate))
  | .object i w => s.odCmd (.gateRead (.object i w)) (fun t =>
      match t.odCheckRead D.GATE_TIME i w.route with
      | 0 => t.odAnswer 0 8 t.gate
      | st => t.odAnswer st 0 0)
  | .descriptor _ => .next s

/-- LAUNCH_WAKE (R226). -/
def execLaunchWake (id : Nat) (s : State) : Host.Outcome State Fault Refusal :=
  match s.launch? id with
  | none => .next s
  | some l =>
    if l.woken then .next s
    else
      let s := s.setLaunch id (some { l with woken := true })
      .next ((l.targets.flatMap (fun t => s.targetSleep (lrAction l.rec256) t)).foldl (fun t u => t.launchDemand u) s)

/-- LAUNCH_ACT (R225): `lateNs` is the largest lateness over the targets, 0 when every one acts at T. -/
def execLaunchAct (id : Nat) (lateNs : Nat) (s : State) : Host.Outcome State Fault Refusal :=
  match s.launch? id with
  | none => .next s
  | some l => if s.launchTurn id l then .next (s.launchRun id l lateNs) else .next s

/-- A routed message of an opcode arrives on a link that is up. -/
def State.linkHears (s : State) (n : Nat) (m : Msg) (op : Nat) : Bool := linkUsable (s.rd D.LINK_STATE n) && lhOp m.hdr.toNat == op

/-- LAUNCH_FRAME (R227). -/
def execLaunchFrame (n : Fin 64) (m : Msg) (s : State) : Host.Outcome State Fault Refusal :=
  if s.linkHears n m 0x14 then .next (s.launchFrame n m (linkChunks m.hdr.toNat)) else .next s

/-- LAUNCH_CANCEL_FRAME (R228). -/
def execLaunchCancelFrame (n : Fin 64) (m : Msg) (s : State) : Host.Outcome State Fault Refusal :=
  if s.linkHears n m 0x15 then .next (s.cancelFrame n m (linkChunks m.hdr.toNat)) else .next s

/-- A response that belongs to a forwarded launch, or to a forwarded cancel. -/
def State.answersForward (s : State) (m : Msg) (cancel : Bool) : Bool :=
  s.forwards.any (fun f => f.key == lhReqId m.hdr.toNat && f.cancel == cancel)

/-- LAUNCH_RESPONSE (R227). -/
def execLaunchResponse (n : Fin 64) (m : Msg) (s : State) : Host.Outcome State Fault Refusal :=
  if s.linkHears n m 0x30 && s.answersForward m false then .next (s.linkRsp n m (linkChunks m.hdr.toNat)) else .next s

/-- LAUNCH_CANCEL_ANSWER (R228). -/
def execLaunchCancelAnswer (n : Fin 64) (m : Msg) (s : State) : Host.Outcome State Fault Refusal :=
  if s.linkHears n m 0x30 && s.answersForward m true then .next (s.linkRsp n m (linkChunks m.hdr.toNat)) else .next s

/-- GATHER_WRITE (R141). -/
def execGatherWrite (n : Fin 64) (m : Msg) (s : State) : Host.Outcome State Fault Refusal :=
  if s.linkHears n m 0x0A then .next (s.gatherTake n m (linkChunks m.hdr.toNat)) else .next s

end Sys2Proof.Machine
end

