-- ==== Sys2Proof/Machine/AttachOps.lean ====
section
/-! DEFINITION. The flits of an attach port: the header, the CRC, replay, credits, and the messages inside (R254 to R259). -/

namespace Sys2Proof.Machine

/-- What a message does once it is its turn, by its opcode; a reserved opcode fails framing before this (Table 10.6). -/
def State.attachDo (s : State) (i : Nat) (m : Msg) (op : Nat) : State :=
  match op with
  | 0x10 => s.attachFormat i m
  | 0x11 => s.attachRingWrite i m
  | 0x12 => s.attachRingRead i m
  | 0x13 => s.attachSweep i m
  | 0x14 => s.attachLaunch i m
  | 0x15 => s.attachCancel i m
  | 0x16 => s.attachAnswer i m 0 8 s.gate
  | _ => s.attachData i m op

/-- A whole message has arrived. -/
def State.attachMsg (s : State) (i : Nat) (m : Msg) : State :=
  s.attachTake i m (mhOp m.hdr.toNat) (fun t => t.attachDo i m (mhOp m.hdr.toNat))

/-- The messages a port holds go on in order while nothing holds the first of them (R48, R266). -/
def State.portRun : Nat → State → Nat → State
  | 0, s, _ => s
  | fuel + 1, s, i =>
    match (s.port i).held with
    | [] => s
    | m :: rest =>
      if (s.port i).resetting.isSome || s.resHeld 0 i (s.rd D.PORT_PARTITION i) || s.reqList.any (fun x => fromPort i x.2 && x.2.kind == .fence) then s
      else
        let s := s.setPort i { (s.port i) with held := rest }
        State.portRun fuel (s.attachRun i m (mhOp m.hdr.toNat) (fun t => t.attachDo i m (mhOp m.hdr.toNat))) i

/-! ### Flits -/

/-- Fields of a flit header (Table 10.2). -/
def fhSeq (x : Nat) : Nat := bits x 11 0
def fhType (x : Nat) : Nat := bits x 15 12
def fhAck (x : Nat) : Nat := bits x 27 16
def fhNak (x : Nat) : Bool := bit x 28
def fhCredit (x : Nat) : Nat := bits x 47 32
def fhCrc (x : Nat) : Nat := bits x 127 96

/-- CRC-32C over the 256 bytes of a flit, first byte first, with the field as zero (log 13). -/
def flitCrc (x : Nat) : Nat := crcBits 0x82F63B78 2048 0xFFFFFFFF (setBits x 127 96 0) ^^^ 0xFFFFFFFF

/-- The CRC of a flit is correct. -/
def flitGood (x : Nat) : Bool := flitCrc x == fhCrc x

/-- A header the device sends: type, ACK and CREDIT as they stand, and NAK (R255). -/
def State.flitHdr (s : State) (i ty : Nat) (nak : Bool) : Nat :=
  let x := s.port i
  x.txSeq + ty * 2 ^ 12 + ((x.rxSeq + 4095) % 4096) * 2 ^ 16 + nak.toNat * 2 ^ 28 + (x.resetting.getD x.reqFreed) * 2 ^ 32

/-- A NULL flit of the device, with its CRC. -/
def State.sendNull (s : State) (i : Nat) (nak : Bool) : State :=
  let h := s.flitHdr i 2 nak
  s.emit (.attachFlit i (setBits h 127 96 (flitCrc h)))

/-- NAKs in a row that name the same ACK: the eighth takes the port down with cause 2 (R255). -/
def State.portNak (s : State) (i ack : Nat) : State :=
  let x := s.port i
  let run := if x.nakRun != 0 && x.nakAck == ack then x.nakRun + 1 else 1
  let s := (s.setPort i { x with nakAck := ack, nakRun := run }).count D.ATTACH_REPLAYS i 1
  if 8 ≤ run then s.portDown i 2 else s

/-- ACK, NAK and CREDIT of a flit with a good CRC (R255): DATA flits up to ACK leave the replay buffer; on NAK the rest is sent again. -/
def State.flitApply (s : State) (i h : Nat) : State :=
  let x := s.port i
  let freed := (fhAck h + 4096 - x.dieAck) % 4096
  let un := x.unacked - freed
  let s := s.setPort i { x with dieAck := fhAck h, unacked := un, ntfFreed := fhCredit h }
  if fhNak h then
    let s := s.portNak i (fhAck h)
    if s.rd D.ATTACH_STATE i = 4 && un != 0 then s.emit (.attachResend i ((fhAck h + 1) % 4096) un) else s
  else s

/-- Chunks 1 to 15 of a flit. -/
def flitChunks (x : Nat) : List Nat := (List.range 15).map (fun k => bytesOf x (16 * (k + 1)) 16)

/-- The whole messages of a list of chunks, and what is left; an all-zero chunk at a message boundary is a NOP (R254, R259). -/
def cutMsgs : Nat → List Nat → List Msg × List Nat
  | 0, l => ([], l)
  | _, [] => ([], [])
  | fuel + 1, h :: r =>
    if h = 0 then cutMsgs fuel r
    else
      let n := 1 + (mhDlx h).toNat + mhPch h
      if (h :: r).length < n then ([], h :: r)
      else
        let x := cutMsgs fuel ((h :: r).drop n)
        (msgOf ((h :: r).take n) (mhDlx h) :: x.1, x.2)

/-- An accepted DATA flit: its chunks join the stream, and every whole message arrives. -/
def State.flitTake (s : State) (i x : Nat) : State :=
  let p := s.port i
  let l := p.stream ++ flitChunks x
  let c := cutMsgs (l.length + 1) l
  let since := p.sinceAck + 1
  let s := s.setPort i { p with rxSeq := (p.rxSeq + 1) % 4096, nakSent := false, stream := c.2, sinceAck := if 16 ≤ since then 0 else since }
  let s := if 16 ≤ since then s.sendNull i false else s
  c.1.foldl (fun t m => t.attachMsg i m) s

/-- A discarded DATA flit: NAK = 1 once per episode (R255). -/
def State.flitDiscard (s : State) (i : Nat) : State :=
  let p := s.port i
  if p.nakSent then s
  else ((s.setPort i { p with nakSent := true }).count D.ATTACH_REPLAYS i 1).sendNull i true

/-! ### Port states (R257, R258) -/

/-- RESET is entered. -/
def State.portReset (s : State) (i : Nat) : State := (s.setPort i Port.init).wr D.ATTACH_STATE i 1

/-- Counters of a port are reset when it leaves OFF (R277). -/
def State.portCounters (s : State) (i : Nat) : State :=
  ((s.wr D.ATTACH_REPLAYS i 0).wr D.ATTACH_PROTOCOL_ERR i 0).wr D.ATTACH_NTF_DROPPED i 0

/-- The PARAM flit of the device, chunk 1 (Table 10.4). -/
def State.paramChunk (s : State) (i : Nat) : Nat :=
  1 + s.cur D.ATTACH_REQ_CREDITS i * 2 ^ 16 + s.devNum * 2 ^ 32 + i / 64 * 2 ^ 44 + i % 64 * 2 ^ 47

/-- PARAM is entered: ATTACH_REQ_CREDITS comes into force, and the device sends its PARAM flit (R257, Table 10.11). -/
def State.enterParam (s : State) (i : Nat) : State :=
  let s := (s.enforce D.ATTACH_REQ_CREDITS i).wr D.ATTACH_STATE i 3
  let f := s.flitHdr i 1 false + s.paramChunk i * 2 ^ 128
  s.emit (.attachFlit i (setBits f 127 96 (flitCrc f)))

end Sys2Proof.Machine
end

