-- ==== Sys2Proof/Machine/Attach.lean ====
section
/-! DEFINITION. The flits and states of an attach port (R254 to R258). -/

namespace Sys2Proof.Machine

/-- ATTACH_DATA_FLIT (R255): ACK and CREDIT of a flit with a good CRC, then the flit itself when its SEQ is the next one. -/
def execAttachDataFlit (i : Fin 512) (flit : BitVec 2048) (s : State) : Host.Outcome State Fault Refusal :=
  let x := flit.toNat
  if s.rd D.ATTACH_STATE i != 4 || fhType x != 0 then .next s
  else if !flitGood x then .next (s.flitDiscard i)
  else
    let s := s.flitApply i x
    if s.rd D.ATTACH_STATE i != 4 then .next s
    else if fhSeq x = (s.port i).rxSeq then .next (s.flitTake i x) else .next (s.flitDiscard i)

/-- ATTACH_NULL_FLIT (R255). -/
def execAttachNullFlit (i : Fin 512) (flit : BitVec 2048) (s : State) : Host.Outcome State Fault Refusal :=
  let x := flit.toNat
  if s.rd D.ATTACH_STATE i == 4 && fhType x == 2 && flitGood x then .next (s.flitApply i x) else .next s

/-- ATTACH_PARAM_FLIT (R257): the parameters agree, or the port goes DOWN with cause 7. -/
def execAttachParamFlit (i : Fin 512) (flit : BitVec 2048) (s : State) : Host.Outcome State Fault Refusal :=
  let x := flit.toNat
  if s.rd D.ATTACH_STATE i == 3 && fhType x == 1 && flitGood x then
    let c := bytesOf x 16 16
    if bits c 15 0 != 1 || decide (bits c 31 16 < 64) then .next (s.portDown i 7)
    else
      let s := (s.setPort i { Port.init with ntfGrant := bits c 31 16 }).wr D.ATTACH_DIE_ID i (bits c 127 64)
      .next ((s.wr D.ATTACH_STATE i 4).sbPorts i)
  else .next s

/-- ATTACH_RESET_TIMER (R257). -/
def execAttachResetTimer (i : Fin 512) (s : State) : Host.Outcome State Fault Refusal :=
  if s.rd D.ATTACH_STATE i == 1 then .next (s.wr D.ATTACH_STATE i 2) else .next s

/-- ATTACH_TRAIN_DONE (R257). -/
def execAttachTrainDone (i : Fin 512) (s : State) : Host.Outcome State Fault Refusal :=
  if s.rd D.ATTACH_STATE i == 2 then .next (s.enterParam i) else .next s

/-- ATTACH_TRAIN_TIMEOUT (R257). -/
def execAttachTrainTimeout (i : Fin 512) (s : State) : Host.Outcome State Fault Refusal :=
  if s.rd D.ATTACH_STATE i == 2 then .next (s.portDown i 1) else .next s

/-- ATTACH_PARAM_TIMEOUT (R257). -/
def execAttachParamTimeout (i : Fin 512) (s : State) : Host.Outcome State Fault Refusal :=
  if s.rd D.ATTACH_STATE i == 3 then .next (s.portDown i 1) else .next s

/-- ATTACH_PORT_RESET's own rules (R258). -/
def State.ownPortReset (s : State) (i : Nat) : State :=
  (match s.rd D.ATTACH_STATE i with
   | 0 => s
   | 4 =>
     let x := s.port i
     if x.resetting.isSome then s else s.setPort i { x with resetting := some x.reqFreed }
   | _ => s.portReset i).odDone

/-- ATTACH_PORT_RESET (R258). -/
def execAttachPortReset (i : Fin 512) (w : OdWrite) (s : State) : Host.Outcome State Fault Refusal :=
  s.odCmd (.attachPortReset i w) (fun t => t.odWrite D.ATTACH_PORT_RESET i w (fun u => u.ownPortReset i))

/-- ATTACH_RESET_DRAIN_END (R258): what still runs loses its response, and the port enters RESET. -/
def execAttachResetDrainEnd (i : Fin 512) (s : State) : Host.Outcome State Fault Refusal :=
  if s.rd D.ATTACH_STATE i == 4 && (s.port i).resetting.isSome then .next (((s.portClear i).portReset i).sbPorts i) else .next s

/-- NTF_SEND (R256): the oldest notification, once there is credit for all of it. -/
def execNtfSend (i : Fin 512) (s : State) : Host.Outcome State Fault Refusal :=
  let x := s.port i
  match x.ntfs with
  | [] => .next s
  | (h, v) :: rest =>
    let n := 1 + mhPch h
    if s.rd D.ATTACH_STATE i == 4 && decide ((x.ntfTx + 2 ^ 16 - x.ntfFreed) % 2 ^ 16 + n ≤ x.ntfGrant) then
      .next (((s.setPort i { x with ntfs := rest, ntfTx := (x.ntfTx + n) % 2 ^ 16 }).portSent i n).emit (.ntf i h v))
    else .next s

end Sys2Proof.Machine
end

