-- ==== Sys2Proof/Machine/HostPort.lean ====
section
/-! DEFINITION. The host port: memory requests and AtomicOps, the control registers, the fault rings, and the resets of its functions (R309 to
R327, R421). -/

namespace Sys2Proof.Machine

/-- Partition a function carries (R311). -/
def State.fnPart (s : State) (f : Nat) : Nat := if f = 0 then s.rd D.PF_DATA_PARTITION 0 else f - 1

/-! ### Fault rings -/

def HostFn.ring (h : HostFn) (p : Nat) : FaultRing := Table.get FaultRing.init p h.rings

def State.setFaultRing (s : State) (f p : Nat) (r : FaultRing) : State :=
  let h := s.fn f
  s.setFn f { h with rings := Table.set FaultRing.init p r h.rings }

/-- The ring with FR_PROD and FR_CONS 0, when it was enabled (R321). -/
def FaultRing.cleared (r : FaultRing) : FaultRing := if r.sizeLog2 = 0 then r else { r with prod := 0, cons := 0 }

/-- A write of a register of a fault ring (R321). The low bits that alignment makes zero are not kept. -/
def FaultRing.write (r : FaultRing) (reg : FrReg) (v : Nat) : FaultRing :=
  match reg with
  | .base => { r.cleared with base := v / 4096 * 4096 }
  | .shadow => { r.cleared with shadow := v / 8 * 8 }
  | .sizeLog2 => if v % 2 ^ 32 = 0 ∨ (6 ≤ v % 2 ^ 32 ∧ v % 2 ^ 32 ≤ 16) then { r.cleared with sizeLog2 := v % 2 ^ 32 } else r
  | .cons => { r with cons := v % 2 ^ 32 }

/-- The ring has no room (R321). -/
def FaultRing.full (r : FaultRing) : Bool := 2 ^ r.sizeLog2 ≤ (r.prod + 2 ^ 32 - r.cons) % 2 ^ 32

/-- Vector of fault ring `p` of a function (Table 12.7). -/
def ringVector (f p : Nat) : Nat := if f = 0 then 4 + p else 2

/-- A record is written to a ring of a function, then FR_PROD to FR_SHADOW, then the vector is sent (R321). -/
def State.ringPut (s : State) (f p rec256 : Nat) : State :=
  let r := (s.fn f).ring p
  let prod := (r.prod + 1) % 2 ^ 32
  let s := (s.emit (.hostWrite (r.base + 32 * (r.prod % 2 ^ r.sizeLog2)) 32 rec256)).setFaultRing f p { r with prod := prod }
  (s.emit (.hostWrite r.shadow 4 prod)).msix f (ringVector f p)

/-- The record of partition `p` that moves next: the priority area first, by class and then by age; then the normal area, oldest first (R421). -/
def Part.nextRecord (x : Part) : Option Nat :=
  match x.prio.find? (fun r => bits r 13 12 == 2), x.prio.find? (fun r => bits r 13 12 == 1), x.prio.head? with
  | some r, _, _ => some r
  | none, some r, _ => some r
  | none, none, some r => some r
  | none, none, none => x.normal.head?

/-- The queue without a record that has moved. -/
def Part.dropRecord (x : Part) (r : Nat) : Part :=
  if x.prio.contains r then { x with prio := removeFirst (fun q => q == r) x.prio }
  else { x with normal := removeFirst (fun q => q == r) x.normal }

/-- The copy for the VF of partition `p` (R321). -/
def State.ringCopy (s : State) (p rec256 : Nat) : State :=
  let f := p + 1
  let r := (s.fn f).ring 0
  if !s.fnPresent f || r.sizeLog2 == 0 then s
  else if r.full then s.count D.FR_VF_DROPPED f 1
  else s.ringPut f 0 rec256

/-- FAULT_RECORD_DELIVER (R321): one record, when the host link is up and the PF ring is enabled and has room. -/
def execFaultRecordDeliver (p : Fin 16) (s : State) : Host.Outcome State Fault Refusal :=
  let r := (s.fn 0).ring p
  match (s.part p).nextRecord with
  | none => .next s
  | some q =>
    if s.rd D.HOST_LINK_STATE 0 != 2 || r.sizeLog2 == 0 || r.full then .next s
    else
      let s := s.setPart p ((s.part p).dropRecord q)
      .next ((s.ringPut 0 p q).ringCopy p q)

/-- FAULT_RING_WRITE (R321): a VF has ring 0 only. -/
def execFaultRingWrite (f : Fin 17) (p : Fin 16) (reg : FrReg) (val : BitVec 64) (s : State) : Host.Outcome State Fault Refusal :=
  if s.fnPresent f && (f.val == 0 || p.val == 0) then .next (s.setFaultRing f p (((s.fn f).ring p).write reg val.toNat)) else .next s

/-! ### Control registers -/

/-- GATE_NOW read in one of its three ways: the value and the state (R324). -/
def State.gateNow (s : State) (f : Nat) (half : GateHalf) : Nat × State :=
  match half with
  | .whole => (s.gate, s)
  | .low => (s.gate % 2 ^ 32, s.setFn f { (s.fn f) with gateCap := s.gate })
  | .high => ((s.fn f).gateCap / 2 ^ 32, s)

/-- GATE_NOW (R324). -/
def execGateNow (f : Fin 17) (half : GateHalf) (s : State) : Host.Outcome State Fault Refusal :=
  if s.fnPresent f then
    let x := s.gateNow f half
    .next (x.2.emit (.reg f (if half = .whole then 8 else 4) x.1))
  else .next s

/-- BOOT_STATUS (R325). -/
def State.bootStatus (s : State) : Nat :=
  match s.boot.last with
  | none => 0
  | some g => let r := s.rd D.STARTUP_REPORT g; bits r 4 0 + bits r 31 16 * 2 ^ 16

/-- The bytes of a command slot (R319). -/
def slotImage (c : Slot) : Nat :=
  setBit c.hdr 7 c.own + (c.payload % 2 ^ 640) * 2 ^ 128 + (c.resp % 2 ^ 512) * 2 ^ 1024 + c.status * 2 ^ 1536

/-- The bytes of a fault ring set, its registers in the order of R321. -/
def ringImage (r : FaultRing) : Nat :=
  r.base + r.shadow * 2 ^ 64 + r.sizeLog2 * 2 ^ 128 + r.cons * 2 ^ 160 + r.prod * 2 ^ 192

/-- Registers of 8 bytes: their value; none elsewhere (Table 12.4). -/
def State.reg8 (s : State) (f off : Nat) : Option Nat :=
  let h := s.fn f
  if off = 0 then some s.bootStatus
  else if off = 0x4000 then some 0
  else if off = 0x4008 then some (h.mbx + (if h.mbx = 2 then h.mbxLen * 2 ^ 16 else 0))
  else if off = 0x7000 then some h.nlogProd
  else if off = 0x9000 then some 0
  else none

/-- `len` bytes of the control registers from an offset (R318, Table 12.4). -/
def State.regRead (s : State) (f off len : Nat) : Nat :=
  let h := s.fn f
  let one (b v : Nat) : Nat := bytesOf v (off - b) len
  match s.reg8 f (off / 8 * 8) with
  | some v => if off % 8 = 0 ∧ len = 8 then v else 0
  | none =>
    if off / 4 = 4 then one 0x10 (s.fnPart f)
    else if 0x100 ≤ off ∧ off < 0x300 then
      let p := (off - 0x100) / 32
      if f = 0 ∨ p = 0 then one (0x100 + 32 * p) (ringImage (h.ring p)) else 0
    else if 0x1000 ≤ off ∧ off < 0x2000 then
      let k := (off - 0x1000) / 256
      one (0x1000 + 256 * k) (slotImage (Table.get Slot.init k h.slots))
    else if 0x3000 ≤ off ∧ off < 0x4000 then one 0x3000 h.mbxRsp
    else if 0x5000 ≤ off ∧ off < 0x7000 then
      let k := (off - 0x5000) / 128
      one (0x5000 + 128 * k) (Table.get 0 k h.nlog)
    else if 0x8000 ≤ off ∧ off < 0x8000 + 16 * fnVectors f then
      ofByteList ((List.range len).map (fun i => Table.get 0 (off - 0x8000 + i) h.msix))
    else 0

/-- A write of the registers that have no command of their own: the MSI-X table and the payload of a command slot. -/
def State.regWrite (s : State) (f off len v : Nat) : State :=
  let h := s.fn f
  if 0x8000 ≤ off ∧ off + len ≤ 0x8000 + 16 * fnVectors f then
    s.setFn f { h with msix := (List.range len).foldl (fun t i => Table.set 0 (off - 0x8000 + i) (bytesOf v i 1) t) h.msix }
  else if 0x1000 ≤ off ∧ off < 0x2000 ∧ 16 ≤ off % 256 ∧ off % 256 + len ≤ 96 then
    let k := (off - 0x1000) / 256
    let c := Table.get Slot.init k h.slots
    s.setFn f { h with slots := Table.set Slot.init k { c with payload := setBytes c.payload (off % 256 - 16) len v } h.slots }
  else s

/-- A read of BAR0: GATE_NOW has its own rule. -/
def State.regAnswer (s : State) (f : Nat) (q : HostReq) : State :=
  let cpl (t : State) (v : Nat) : State := t.emit (.hostCpl f q.tag 0 false q.len (v % 2 ^ (8 * q.len)))
  if q.offset = 8 ∧ q.len = 8 then let x := s.gateNow f .whole; cpl x.2 x.1
  else if q.offset = 8 ∧ q.len = 4 then let x := s.gateNow f .low; cpl x.2 x.1
  else if q.offset = 12 ∧ q.len = 4 then let x := s.gateNow f .high; cpl x.2 x.1
  else cpl s (s.regRead f q.offset q.len)

/-! ### Memory requests -/

/-- Local address of an offset of BAR2 or BAR4 (Table 12.2). -/
def barAddr (b : HostBar) (o : Nat) : Nat := match b with | .bar2 => 0xF0000000000 + o % 2 ^ 26 | _ => o % 2 ^ 44

/-- The device request a host request becomes (R313). -/
def State.hostReq (s : State) (f : Nat) (q : HostReq) (kind : ReqKind) (len attr : Nat) : Req :=
  let cls := s.rd D.HOST_CLASS f
  { origin := if q.write then .hostPosted f else .host f q.tag, kind := kind, group := 3, source := f, part := s.fnPart f, cls := cls,
    deadline := s.deadlineOf cls none, dev := s.devNum, addr := barAddr q.bar q.offset, len := len, attr := attr, data := q.data,
    poison := false, relaxed := q.relaxed, epoch := 0, order := 0, stage := .held, chunks := 0, parts := [], record := 0, status := 0 }

/-- HOST_MEMORY_REQUEST (R313, R318). -/
def execHostMemoryRequest (f : Fin 17) (q : HostReq) (s : State) : Host.Outcome State Fault Refusal :=
  if !s.fnPresent f then .next s
  else match q.bar with
    | .bar0 => .next (if q.write then s.regWrite f q.offset q.len q.data else s.regAnswer f q)
    | b =>
      if q.write then
        let q := { q with data := q.data % 2 ^ (8 * q.len) }
        .next (s.enter (s.hostReq f q (writeKind s.variant (barAddr b q.offset)) q.len 0))
      else .next (s.enter (s.hostReq f q .read q.len 0))

/-- Operation, type and operand bytes of a PCIe AtomicOp (R317). -/
def atomicOf : PcieAtomic → Nat × Nat × Nat
  | .fetchAdd32 => (0, 0, 4)
  | .fetchAdd64 => (0, 2, 8)
  | .swap32 => (6, 0, 4)
  | .swap64 => (6, 2, 8)
  | .cas32 => (7, 0, 4)
  | .cas64 => (7, 2, 8)
  | .cas128 => (7, 6, 16)

/-- HOST_ATOMICOP (R317): BAR0 takes no AtomicOp. -/
def execHostAtomicop (f : Fin 17) (q : HostReq) (op : PcieAtomic) (s : State) : Host.Outcome State Fault Refusal :=
  if !s.fnPresent f then .next s
  else match q.bar with
    | .bar0 => .next (s.emit (.hostCpl f q.tag 1 false 0 0))
    | _ =>
      let a := atomicOf op
      .next (s.enter (s.hostReq f { q with write := false } .atomic a.2.2 (a.1 + a.2.1 * 2 ^ 4 + 2 ^ 7)))

/-! ### Functions, link loss and resets -/

/-- An origin of a function. -/
def ofFn (f : Nat) (o : Origin) : Bool :=
  match o with | .host g _ => g == f | .hostPosted g => g == f | .hostCmd g _ => g == f | _ => false

/-- An origin whose function is gone. -/
def goneFn (f : Nat) (o : Origin) : Origin := if ofFn f o then .gone else o

/-- Data-path requests of the function: those at its ingress are discarded, parked ones complete with WINDOW_FAULT, the others go on without a
requester (R326). -/
def State.fnDrop (s : State) (f : Nat) : State :=
  s.reqList.foldl (fun t x =>
    if ofFn f x.2.origin then
      (match x.2.stage with
      | .held => t.delReq x.1
      | .parked _ => (t.setReq x.1 { x.2 with origin := .gone }).faultParked x.1
      | _ => t.setReq x.1 { x.2 with origin := .gone })
    else t) s

/-- The answer a window command owes to a slot of the function is dropped. -/
def goneReply (f : Nat) (r : Reply) : Reply := match r with | .hostCmd g k => if g = f then .none else .hostCmd g k | r => r

/-- Commands of the function that wait elsewhere go on without a requester; a mailbox transaction that has not started is discarded. -/
def State.fnOrphan (s : State) (f : Nat) : State :=
  { s with
    forwards := s.forwards.map (fun x => { x with origin := goneFn f x.origin }),
    rings := s.rings.map (fun e => (e.1, { e.2 with disabling := e.2.disabling.map (goneFn f) })),
    parts := s.parts.map (fun e => (e.1, { e.2 with
      drain := e.2.drain.map (fun d => (d.1, goneReply f d.2.1, d.2.2)), wcmds := e.2.wcmds.map (fun c => (c.1, goneReply f c.2)) })),
    odRun := s.odRun.map (fun r => { r with src := if r.src = .mailbox f then .gone f else r.src }),
    backlog := s.backlog.filter (fun c => match c with | .mailboxRequest g _ _ => g.val != f | _ => true) }

/-- A function returns to its reset state (Table 12.8). -/
def State.fnReset (s : State) (f : Nat) : State := ((s.fnDrop f).fnOrphan f).setFn f HostFn.init

/-- VF Enable is cleared or set for `n` VFs: those beyond are removed (R311, R326). -/
def State.setVfs (s : State) (n : Nat) : State :=
  let s := ((List.range 17).filter (fun f => decide (n < f ∧ f ≤ s.rd D.HOST_NUM_VFS 0))).foldl (fun t f => t.fnReset f) s
  s.wr D.HOST_NUM_VFS 0 n

/-- VF_ENABLE (R311). -/
def execVfEnable (numVfs : Fin 17) (s : State) : Host.Outcome State Fault Refusal := .next (s.setVfs numVfs)

/-- VF_FLR (R326). -/
def execVfFlr (v : Fin 16) (s : State) : Host.Outcome State Fault Refusal :=
  if s.fnPresent (v + 1) then .next ((s.fnReset (v + 1)).count D.HOST_FLR_COUNT (v + 1) 1) else .next s

/-- PF_FLR (R326). -/
def execPfFlr (s : State) : Host.Outcome State Fault Refusal := .next (((s.setVfs 0).fnReset 0).count D.HOST_FLR_COUNT 0 1)

/-- HOST_LINK_DOWN (R326): the bridge starts to train the link again. -/
def execHostLinkDown (s : State) : Host.Outcome State Fault Refusal :=
  if s.rd D.HOST_LINK_STATE 0 != 2 then .next s
  else
    let s := ((s.setVfs 0).fnReset 0).wr D.HOST_LINK_STATE 0 1
    let s := ((s.wr D.HOST_LINK_RATE 0 0).wr D.HOST_LINK_WIDTH 0 0).enforce D.HOST_MAX_RATE 0
    .next ((s.count D.HOST_LINK_DOWNS 0 1).raise Ev.HOST_LINK_DOWN 0 0)

/-- HOST_LINK_TRAINED (R310): training runs from boot stage 9 on; a rate above HOST_MAX_RATE is not trained. -/
def execHostLinkTrained (o : HostTrain) (s : State) : Host.Outcome State Fault Refusal :=
  if s.rd D.BOOT_STAGE 0 < 9 || s.rd D.HOST_LINK_STATE 0 == 2 then .next s
  else match o with
    | .timeout => .next (s.wr D.HOST_LINK_STATE 0 0)
    | .up rate width bridge =>
      if (rate.toNat == 1 || rate.toNat == 2) && decide (rate.toNat ≤ s.cur D.HOST_MAX_RATE 0) && (width.toNat == 8 || width.toNat == 16) then
        .next ((((s.wr D.HOST_LINK_STATE 0 2).wr D.HOST_LINK_RATE 0 rate.toNat).wr D.HOST_LINK_WIDTH 0 width.toNat).wr D.BRIDGE_SERIAL 0
          bridge.toNat)
      else .next s

end Sys2Proof.Machine
end

