-- ==== Sys2Proof/Machine/Gate.lean ====
section
/-! DEFINITION. The commands of gate time (R208 to R221). -/

namespace Sys2Proof.Machine

/-- SYNC_WORD (R208): each running tap whose copy disagrees reloads it, with an event and a count; taps that have waked reload. -/
def execSyncWord (disagreeing : List (Fin 1024)) (s : State) : Host.Outcome State Fault Refusal :=
  if s.gate % 1024 != 0 then .next s
  else
    let s := { s with gsv := { s.gsv with stale := [] } }
    .next (disagreeing.foldl (fun t r =>
      if fieldPresent t.variant (sliceField r.val) && decide (t.rd D.FIELD_POWER (sliceField r.val) < 2) then
        (t.raise Ev.GATE_TAP_ERR 0 0).count D.GATE_TAP_ERR_COUNT 0 1
      else t) s)

/-- GATE_SOURCE's own rules (R213, R214). -/
def State.ownGateSource (s : State) (w : OdWrite) : State :=
  let s := (s.setObj D.GATE_SOURCE 0 w).setSync 0
  let s := { s with gsv := { s.gsv with lock := 0, step := none, master := none, ptpT1 := none, ptpT2 := none } }
  let s := ((s.wr D.GATE_UPSTREAM_LINK 0 0xFF).wr D.PTP_STATE 0 0).wr D.GATE_HOPS 0 (if odNum w = 2 then 0xFF else 0)
  (if odNum w = 0 && decide (10 ≤ s.rd D.BOOT_STAGE 0) then s.setSync 1 else s.chooseUpstream.noteHops).odDone

/-- GATE_SOURCE (R213). -/
def execGateSource (w : OdWrite) (s : State) : Host.Outcome State Fault Refusal :=
  s.odCmd (.gateSource w) (fun t => t.odWrite D.GATE_SOURCE 0 w (fun u => u.ownGateSource w))

/-- TIMEX_DUE (R215): a request waits for the next lane-0 flit. -/
def execTimexDue (n : Fin 64) (s : State) : Host.Outcome State Fault Refusal :=
  if s.rd D.LINK_STATE n.val != 3 then .next s
  else
    let x := s.tmx n
    let q := (x.seq + 1) % 2 ^ 16
    .next ((s.setTmx n { x with seq := q, open_ := true, t1 := none, wait := false }).sendTimex n (timexHdr 0 q 0 0 0) 0)

/-- A TIMEX message of a kind on an ACTIVE link. -/
def State.timexIs (s : State) (n : Nat) (m : BitVec 256) (kind : Nat) : Bool :=
  s.rd D.LINK_STATE n == 3 && lhOp m.toNat == 0x21 && txKind m.toNat == kind

/-- TIMEX_REQUEST (R215): t2 is gate time now; the reply carries it with the state, the hop count and the error bound. -/
def execTimexRequest (n : Fin 64) (m : BitVec 256) (s : State) : Host.Outcome State Fault Refusal :=
  if s.timexIs n m 0 then
    .next (s.sendTimex n (timexHdr 1 (txXseq m.toNat) (s.rd D.GATE_SYNC_STATE 0) s.ghops s.errBound) s.gate)
  else .next s

/-- TIMEX_REPLY (R216, R217): t2, t4 and what the partner reports. -/
def execTimexReply (n : Fin 64) (m : BitVec 256) (s : State) : Host.Outcome State Fault Refusal :=
  let x := s.tmx n
  let h := m.toNat
  if s.timexIs n m 1 && x.open_ && txXseq h == x.seq && x.t1.isSome then
    let y := { x with open_ := false, wait := true, t2 := bits h 191 128, t4 := s.gate, known := true, state := bits h 25 24,
                      hops := bits h 29 26, err := bits h 61 30 }
    .next (s.setTmx n y).chooseUpstream.noteHops
  else .next s

/-- TIMEX_FOLLOW_UP (R216, R300): t3 completes the exchange. -/
def execTimexFollowUp (n : Fin 64) (m : BitVec 256) (s : State) : Host.Outcome State Fault Refusal :=
  let x := s.tmx n
  match x.t1 with
  | some t1 =>
    if s.timexIs n m 2 && x.wait && txXseq m.toNat == x.seq then .next (s.exchanged n t1 x.t2 (bits m.toNat 191 128) x.t4) else .next s
  | none => .next s

/-- Gate time after a step by `d`: never below 0 and never past the largest value (R219). -/
def stepped (gate : Nat) (d : Int) : Nat := min ((gate : Int) + d).toNat (2 ^ 64 - 1)

/-- GATE_STEP (R219): at a sync-word boundary. -/
def execGateStep (s : State) : Host.Outcome State Fault Refusal :=
  match s.gsv.step with
  | none => .next s
  | some d =>
    if s.gate % 1024 != 0 then .next s
    else
      let s := { s with gsv := { s.gsv with step := none } }
      if s.synced then .next s
      else if s.stepOk then .next ((({ s with gate := stepped s.gate d } : State).count D.GATE_STEP_COUNT 0 1).raise Ev.GATE_STEPPED 0 0)
      else .next (s.raise Ev.GATE_STEP_BLOCKED 0 0)

/-- UPSTREAM_LOSS_TIMEOUT (R214). -/
def execUpstreamLossTimeout (s : State) : Host.Outcome State Fault Refusal :=
  if s.rd D.GATE_SOURCE 0 = 2 && s.rd D.GATE_SYNC_STATE 0 == 1 then .next (s.setSync 2) else .next s

/-- PTP_SYNC_TIMEOUT (R214). -/
def execPtpSyncTimeout (s : State) : Host.Outcome State Fault Refusal :=
  if s.rd D.GATE_SOURCE 0 = 1 && s.rd D.GATE_SYNC_STATE 0 == 1 then .next ((s.setSync 2).wr D.PTP_STATE 0 1) else .next s

/-- HOLDOVER_LIMIT_EXPIRY (R214). -/
def execHoldoverLimitExpiry (s : State) : Host.Outcome State Fault Refusal :=
  if s.rd D.GATE_SYNC_STATE 0 = 2 then .next (s.setSync 0) else .next s

/-- PTP_MESSAGE (R221): only a ROOT_PTP device is a time receiver. -/
def execPtpMessage (m : PtpMsg) (s : State) : Host.Outcome State Fault Refusal :=
  if s.rd D.GATE_SOURCE 0 = 1 then .next (s.ptpTake m) else .next s

end Sys2Proof.Machine
end

