-- ==== Sys2Proof/Machine/LinkTrain.lean ====
section
/-! DEFINITION. The states of a link: bring-up, ACTIVE, live retraining, electrical idle and OFF (R284 to R295, R306). -/

namespace Sys2Proof.Machine

/-- LINK_SCHED_LEAD (R306): all ones unless the link is ACTIVE and both devices are synchronised. -/
def State.schedLead (s : State) (n : Nat) : Nat :=
  let x := s.tmx n
  let w := s.rd D.LINK_TRAINED_WIDTH n
  if s.rd D.LINK_STATE n != 3 || !s.synced || !x.known || x.state == 0 || w == 0 then 0xFFFFFFFF
  else
    let d2 : Int := 2 * (s.rd D.LINK_TIME_DELAY n : Int) + toSigned 32 (s.rd D.LINK_ASYM_USER n)
    min 0xFFFFFFFF ((120 + 104 / w + s.errBound + x.err : Nat) + ((d2 + 1) / 2)).toNat

/-- The beacon's CRC (R285): CRC-16/CCITT over the 128 bits in the order sent (log 13). -/
def revBits : Nat → Nat → Nat
  | 0, _ => 0
  | n + 1, x => x % 2 * 2 ^ n + revBits n (x / 2)

def beaconCrc (w : Nat) : Nat := crcMsb 16 0x1021 128 0xFFFF (revBits 128 w)

/-- A valid beacon word. -/
def beaconOk (w crc : Nat) : Bool := bits w 15 0 == 0xBEAC && bits w 63 36 == 0 && beaconCrc w == crc

def beaconState (w : Nat) : Nat := bits w 35 34
def beaconSerial (w : Nat) : Nat := bits w 127 64

/-- Lanes of a link that the defect map does not exclude (Table 15.9). -/
def State.laneAllow (s : State) (n : Nat) : Nat := maskOf ((List.range 8).filter (fun k => !s.named (ucLane (8 * n + k)) 2))

/-- The defect map, a failed field controller, or a test that its controller failed at this start leaves the link OFF (R391, Table 15.9). -/
def State.linkBarred (s : State) (n : Nat) : Bool :=
  s.named (ucLink n) 0 || s.boot.dead.contains (n / 8) || s.boot.fails.any (fun x => x.1 == 5 && x.2.1 == ucLink n)

/-- DETECT is entered: the link sends its beacon (R285). -/
def State.linkDetect (s : State) (n : Nat) : State := s.wr D.LINK_STATE n 1

/-- A link may leave OFF (R292, R294). -/
def State.linkMayRise (s : State) (n : Nat) : Bool := s.has .link n && s.rd D.LINK_POWER n != 2 && !s.linkBarred n

/-- A link asks the chairlift for its rise, its field first (R294, R373, R374): from OFF to training, or out of electrical idle. -/
def State.linkRise (s : State) (n : Nat) : State := ((s.fieldUp (n / 8)).1).demand (.link (Fin.ofNat 64 n))

/-- The counters of a link, reset on entry to TRAIN (R307). -/
def State.linkCounters (s : State) (n : Nat) : State :=
  ((((s.wr D.LINK_REPLAYS n 0).wr D.LINK_RETRAIN_COUNT n 0).wr D.LINK_SCHED_LATE n 0).wr D.LINK_STALE_RSP n 0).wr D.LINK_PROTOCOL_ERR n 0

/-- The modulator bias of a link's lanes comes into force (R286). -/
def State.linkBias (s : State) (n : Nat) : State := (List.range 8).foldl (fun t k => t.enforce D.OE_BIAS_USER (8 * n + k)) s

/-- TRAIN is entered in PATTERN (R284): what this training uses is taken now. -/
def State.linkTrain (s : State) (n : Nat) : State :=
  let x := s.lnk n
  let s := s.setLnk n { Lnk.init with lastWidth := x.lastWidth, offs := x.offs, band := x.band, phase := 1, fomMin := s.rd D.LINK_FOM_MIN 0,
                                      forceFull := s.rdB D.LINK_FORCE_FULL_TRAIN 0, fibre := s.rd D.FIBRE_ID n }
  ((s.linkCounters n).linkBias n).wr D.LINK_STATE n 2

/-- A training phase. -/
def State.linkPhase (s : State) (n p : Nat) : State := s.setLnk n { (s.lnk n) with phase := p }

/-- The link is in TRAIN in phase `p`. -/
def State.inPhase (s : State) (n p : Nat) : Bool := s.rd D.LINK_STATE n == 2 && (s.lnk n).phase == p

/-! ### Equalisation records (R288) -/

/-- The record of a band: partner SERIAL, FIBRE_ID, the lanes it lists as OK, then the settings. -/
def eqKey (serial fibre : Nat) : Nat := serial + fibre * 2 ^ 64

def State.eqMatches (s : State) (n b serial fibre : Nat) : Bool :=
  s.rdLen (D.LINK_EQ_RECORD b) n != 0 && s.rd (D.LINK_EQ_RECORD b) n % 2 ^ 128 == eqKey serial fibre

/-- The record of a band is replaced. -/
def State.eqSave (s : State) (n b ok : Nat) (r : OdVal) : State :=
  let v := eqKey (s.rd D.LINK_PARTNER_SERIAL n) (s.lnk n).fibre + ok % 256 * 2 ^ 128 + r.val % 2 ^ (8 * r.len) * 2 ^ 136
  ((s.wr (D.LINK_EQ_RECORD b) n v).wrLen (D.LINK_EQ_RECORD b) n (17 + r.len)).storeTouch

/-- Lanes of a list of FOMs that reach a minimum. -/
def fomMask (l : List Nat) (m : Nat) : Nat := maskOf ((List.range 8).filter (fun k => decide (m ≤ (l[k]?).getD 0)))

/-- LANE_FOM and LANE_TX_COEF of a link's lanes as equalisation has left them (R286, R288). -/
def State.noteLanes (s : State) (n : Nat) (foms : List Nat) (coefs : List (BitVec 32)) : State :=
  (List.range 8).foldl (fun t k =>
    let t := t.wr D.LANE_FOM (8 * n + k) ((foms[k]?).getD 0 % 256)
    match coefs[k]? with | some c => t.wr D.LANE_TX_COEF (8 * n + k) (c.toNat &&& 0x3F3F3F) | none => t) s

/-- EQ has ended (R288): the fast path when the record matches and its lanes reach LINK_FOM_MIN, else full equalisation. -/
def State.eqDone (s : State) (n : Nat) (o : EqOutcome) : State :=
  let x := s.lnk n
  let b := o.band.val
  let rec_ := s.rd (D.LINK_EQ_RECORD b) n
  let ok := bits rec_ 135 128
  let fast := !x.forceFull && s.eqMatches n b (beaconSerial (s.rd D.LINK_BEACON_SEEN n)) x.fibre &&
    (maskList 8 ok).all (fun k => bit (fomMask o.fastFoms x.fomMin) k)
  let foms := if fast then o.fastFoms else o.fullFoms
  let s := s.noteLanes n foms o.coefs
  s.setLnk n { x with phase := 4, full := !fast, band := b, rxOk := x.rxOk &&& fomMask foms x.fomMin,
                      save := if fast then none else some (b, o.record.len, o.record.val) }

/-! ### Width (R289) -/

/-- Width of `k` common lanes. -/
def widthOf (k : Nat) : Nat := if 8 ≤ k then 8 else if 4 ≤ k then 4 else if 2 ≤ k then 2 else k

/-- The lowest lanes of the common mask that the width uses. -/
def laneMask (common : Nat) : Nat := maskOf ((maskList 8 common).take (widthOf (popCount 8 common)))

/-- Fields of a control block (Table 11.4). -/
def cbRxOk (b : Nat) : Nat := bits b 63 56
def cbDevice (b : Nat) : Nat := bits b 75 64
def cbLink (b : Nat) : Nat := bits b 81 76
def cbVersion (b : Nat) : Nat := bits b 103 88
def cbSerial (b : Nat) : Nat := bits b 191 128

/-- CAPS (R289). -/
def State.linkCaps (s : State) (n cb : Nat) : State :=
  if cbVersion cb != 1 then s.linkFail n 5
  else
    let m := laneMask ((s.lnk n).rxOk &&& cbRxOk cb)
    let s := ((s.wr D.LINK_PARTNER_DEVICE n (cbDevice cb)).wr D.LINK_PARTNER_LINK n (cbLink cb)).wr D.LINK_PARTNER_SERIAL n (cbSerial cb)
    if m = 0 then s.linkFail n 3 else (s.wr D.LINK_LANE_MASK n m).linkPhase n 5

/-- A link's width falls below what the active table declares (R194). -/
def State.noteDegraded (s : State) (n w : Nat) : State :=
  match s.activeLap with
  | some t => if w < (t.width[n]?).getD 0 then s.raise Ev.LAP_LINK_DEGRADED 0 0 else s
  | none => s

/-- ACTIVE is reached from TRAIN (R291): width, path, record, events; the link joins the sets that name it (R302). -/
def State.linkActive (s : State) (n : Nat) : State :=
  let x := s.lnk n
  let m := s.rd D.LINK_LANE_MASK n
  let w := popCount 8 m
  let path := if x.full then 2 else 1
  let s := match x.save with
    | some (b, len, v) => s.eqSave n b x.rxOk { len := len, val := v }
    | none => s
  let s := s.setLnk n { Lnk.init with lastWidth := w, phase := 6, rxOk := x.rxOk, offs := x.offs, band := x.band, fomMin := x.fomMin,
                                      forceFull := x.forceFull, fibre := x.fibre, ackTime := s.gate }
  let s := ((s.wr D.LINK_STATE n 3).wr D.LINK_TRAINED_WIDTH n w).wr D.LINK_TRAIN_MODE_LAST n path
  let s := (s.refreshLink n).raise Ev.LINK_TRAINED 0 (evWords [w, path])
  let s := if w < 8 ∨ w < x.lastWidth then s.raise Ev.LINK_WIDTH_REDUCED 0 0 else s
  let s := s.noteDegraded n w
  (s.devsOf n).foldl (fun t d => t.routeJoin d) s

/-- The largest binary32 values that do not exceed 2.4·10⁻⁴ and 10⁻¹³; values of a smaller code are smaller (R290). -/
def berLimit : Nat := 0x397BA882
def flrLimit : Nat := 0x29E12E13

/-- Lanes in use whose BER exceeds the limit. -/
def badLanes (mask : Nat) (bers : List (BitVec 32)) : List Nat :=
  (maskList 8 mask).filter (fun k => decide (berLimit < ((bers[k]?).getD 0).toNat))

/-- The lane in use with the highest BER. -/
def worstLane (mask : Nat) (bers : List (BitVec 32)) : Option Nat :=
  (maskList 8 mask).foldl (fun b k =>
    match b with
    | none => some k
    | some j => if ((bers[j]?).getD 0).toNat < ((bers[k]?).getD 0).toNat then some k else some j) none

/-- LANE_BER of the lanes in use. -/
def State.noteBers (s : State) (n mask : Nat) (bers : List (BitVec 32)) : State :=
  (maskList 8 mask).foldl (fun t k => match bers[k]? with | some b => t.wr D.LANE_BER (8 * n + k) b.toNat | none => t) s

/-- A MEASURE run failed: lanes are cleared and CAPS is repeated; after the third, DOWN with cause 4 (R290). -/
def State.measureFail (s : State) (n clear : Nat) : State :=
  let x := s.lnk n
  if 3 ≤ x.runs + 1 then s.linkFail n 4
  else s.setLnk n { x with runs := x.runs + 1, phase := 4, rxOk := x.rxOk - (x.rxOk &&& clear) }

/-- MEASURE has ended (R290). -/
def State.measured (s : State) (n : Nat) (o : MeasureOutcome) : State :=
  let m := s.rd D.LINK_LANE_MASK n
  let s := (s.noteBers n m o.bers).wr D.LINK_FLR_PROJ n o.flr.toNat
  match badLanes m o.bers with
  | [] =>
    if o.flr.toNat ≤ flrLimit then s.linkActive n
    else s.measureFail n (match worstLane m o.bers with | some k => maskOf [k] | none => 0)
  | l => s.measureFail n (maskOf l)

/-! ### Live retraining (R295) -/

/-- RETRAIN is entered: electrical idle is over, the bias is applied; SEQ numbers, buffers, credit and tables stay. -/
def State.linkRetrainStart (s : State) (n : Nat) : State :=
  if s.rd D.LINK_STATE n != 3 then s
  else (((s.setLnk n { (s.lnk n) with idleAsk := false, nakRun := 0 }).linkBias n).wr D.LINK_TX_IDLE n 0).wr D.LINK_STATE n 4

/-- Flits kept for a resend (R297). -/
def Lnk.unacked (x : Lnk) : Nat := (x.txSeq + 4095 - x.txAck) % 4096

/-- The flits after ACK are sent again. -/
def State.linkResend (s : State) (n : Nat) : State :=
  let x := s.lnk n
  if x.unacked = 0 then s else s.emit (.linkResend n ((x.txAck + 1) % 4096) x.unacked)

/-- A live retraining has ended (R295). -/
def State.retrained (s : State) (n : Nat) (o : RetrainOutcome) : State :=
  let cb := o.partner.toNat
  if o.completes && cbSerial cb != s.rd D.LINK_PARTNER_SERIAL n then
    ((s.raise Ev.LINK_PARTNER_CHANGED 0 0).linkFail n 8).linkDetect n
  else
    let ok := o.lanesOk.toNat &&& s.laneAllow n &&& fomMask o.foms (s.lnk n).fomMin
    let m := laneMask (ok &&& cbRxOk cb)
    let w := popCount 8 m
    if !o.completes || cbVersion cb != 1 || m == 0 || !(badLanes m o.bers).isEmpty then s.linkFail n 8
    else
      let old := s.rd D.LINK_TRAINED_WIDTH n
      let s := ((s.setLnk n { (s.lnk n) with rxOk := ok, lastWidth := w, band := o.band }).noteBers n m o.bers).noteLanes n o.foms o.coefs
      let s := s.eqSave n o.band ok o.record
      let s := (((s.wr D.LINK_STATE n 3).wr D.LINK_TRAINED_WIDTH n w).wr D.LINK_LANE_MASK n m).wr D.LINK_TRAIN_MODE_LAST n 4
      let s := ((s.count D.LINK_RETRAIN_COUNT n 1).refreshLink n).raise Ev.LINK_RETRAINED 0 0
      let s := if w < old then s.raise Ev.LINK_WIDTH_REDUCED 0 0 else s
      (s.noteDegraded n w).linkResend n

/-! ### The link layer (R296 to R300) -/

/-- The LINK_ACK chunk as it stands (Table 11.8). -/
def State.ackChunk (s : State) (n : Nat) : Nat :=
  let x := s.lnk n
  0x20 + (x.rxSeq + 4095) % 4096 * 2 ^ 6 + x.nakDue.toNat * 2 ^ 18 + x.reqFree * 2 ^ 24 + x.rspFree * 2 ^ 48 + x.schedFree * 2 ^ 72

/-- A LINK_ACK is due: a NAK, 32 flits, or 200 ns with flits received (R297). -/
def State.ackDue (s : State) (n : Nat) : Bool :=
  let x := s.lnk n
  x.nakDue || decide (32 ≤ x.sinceAck) || (decide (0 < x.sinceAck) && decide (x.ackTime + 200 ≤ s.gate))

/-- The transmitter places `k` chunks; a full flit of 40 takes the next SEQ (R282). -/
def State.placed (s : State) (n k : Nat) : State :=
  let x := s.lnk n
  s.setLnk n { x with txSeq := (x.txSeq + (x.txPos + k) / 40) % 4096, txPos := (x.txPos + k) % 40 }

/-- The flit in hand is filled with NOP chunks and sent. -/
def State.flitPad (s : State) (n : Nat) : State :=
  let x := s.lnk n
  if x.txPos = 0 then s else s.setLnk n { x with txSeq := (x.txSeq + 1) % 4096, txPos := 0 }

/-- NOP flits bring the next flit to logical lane 0 (R300). -/
def State.toLane0 (s : State) (n : Nat) : State :=
  let s := s.flitPad n
  let x := s.lnk n
  let w := max 1 (s.rd D.LINK_TRAINED_WIDTH n)
  s.setLnk n { x with txSeq := (x.txSeq + (w - x.txSeq % w) % w) % 4096 }

/-- The LINK_ACK is sent. -/
def State.sendAck (s : State) (n : Nat) : State :=
  let c := s.ackChunk n
  let x := s.lnk n
  ((s.setLnk n { x with nakDue := false, sinceAck := 0, ackTime := s.gate }).emit (.linkChunk n c)).placed n 1

/-- A message of the queue is sent: it leaves the queue and its chunks are placed. -/
def State.sendMsg (s : State) (n : Nat) (m : TxMsg) : State :=
  let s := { s with linkQ := Table.set [] n (removeTx m (s.txq n)) s.linkQ }
  (s.emit (.linkMsg n m.hdr m.ext m.payload)).placed n (linkChunks m.hdr)
where
  /-- The first occurrence goes. -/
  removeTx (m : TxMsg) : List TxMsg → List TxMsg
    | [] => []
    | a :: r => if a = m then r else a :: removeTx m r

/-- Credit for a message (R298): its chunks of the pool it uses. -/
def State.creditFor (s : State) (n : Nat) (m : TxMsg) : Bool :=
  let x := s.lnk n
  let k := linkChunks m.hdr
  if lhOp m.hdr = 0x30 then decide ((x.rspTx + 2 ^ 24 - x.rspCr) % 2 ^ 24 + k ≤ 16384)
  else decide ((x.reqTx + 2 ^ 24 - x.reqCr) % 2 ^ 24 + k ≤ 16384)

/-- The credit is taken. -/
def State.takeCredit (s : State) (n : Nat) (m : TxMsg) : State :=
  let x := s.lnk n
  let k := linkChunks m.hdr
  if lhOp m.hdr = 0x30 then s.setLnk n { x with rspTx := (x.rspTx + k) % 2 ^ 24 } else s.setLnk n { x with reqTx := (x.reqTx + k) % 2 ^ 24 }

/-- The 512-byte unit and the class of a queued message, and whether it is a response. -/
def txUnit (m : TxMsg) : Nat × Nat × Bool := (if lhOp m.hdr = 0x30 then lhReqId m.hdr else lhAddr m.hdr / 512, m.cls, lhOp m.hdr == 0x30)

/-- The regulated messages that may be chosen: with credit, and behind no message of their class and unit (R299). -/
def State.txCands (s : State) (n : Nat) (l : List TxMsg) : List Cand :=
  (enumList l 0).filterMap (fun e =>
    if s.creditFor n e.2 && (l.take e.1).all (fun q => txUnit q != txUnit e.2) then
      some { at_ := e.1, cls := e.2.cls, deadline := e.2.deadline, age := 0, hit := false } else none)

/-- The next regulated message (Table 9.3). -/
def State.txChoose (s : State) (n : Nat) : Option TxMsg :=
  let l := (s.txq n).filter (fun m => m.step == 5)
  let credit (c : Nat) : Bool := decide (0 < s.tokens (4096 + n) (s.linkEff n c) c)
  match s.choose credit (fun c => s.rd D.LINK_BW_EST (64 * n + c)) (s.linkEff n) List.head? (s.txCands n l) with
  | some c => l[c.at_]?
  | none => none

/-- A regulated message is sent: its bytes are charged and its deadline judged (R239, R242, R244). -/
def State.txRegulated (s : State) (n : Nat) (m : TxMsg) : State :=
  let bytes := 16 * linkChunks m.hdr
  let s := ((s.takeCredit n m).spend (4096 + n) (s.linkEff n m.cls) m.cls bytes).noteServed (2048 + 64 * n + m.cls) bytes
  (s.missed D.LINK_DEADLINE_MISSED (64 * n + m.cls) m.cls m.deadline).sendMsg n m

/-- The first message in the order of R299. -/
def State.transmit (s : State) (n : Nat) : State :=
  let first (k : Nat) : Option TxMsg := (s.txq n).find? (fun m => m.step == k)
  let x := s.lnk n
  if 1024 ≤ x.unacked then s
  else if s.ackDue n then s.sendAck n
  else match first 2 with
    | some m => ((s.toLane0 n).sendMsg n m).timexSent n m.hdr
    | none =>
      match first 3, decide ((x.schedTx + 2 ^ 16 - x.schedCr) % 2 ^ 16 < 64) with
      | some m, true => (s.setLnk n { x with schedTx := (x.schedTx + 1) % 2 ^ 16 }).sendMsg n m
      | _, _ =>
        match (first 4).filter (s.creditFor n) with
        | some m => (s.takeCredit n m).sendMsg n m
        | none =>
          match s.txChoose n with
          | some m => s.txRegulated n m
          | none => s.flitPad n

end Sys2Proof.Machine
end

