-- ==== Sys2Proof/Machine/LinkFlits.lean ====
section
/-! DEFINITION. What arrives on a link: flits, their messages, LINK_ACKs and scheduled units (R281, R282, R296 to R306). -/

namespace Sys2Proof.Machine

/-- HCRC of a lane header (Table 11.1): x⁶ + x + 1 over bits [13:0] (log 13). -/
def hcrc (h : Nat) : Nat := crcMsb 6 3 14 0 (h % 2 ^ 14)

/-- Logical lane of a physical lane. -/
def logicalLane (mask lane : Nat) : Nat := ((maskList 8 mask).takeWhile (fun k => k != lane)).length

/-- A LINK_ACK is received (R297, R298): acknowledged flits are released, credit returns; a NAK asks for the rest again, and eight in a row with
one ACK start a retraining. -/
def State.ackTake (s : State) (n c : Nat) : State :=
  let x := s.lnk n
  let ack := bits c 17 6
  let x := { x with txAck := ack, reqCr := bits c 47 24, rspCr := bits c 71 48, schedCr := bits c 87 72 }
  if !bit c 18 then s.setLnk n x
  else
    let run := if x.nakRun != 0 && x.nakAck == ack then x.nakRun + 1 else 1
    let s := ((s.setLnk n { x with nakAck := ack, nakRun := run }).count D.LINK_REPLAYS n 1).linkResend n
    if 8 ≤ run then s.linkRetrainStart n else s

/-- A routed message is handled (R304); `c` is the chunks it holds in its pool. A reserved opcode is counted and the link retrains (Table 11.7). -/
def State.linkMessage (s : State) (n : Nat) (m : Msg) (c : Nat) : State :=
  let op := lhOp m.hdr.toNat
  if 1 ≤ op ∧ op ≤ 8 then s.linkRequest n m c
  else if op = 0x0A then s.gatherTake n m c
  else if op = 0x14 then s.launchFrame n m c
  else if op = 0x15 then s.cancelFrame n m c
  else if op = 0x30 then s.linkRsp n m c
  else (s.count D.LINK_PROTOCOL_ERR n 1).linkRetrainStart n

/-- A scheduled unit is received (R305, R306): counted when late, and handled message by message; its place in the SCHED pool is freed. -/
def State.schedTake (s : State) (n sink : Nat) (ms : List Msg) : State :=
  if s.boot.hold then
    (s.count D.LINK_SCHED_LATE n 1).setLnk n { (s.lnk n) with schedFree := ((s.lnk n).schedFree + 1) % 2 ^ 16 }
  else
  let lead := s.schedLead n
  let late := (s.gate32 + 2 ^ 33 - sink - lead % 2 ^ 32) % 2 ^ 32
  let s := if lead != 0xFFFFFFFF && late != 0 && decide (late < 2 ^ 31) then s.count D.LINK_SCHED_LATE n 1 else s
  let s := ms.foldl (fun t m => t.linkMessage n m 0) s
  s.setLnk n { (s.lnk n) with schedFree := ((s.lnk n).schedFree + 1) % 2 ^ 16 }

/-- Messages of the chunks of a unit. -/
def cutRouted : Nat → List Nat → List Msg
  | 0, _ => []
  | _, [] => []
  | fuel + 1, h :: r =>
    if h = 0 then cutRouted fuel r
    else
      let k := linkChunks h
      msgOf ((h :: r).take k) (lhDlx h) :: cutRouted fuel ((h :: r).drop k)

/-- One message of the stream, given as its chunks. -/
def State.linkItem (s : State) (n : Nat) (l : List Nat) (timex : State → Nat → BitVec 256 → State) : State :=
  match l with
  | [] => s
  | h :: r =>
    if lhOp h = 0x20 then s.ackTake n h
    else if lhOp h = 0x21 then timex s n (BitVec.ofNat 256 (h + r.headD 0 * 2 ^ 128))
    else if lhOp h = 0x22 then s.schedTake n (bits h 63 32) (cutRouted (r.length + 1) r)
    else s.linkMessage n (msgOf l (lhDlx h)) (linkChunks h)

/-- The whole items of a list of chunks, and what is left; an all-zero chunk at a boundary is a NOP (R296). -/
def cutItems : Nat → List Nat → List (List Nat) × List Nat
  | 0, l => ([], l)
  | _, [] => ([], [])
  | fuel + 1, h :: r =>
    if h = 0 then cutItems fuel r
    else
      let k := linkChunks h
      if (h :: r).length < k then ([], h :: r)
      else
        let x := cutItems fuel ((h :: r).drop k)
        ((h :: r).take k :: x.1, x.2)

/-- Chunks of a body of 40. -/
def bodyChunks (b : Nat) : List Nat := (List.range 40).map (fun k => bytesOf b (16 * k) 16)

/-- A codeword is counted on its lane, with one that does not decode (R307). -/
def State.countWord (s : State) (n lane : Nat) (bad : Bool) : State :=
  let x := s.lnk n
  let c := Table.get ((0, 0) : Nat × Nat) lane x.lanes
  s.setLnk n { x with lanes := Table.set (0, 0) lane (satAdd 64 c.1 1, satAdd 64 c.2 bad.toNat) x.lanes }

/-- A flit is discarded: NAK = 1 once for the episode (R297). -/
def State.flitLost (s : State) (n : Nat) : State :=
  let x := s.lnk n
  if x.episode then s else (s.setLnk n { x with episode := true, nakDue := true }).count D.LINK_REPLAYS n 1

/-- A flit is accepted in SEQ order. -/
def State.flitIn (s : State) (n body : Nat) (timex : State → Nat → BitVec 256 → State) : State :=
  let x := s.lnk n
  let l := x.stream ++ bodyChunks body
  let c := cutItems (l.length + 1) l
  let s := s.setLnk n { x with rxSeq := (x.rxSeq + 1) % 4096, episode := false, stream := c.2, sinceAck := x.sinceAck + 1,
                               ackTime := if x.sinceAck = 0 then s.gate else x.ackTime }
  c.1.foldl (fun t i => t.linkItem n i timex) s

end Sys2Proof.Machine
end

