-- ==== Sys2Proof/Machine/Links.lean ====
section
/-! DEFINITION. The commands of the optical links (chapter 11). -/

namespace Sys2Proof.Machine

/-! ### Power, bring-up and training -/

/-- LINK_POWER's own rules (R284, R294). -/
def State.ownLinkPower (s : State) (n : Nat) (w : OdWrite) : State :=
  let s := s.setObj D.LINK_POWER n w
  let st := s.rd D.LINK_STATE n
  (if odNum w = 2 then
     (if linkUsable st then s.setLnk n { (s.lnk n) with draining := true } else if st = 0 then s else s.linkStop n 0)
   else if st = 0 then (if s.linkMayRise n then s.linkRise n else s)
   else if (s.lnk n).draining then (s.devsOf n).foldl (fun t d => t.routeJoin d) (s.setLnk n { (s.lnk n) with draining := false })
   else s).odDone

/-- LINK_POWER (R294). -/
def execLinkPower (n : Fin 64) (w : OdWrite) (s : State) : Host.Outcome State Fault Refusal :=
  s.odCmd (.linkPower n w) (fun t => t.odWrite D.LINK_POWER n w (fun u => u.ownLinkPower n w))

/-- LINK_OFF_DRAIN_END (R294). -/
def execLinkOffDrainEnd (n : Fin 64) (s : State) : Host.Outcome State Fault Refusal :=
  if (s.lnk n).draining then .next (s.linkStop n 0) else .next s

/-- LINK_BEACON (R285). -/
def execLinkBeacon (n : Fin 64) (word : BitVec 128) (crc : BitVec 16) (s : State) : Host.Outcome State Fault Refusal :=
  let b := word.toNat
  if !beaconOk b crc.toNat then .next s
  else
    let old := s.rd D.LINK_BEACON_SEEN n
    let st := s.rd D.LINK_STATE n
    let seen := s.wr D.LINK_BEACON_SEEN n b
    if st = 1 then .next (seen.linkTrain n)
    else if st = 5 then .next (if beaconState old != beaconState b then seen.linkDetect n else seen)
    else .next s

/-- LINK_PATTERN_DONE (R284). -/
def execLinkPatternDone (n : Fin 64) (s : State) : Host.Outcome State Fault Refusal :=
  if s.inPhase n 1 then .next (s.linkPhase n 2) else .next s

/-- LINK_LOCK_DONE (R287). -/
def execLinkLockDone (n : Fin 64) (locked : BitVec 8) (s : State) : Host.Outcome State Fault Refusal :=
  if !s.inPhase n 2 then .next s
  else
    let ok := locked.toNat &&& s.laneAllow n
    if ok = 0 then .next (s.linkFail n 2) else .next ((s.setLnk n { (s.lnk n) with rxOk := ok }).linkPhase n 3)

/-- LANE_BITSLIP's own rules (R287): in software mode the lane's offset moves; what LANE_MARKER_MATCH counts there is a free value. -/
def State.ownBitslip (s : State) (i : Nat) (w : OdWrite) : State :=
  let n := i / 8
  if s.rd D.LINK_LOCK_MODE n != 1 then s.odDone
  else
    let x := s.lnk n
    let k := i % 8
    let s := s.setLnk n { x with offs := Table.set 0 k ((Table.get 0 k x.offs + odNum w) % 5440) x.offs }
    ((s.wr D.LANE_MARKER_MATCH i (s.fresh % 2 ^ 32)).drew).odDone

/-- LANE_BITSLIP (R287). -/
def execLaneBitslip (i : Fin 512) (w : OdWrite) (s : State) : Host.Outcome State Fault Refusal :=
  s.odCmd (.laneBitslip i w) (fun t => t.odWrite D.LANE_BITSLIP i w (fun u => u.ownBitslip i w))

/-- LINK_EQ_DONE (R288). -/
def execLinkEqDone (n : Fin 64) (o : EqOutcome) (s : State) : Host.Outcome State Fault Refusal :=
  if s.inPhase n 3 then .next (s.eqDone n o) else .next s

/-- LINK_CAPS (R289). -/
def execLinkCaps (n : Fin 64) (partner : BitVec 256) (s : State) : Host.Outcome State Fault Refusal :=
  if s.inPhase n 4 then .next (s.linkCaps n partner.toNat) else .next s

/-- LINK_MEASURE_DONE (R290). -/
def execLinkMeasureDone (n : Fin 64) (o : MeasureOutcome) (s : State) : Host.Outcome State Fault Refusal :=
  if s.inPhase n 5 then .next (s.measured n o) else .next s

/-- LINK_PHASE_TIMEOUT (R284; causes of Table 11.6 as log 30 reads them). -/
def execLinkPhaseTimeout (n : Fin 64) (s : State) : Host.Outcome State Fault Refusal :=
  if s.rd D.LINK_STATE n = 4 then .next (s.linkFail n 8)
  else if s.rd D.LINK_STATE n != 2 then .next s
  else match (s.lnk n).phase with
    | 1 => .next (s.linkFail n 2)
    | 2 => .next (s.linkFail n 2)
    | 5 => .next (s.measureFail n 0)
    | _ => .next (s.linkFail n 3)

/-- LINK_LIGHT_LOSS (R293). -/
def execLinkLightLoss (n : Fin 64) (s : State) : Host.Outcome State Fault Refusal :=
  if linkUsable (s.rd D.LINK_STATE n) then .next (s.linkFail n 1) else .next s

/-- The laser input minimum, +17.00 dBm (Table 17.4). -/
def laserMin : Int := 1700

/-- LASER_LOW_DETECT (R293, R440): the field's links that are up or train go DOWN with cause 7, with one event. -/
def execLaserLowDetect (f : Fin 8) (centiDbm : BitVec 32) (s : State) : Host.Outcome State Fault Refusal :=
  if !fieldPresent s.variant f then .next s
  else
    let s := s.wr D.LASER_IN_POWER f centiDbm.toNat
    if toSigned 32 centiDbm.toNat < laserMin then
      let s := s.raise Ev.LASER_LOW 0 (evWords [f])
      .next ((List.range 8).foldl (fun t k =>
        let n := 8 * f.val + k
        if t.has .link n && (t.rd D.LINK_STATE n == 2 || linkUsable (t.rd D.LINK_STATE n)) then t.linkFail n 7 else t) s)
    else .next s

/-- LINK_RETRY_EXPIRY (R284). -/
def execLinkRetryExpiry (n : Fin 64) (s : State) : Host.Outcome State Fault Refusal :=
  if s.rd D.LINK_STATE n = 5 then .next (s.linkDetect n) else .next s

/-! ### Electrical idle and live retraining -/

/-- LINK_IDLE_ENTRY (R294): a last flit carries a LINK_ACK. -/
def execLinkIdleEntry (n : Fin 64) (s : State) : Host.Outcome State Fault Refusal :=
  let asked := (s.lnk n).idleAsk || (s.rd D.LINK_POWER n == 1 && s.rd D.LINK_IDLE_TIMEOUT 0 != 0)
  if asked && s.linkQuiet n then .next (((s.sendAck n).flitPad n).linkIdle n) else .next s

/-- Electrical idle ends once the chairlift has admitted the rise (R294, R374). -/
def State.linkExit (s : State) (n : Nat) : State :=
  if s.rising.contains (.link (Fin.ofNat 64 n)) then s.linkWake n else s.linkRise n

/-- LINK_IDLE_EXIT (R294). -/
def execLinkIdleExit (n : Fin 64) (s : State) : Host.Outcome State Fault Refusal :=
  if s.rdB D.LINK_TX_IDLE n then .next (s.linkExit n) else .next s

/-- LINK_RETRAIN's own rules (R295). -/
def State.ownRetrain (s : State) (n : Nat) : State :=
  if s.rd D.LINK_STATE n != 3 then s.odFail St.LINK_BUSY else (s.linkRetrainStart n).odDone

/-- LINK_RETRAIN (R295). -/
def execLinkRetrain (n : Fin 64) (w : OdWrite) (s : State) : Host.Outcome State Fault Refusal :=
  s.odCmd (.linkRetrain n w) (fun t => t.odWrite D.LINK_RETRAIN n w (fun u => u.ownRetrain n))

/-- LINK_BER_INTERVAL (R295). -/
def execLinkBerInterval (n : Fin 64) (lanes : List LaneStat) (s : State) : Host.Outcome State Fault Refusal :=
  if s.rd D.LINK_STATE n != 3 then .next s
  else
    let m := s.rd D.LINK_LANE_MASK n
    let bers := lanes.map (fun l => l.ber)
    let s := s.noteBers n m bers
    let bad := !(badLanes m bers).isEmpty ||
      (maskList 8 m).any (fun k => match lanes[k]? with | some l => decide (10 ≤ l.uncorrectable) | none => false)
    if bad && s.rdB D.LINK_AUTO_RETRAIN 0 then .next (s.linkRetrainStart n) else .next s

/-- PARTNER_RETRAINING (R295). -/
def execPartnerRetraining (n : Fin 64) (s : State) : Host.Outcome State Fault Refusal := .next (s.linkRetrainStart n)

/-- LINK_RETRAIN_DONE (R295). -/
def execLinkRetrainDone (n : Fin 64) (o : RetrainOutcome) (s : State) : Host.Outcome State Fault Refusal :=
  if s.rd D.LINK_STATE n = 4 then .next (s.retrained n o) else .next s

/-! ### The link layer -/

/-- A TIMEX message that a flit carries, by its KIND; KIND 3 is discarded (R215, R300). -/
def State.timexIn (s : State) (n : Nat) (m : BitVec 256) : State :=
  let out (o : Host.Outcome State Fault Refusal) : State := match o with | .next t => t | _ => s
  if h : n < 64 then
    (match txKind m.toNat with
     | 0 => out (execTimexRequest ⟨n, h⟩ m s)
     | 1 => out (execTimexReply ⟨n, h⟩ m s)
     | 2 => out (execTimexFollowUp ⟨n, h⟩ m s)
     | _ => s)
  else s

/-- LINK_FLIT (R282, R296): a flit whose codeword decodes with a correct HCRC and the next SEQ, on its logical lane, is accepted. A filler carries
nothing. -/
def execLinkFlit (n : Fin 64) (lane : Fin 8) (decodes : Bool) (hdr : BitVec 20) (body : BitVec 5120) (s : State) :
    Host.Outcome State Fault Refusal :=
  let h := hdr.toNat
  if s.rd D.LINK_STATE n != 3 then .next s
  else
    let s := s.countWord n lane (!decodes)
    if decodes && hcrc h == bits h 19 14 then
      if bit h 12 then .next s
      else
        let w := max 1 (s.rd D.LINK_TRAINED_WIDTH n)
        if bits h 11 0 = (s.lnk n).rxSeq && logicalLane (s.rd D.LINK_LANE_MASK n) lane == bits h 11 0 % w then
          .next (s.flitIn n body.toNat (fun t k m => t.timexIn k m))
        else .next (s.flitLost n)
    else .next (s.flitLost n)

/-- LINK_ACK (R297). -/
def execLinkAck (n : Fin 64) (chunk : BitVec 128) (s : State) : Host.Outcome State Fault Refusal :=
  if s.rd D.LINK_STATE n == 3 && lhOp chunk.toNat == 0x20 then .next (s.ackTake n chunk.toNat) else .next s

/-- SCHED_START (R305). -/
def execSchedStart (n : Fin 64) (chunk : BitVec 128) (u : SchedUnit) (s : State) : Host.Outcome State Fault Refusal :=
  if s.rd D.LINK_STATE n == 3 && lhOp chunk.toNat == 0x22 then .next (s.schedTake n (bits chunk.toNat 63 32) u.msgs) else .next s

/-- LINK_TRANSMIT (R299). A message to send ends electrical idle first (R294). -/
def execLinkTransmit (n : Fin 64) (s : State) : Host.Outcome State Fault Refusal :=
  if s.rd D.LINK_STATE n != 3 then .next s
  else if s.rdB D.LINK_TX_IDLE n then
    (if s.ackDue n || !(s.txq n).isEmpty then
       (if s.rising.contains (.link n) then .next ((s.linkWake n).transmit n) else .next (s.linkRise n))
     else .next s)
  else .next (s.transmit n)

/-- LINK_REQUEST (R304). -/
def execLinkRequest (n : Fin 64) (m : Msg) (s : State) : Host.Outcome State Fault Refusal :=
  let op := lhOp m.hdr.toNat
  if linkUsable (s.rd D.LINK_STATE n) && decide (1 ≤ op ∧ op ≤ 8) then .next (s.linkRequest n m (linkChunks m.hdr.toNat)) else .next s

/-- LINK_RSP (R303, R304). -/
def execLinkRsp (n : Fin 64) (m : Msg) (s : State) : Host.Outcome State Fault Refusal :=
  if linkUsable (s.rd D.LINK_STATE n) && lhOp m.hdr.toNat == 0x30 then .next (s.linkRsp n m (linkChunks m.hdr.toNat)) else .next s

/-! ### Route sets, request tables and snapshots -/

/-- LINK_ROUTE's own rules (R302): the bits of absent links are refused; a link that joins holds new requests. -/
def State.ownLinkRoute (s : State) (d : Nat) (w : OdWrite) : State :=
  let old := s.rd D.LINK_ROUTE d
  let v := odNum w
  if (maskList 64 v).any (fun n => !s.has .link n) then s.odFail St.UNIT_ABSENT
  else
    let s := s.setObj D.LINK_ROUTE d w
    (if (maskList 64 v).any (fun n => !bit old n) then s.routeJoin d else s).odDone

/-- LINK_ROUTE (R302). -/
def execLinkRoute (d : Fin 4096) (w : OdWrite) (s : State) : Host.Outcome State Fault Refusal :=
  s.odCmd (.linkRoute d w) (fun t => t.odWrite D.LINK_ROUTE d w (fun u => u.ownLinkRoute d w))

/-- LINK_ROUTE_HOLD_EXPIRY (R302). -/
def execLinkRouteHoldExpiry (d : Fin 4096) (s : State) : Host.Outcome State Fault Refusal :=
  if s.routeHold.contains d.val then
    let s := { s with routeHold := s.routeHold.filter (fun x => x != d.val) }
    .next (if s.outTo d then s.count D.LINK_ROUTE_FORCED 0 1 else s)
  else .next s

/-- LINK_QUARANTINE_END (R303). -/
def execLinkQuarantineEnd (n : Fin 64) (s : State) : Host.Outcome State Fault Refusal :=
  .next { s with quarantine := s.quarantine.filter (fun k => k / 4096 != n.val) }

/-- LINK_SNAPSHOT's own rules (R307). -/
def State.ownSnapshot (s : State) (w : OdWrite) : State :=
  if !s.has .link (odNum w) then s.odFail St.UNIT_ABSENT
  else ((({ s with snapLink := some (odNum w) } : State).wr D.LINK_SNAP_STATE 0 1)).odDone

/-- LINK_SNAPSHOT (R307). -/
def execLinkSnapshot (w : OdWrite) (s : State) : Host.Outcome State Fault Refusal :=
  s.odCmd (.linkSnapshot w) (fun t => t.odWrite D.LINK_SNAPSHOT 0 w (fun u => u.ownSnapshot w))

/-- LINK_SNAP_DONE (R307): the lane counters as latched; symbols corrected are a free value. -/
def execLinkSnapDone (s : State) : Host.Outcome State Fault Refusal :=
  match s.snapLink with
  | none => .next s
  | some n =>
    let s := (List.range 8).foldl (fun t k =>
      let c := Table.get ((0, 0) : Nat × Nat) k (t.lnk n).lanes
      ((((t.wr D.SNAP_CODEWORDS k c.1).wr D.SNAP_CORR_SYMBOLS k t.fresh).wr D.SNAP_UNCORRECTABLE k c.2)).drew) s
    .next (({ s with snapLink := none } : State).wr D.LINK_SNAP_STATE 0 2)

end Sys2Proof.Machine
end

