-- ==== Sys2Proof/Machine/Mesh.lean ====
section
/-! DEFINITION. The commands of the mesh and of lap tables (R176, R185 to R204). -/

namespace Sys2Proof.Machine

/-- STRIDE (R176): every router applies its entry, and gate time passes to the next stride. -/
def execStride (s : State) : Host.Outcome State Fault Refusal := .next (s.strideMove).tickGate

/-! ### Loading (R185 to R188) -/

/-- LAP_LOAD's own rules (R185): the shadow copy is discarded and the load runs. -/
def State.ownLapLoad (s : State) (w : OdWrite) : State :=
  let v := odNum w
  if bits v 63 44 != 0 || bits v 127 96 != 0 then s.odFail St.OD_VALUE
  else if s.lapLoad.isSome || s.lapOp.isSome then s.odFail St.LAP_BUSY
  else
    let s := { s with lapS := none, lapLoad := some (bits v 43 0, bits v 95 64) }
    (((s.wr D.LAP_LOAD_STATE 0 1).wr D.LAP_LOAD_DETAIL 0 0).refreshShadow).odDone

/-- LAP_LOAD (R185). -/
def execLapLoad (w : OdWrite) (s : State) : Host.Outcome State Fault Refusal :=
  s.odCmd (.lapLoad w) (fun t => t.odWrite D.LAP_LOAD 0 w (fun u => u.ownLapLoad w))

/-- The load is refused: LAP_LOAD_DETAIL says where. -/
def State.lapRefused (s : State) (e : LapErr) : State := (s.wr D.LAP_LOAD_STATE 0 3).wr D.LAP_LOAD_DETAIL 0 e.detail

/-- The file at `a` is read and checked (R185, R188). -/
def State.lapRead (s : State) (a len : Nat) : State :=
  if len = 0 ∨ 2 ^ 28 < len then s.lapRefused (lapErr St.LAP_BAD (if len = 0 then 2 else 1))
  else match s.lapReadStatus a len with
    | 0 =>
      let v := s.peekMany (len / 128 + 2) a len
      if v.2 then s.lapRefused (lapErr St.LAP_BAD 1)
      else match s.lapCheck v.1 len with
        | some e => s.lapRefused e
        | none => (({ s with lapS := some (lapTable v.1) } : State).wr D.LAP_LOAD_STATE 0 2).refreshShadow
    | st => s.lapRefused (lapErr st 1)

/-- LAP_LOAD_DONE (R188). -/
def execLapLoadDone (s : State) : Host.Outcome State Fault Refusal :=
  match s.lapLoad with
  | none => .next s
  | some (a, len) => .next (({ s with lapLoad := none } : State).lapRead a len)

/-! ### Switching (R189 to R192) -/

/-- A refused switch leaves its status (Table 7.12). -/
def State.switchRefused (s : State) (st : Nat) : State := (s.wr D.LAP_SWITCH_STATUS 0 st).odFail st

/-- LAP_SWITCH's own rules (R189). -/
def State.ownLapSwitch (s : State) (w : OdWrite) : State :=
  match s.switchStatus (odNum w) with
  | 0 => (s.armLap .switch (odNum w) false).odDone
  | st => s.switchRefused st

/-- LAP_UNLOAD's own rules (R191). -/
def State.ownLapUnload (s : State) (w : OdWrite) : State :=
  if s.lapOp.isSome then s.switchRefused St.LAP_BUSY
  else if odNum w % s.activeLen != 0 || odNum w < s.gate + 20000 then s.switchRefused St.LAP_SWITCH_TIME
  else (s.armLap .unload (odNum w) false).odDone

/-- LAP_RESUME's own rules (R192). -/
def State.ownLapResume (s : State) (w : OdWrite) : State :=
  match s.rd D.LAP_STATE 0, s.lapA with
  | 2, some t =>
    (match s.armStatus t t.len (odNum w) with
     | 0 => (s.armLap .resume (odNum w) false).odDone
     | st => s.switchRefused st)
  | _, _ => s.switchRefused St.LAP_NOT_SUSPENDED

/-- LAP_SWITCH (R189). -/
def execLapSwitch (w : OdWrite) (s : State) : Host.Outcome State Fault Refusal :=
  s.odCmd (.lapSwitch w) (fun t => t.odWrite D.LAP_SWITCH 0 w (fun u => u.ownLapSwitch w))

/-- LAP_UNLOAD (R191). -/
def execLapUnload (w : OdWrite) (s : State) : Host.Outcome State Fault Refusal :=
  s.odCmd (.lapUnload w) (fun t => t.odWrite D.LAP_UNLOAD 0 w (fun u => u.ownLapUnload w))

/-- LAP_RESUME (R192). -/
def execLapResume (w : OdWrite) (s : State) : Host.Outcome State Fault Refusal :=
  s.odCmd (.lapResume w) (fun t => t.odWrite D.LAP_RESUME 0 w (fun u => u.ownLapResume w))

/-- LAP_TAIL_STOP (R190, R191): within TAIL strides of T the active table starts no injection. -/
def execLapTailStop (s : State) : Host.Outcome State Fault Refusal :=
  match s.lapOp, s.activeLap with
  | some o, some t =>
    if o.kind != .resume && decide (o.time ≤ s.gate + t.tail) then .next { s with lapOp := some { o with tail := true } } else .next s
  | _, _ => .next s

/-- The armed change is abandoned: the active table stays, and the status is kept (R190). -/
def State.lapAbandon (s : State) (o : LapOp) (st : Nat) : State :=
  let s := (({ s with lapOp := none } : State).wr D.LAP_SWITCH_STATE 0 3).wr D.LAP_SWITCH_STATUS 0 st
  if o.clock then s.clockFail st else s

/-- The armed change, if it is of kind `k` and its T has come. -/
def State.lapDue (s : State) (k : LapKind) : Option LapOp :=
  match s.lapOp with
  | some o => if o.kind == k && decide (o.time ≤ s.gate) then some o else none
  | none => none

/-- The armed change has taken effect. -/
def State.lapDone (s : State) : State :=
  (({ s with lapOp := none, lapCause := none, demoted := [] } : State).wr D.LAP_SWITCH_STATE 0 2).lapChanged

/-- Every RED_FLAGS word clears at a switch (R202). -/
def State.clearRed (s : State) : State := s.clearObj D.RED_FLAGS

/-- LAP_SWITCH_AT_T (R190, R198). -/
def execLapSwitchAtT (s : State) : Host.Outcome State Fault Refusal :=
  match s.lapDue .switch, s.lapS with
  | some o, some t =>
    (match s.lapStep789 t with
     | some e => .next (s.lapAbandon o e.st)
     | none =>
       let s := (({ s with lapA := some t, lapS := s.lapA } : State).wr D.LAP_STATE 0 1).clearRed
       let s := (s.lapDone).raise Ev.LAP_SWITCHED 0 0
       .next (if o.clock then s.clockGo else s))
  | some o, none => .next (s.lapAbandon o St.LAP_NO_SHADOW)
  | none, _ => .next s

/-- LAP_UNLOAD_AT_T (R191). -/
def execLapUnloadAtT (s : State) : Host.Outcome State Fault Refusal :=
  match s.lapDue .unload with
  | none => .next s
  | some _ =>
    let s := if s.lapA.isSome then { s with lapS := s.lapA, lapA := none } else s
    .next (s.wr D.LAP_STATE 0 0).lapDone

/-- LAP_RESUME_AT_T (R192). -/
def execLapResumeAtT (s : State) : Host.Outcome State Fault Refusal :=
  match s.lapDue .resume, s.lapA with
  | some o, some t =>
    (match s.lapStep789 t with
     | some e => .next (s.lapAbandon o e.st)
     | none => .next (s.wr D.LAP_STATE 0 1).lapDone)
  | _, _ => .next s

/-- LAP_SUSPEND (R192): at a 256-multiple stride every stride becomes free skate, the units in flight included. -/
def execLapSuspend (s : State) : Host.Outcome State Fault Refusal :=
  match s.lapCause with
  | none => .next s
  | some c =>
    if s.rd D.LAP_STATE 0 = 1 ∧ s.gate % 256 = 0 then
      let now := s.flying
      let s := { s with flying := [], lapCause := none, demoted := [] }
      let s := now.foldl (fun t x => t.freeAt x.2.1 (facing x.2.2.1) x.2.2.2) s
      .next (((s.wr D.LAP_STATE 0 2).lapChanged).raise Ev.LAP_SUSPENDED 0 (evWords [c]))
    else .next s

/-- RED_FLAGS_CLEAR (R202). -/
def State.ownRedClear (s : State) (f : Nat) : State := (s.wr D.RED_FLAGS f 0).odDone

def execRedFlagsClear (f : Fin 64) (w : OdWrite) (s : State) : Host.Outcome State Fault Refusal :=
  s.odCmd (.redFlagsClear f w) (fun t => t.odWrite D.RED_FLAGS_CLEAR f w (fun u => u.ownRedClear f))

/-! ### Route-around (R203, R204) -/

/-- Routers a request's way crosses, from its source endpoint to its destination (R195). -/
def State.wayOf (s : State) : Nat → Nat → Nat → Nat → List Nat
  | 0, r, _, _ => [r]
  | fuel + 1, r, a, dst =>
    if r = epNode dst then [r]
    else
      let p := s.outPort r a dst
      match neighbour s.variant r p with
      | some n => r :: s.wayOf fuel n p dst
      | none => [r]

/-- The endpoint a request goes to. -/
def State.reqDst (s : State) (r : Req) : Option Nat :=
  if r.dev != s.devNum then
    (match r.stage with
     | .link n => some (endpoint (linkNode n) 7 0)
     | _ => (s.pickLink r.dev (routeKey r)).map (fun n => endpoint (linkNode n) 7 0))
  else match r.kind with
    | .doorbell => let t := rcEngine (s.ringCtx (ringOfAddr r.addr)); some (endpoint (teNode t) 8 (t % 2))
    | .range => none
    | _ => (s.reqServing r).map (fun x => s.sliceEndpoint x.1)

/-- The request has been sent and its way crosses router `r`. -/
def State.crosses (s : State) (r : Nat) (q : Req) : Bool :=
  !unsent q &&
    match s.reqDst q with
    | some d => (s.wayOf 64 (epNode (sourceEndpoint s.variant q.group q.source)) 0 d).contains r
    | none => false

/-- A request whose way crossed a failed router: its requester gets ROUTER_FAILED; whether it still takes effect is free (R203). -/
def State.routerLost (s : State) (rid : Nat) : State :=
  match s.req? rid with
  | none => s
  | some q =>
    if s.fresh % 2 = 0 then (s.drew).complete rid St.ROUTER_FAILED 0 0
    else
      let t := (s.drew).freeChunks q
      match q.origin with
      | .split p off => ((t.setReq rid { q with origin := .gone, chunks := 0 })).pieceDone p off rid St.ROUTER_FAILED 0
      | o => (t.setReq rid { q with origin := .gone, chunks := 0 }).answer rid o St.ROUTER_FAILED 0 0

/-- Router `r` fails, with the source and detail of its defect entry (R203): events and records, the requests that crossed it, the units on its node, and the lap table. -/
def State.failRouterAs (s : State) (r src detail : Nat) : State :=
  if !s.routerHere r || s.rd D.ROUTER_STATE r != 0 then s
  else
    let l := (s.reqList.filter (fun x => s.crosses r x.2)).map (fun x => x.1)
    let s := (s.wr D.ROUTER_STATE r 1).raise Ev.MESH_ROUTE_AROUND 0 0
    let s := l.foldl (fun t k => t.routerLost k) s
    let s := s.recordTo (s.unitRecipients (routerField r)) 0x46 clsContained (ucRouter r) St.ROUTER_FAILED 0 l.length
    let s := s.addDefect (ucRouter r) 0 src detail
    let s := (List.range 1024).foldl (fun t n => if epNode (t.sliceEndpoint n) = r && !t.isHole n then t.failSlice n else t) s
    let s := (List.range 64).foldl (fun t n => if linkNode n = r && t.has .link n then t.linkFail n 6 else t) s
    let s := (List.range 512).foldl (fun t k => if teNode k = r && t.has .te k then t.failEngine k St.ROUTER_FAILED else t) s
    let s := (List.range 512).foldl (fun t i => if portNode i = r && t.has .port i then t.portDown i 4 else t) s
    let s := (List.range 64).foldl (fun t j => if spareNode j = r && t.has .spare j && t.rd D.SPARE_STATE j == 0 then t.wr D.SPARE_STATE j 2 else t) s
    match s.lapA with
    | some t => if t.entries.any (fun e => e.1 % 1024 == r) then s.suspendLap lapRouter else s
    | none => s

/-- Router `r` fails in service. -/
def State.failRouter (s : State) (r : Nat) : State := s.failRouterAs r 2 St.ROUTER_FAILED

/-- ROUTER_FAIL (R203). -/
def execRouterFail (r : Fin 1024) (s : State) : Host.Outcome State Fault Refusal := .next (s.failRouter r)

/-- Routers that have failed. -/
def State.failedRouters (s : State) : List Nat := (List.range 1024).filter (fun r => s.rd D.ROUTER_STATE r == 1)

/-- Live neighbours of a router. -/
def State.liveNeighbours (s : State) (r : Nat) : Nat :=
  ([1, 2, 3, 4].filter (fun p => match neighbour s.variant r p with
    | some n => s.routerHere n && s.rd D.ROUTER_STATE n == 0
    | none => false)).length

/-- Live routers in order. -/
def State.liveRouters (s : State) : List Nat := (List.range 1024).filter (fun r => s.routerHere r && s.rd D.ROUTER_STATE r == 0)

/-- Two live routers with no allowed path between them: of the two, the one to mark failed (R204). -/
def State.stranded (s : State) : Option Nat :=
  let l := s.liveRouters
  l.findSome? (fun a => (l.find? (fun b => b != a && (s.pathTo a 0 b).isNone)).map (fun b =>
    let x := min a b
    let y := max a b
    if s.liveNeighbours y < s.liveNeighbours x then y else x))

/-- The routing tables avoid the routers that have failed. -/
def State.avoidFailed (s : State) : State := { s with routeFails := s.failedRouters }

/-- Mark stranded routers failed until every pair has a path (R204). -/
def State.settleRoutes : Nat → State → State
  | 0, s => s
  | fuel + 1, s =>
    s.avoidFailed.stranded.elim s.avoidFailed (fun r => State.settleRoutes fuel (s.avoidFailed.failRouter r))

/-- Hops between two nodes first in x and then in y. -/
def manhattan (a b : Nat) : Nat := nodeDist a b

/-- MESH_DETOUR_MAX under the tables in force (R204). -/
def State.detourMax (s : State) : Nat :=
  let l := s.liveRouters
  l.foldl (fun m a => l.foldl (fun k b => match s.pathTo a 0 b with | some x => max k (x.2 - manhattan a b) | none => k) m) 0

/-- ROUTE_TABLE_SWITCH (R204): the new tables are in force. -/
def execRouteTableSwitch (s : State) : Host.Outcome State Fault Refusal :=
  if s.routeFails = s.failedRouters then .next s
  else
    let s := State.settleRoutes 1024 s
    .next (s.wr D.MESH_DETOUR_MAX 0 s.detourMax)

end Sys2Proof.Machine
end

