-- ==== Sys2Proof/Machine/HbmCmds.lean ====
section
/-! DEFINITION. The commands of the channels: issue and return, refresh and temperature, scrub, training, power states and retirement
(R147 to R171). -/

namespace Sys2Proof.Machine

/-! ### Rows and activates (R150 to R155) -/

/-- Bank and row of a line of pseudo-channel `i`. -/
def State.bankRow (s : State) (i line : Nat) : Nat × Nat :=
  let cfg := s.rd D.STACK_CONFIG (i / 64)
  (lineBank cfg line, lineRow cfg line)

/-- The open row of a bank. -/
def Pc.open_ (q : Pc) (b : Nat) : Option Nat := Table.get none b q.rows

/-- The line's row is open. -/
def State.rowHit (s : State) (i : Nat) (q : Pc) (line : Nat) : Bool :=
  let br := s.bankRow i line
  q.open_ br.1 == some br.2

/-- An activate would break tRRD, or the limit of four in tFAW, two in band C (R153, Table 6.4); ACT_TIMING is in ps. -/
def State.actLimited (s : State) (i : Nat) (q : Pc) : Bool :=
  let t := s.rd D.ACT_TIMING (i / 64)
  let n := if s.rd D.STACK_BAND (i / 64) = 2 then 2 else 4
  (match q.actTimes.getLast? with | some x => decide (1000 * (s.gate - x) < bits t 15 0) | none => false) ||
    decide (n ≤ (q.actTimes.filter (fun x => decide (1000 * (s.gate - x) < bits t 31 16))).length)

/-- An activate: the row opens, the bank's count grows, and RFM follows at the threshold (R155). -/
def State.activate (s : State) (i line : Nat) : State :=
  let br := s.bankRow i line
  let q := s.pc i
  let f := Table.get { threshold := 0, reduce := 0 } (i / 64) s.rfm
  let n := Table.get 0 br.1 q.acts + 1
  let due := f.threshold != 0 && decide (f.threshold ≤ n)
  let q := { q with rows := Table.set none br.1 (some br.2) q.rows, acts := Table.set 0 br.1 (if due then n - f.reduce else n) q.acts,
                    actTimes := (q.actTimes ++ [s.gate]).drop (q.actTimes.length + 1 - 4) }
  let s := s.setPc i q
  if due then s.count D.RFM_ISSUED (i / 2) 1 else s

/-! ### Issue (R240, R151) -/

/-- Writes are in service: while draining, and whenever the read queue is empty (R151). -/
def Pc.writing (q : Pc) : Bool := q.drain || q.rd.isEmpty

/-- The waiting requests of the queue in service, oldest first. -/
def State.pcCands (s : State) (i : Nat) : List Cand :=
  let q := s.pc i
  if q.writing then
    (enumList q.wr 0).map (fun e => { at_ := e.1, cls := e.2.cls, deadline := none, age := s.gate - e.2.at_, hit := s.rowHit i q e.2.line })
  else
    (enumList q.rd 0).map (fun e =>
      { at_ := e.1, cls := e.2.cls, deadline := e.2.deadline, age := s.gate - e.2.at_, hit := s.rowHit i q e.2.phys })

/-- The request an issue decision chooses. -/
def State.pcChoice (s : State) (i : Nat) : Option Cand :=
  let q := s.pc i
  let point := 2 * i + q.writing.toNat
  s.choose (fun c => decide (0 < s.tokens point (s.pcRate i c) c)) (fun c => s.rd D.MEM_BW_EST (64 * (i / 64) + c))
    (fun c => s.memEff (i / 64) c) pick151 (s.pcCands i)

/-- Tokens are spent and bytes counted as served. -/
def State.pcCharge (s : State) (i c bytes : Nat) (writing : Bool) : State :=
  let point := 2 * i + writing.toNat
  let r := s.pcRate i c
  let s := if 0 < s.tokens point r c then s.spend point r c bytes else s
  s.noteServed (64 * (i / 64) + c) bytes

/-- The entries of a read, one per sector, that come back (R157). -/
def readSectors (e : RdEnt) : List RdEnt := (maskList 2 e.sectors).map (fun k => { e with sectors := 2 ^ k })

/-- The column command of the chosen request is issued. -/
def State.pcIssue (s : State) (i : Nat) (x : Cand) : State :=
  let q := s.pc i
  if q.writing then
    match q.wr[x.at_]? with
    | none => s
    | some e =>
      let wr := q.wr.eraseIdx x.at_
      let s := s.setPc i { q with wr := wr, drain := q.drain && decide (16 < wr.length) }
      s.pcCharge i e.cls (64 * popCount 2 e.sectors) true
  else
    match q.rd[x.at_]? with
    | none => s
    | some e =>
      let s := s.setPc i { q with rd := q.rd.eraseIdx x.at_, back := q.back ++ readSectors e }
      (s.pcCharge i e.cls 128 false).missed D.MEM_DEADLINE_MISSED (64 * (i / 64) + e.cls) e.cls e.deadline

/-- The line a candidate accesses. -/
def Pc.lineOf (q : Pc) (x : Cand) : Nat :=
  if q.writing then ((q.wr[x.at_]?).map (fun e => e.line)).getD 0 else ((q.rd[x.at_]?).map (fun e => e.phys)).getD 0

/-- The channel serves requests: Active, not retraining, not in band D. -/
def State.pcLive (s : State) (i : Nat) : Bool :=
  s.rd D.CHAN_POWER (i / 2) == 0 && !(s.pc i).retrain && s.rd D.STACK_BAND (i / 64) != 3

/-- PSEUDO_CHANNEL_ISSUE (R240, R151, R153): the chosen request is issued, opening its row if needed; a row that may not be opened yet counts in
ACT_BUDGET_STALL. -/
def execPseudoChannelIssue (i : Fin 2048) (s : State) : Host.Outcome State Fault Refusal :=
  if s.pcLive i then
    match s.pcChoice i with
    | none => .next s
    | some x =>
      if x.hit then .next (s.pcIssue i x).feedAll
      else if s.actLimited i (s.pc i) then .next (s.count D.ACT_BUDGET_STALL (i.val / 2) 1)
      else .next ((s.activate i ((s.pc i).lineOf x)).pcIssue i x).feedAll
  else .next s

/-- ROW_CLOSE_TIMEOUT (R151). -/
def execRowCloseTimeout (i : Fin 2048) (bank : Fin 64) (s : State) : Host.Outcome State Fault Refusal :=
  let q := s.pc i
  .next (s.setPc i { q with rows := Table.set none bank none q.rows })

/-- REFRESH (R154, Table 6.4): the bank is refreshed ahead of every request and its row closes; in self-refresh and band D the stack refreshes
itself. -/
def execRefresh (i : Fin 2048) (bank : Fin 64) (s : State) : Host.Outcome State Fault Refusal :=
  let q := s.pc i
  if s.rd D.CHAN_POWER (i.val / 2) < 2 then .next (s.setPc i { q with rows := Table.set none bank none q.rows }) else .next s

/-! ### Retirement (R166 to R171) -/

/-- A channel of the list migrates. -/
def State.migrating (s : State) (p : Nat → Bool) : Bool :=
  (List.range 1024).any (fun c => s.rd D.CHAN_BACKING c == 1 && p c)

/-- Donor fields of the migrations that run. -/
def State.migInto (s : State) (f : Nat) : Bool := s.migrating (fun c => dnField ((s.chan c).mig.getD 0) == f)

/-- R167: 0 when the donor code may be used for channel `c`. -/
def State.retireStatus (s : State) (c d : Nat) : Nat :=
  let f := dnField d
  if !s.has .chan c || !s.has .field f then St.UNIT_ABSENT
  else if s.migrating (fun k => k / 32 == c / 32 || k / 128 == f) || s.migInto f || s.migInto (c / 128) then St.CHAN_RETIRE_BUSY
  else if c / 128 == f || 126 < dnBlock d || bits d 14 10 != 0 || !dnValid d || 2 ≤ s.rd D.CHAN_BACKING c && s.rd D.CHAN_BACKING c != 3 ||
      s.donors.any (fun e => dnField e.2 == f && dnBlock e.2 == dnBlock d) || decide (16 ≤ s.donors.length) then St.CHAN_DONOR_BAD
  else if (List.range 16).any (fun p => s.windowTouches p (donorLo d) (donorHi d)) then St.CHAN_DONOR_BAD
  else 0

/-- The line of a cache section lies in the donor run (R166, R168). -/
def inRun (d n : Nat) (line src dist : Nat) : Bool :=
  sliceField (sourceSlice n src dist) == dnField d && line * 128 / 2 ^ 24 == dnBlock d

/-- Phase 1 at one cache section: lines are dropped without writeback, and what waits on a fill there is handled again. -/
def State.dropRun (s : State) (d k : Nat) : State :=
  let n := s.logicalOf k
  let x := s.cache k
  let gone := x.miss.filter (fun m => inRun d n m.line m.src m.dist)
  let x := { x with
    tags := Table.mapVals none (fun _ l => match l with | some y => if inRun d n y.line y.src y.dist then none else some y | none => none) x.tags
    victims := x.victims.filter (fun v => v.issued || !inRun d n v.line.line v.line.src v.line.dist)
    miss := x.miss.filter (fun m => !inRun d n m.line m.src m.dist) }
  let s := s.setCache k x
  gone.foldl (fun t m => (t.againAll (m.merged.map (fun r => [r]))).againAll (m.waiters ++ m.swarm.map (fun r => [r]))) s

/-- An accepted retirement starts (R169): phase 1, and MIG_PROGRESS at the first unit. -/
def State.retireStart (s : State) (c d : Nat) (dead : Bool) : State :=
  let s := (s.slices.map (fun e => e.1)).foldl (fun t k => t.dropRun d k) s
  let s := s.setChan c { (s.chan c) with mig := some d, dead := dead }
  let s := { s with boot := { s.boot with migs := Table.set 0 c d s.boot.migs } }
  let s := (((s.wr D.CHAN_BACKING c 1).wr D.MIG_PROGRESS c 0).wr D.MIG_POISON_SECTORS c 0).enforce D.MIGRATE_RATE 0
  (s.storeTouch).refreshGroup (c / 32)

/-- The first usable entry of DONOR_POOL (R171). -/
def State.poolEntry (s : State) (c : Nat) : Option Nat :=
  (List.range 16).find? (fun j => dnValid (s.rd D.DONOR_POOL j) && s.retireStatus c (s.rd D.DONOR_POOL j) == 0)

/-- The pool's entry is marked used: VALID goes to 0. -/
def State.poolUse (s : State) (j : Nat) : State := (s.wr D.DONOR_POOL j (setBit (s.rd D.DONOR_POOL j) 15 false)).storeTouch

/-- The reads of a pseudo-channel end poisoned, and its queues are empty. -/
def State.pcDead (s : State) (i : Nat) : State :=
  let q := s.pc i
  let s := s.setPc i { q with rd := [], wr := [], back := [], drain := false }
  (q.rd ++ q.back).foldl (fun t e =>
    match missFind (t.cache e.key) e.line e.src e.dist with
    | some m => t.setCache e.key (missPut (t.cache e.key) { m with have_ := m.have_ ||| e.sectors, pois := m.pois ||| e.sectors })
    | none => t) s

/-- A channel becomes FAILED (R170). -/
def State.chanFailed (s : State) (c : Nat) : State :=
  let s := s.setChan c { (s.chan c) with dead := true, mig := none }
  let s := ((s.wr D.CHAN_BACKING c 3).storeTouch).raise Ev.CHANNEL_FAILED 0 0
  let s := s.chanRecord (channelSlice c) 0x44 clsContained (ucChannel c) 0 0xFFFF
  s.refreshGroup (c / 32)

/-- R171: retire channel `c` to the pool, or report that no donor is usable; a failed channel then is FAILED. -/
def State.autoRetire (s : State) (c : Nat) (dead : Bool) : State :=
  match s.poolEntry c with
  | some j =>
    let d := s.rd D.DONOR_POOL j
    let s := (s.poolUse j).retireStart c d dead
    if dead then s.chanRecord (channelSlice c) 0x44 clsContained (ucChannel c) 0 0xFFFF else s
  | none =>
    let s := s.raise Ev.RETIRE_NO_DONOR 0 0
    if dead then s.chanFailed c else s

/-- 24 hours in ns. -/
def dayNs : Nat := 86400000000000

/-- The counts of the day that began at dayStart; a new day begins after 24 h. A threshold met retires the channel (R171). -/
def State.dayCheck (s : State) (c : Nat) : State :=
  let x := s.chan c
  if s.rdB D.AUTO_RETIRE 0 && s.rd D.CHAN_BACKING c == 0 &&
      (decide (s.rd D.CE_RETIRE_THRESHOLD 0 ≤ s.rd D.HBM_CE_COUNT c - x.dayCe) ||
        decide (s.rd D.UE_RETIRE_THRESHOLD 0 ≤ s.rd D.HBM_UE_COUNT c - x.dayUe)) then
    (s.setChan c { x with dayStart := s.gate, dayCe := s.rd D.HBM_CE_COUNT c, dayUe := s.rd D.HBM_UE_COUNT c }).autoRetire c false
  else s

/-- A new 24 h begins before an error is counted. -/
def State.dayTurn (s : State) (c : Nat) : State :=
  let x := s.chan c
  if x.dayStart + dayNs ≤ s.gate then
    s.setChan c { x with dayStart := s.gate, dayCe := s.rd D.HBM_CE_COUNT c, dayUe := s.rd D.HBM_UE_COUNT c }
  else s

/-! ### Codewords read back (R157) -/

/-- The owner slice and channel offset whose data a sector of channel `c` holds: its own, or the retired share backed there. -/
def State.holder (s : State) (c o : Nat) : Nat × Nat :=
  let n := channelSlice c
  match s.donors.find? (fun e => dnField e.2 == sliceField n && dnBlock e.2 == o / 2 ^ 24 && decide (o < chanUsable)) with
  | some e => (channelSlice e.1, addrInView s.variant (8 + dnField e.2) n o - viewBase (8 + dnField e.2) - dnBlock e.2 * 2 ^ 31)
  | none => (n, o)

/-- R157 for the codeword of the sector at offset `o` of channel `c`; `quiet`: a write to it is queued, or its line is dirty in the caching
slice, so that an uncorrectable one writes no poison and no record. -/
def State.codeword (s : State) (c o : Nat) (e : Ecc) (quiet : Bool) : State :=
  match e with
  | .clean => s
  | .corrected => ((s.dayTurn c).count D.HBM_CE_COUNT c 1).dayCheck c
  | .retried => s.count D.HBM_RETRY_COUNT c 1
  | .retriedCorrected => (((s.count D.HBM_RETRY_COUNT c 1).dayTurn c).count D.HBM_CE_COUNT c 1).dayCheck c
  | .failed =>
    if quiet then s
    else
      let h := s.holder c o
      let s := (((s.setPoison (chanAddr c o) true).dayTurn c).count D.HBM_UE_COUNT c 1).raise Ev.HBM_UE 0 0
      (s.dataRecord h.1 h.2 0x42 (ucChannel c) 0 1).dayCheck c

/-- A write to the sector is queued in its pseudo-channel (R151, R157). -/
def Pc.wrQueued (q : Pc) (line sec : Nat) : Bool := q.wr.any (fun w => w.line == line && w.sectors &&& sec != 0)

/-- The sector is delivered to the miss register that wants it. -/
def State.deliver (s : State) (e : RdEnt) (v : Nat) (pois : Bool) : State :=
  match missFind (s.cache e.key) e.line e.src e.dist with
  | none => s
  | some m =>
    let mask := sectorBytes e.sectors &&& (2 ^ 128 - 1 - m.mask % 2 ^ 128)
    s.setCache e.key (missPut (s.cache e.key)
      { m with have_ := m.have_ ||| e.sectors, pois := if pois then m.pois ||| e.sectors else m.pois, data := mergeBytes m.data v mask })

/-- HBM_READ_RETURN (R157): the oldest sector read comes back. -/
def execHbmReadReturn (i : Fin 2048) (e : Ecc) (s : State) : Host.Outcome State Fault Refusal :=
  match (s.pc i).back with
  | [] => .next s
  | r :: rest =>
    let q := s.pc i
    let c := i.val / 2
    let o := r.phys * 128 + 64 * (r.sectors / 2)
    let s := s.setPc i { q with back := rest }
    let s := s.codeword c o (if q.wrQueued r.phys r.sectors then .clean else e) false
    let a := chanAddr c (r.phys * 128)
    .next (s.deliver r (s.load a 128) (s.poisonAt (chanAddr c o)))

/-! ### Scrub and initialisation (R158, R159) -/

/-- The sector is valid and dirty where it is cached. -/
def State.dirtyCached (s : State) (n o : Nat) : Bool :=
  match s.loc n (o / 128) with
  | none => false
  | some p => match tagFind (s.cache p.key) p.line p.src p.dist with
    | some (_, ln) => bit (ln.valid &&& ln.dirty) (o / 64 % 2)
    | none => false

/-- SCRUB_STEP (R158). -/
def execScrubStep (c : Fin 1024) (e : Ecc) (s : State) : Host.Outcome State Fault Refusal :=
  if s.has .chan c && s.rd D.CHAN_POWER c.val < 2 && s.rd D.CHAN_BACKING c.val == 0 then
    let x := s.chan c
    let o := 64 * x.scrub
    let h := s.holder c o
    let quiet := s.dirtyCached h.1 h.2 || (s.pc (cellPc o + 2 * c.val)).wrQueued (o / 128) (2 ^ (o / 64 % 2))
    .next ((s.setChan c { x with scrub := (x.scrub + 1) % 2 ^ 25 }).codeword c o e quiet)
  else .next s

/-- Units of a channel. -/
def chanUnits : Nat := 4194304

/-- Every present channel that is in use has been initialised. -/
def State.allInited (s : State) : Bool :=
  (List.range 1024).all (fun c => !s.has .chan c || 2 ≤ s.rd D.CHAN_BACKING c || (s.chan c).inited == chanUnits)

/-- INIT_STEP (R159): the pointer passes one more unit, whose sectors read zero already. -/
def execInitStep (c : Fin 1024) (s : State) : Host.Outcome State Fault Refusal :=
  let x := s.chan c
  if s.has .chan c && decide (x.inited < chanUnits) && decide (s.rd D.CHAN_POWER c.val < 2) && decide (s.rd D.CHAN_BACKING c.val < 2) then
    let s := s.setChan c { x with inited := x.inited + 1 }
    .next (if x.inited + 1 = chanUnits && s.allInited then s.wr D.INIT_DONE 0 1 else s)
  else .next s

/-! ### Temperature (R154) -/

/-- Band of a temperature, and the band after a sample. -/
def bandOf (t : Int) : Nat := if t < 85 then 0 else if t < 95 then 1 else if t < 105 then 2 else 3
def nextBand (b : Nat) (t : Int) : Nat :=
  if b ≤ bandOf t then bandOf t
  else match b with
    | 3 => if t < 95 then 2 else 3
    | 2 => if t < 82 then 0 else if t < 92 then 1 else 2
    | _ => if t < 82 then 0 else b

/-- Queues of a channel. -/
def Pc.idle (q : Pc) : Bool := q.rd.isEmpty && q.wr.isEmpty && q.back.isEmpty
def State.chanIdle (s : State) (c : Nat) : Bool := (s.pc (2 * c)).idle && (s.pc (2 * c + 1)).idle

/-- Every channel of a stack that is not Off enters self-refresh. -/
def State.stackSleep (s : State) (m : Nat) : State :=
  (groupChans m).foldl (fun t c => if t.rd D.CHAN_POWER c < 2 then t.wr D.CHAN_POWER c 2 else t) s

/-- Channels of a stack with requests waiting are woken. -/
def State.stackWake (s : State) (m : Nat) : State :=
  (groupChans m).foldl (fun t c => if t.rd D.CHAN_POWER c = 2 && !t.chanIdle c then t.demand (.channel (Fin.ofNat 1024 c)) else t) s

/-- STACK_TEMP_SAMPLE (R154). -/
def execStackTempSample (m : Fin 32) (celsius : Int) (s : State) : Host.Outcome State Fault Refusal :=
  if s.has .stack m && (s.rd D.TRAIN_MODE_LAST m == 1 || s.rd D.TRAIN_MODE_LAST m == 2) then
    let b := s.rd D.STACK_BAND m
    let n := nextBand b celsius
    let s := ((s.wr D.STACK_TEMP m (ofSigned 32 celsius)).wr D.STACK_TEMP_VALID m 1).wr D.STACK_BAND m n
    if n = b then .next s
    else
      let s := if n = 2 then s.raise Ev.HBM_HOT 0 0 else if n = 3 then (s.raise Ev.HBM_TRIP 0 0).stackSleep m else s
      let s := if b = 3 then s.stackWake m else s
      .next (s.refreshGroup m)
  else .next s

/-! ### Training (R160 to R163) -/

/-- Bits set in a mask of pseudo-channels give the channels that failed. -/
def failedChans (m : Nat) (f : Nat) : List Nat := (groupChans m).filter (fun c => bits f (2 * (c % 32) + 1) (2 * (c % 32)) != 0)

/-- A channel is retired to a donor at boot, with nothing to copy (R163). -/
def State.bootRetire (s : State) (c d : Nat) : State :=
  let s := (((s.wr D.CHAN_BACKING c 2).wr D.CHAN_DONOR c d).wr D.CHAN_POWER c 3).storeTouch
  ((s.setChan c { (s.chan c) with dead := true, mig := none }).raise Ev.CHANNEL_RETIRED 0 0).chanRecord (channelSlice c) 0x45
    clsCorrected (ucChannel c) 0 0

/-- A channel that may not be used at this start is retired at once, to the donor of a migration that a reset broke off or to the pool, or is
FAILED (R163). -/
def State.chanOut (s : State) (c : Nat) : State :=
  if 2 ≤ s.rd D.CHAN_BACKING c then s
  else if s.rd D.CHAN_BACKING c = 1 then s.bootRetire c (Table.get 0 c s.boot.migs)
  else match s.poolEntry c with
    | some j => (s.poolUse j).bootRetire c (s.rd D.DONOR_POOL j)
    | none => s.chanFailed c

/-- A channel fails training; the failure enters the defect map (R163, R388). -/
def State.bootFail (s : State) (c : Nat) : State :=
  if s.named (ucChannel c) 0 then s
  else ((s.chanOut c).addDefect (ucChannel c) 0 1 Ca.SELFTEST_FAIL).noteFail (ucChannel c) Ca.SELFTEST_FAIL

/-- Temperature band of a training record (R160). -/
def trainBand (t : Int) : Nat := if t < 45 then 0 else if t < 70 then 1 else if t < 85 then 2 else 3

/-- The key of a training record: serial and pin rate (R160), kept before the record's bytes. -/
def State.trainKey (s : State) (o : TrainOutcome) : Nat := o.serial.toNat + s.cur D.HBM_PIN_RATE 0 * 2 ^ 128

/-- A saved record matches the stack's key. -/
def State.trainMatch (s : State) (m : Nat) (o : TrainOutcome) : Bool :=
  let r := D.TRAIN_RECORD (trainBand o.celsius)
  17 ≤ s.rdLen r m && s.rd r m % 2 ^ 136 == s.trainKey o

/-- What the stack's ID data say (R147, R153, R155). -/
def State.stackId (s : State) (m : Nat) (o : TrainOutcome) : State :=
  let s := ((s.wr D.STACK_SERIAL m o.serial.toNat).wr D.STACK_CONFIG m o.config.toNat).wr D.ACT_TIMING m o.actTiming.toNat
  { s with rfm := Table.set { threshold := 0, reduce := 0 } m { threshold := o.rfmThreshold, reduce := o.rfmReduce } s.rfm,
           boot := { s.boot with bands := Table.set 0 m (trainBand o.celsius) s.boot.bands } }

/-- The new record replaces the stored one for its key (R161). -/
def State.saveTrain (s : State) (m : Nat) (o : TrainOutcome) : State :=
  let r := D.TRAIN_RECORD (trainBand o.celsius)
  let n := min (17 + o.record.len) r.len
  ((s.wr r m ((s.trainKey o + o.record.val * 2 ^ 136) % 2 ^ (8 * n))).wrLen r m n).storeTouch

/-- STACK_TRAIN (R147, R161, R163), in boot stage 6. -/
def execStackTrain (m : Fin 32) (o : TrainOutcome) (s : State) : Host.Outcome State Fault Refusal :=
  if !s.has .stack m || s.rd D.BOOT_STAGE 0 != 6 || s.named (ucStack m) 0 then .next s
  else if !o.supported then
    .next (((failedChans m (2 ^ 64 - 1)).foldl (fun t c => t.bootFail c) ((s.wr D.TRAIN_MODE_LAST m 3).noteFail (ucStack m) Ca.STACK_UNSUPPORTED)).refreshGroup m)
  else
    let s := s.stackId m o
    if !s.rdB D.FORCE_FULL_TRAIN 0 && s.trainMatch m o && o.verifies then
      .next (((s.wr D.TRAIN_MODE_LAST m 1).refreshGroup m).resetGroupEst m)
    else
      let f := o.failedPcs.toNat
      let s := ((s.saveTrain m o).wr D.TRAIN_MODE_LAST m (if f = 2 ^ 64 - 1 then 3 else 2)).raise Ev.HBM_TRAIN_FULL 0 0
      .next ((((failedChans m f).foldl (fun t c => t.bootFail c) s).refreshGroup m).resetGroupEst m)

/-- READ_TIMING_CHECK (R162). -/
def execReadTimingCheck (i : Fin 2048) (inRange : Bool) (s : State) : Host.Outcome State Fault Refusal :=
  if inRange || s.rd D.CHAN_POWER (i.val / 2) != 0 || (s.pc i).retrain then .next s
  else .next ((s.setPc i { (s.pc i) with retrain := true }).count D.RETRAIN_COUNT (i.val / 2) 1)

/-- HBM_RETRAIN_DONE (R162). -/
def execHbmRetrainDone (i : Fin 2048) (s : State) : Host.Outcome State Fault Refusal :=
  .next (s.setPc i { (s.pc i) with retrain := false })

/-! ### Power states (R164, R165) -/

/-- The channel has to stay in self-refresh while it is idle: HBM_SELF_REFRESH is set, its slice is in Cocoon or Off, or band D. -/
def State.chanHeld (s : State) (c : Nat) : Bool :=
  s.rdB D.HBM_SELF_REFRESH c || 2 ≤ s.rd D.SLICE_POWER (channelSlice c) || s.rd D.STACK_BAND (c / 32) == 3

/-- An idle channel enters the state its holds give. -/
def State.chanRest (s : State) (c : Nat) : State :=
  if s.rd D.CHAN_POWER c < 2 && s.chanIdle c then s.wr D.CHAN_POWER c (if s.chanHeld c then 2 else 1) else s

/-- PD_IDLE_EXPIRY (R164). -/
def execPdIdleExpiry (c : Fin 1024) (s : State) : Host.Outcome State Fault Refusal := .next (s.chanRest c)

/-- SELF_REFRESH_EXIT_DONE (R164, R165): the exit the chairlift has admitted is over. -/
def execSelfRefreshExitDone (c : Fin 1024) (s : State) : Host.Outcome State Fault Refusal :=
  if s.rising.contains (.channel c) && s.rd D.CHAN_POWER c == 2 && s.rd D.STACK_BAND (c.val / 32) != 3 then
    .next (({ s with rising := s.rising.filter (fun u => u != .channel c) } : State).wr D.CHAN_POWER c 0)
  else .next s

/-- HBM_SELF_REFRESH's own rules (R164): TRUE puts an idle channel into self-refresh, FALSE releases it. -/
def State.ownSelfRefresh (s : State) (c : Nat) (w : OdWrite) : State :=
  let s := s.setObj D.HBM_SELF_REFRESH c w
  let s := if odNum w = 0 then (if s.rd D.CHAN_POWER c = 2 && !s.chanHeld c then s.demand (.channel (Fin.ofNat 1024 c)) else s)
           else s.chanRest c
  s.odDone

/-- HBM_SELF_REFRESH (R164). -/
def execHbmSelfRefresh (c : Fin 1024) (w : OdWrite) (s : State) : Host.Outcome State Fault Refusal :=
  s.odCmd (.hbmSelfRefresh c w) (fun t => t.odWrite D.HBM_SELF_REFRESH c w (fun u => u.ownSelfRefresh c w))

/-! ### Migration (R169, R170) -/

/-- CHANNEL_RETIRE's own rules (R167). -/
def State.ownChannelRetire (s : State) (c : Nat) (w : OdWrite) : State :=
  match s.retireStatus c (odNum w) with
  | 0 => (s.retireStart c (odNum w) (s.rd D.CHAN_BACKING c == 3)).odDone
  | st => s.odFail st

/-- CHANNEL_RETIRE (R167). -/
def execChannelRetire (c : Fin 1024) (w : OdWrite) (s : State) : Host.Outcome State Fault Refusal :=
  s.odCmd (.channelRetire c w) (fun t => t.odWrite D.CHANNEL_RETIRE c w (fun u => u.ownChannelRetire c w))

/-- One sector of a unit goes to the donor: its bytes and its poison; one that cannot be read goes as poison. -/
def State.copySector (s : State) (c d o : Nat) (bad : Bool) : State :=
  let x := donorSpot s.variant d o
  match s.backCell x.1 x.2 with
  | none => s
  | some a =>
    if bad then (s.setPoison a true).count D.MIG_POISON_SECTORS c 1
    else (s.store a 64 (s.load (chanAddr c o) 64)).setPoison a (s.poisonAt (chanAddr c o))

/-- MIGRATION_UNIT_COPY (R169, R170): the bits of `unreadable` are the sectors that fail R157. -/
def execMigrationUnitCopy (c : Fin 1024) (unreadable : BitVec 8) (s : State) : Host.Outcome State Fault Refusal :=
  let u := s.rd D.MIG_PROGRESS c
  let x := s.chan c
  if s.rd D.CHAN_BACKING c == 1 && decide (u < chanUnits) then
    let d := x.mig.getD 0
    let s := (List.range 8).foldl (fun t j =>
      let o := 512 * u + 64 * j
      let bad := bit unreadable.toNat j
      let t := if bad && !x.dead then t.codeword c o .failed false else t
      t.copySector c d o (bad || x.dead)) s
    .next (s.wr D.MIG_PROGRESS c (u + 1)).feedAll
  else .next s

/-- MIGRATION_END (Table 6.9 phase 3). -/
def execMigrationEnd (c : Fin 1024) (s : State) : Host.Outcome State Fault Refusal :=
  let x := s.chan c
  if s.rd D.CHAN_BACKING c == 1 && s.rd D.MIG_PROGRESS c == chanUnits then
    let s := ((s.wr D.CHAN_BACKING c 2).wr D.CHAN_DONOR c (x.mig.getD 0)).wr D.CHAN_POWER c 3
    let s := (((s.setChan c { x with mig := none }).pcDead (2 * c)).pcDead (2 * c + 1)).storeTouch
    let s := (s.raise Ev.CHANNEL_RETIRED 0 0).chanRecord (channelSlice c) 0x45 clsCorrected (ucChannel c) 0 (s.rd D.MIG_POISON_SECTORS c)
    .next ((s.refreshGroup (c.val / 32)).feedAll)
  else .next s

/-- CHANNEL_FAIL (R170, R171): a migrating channel poisons what is left, another goes to the pool or becomes FAILED. -/
def execChannelFail (c : Fin 1024) (s : State) : Host.Outcome State Fault Refusal :=
  if !s.has .chan c || 2 ≤ s.rd D.CHAN_BACKING c.val || (s.chan c).dead then .next s
  else
    let s := ((s.setChan c { (s.chan c) with dead := true }).pcDead (2 * c)).pcDead (2 * c + 1)
    let s := s.addDefect (ucChannel c) 0 2 0
    if s.rd D.CHAN_BACKING c.val == 1 then .next (s.chanRecord (channelSlice c) 0x44 clsContained (ucChannel c) 0 0xFFFF)
    else if s.rdB D.AUTO_RETIRE 0 then .next (s.autoRetire c true)
    else .next (s.chanFailed c)

end Sys2Proof.Machine
end

