-- ==== Sys2Proof/Machine/Power.lean ====
section
/-! DEFINITION. Field clocks, clock switches, CKOBS, the power states of slices and fields, and the chairlift (R362 to R376). -/

namespace Sys2Proof.Machine

/-! ### Clock switches (R368 to R370) -/

/-- A normal switch of switch `k`: 8 cycles of each clock are lost (R369). -/
def State.swNormal (s : State) (k : Nat) : State := (s.wr D.CLK_SW_LOST k (8 + 8 * 2 ^ 16)).count D.CLK_SW_COUNT k 1

/-- A forced switch (R370). -/
def State.swForced (s : State) (k : Nat) : State :=
  (((s.wr D.CLK_SW_LOST k 0xFFFFFFFF).count D.CLK_SW_COUNT k 1).count D.CLK_FORCED_COUNT k 1).raise Ev.CLK_FORCED 0 (evWords [k])

/-- Frequency of the bypass (R366). -/
def bypassMhz : Nat := 500

/-- The field runs from the bypass. -/
def State.onBypass (s : State) (f : Nat) : State := (s.wr D.FIELD_CLK_SRC f 1).fieldRuns f bypassMhz

/-- The field runs from its PLL at `mhz`, switching back to it if it was on the bypass. -/
def State.onPll (s : State) (f mhz : Nat) : State :=
  let s := if s.rd D.FIELD_CLK_SRC f = 1 then (s.swNormal (f + 1)).wr D.FIELD_CLK_SRC f 0 else s
  s.fieldRuns f mhz

/-- A frequency comes into force in a field that is awake; an unlocked PLL takes it when it locks (R365, R366). -/
def State.clockTo (s : State) (f mhz : Nat) : State :=
  let s := s.setClk f { (s.clk f) with target := mhz, atWake := none, waiting := false }
  if (s.clk f).unlocked || s.clkPend.contains (f + 1) then s else s.onPll f mhz

/-- A field's clock would lie below the floor of its pace in the active table (R198). -/
def State.belowFloor (s : State) (f mhz : Nat) : Bool :=
  match s.activeLap with | some t => decide (mhz * (t.pace[f]?).getD 1 < 2000) | none => false

/-- The table admits `mhz` in every field of the list (R198). -/
def LapTable.admits (t : LapTable) (l : List Nat) (mhz : Nat) : Bool := l.all (fun f => decide (2000 ≤ mhz * (t.pace[f]?).getD 1))

/-- R198 for a request: 0 when it may go on; LAP_CLOCK_FLOOR, or the status of the switch it needs. -/
def State.clockFloor (s : State) (l : List Nat) (mhz fb : Nat) : Nat :=
  if !l.any (fun f => s.belowFloor f mhz) then 0
  else match s.lapS with
    | none => St.LAP_CLOCK_FLOOR
    | some t => if fb = 0 || fb != t.id || !t.admits l mhz then St.LAP_CLOCK_FLOOR else s.switchStatus s.earliestSwitch

/-- The checks of R367 in order. -/
def State.clockStatus (s : State) (r : Nat) : Nat :=
  let l := fcFields r
  let mhz := fcMhz r
  if l.any (fun f => !fieldPresent s.variant f) then St.UNIT_ABSENT
  else if bits r 15 8 != 0 || bits r 63 28 != 0 || l.isEmpty || mhz < 250 || 2200 < mhz then St.CLK_REQ_BAD
  else if s.rd D.FIELD_CLOCK_STATE 0 == 1 || s.rd D.FIELD_CLOCK_STATE 0 == 2 then St.CLK_BUSY
  else if l.any (fun f => (s.clk f).capped && decide (s.rd D.THERMAL_MHZ 0 < mhz)) then St.CLK_THERMAL
  else s.clockFloor l mhz (fcFallback r)

/-- A request that passes its checks: it glides, or waits for the switch to its fallback (R198, R367). -/
def State.clockReq (s : State) (r : Nat) : State :=
  let s := (({ s with clkReq := some r } : State).wr D.FIELD_CLOCK_STATUS 0 0)
  if (fcFields r).any (fun f => s.belowFloor f (fcMhz r)) then (s.armLap .switch s.earliestSwitch true).wr D.FIELD_CLOCK_STATE 0 1
  else s.glide r

/-- FIELD_CLOCK_REQ's own rules. -/
def State.ownClockReq (s : State) (w : OdWrite) : State :=
  match s.clockStatus (odNum w) with
  | 0 => (s.clockReq (odNum w)).odDone
  | st => s.odFail st

/-- FIELD_CLOCK_REQ (R367). -/
def execFieldClockReq (w : OdWrite) (s : State) : Host.Outcome State Fault Refusal :=
  s.odCmd (.fieldClockReq w) (fun t => t.odWrite D.FIELD_CLOCK_REQ 0 w (fun u => u.ownClockReq w))

/-- FIELD_CLOCK_SETTLED (R365, R367): a glide pauses while a rise waits for admission, and a field in Cocoon or Off takes the frequency when it
wakes. -/
def execFieldClockSettled (s : State) : Host.Outcome State Fault Refusal :=
  match s.clkReq with
  | none => .next s
  | some r =>
    if s.rd D.FIELD_CLOCK_STATE 0 != 2 || s.lift.any isGlide then .next s
    else
      let s := (fcFields r).foldl (fun t f =>
        if 2 ≤ t.rd D.FIELD_POWER f then t.setClk f { (t.clk f) with atWake := some (fcMhz r) } else t.clockTo f (fcMhz r)) s
      .next (({ s with clkReq := none } : State).wr D.FIELD_CLOCK_STATE 0 3)

/-- PLL_UNLOCK (R366): `stopped` when the PLL gives no more edges, so that the switch waits to be forced. -/
def execPllUnlock (f : Fin 8) (stopped : Bool) (s : State) : Host.Outcome State Fault Refusal :=
  if !fieldPresent s.variant f || (s.clk f).unlocked then .next s
  else
    let s := s.setClk f { (s.clk f) with unlocked := true }
    let s := (s.count D.PLL_UNLOCK_COUNT f 1).raise Ev.PLL_UNLOCK 0 (evWords [f])
    if s.rd D.FIELD_CLK_SRC f = 1 then .next s
    else if stopped then .next { s with clkPend := s.clkPend ++ [f.val + 1] }
    else .next ((s.swNormal (f.val + 1)).onBypass f)

/-- PLL_RELOCK_ATTEMPT (R366): a switch back that falls below the active table's floor waits for a clock request with a fallback. -/
def execPllRelockAttempt (f : Fin 8) (locks : Bool) (s : State) : Host.Outcome State Fault Refusal :=
  let c := s.clk f
  if !c.unlocked || !locks || s.clkPend.contains (f.val + 1) then .next s
  else if s.belowFloor f c.target && decide (c.target < s.rd D.FIELD_FREQ f) then
    .next (s.setClk f { c with unlocked := false, waiting := true })
  else .next ((s.setClk f { c with unlocked := false }).onPll f c.target)

/-- CLK_FORCED (R370). -/
def execClkForced (k : Fin 10) (s : State) : Host.Outcome State Fault Refusal :=
  if s.clkPend.contains k.val then
    let s := ({ s with clkPend := s.clkPend.filter (fun j => j != k.val) } : State).swForced k
    .next (if 1 ≤ k.val && k.val ≤ 8 then s.onBypass (k.val - 1) else s)
  else .next s

/-! ### CKOBS (R371, R372) -/

/-- Frequency of a CKOBS source in units of 0.1 MHz (Tables 14.2, 14.5); none for a code the table does not list. -/
def State.ckFreq (s : State) (c : Nat) : Option Nat :=
  if c = 0 then some 500
  else if c = 1 || c = 2 then some 20
  else if c = 3 then some 10000
  else if c = 4 then some 2500
  else if 0x10 ≤ c && c < 0x18 then some (10 * s.rd D.FIELD_FREQ (c - 0x10))
  else if 0x20 ≤ c && c < 0x40 then some (250 * s.pinRate)
  else if 0x40 ≤ c && c < 0x80 then some 2125000
  else if 0x80 ≤ c && c < 0x88 then some 10000
  else if c = 0x90 then some 20000
  else if c = 0x91 then some 1250
  else none

/-- The source is gated or absent. -/
def State.ckGated (s : State) (c : Nat) : Bool :=
  if 0x10 ≤ c && c < 0x18 then !fieldPresent s.variant (c - 0x10) || s.rd D.FIELD_POWER (c - 0x10) != 0
  else if 0x20 ≤ c && c < 0x40 then !s.has .stack (c - 0x20) || decide (2 ≤ s.rd D.FIELD_POWER ((c - 0x20) / 4))
  else if 0x40 ≤ c && c < 0x80 then !s.has .link (c - 0x40) || s.rd D.LINK_STATE (c - 0x40) == 0
  else if 0x80 ≤ c && c < 0x88 then !fieldPresent s.variant (c - 0x80) || s.rd D.SITE_POWER (c - 0x80) != 1
  else false

/-- The output would pass 250 MHz. -/
def ckTooFast (f10 div : Nat) : Bool := decide (2500 * div < f10)

/-- CKOBS_SELECT's own rules (R372): the change goes through switch 9, which waits when the old source gives no edges. -/
def State.ownCkSelect (s : State) (w : OdWrite) : State :=
  match s.ckFreq (odNum w) with
  | none => s.odFail St.OD_VALUE
  | some f =>
    if ckTooFast f (s.rd D.CKOBS_DIV 0) then s.odFail St.CKOBS_RANGE
    else
      let s := if odNum w = s.rd D.CKOBS_SELECT 0 then s
               else if s.ckGated (s.rd D.CKOBS_SELECT 0) then (if s.clkPend.contains 9 then s else { s with clkPend := s.clkPend ++ [9] })
               else s.swNormal 9
      s.odSet D.CKOBS_SELECT 0 w

/-- CKOBS_SELECT (R372). -/
def execCkobsSelect (w : OdWrite) (s : State) : Host.Outcome State Fault Refusal :=
  s.odCmd (.ckobsSelect w) (fun t => t.odWrite D.CKOBS_SELECT 0 w (fun u => u.ownCkSelect w))

/-- CKOBS_DIV's own rules (R372). -/
def State.ownCkDiv (s : State) (w : OdWrite) : State :=
  if ckTooFast ((s.ckFreq (s.rd D.CKOBS_SELECT 0)).getD 0) (odNum w) then s.odFail St.CKOBS_RANGE else s.odSet D.CKOBS_DIV 0 w

/-- CKOBS_DIV (R372). -/
def execCkobsDiv (w : OdWrite) (s : State) : Host.Outcome State Fault Refusal :=
  s.odCmd (.ckobsDiv w) (fun t => t.odWrite D.CKOBS_DIV 0 w (fun u => u.ownCkDiv w))

/-! ### Power states of slices (Table 14.6, R373) -/

/-- Nothing waits or works at a logical slice. -/
def State.sliceQuiet (s : State) (n : Nat) : Bool :=
  let x := s.cache (s.homeKey n)
  (s.retireTo n).isNone && (s.atSlice n).isEmpty && x.miss.isEmpty && x.victims.isEmpty && x.replay.isEmpty && x.busyQ.isEmpty &&
    x.hotBufs.isEmpty && x.units.isEmpty && s.walks.all (fun w => w.slice != n) &&
    x.tags.all (fun e => match e.2 with | some l => !l.abusy | none => true) &&
    s.sweeps.all (fun e => match e.2 with | some y => y.work.all (fun v => v.1 != n) | none => true)

/-- The slice holds locked lines (R78). -/
def State.sliceLocked (s : State) (n : Nat) : Bool :=
  (s.cache (s.homeKey n)).tags.any (fun e => match e.2 with | some l => l.lock | none => false)

/-- Every dirty line whose channel takes its writeback is written back and stays, clean. -/
def State.cleanSlice (s : State) (n : Nat) : State :=
  let k := s.homeKey n
  (s.cache k).tags.foldl (fun t e =>
    match e.2 with
    | none => t
    | some l =>
      let p : Loc := { key := k, n := n, src := l.src, dist := l.dist, line := l.line }
      if l.dirty != 0 && t.wrRoom p l.cls then (t.issueWrite p l).putLine p { l with dirty := 0 } else t) s

/-- Dirty lines are left in the slice. -/
def State.sliceDirty (s : State) (n : Nat) : Bool :=
  (s.cache (s.homeKey n)).tags.any (fun e => match e.2 with | some l => l.dirty != 0 | none => false)

/-- The slice enters Cocoon or Off: an idle channel goes with it (R164); Off loses the cache. -/
def State.sliceSleep (s : State) (n st : Nat) : State :=
  let k := s.homeKey n
  let s := if st = 3 then s.setCache k { (s.cache k) with tags := [], plru := [] } else s
  (s.wr D.SLICE_POWER n st).chanRest (sliceChannel n)

/-- A slice has been idle for DOZE_IDLE, or for SLEEP_IDLE (R373). Entry to Off goes on at the next expiry while writebacks have to wait. -/
def State.sliceIdle (s : State) (n : Nat) (sleep : Bool) : State :=
  let mode := s.rd D.SLICE_POWER_MODE n
  if !s.has .slice n || s.isHole n || mode = 1 || !s.sliceQuiet n || s.sliceResets n || 2 ≤ s.rd D.SLICE_POWER n then s
  else if !sleep then s.wr D.SLICE_POWER n 1
  else if mode = 2 then s.sliceSleep n 2
  else if mode = 3 && !s.sliceLocked n then
    let s := s.cleanSlice n
    if s.sliceDirty n then s else s.sliceSleep n 3
  else s

/-- SLICE_POWER_MODE's own rules (R78, R373): mode 1 holds the slice in Run. -/
def State.ownSliceMode (s : State) (n : Nat) (w : OdWrite) : State :=
  if odNum w = 3 && s.sliceLocked n then s.odFail St.PIN_HELD
  else
    let s := if odNum w = 1 && s.has .slice n && !s.isHole n then (s.sliceUp n).1 else s
    s.odSet D.SLICE_POWER_MODE n w

/-- SLICE_POWER_MODE (R373). -/
def execSlicePowerMode (n : Fin 1024) (w : OdWrite) (s : State) : Host.Outcome State Fault Refusal :=
  s.odCmd (.slicePowerMode n w) (fun t => t.odWrite D.SLICE_POWER_MODE n w (fun u => u.ownSliceMode n w))

/-! ### Power states of fields -/

/-- Logical slices of a field. -/
def fieldSlices (f : Nat) : List Nat := (List.range 1024).filter (fun n => sliceField n == f)

/-- Every slice of the field is at least as deep as `d`. -/
def State.slicesAt (s : State) (f d : Nat) : Bool := (fieldSlices f).all (fun n => s.isHole n || decide (d ≤ s.rd D.SLICE_POWER n))

/-- The conditions for Cocoon (R373). -/
def State.cocoonOk (s : State) (f : Nat) : Bool :=
  s.slicesAt f 2 && (List.range 64).all (fun i => s.rd D.TE_STATE (64 * f + i) == 0 && s.rd D.ATTACH_STATE (64 * f + i) != 4) &&
    (List.range 8).all (fun k => s.rd D.LINK_STATE (8 * f + k) == 0 || s.rdB D.LINK_TX_IDLE (8 * f + k)) && s.rd D.LAP_STATE 0 == 0

/-- No unit is in the field's routers. -/
def State.routersEmpty (s : State) (f : Nat) : Bool :=
  let here (k : Nat) : Bool := routerField (k / 16) == f
  s.fsq.all (fun e => !here e.1) && s.seamq.all (fun e => !here e.1) && s.flying.all (fun x => routerField x.2.1 != f) &&
    s.landing.all (fun e => routerField (epNode e.1) != f) && s.inj.all (fun e => routerField (epNode e.1) != f)

/-- The state a field's mode allows now: 2 or 3, when its conditions hold (R373). -/
def State.fieldDepth (s : State) (f mode : Nat) : Option Nat :=
  if mode = 2 then (if s.cocoonOk f then some 2 else none)
  else if mode = 3 then (if s.cocoonOk f && s.slicesAt f 3 then some 3 else none)
  else none

/-- A field's idle time has passed. -/
def State.fieldIdle (s : State) (f : Nat) (sleep : Bool) : State :=
  let mode := s.rd D.FIELD_POWER_MODE f
  if !fieldPresent s.variant f || mode = 1 || 2 ≤ s.rd D.FIELD_POWER f || !s.routersEmpty f then s
  else if sleep then (match s.fieldDepth f mode with | some d => s.wr D.FIELD_POWER f d | none => s)
  else if s.slicesAt f 1 && (List.range 64).all (fun i => s.rd D.TE_STATE (64 * f + i) == 0) then s.wr D.FIELD_POWER f 1 else s

/-- FIELD_POWER_MODE's own rules (R371, R373). -/
def State.ownFieldMode (s : State) (f : Nat) (w : OdWrite) : State :=
  if odNum w < 2 then
    let s := if odNum w = 1 then (s.fieldUp f).1 else s
    s.odSet D.FIELD_POWER_MODE f w
  else match s.fieldDepth f (odNum w) with
    | none => s.odFail St.GATE_BUSY
    | some d => ((if s.rd D.FIELD_POWER f < d then s.wr D.FIELD_POWER f d else s).setObj D.FIELD_POWER_MODE f w).odDone

/-- FIELD_POWER_MODE (R373). -/
def execFieldPowerMode (f : Fin 8) (w : OdWrite) (s : State) : Host.Outcome State Fault Refusal :=
  s.odCmd (.fieldPowerMode f w) (fun t => t.odWrite D.FIELD_POWER_MODE f w (fun u => u.ownFieldMode f w))

/-- IDLE_TIMEOUT (R373): `sleep` for SLEEP_IDLE, else DOZE_IDLE. -/
def execIdleTimeout (u : PowerUnit) (sleep : Bool) (s : State) : Host.Outcome State Fault Refusal :=
  match u with
  | .slice n => .next (s.sliceIdle n sleep)
  | .field f => .next (s.fieldIdle f sleep)
  | _ => .next s

/-! ### The chairlift (R374 to R376) -/

/-- The step of a rise in mW (Table 14.7). -/
def State.liftStep (s : State) (u : PowerUnit) : Nat :=
  match u with
  | .slice n => if s.rd D.SLICE_POWER n = 3 then 750 else 400
  | .field f => if s.rd D.FIELD_POWER f = 3 then 10000 else 6000
  | .spare _ => 750
  | .channel _ => 1500
  | .link n => if s.rd D.LINK_STATE n = 0 then 4800 else 3000
  | .glide _ => 250

/-- The next rise: those of launches first, then demand wakes in arrival order, then glides. -/
def State.liftNext (s : State) : Option PowerUnit :=
  match s.liftFirst.find? (fun u => s.lift.contains u) with
  | some u => some u
  | none => (match s.lift.find? (fun u => !isGlide u) with | some u => some u | none => s.lift.head?)

/-- The budget after a time (R374): W/µs are mW/ns. -/
def State.refill (s : State) (ns : Nat) : State :=
  let k := s.rd D.CHAIRLIFT_SLEW 0
  { s with budget := min (s.budget + k * ns) (1000 * k) }

/-- A rise has to wait, and is counted once. -/
def State.liftWait (s : State) (u : PowerUnit) : State :=
  if s.liftWaited.contains u then s else ({ s with liftWaited := s.liftWaited ++ [u] } : State).count D.CHAIRLIFT_WAITS 0 1

/-- POWER_CAPPED, at most once per millisecond (R376). -/
def State.powerCapped (s : State) : State :=
  match s.capEv with
  | some t => if s.gate < t + 1000000 then s else ({ s with capEv := some s.gate } : State).raise Ev.POWER_CAPPED 0 0
  | none => ({ s with capEv := some s.gate } : State).raise Ev.POWER_CAPPED 0 0

/-- A step of a glide is admitted; the estimate of the whole rise, in steps of 0.25 W, is the field controller's: whether it asks for another
step is a free value (Table 14.7). -/
def State.glideStep (s : State) (u : PowerUnit) : State :=
  ({ s with budget := s.budget - s.liftStep u, lift := if s.fresh % 2 = 1 then s.lift else s.lift.filter (fun v => v != u),
            liftWaited := s.liftWaited.filter (fun v => v != u) } : State).drew

/-- The rise is admitted. -/
def State.liftAdmit (s : State) (u : PowerUnit) : State :=
  if isGlide u then s.glideStep u else
  { s with budget := s.budget - s.liftStep u, lift := s.lift.filter (fun v => v != u), liftFirst := s.liftFirst.filter (fun v => v != u),
           liftWaited := s.liftWaited.filter (fun v => v != u), rising := s.rising ++ [u] }

/-- CHAIRLIFT_ADMIT (R374, R376): whether the device's estimated power would pass the limit is a free value. -/
def execChairliftAdmit (elapsedNs : Nat) (s : State) : Host.Outcome State Fault Refusal :=
  let s := s.refill elapsedNs
  match s.liftNext with
  | none => .next s
  | some u =>
    let past := s.fresh % 2 == 1
    let s := s.drew
    if past then .next (s.liftWait u).powerCapped
    else if s.liftStep u ≤ s.budget then .next (s.liftAdmit u)
    else .next (s.liftWait u)

/-- The unit's parent is awake, so that its wake may end (R374). -/
def State.parentUp (s : State) (u : PowerUnit) : Bool :=
  match u with
  | .slice n => decide (s.rd D.FIELD_POWER (sliceField n) < 2)
  | .field _ => true
  | .spare j => decide (s.rd D.FIELD_POWER (j.val / 8) < 2)
  | .channel c => decide (s.rd D.FIELD_POWER (c.val / 128) < 2) && s.rd D.STACK_BAND (c.val / 32) != 3
  | .link n => decide (s.rd D.FIELD_POWER (n.val / 8) < 2)
  | .glide _ => true

/-- The unit is in Run. A field takes the frequency that waited, and its taps are loaded at the next sync word (R208); a link that is OFF enters
DETECT, and one in electrical idle leaves it (R294). -/
def State.unitUp (s : State) (u : PowerUnit) : State :=
  match u with
  | .slice n => s.wr D.SLICE_POWER n 0
  | .field f =>
    let s := s.wr D.FIELD_POWER f 0
    let s := { s with gsv := { s.gsv with stale := if s.gsv.stale.contains f.val then s.gsv.stale else s.gsv.stale ++ [f.val] } }
    (match (s.clk f).atWake with | some mhz => s.clockTo f mhz | none => s)
  | .spare j => { s with adopting := s.adopting.map (fun a => if a.2.1 = j.val then (a.1, a.2.1, true) else a) }
  | .channel c => s.wr D.CHAN_POWER c 0
  | .link n => if s.rd D.LINK_STATE n = 0 then (if s.linkMayRise n then s.linkDetect n else s) else s.linkWake n
  | .glide _ => s

/-- UNIT_WAKE_DONE (R374). -/
def execUnitWakeDone (u : PowerUnit) (s : State) : Host.Outcome State Fault Refusal :=
  if s.rising.contains u && s.parentUp u then .next (({ s with rising := s.rising.filter (fun v => v != u) } : State).unitUp u) else .next s

end Sys2Proof.Machine
end

