-- ==== Sys2Proof/Machine/SiteOps.lean ====
section
/-! DEFINITION. Site rails, their operating points and sequences, and the stored-energy model (R268 to R275, R377, R380). -/

namespace Sys2Proof.Machine

/-- Fields of an operating point (Table 10.8). -/
def opVolt (x k : Nat) : Nat := bits x (16 * k + 15) (16 * k)
def opImax (x k : Nat) : Nat := bits x (16 * k + 143) (16 * k + 128)
def opValid (x : Nat) : Bool := bit x 288

/-- Operating point `k` of site `n`. -/
def State.opp (s : State) (n k : Nat) : Nat := s.rd D.SITE_OPP (16 * n + k)

/-- Rails a site uses. -/
def State.siteRails (s : State) (n : Nat) : List Nat := maskList 8 (s.rd D.SITE_RAILS n)

/-- Sum of voltage × IMAX over the rails, in mW (R268). -/
def opSum (x : Nat) : Nat := (List.range 8).foldl (fun a k => a + opVolt x k * opImax x k) 0

/-- The rails fit their limits (R268), with these limits of rail `r`. -/
def State.opRailsOk (s : State) (n x : Nat) (lo hi : Nat → Nat) : Bool :=
  (List.range 8).all (fun k =>
    if bit (s.rd D.SITE_RAILS n) k then decide (lo (8 * n + k) ≤ opVolt x k ∧ opVolt x k ≤ hi (8 * n + k))
    else opVolt x k == 0 && opImax x k == 0)

/-- The operating point in a transition. -/
def runOpp : SiteRun → Option Nat
  | .raise k _ _ => some k
  | .granted k _ => some k
  | .lower k _ => some k
  | _ => none

/-- A transition of R272 is in progress. -/
def State.inTransition (s : State) (n : Nat) : Bool := (runOpp (s.site n).run).isSome

/-- The site is powered: it is on, or its rails move (log 21). -/
def State.sitePowered (s : State) (n : Nat) : Bool :=
  s.rd D.SITE_POWER n == 1 || s.inTransition n

/-- Operating points in use: the current one and one in transition, while the site is powered (R268). -/
def State.oppsUsed (s : State) (n : Nat) : List Nat :=
  if s.sitePowered n then
    s.rd D.SITE_OPP_CURRENT n :: (match runOpp (s.site n).run with | some k => [k] | none => [])
  else []

/-- Setpoint of a rail: VOLT plus the trim, within RAIL_VMIN and RAIL_VMAX (R269). -/
def State.setpoint (s : State) (n k : Nat) : Int :=
  let j := 8 * n + k
  let v : Int := (((s.site n).volt[k]?).getD 0 : Nat) + toSigned 32 (s.rd D.RAIL_TRIM_FACTORY j) + toSigned 32 (s.rd D.RAIL_TRIM_USER j)
  max (s.rd D.RAIL_VMIN j : Int) (min v (s.rd D.RAIL_VMAX j))

/-! ### Energy (R377) -/

/-- Twice the stored energy in pJ, with these rail masks, maxima and die capacitances. -/
def State.energy2 (s : State) (rails vmax die : Nat → Nat) : Nat :=
  s.rd D.INPUT_CAP_FACTORY 0 * 3600 * 10 ^ 6 + 2 * s.rd D.DEVICE_RAIL_ENERGY 0 * 10 ^ 9 +
    ((List.range 64).filter (fun j => s.has .rail j && bit (rails (j / 8)) (j % 8))).foldl
      (fun a j => a + (s.rd D.RAIL_CAP_FACTORY j + die j) * vmax j * vmax j) 0

/-- The model stays within 24 J. -/
def State.energyOk (s : State) (rails vmax die : Nat → Nat) : Bool := decide (s.energy2 rails vmax die ≤ 48 * 10 ^ 12)

/-- One value of a function is another. -/
def upd (f : Nat → Nat) (i v : Nat) : Nat → Nat := fun j => if j = i then v else f j

def State.energyWith (s : State) (rails vmax die : Option (Nat × Nat)) : Bool :=
  let g (o : Obj) (c : Option (Nat × Nat)) : Nat → Nat := match c with | some (i, v) => upd (s.rd o) i v | none => s.rd o
  s.energyOk (g D.SITE_RAILS rails) (g D.RAIL_VMAX vmax) (g D.RAIL_DIE_CAP die)

/-- A quotient published in whole units; how a fraction is rounded is open (log 3). -/
def State.wholeUnits (s : State) (a b : Nat) : Nat × State := if a % b = 0 then (a / b, s) else (a / b + s.fresh % 2, s.drew)

/-- The energy stored now, in mJ, with the input at `mv` and the rails as measured (R377). -/
def State.energyNow (s : State) (mv : Nat) : Nat × State :=
  s.wholeUnits (s.rd D.INPUT_CAP_FACTORY 0 * mv * mv + 2 * s.rd D.DEVICE_RAIL_ENERGY 0 * 10 ^ 9 +
    ((List.range 64).filter (fun j => s.has .rail j && bit (s.rd D.SITE_RAILS (j / 8)) (j % 8))).foldl
      (fun a j => a + (s.rd D.RAIL_CAP_FACTORY j + s.rd D.RAIL_DIE_CAP j) * s.rd D.RAIL_VOUT j * s.rd D.RAIL_VOUT j) 0) (2 * 10 ^ 9)

/-! ### Sequences (R269, R275, R380) -/

/-- The rails in their rising order: nibbles of SITE_RAIL_ORDER up to 0xF, those in SITE_RAILS, each once. -/
def railOrder : Nat → Nat → List Nat → List Nat
  | 0, _, _ => []
  | fuel + 1, w, ok =>
    let k := w % 16
    if k = 15 then [] else if ok.contains k then k :: railOrder fuel (w / 16) (ok.filter (fun x => x != k)) else railOrder fuel (w / 16) ok

def State.railSeq (s : State) (n : Nat) : List Nat := railOrder 8 (s.rd D.SITE_RAIL_ORDER n) (s.siteRails n)

/-- Set element `k`. -/
def listPut (l : List Nat) (k v : Nat) : List Nat := l.set k v

def State.setRun (s : State) (n : Nat) (r : SiteRun) : State := s.setSite n { (s.site n) with run := r }

/-- Rail `k` takes the voltage and current limit of an operating point. -/
def State.railTo (s : State) (n k x : Nat) : State :=
  let y := s.site n
  s.setSite n { y with volt := listPut y.volt k (opVolt x k), limit := listPut y.limit k (opImax x k) }

/-- Ports of a site. -/
def sitePorts (n : Nat) : List Nat := (List.range 64).map (fun p => 64 * n + p)

/-- Every port that is up goes DOWN with a cause. -/
def State.portsDown (s : State) (n cause : Nat) : State :=
  (sitePorts n).foldl (fun t i => if t.rd D.ATTACH_STATE i = 0 ∨ t.rd D.ATTACH_STATE i = 5 then t else t.portDown i cause) s

/-- The defect map, or a failed field controller, leaves the port OFF (Table 15.9). -/
def State.portBarred (s : State) (i : Nat) : Bool := s.named (ucPort i) 0 || s.boot.dead.contains (i / 64)

/-- The rails have reached OPP 0: SITE_OPP_CURRENT is 0, the sideband is live and the ports leave OFF; counters start at 0 (R257, R270,
R277). -/
def State.siteUp (s : State) (n : Nat) : State :=
  let x := s.site n
  let s := (s.setSite n { x with run := .idle, seq := 0, lastSeq := none, lastAns := 0, unacked := [] }).wr D.SITE_OPP_CURRENT n 0
  let s := ((s.wr D.SITE_DROOP_COUNT n 0).wr D.SITE_LIMIT_COUNT n 0).wr D.SITE_SB_LOST n 0
  (sitePorts n).foldl (fun t i => if t.rd D.ATTACH_STATE i = 0 && !t.portBarred i then (t.portCounters i).portReset i else t) s

/-- The first rail of a list starts to rise to OPP 0; with none the site is up. -/
def State.railsUp (s : State) (n : Nat) : List Nat → State
  | [] => s.siteUp n
  | k :: rest => (s.railTo n k (s.opp n 0)).setRun n (.up k rest)

/-- A site starts to power up (R269, R380). -/
def State.siteStart (s : State) (n : Nat) : State := s.railsUp n (s.railSeq n)

/-- The rails are off: the ports are OFF. A site that has been written on again starts once more. -/
def State.siteOff (s : State) (n : Nat) : State :=
  let s := s.setSite n { (s.site n) with run := .idle, droop := false }
  let s := (sitePorts n).foldl (fun t i => t.wr D.ATTACH_STATE i 0) s
  if s.rd D.SITE_POWER n = 1 then s.siteStart n else s

/-- The first rail of a list starts to fall; with none the site is off. -/
def State.railsDown (s : State) (n last : Nat) : List Nat → State
  | [] => s.siteOff n
  | k :: rest => (s.railTo n k 0).setRun n (.down k rest last)

/-- Rails that are not at 0, in falling order. -/
def State.railsOn (s : State) (n : Nat) : List Nat :=
  (s.railSeq n).reverse.filter (fun k => ((s.site n).volt[k]?).getD 0 != 0)

/-- An orderly off: the ports go DOWN with cause 5, then the rails fall (R380). -/
def State.siteStop (s : State) (n : Nat) : State :=
  let s := s.portsDown n 5
  s.railsDown n 0 (s.railsOn n)

/-- Partitions that the ports of a site are bound to (Table 16.3). -/
def State.sitePartitions (s : State) (n : Nat) : List Nat :=
  (List.range 16).filter (fun p => (sitePorts n).any (fun i => s.rd D.PORT_PARTITION i == p))

/-- Ports of a site that a fault takes DOWN. -/
def State.sitePortsUp (s : State) (n : Nat) : Nat :=
  ((sitePorts n).filter (fun i => s.rd D.ATTACH_STATE i != 0 && s.rd D.ATTACH_STATE i != 5)).length

/-- A site fault (R275): SITE_FAULT unacknowledged, the rails down with no gap, the ports DOWN, the state, the event, and the record of Table 16.3,
whose CAUSE is 0 (a cause of Table 10.12 has no code of R427). -/
def State.siteFault (s : State) (n cause : Nat) : State :=
  let up := s.sitePortsUp n
  let s := if s.sbLive n then
      let x := s.site n
      (s.setSite n { x with seq := (x.seq + 1) % 256 }).emit (.sideband n (sbFrame 0x45 x.seq cause 0))
    else s
  let s := ((s.wr D.SITE_POWER n 2).wr D.SITE_FAULT_CAUSE n cause).portsDown n 5
  let s := s.railsDown n 2 (s.railsOn n)
  (s.raise Ev.SITE_POWER_FAULT 0 (evWords [n, cause])).recordTo (s.sitePartitions n) 0x4A clsContained (ucSite n) 0 0 up

/-! ### Transitions (R272) -/

/-- A transition is over: SITE_OPP_CURRENT, and the off that waited for it (R272, R380). -/
def State.transitionEnd (s : State) (n k : Nat) : State :=
  let s := (s.wr D.SITE_OPP_CURRENT n k).setRun n .idle
  if s.rd D.SITE_POWER n = 0 then s.siteStop n else s

/-- Step 4 has settled: every rail has the limits of OPP k. -/
def State.transitionDone (s : State) (n k : Nat) : State :=
  let x := s.site n
  (s.setSite n { x with limit := (List.range 8).map (fun r => opImax (s.opp n k) r) }).transitionEnd n k

/-- Step 2: VF_GRANT answers the VF_REQ of this SEQ. -/
def State.vfGrant (s : State) (n k seq : Nat) (raised : Bool) : State := (s.setRun n (.granted k raised)).sbAnswer n seq 0x41 k 0

/-- VF_NAK. -/
def State.vfNak (s : State) (n k seq reason : Nat) : State := s.sbAnswer n seq 0x42 k reason

/-- A VF_REQ is accepted (R272): the limits, and step 1. -/
def State.vfStart (s : State) (n k seq : Nat) : State :=
  let j := s.opp n (s.rd D.SITE_OPP_CURRENT n)
  let y := s.opp n k
  let x := s.site n
  let up := (s.siteRails n).filter (fun r => decide (opVolt j r < opVolt y r))
  let s := s.setSite n { x with limit := (List.range 8).map (fun r => max (opImax j r) (opImax y r))
                                volt := up.foldl (fun v r => listPut v r (opVolt y r)) x.volt, lastSeq := some seq, lastAns := 0 }
  if up.isEmpty then s.vfGrant n k seq false else s.setRun n (.raise k seq up)

/-- A VF_DONE that matches (R272 step 4): ACK, and the rails that fall. -/
def State.vfLower (s : State) (n k seq : Nat) : State :=
  let j := s.opp n (s.rd D.SITE_OPP_CURRENT n)
  let y := s.opp n k
  let s := s.sbAnswer n seq 0x7F 0 0
  let x := s.site n
  let dn := (s.siteRails n).filter (fun r => decide (opVolt y r < opVolt j r))
  let s := s.setSite n { x with volt := dn.foldl (fun v r => listPut v r (opVolt y r)) x.volt }
  if dn.isEmpty then s.transitionDone n k else s.setRun n (.lower k dn)

/-- A die frame on a live sideband (R270, R271): a bad CRC is ignored; a repeated SEQ gets the last answer again; `k` is what the frame does. -/
def State.sbTake (s : State) (n : Nat) (frame : BitVec 64) (ty : Nat) (k : State → State) : State :=
  let f := frame.toNat
  if !s.sbLive n || bits f 7 0 != ty || sbCrc (f % 2 ^ 56) != bits f 63 56 then s
  else if (s.site n).lastSeq = some (bits f 15 8) then
    (if (s.site n).lastAns = 0 then s else s.emit (.sideband n (s.site n).lastAns))
  else k s

def sbSeq (f : Nat) : Nat := bits f 15 8
def sbArg (f : Nat) : Nat := bits f 23 16

end Sys2Proof.Machine
end

