-- ==== Sys2Proof/Machine/Sites.lean ====
section
/-! DEFINITION. The commands of site power and the site sideband (R268 to R277, R377, R380). -/

namespace Sys2Proof.Machine

/-- VF_REQ (R272). -/
def execVfReq (n : Fin 8) (frame : BitVec 64) (s : State) : Host.Outcome State Fault Refusal :=
  let f := frame.toNat
  .next (s.sbTake n frame 1 (fun t =>
    let k := sbArg f
    let x := t.opp n k
    if 16 ≤ k || !opValid x then t.vfNak n k (sbSeq f) 1
    else if t.inTransition n then t.vfNak n k (sbSeq f) 2
    else if 1000 * t.rd D.SITE_PMAX n < opSum x then t.vfNak n k (sbSeq f) 3
    else t.vfStart n k (sbSeq f)))

/-- VF_DONE (R272). -/
def execVfDone (n : Fin 8) (frame : BitVec 64) (s : State) : Host.Outcome State Fault Refusal :=
  let f := frame.toNat
  .next (s.sbTake n frame 2 (fun t =>
    match (t.site n).run with
    | .granted k _ => if k = sbArg f then t.vfLower n k (sbSeq f) else t.vfNak n (sbArg f) (sbSeq f) 5
    | _ => t.vfNak n (sbArg f) (sbSeq f) 5))

/-- VF_DONE_TIMEOUT (R272). -/
def execVfDoneTimeout (n : Fin 8) (s : State) : Host.Outcome State Fault Refusal :=
  match (s.site n).run with
  | .granted k raised =>
    .next ((s.transitionEnd n (if raised then k else s.rd D.SITE_OPP_CURRENT n)).raise Ev.SITE_VF_TIMEOUT 0 0)
  | _ => .next s

/-- RAIL_QUERY (R271): the measured voltage and current. -/
def execRailQuery (n : Fin 8) (frame : BitVec 64) (mv deciAmp : BitVec 16) (s : State) : Host.Outcome State Fault Refusal :=
  let f := frame.toNat
  .next (s.sbTake n frame 3 (fun t =>
    let k := sbArg f
    let t := if k < 8 then (t.wr D.RAIL_VOUT (8 * n + k) mv.toNat).wr D.RAIL_IOUT (8 * n + k) deciAmp.toNat else t
    t.sbAnswer n (sbSeq f) 0x43 k (mv.toNat + deciAmp.toNat * 2 ^ 16)))

/-- PORT_QUERY (R271). -/
def execPortQuery (n : Fin 8) (frame : BitVec 64) (s : State) : Host.Outcome State Fault Refusal :=
  let f := frame.toNat
  .next (s.sbTake n frame 4 (fun t => t.sbAnswer n (sbSeq f) 0x46 (sbArg f) (if sbArg f < 2 then t.portMask n (sbArg f) else 0)))

/-- SIDEBAND_ACK (R271): the frame with this SEQ is acknowledged. -/
def execSidebandAck (n : Fin 8) (frame : BitVec 64) (s : State) : Host.Outcome State Fault Refusal :=
  let f := frame.toNat
  if !s.sbLive n || bits f 7 0 != 0x7F || sbCrc (f % 2 ^ 56) != bits f 63 56 then .next s
  else
    let x := s.site n
    .next (s.setSite n { x with unacked := x.unacked.filter (fun u => sbSeq u.1 != sbSeq f) })

/-- SIDEBAND_RESEND (R271): the oldest frame without an ACK is sent again, or counted as lost after 8 resends. -/
def execSidebandResend (n : Fin 8) (s : State) : Host.Outcome State Fault Refusal :=
  let x := s.site n
  match x.unacked with
  | [] => .next s
  | (f, c) :: rest =>
    if !s.sbLive n then .next s
    else if c ≤ 8 then .next ((s.setSite n { x with unacked := (f, c + 1) :: rest }).emit (.sideband n f))
    else .next ((s.setSite n { x with unacked := rest }).count D.SITE_SB_LOST n 1)

/-- RAIL_SETTLED (R269, R272, R380): the next step of a sequence or a transition. -/
def execRailSettled (n : Fin 8) (k : Fin 8) (s : State) : Host.Outcome State Fault Refusal :=
  match (s.site n).run with
  | .up now rest =>
    if now != k.val then .next s
    else if rest.isEmpty then .next (s.siteUp n)
    else if s.rd D.SITE_SEQ_GAP n = 0 then .next (s.railsUp n rest) else .next (s.setRun n (.upGap rest))
  | .down now rest last =>
    if now != k.val then .next s
    else if rest.isEmpty || last != 0 || s.rd D.SITE_SEQ_GAP n = 0 then .next (s.railsDown n last rest)
    else .next (s.setRun n (.downGap rest last))
  | .raise o seq rails =>
    let r := rails.filter (fun x => x != k.val)
    if r.isEmpty then .next (s.vfGrant n o seq true) else .next (s.setRun n (.raise o seq r))
  | .lower o rails =>
    let r := rails.filter (fun x => x != k.val)
    if r.isEmpty then .next (s.transitionDone n o) else .next (s.setRun n (.lower o r))
  | _ => .next s

/-- SITE_SEQ_GAP_EXPIRY (R380). -/
def execSiteSeqGapExpiry (n : Fin 8) (s : State) : Host.Outcome State Fault Refusal :=
  match (s.site n).run with
  | .upGap rest => .next (s.railsUp n rest)
  | .downGap rest last => .next (s.railsDown n last rest)
  | _ => .next s

/-- RAIL_DROOP (R273): the rail is more than RAIL_DROOP_MV below its setpoint. -/
def execRailDroop (n : Fin 8) (k : Fin 8) (mv : BitVec 16) (s : State) : Host.Outcome State Fault Refusal :=
  let j := 8 * n.val + k.val
  if s.sbLive n && bit (s.rd D.SITE_RAILS n) k && decide ((mv.toNat : Int) + s.rd D.RAIL_DROOP_MV j < s.setpoint n k) then
    let s := s.wr D.RAIL_VOUT j mv.toNat
    if (s.site n).droop then .next s
    else .next (((s.setSite n { (s.site n) with droop := true }).count D.SITE_DROOP_COUNT n 1).emit (.sdroop n true))
  else .next s

/-- SDROOP_RELEASE (R273): every rail is within half of RAIL_DROOP_MV of its setpoint. -/
def execSdroopRelease (n : Fin 8) (mvs : List (BitVec 16)) (s : State) : Host.Outcome State Fault Refusal :=
  let v (k : Nat) : Nat := ((mvs[k]?).getD 0).toNat
  if (s.site n).droop && (s.siteRails n).all (fun k =>
      decide (2 * ((v k : Int) - s.setpoint n k).natAbs ≤ s.rd D.RAIL_DROOP_MV (8 * n + k))) then
    let s := (s.siteRails n).foldl (fun t k => t.wr D.RAIL_VOUT (8 * n + k) (v k)) s
    .next ((s.setSite n { (s.site n) with droop := false }).emit (.sdroop n false))
  else .next s

/-- CURRENT_LIMIT_HOLD (R274). -/
def execCurrentLimitHold (n : Fin 8) (k : Fin 8) (us : BitVec 32) (s : State) : Host.Outcome State Fault Refusal :=
  if s.sitePowered n && bit (s.rd D.SITE_RAILS n) k then .next ((s.count D.SITE_LIMIT_COUNT n 1).sbSend n 0x44 k us.toNat) else .next s

/-- SITE_FAULT (R275, Table 10.12): the lowest of the conditions that hold. -/
def execSiteFault (n : Fin 8) (conditions : BitVec 4) (s : State) : Host.Outcome State Fault Refusal :=
  match maskList 4 conditions.toNat with
  | [] => .next s
  | c :: _ => if s.sitePowered n then .next (s.siteFault n (c + 1)) else .next s

/-- SITE_POWER's own rules (R269, R380). -/
def State.ownSitePower (s : State) (n : Nat) (w : OdWrite) : State :=
  let old := s.rd D.SITE_POWER n
  if odNum w = 1 then
    if !opValid (s.opp n 0) then s.odFail St.SITE_OPP_BAD
    else if old = 1 then s.odSet D.SITE_POWER n w
    else
      let s := s.setObj D.SITE_POWER n w
      (match (s.site n).run with
       | .idle => s.siteStart n
       | _ => s).odDone
  else
    let s := s.setObj D.SITE_POWER n w
    if old != 1 then s.odDone
    else (if s.inTransition n then s
          else match (s.site n).run with
            | .down _ _ _ => s
            | .downGap _ _ => s
            | _ => s.siteStop n).odDone

/-- SITE_POWER (R269). -/
def execSitePower (n : Fin 8) (w : OdWrite) (s : State) : Host.Outcome State Fault Refusal :=
  s.odCmd (.sitePower n w) (fun t => t.odWrite D.SITE_POWER n w (fun u => u.ownSitePower n w))

/-- SITE_OPP's own rules (R268). -/
def State.ownSiteOpp (s : State) (j : Nat) (w : OdWrite) : State :=
  let n := j / 16
  let x := odNum w
  if bits x 319 289 != 0 then s.odFail St.OD_VALUE
  else if (List.range 8).any (fun k => decide (1200 < opImax x k)) then s.odFail St.OD_RANGE
  else if !s.opRailsOk n x (s.rd D.RAIL_VMIN) (s.rd D.RAIL_VMAX) || decide (1000 * s.rd D.SITE_PMAX n < opSum x) then
    s.odFail St.SITE_OPP_BAD
  else if (s.oppsUsed n).contains (j % 16) then s.odFail St.SITE_OPP_BUSY
  else s.odSet D.SITE_OPP j w

/-- SITE_OPP (R268). -/
def execSiteOpp (j : Fin 128) (w : OdWrite) (s : State) : Host.Outcome State Fault Refusal :=
  s.odCmd (.siteOpp j w) (fun t => t.odWrite D.SITE_OPP j w (fun u => u.ownSiteOpp j w))

/-- SITE_PMAX's own rules (R268). -/
def State.ownSitePmax (s : State) (n : Nat) (w : OdWrite) : State :=
  if (s.oppsUsed n).any (fun k => decide (1000 * odNum w < opSum (s.opp n k))) then s.odFail St.SITE_OPP_BUSY
  else s.odSet D.SITE_PMAX n w

/-- SITE_PMAX (R268). -/
def execSitePmax (n : Fin 8) (w : OdWrite) (s : State) : Host.Outcome State Fault Refusal :=
  s.odCmd (.sitePmax n w) (fun t => t.odWrite D.SITE_PMAX n w (fun u => u.ownSitePmax n w))

/-- SITE_RAILS's own rules (R377). -/
def State.ownSiteRails (s : State) (n : Nat) (w : OdWrite) : State :=
  if s.energyWith (some (n, odNum w)) none none then s.odSet D.SITE_RAILS n w else s.odFail St.ENERGY_LIMIT

/-- SITE_RAILS (R377). -/
def execSiteRails (n : Fin 8) (w : OdWrite) (s : State) : Host.Outcome State Fault Refusal :=
  s.odCmd (.siteRails n w) (fun t => t.odWrite D.SITE_RAILS n w (fun u => u.ownSiteRails n w))

/-- A limit lies within RAIL_VABS (Table 10.11). -/
def State.absOk (s : State) (j v : Nat) : Bool :=
  let a := s.rd D.RAIL_VABS j
  decide (bits a 15 0 ≤ v ∧ v ≤ bits a 31 16)

/-- The operating points in use stay valid with new limits of a rail (R277). -/
def State.oppsFit (s : State) (n : Nat) (lo hi : Nat → Nat) : Bool := (s.oppsUsed n).all (fun k => s.opRailsOk n (s.opp n k) lo hi)

/-- RAIL_VMIN's own rules (R277). -/
def State.ownRailVmin (s : State) (j : Nat) (w : OdWrite) : State :=
  if !s.absOk j (odNum w) then s.odFail St.OD_RANGE
  else if !s.oppsFit (j / 8) (upd (s.rd D.RAIL_VMIN) j (odNum w)) (s.rd D.RAIL_VMAX) then s.odFail St.SITE_OPP_BUSY
  else s.odSet D.RAIL_VMIN j w

/-- RAIL_VMIN (R277). -/
def execRailVmin (j : Fin 64) (w : OdWrite) (s : State) : Host.Outcome State Fault Refusal :=
  s.odCmd (.railVmin j w) (fun t => t.odWrite D.RAIL_VMIN j w (fun u => u.ownRailVmin j w))

/-- RAIL_VMAX's own rules (R277, R377). -/
def State.ownRailVmax (s : State) (j : Nat) (w : OdWrite) : State :=
  if !s.absOk j (odNum w) then s.odFail St.OD_RANGE
  else if !s.oppsFit (j / 8) (s.rd D.RAIL_VMIN) (upd (s.rd D.RAIL_VMAX) j (odNum w)) then s.odFail St.SITE_OPP_BUSY
  else if !s.energyWith none (some (j, odNum w)) none then s.odFail St.ENERGY_LIMIT
  else s.odSet D.RAIL_VMAX j w

/-- RAIL_VMAX (R377). -/
def execRailVmax (j : Fin 64) (w : OdWrite) (s : State) : Host.Outcome State Fault Refusal :=
  s.odCmd (.railVmax j w) (fun t => t.odWrite D.RAIL_VMAX j w (fun u => u.ownRailVmax j w))

/-- RAIL_DIE_CAP's own rules (R377). -/
def State.ownRailDieCap (s : State) (j : Nat) (w : OdWrite) : State :=
  if s.energyWith none none (some (j, odNum w)) then s.odSet D.RAIL_DIE_CAP j w else s.odFail St.ENERGY_LIMIT

/-- RAIL_DIE_CAP (R377). -/
def execRailDieCap (j : Fin 64) (w : OdWrite) (s : State) : Host.Outcome State Fault Refusal :=
  s.odCmd (.railDieCap j w) (fun t => t.odWrite D.RAIL_DIE_CAP j w (fun u => u.ownRailDieCap j w))

end Sys2Proof.Machine
end

