-- ==== Sys2Proof/Machine/Store.lean ====
section
/-! DEFINITION. The two-copy object store: commits, STORE_DEFAULTS, the seal and the load of stage 3 (R338 to R344). -/

namespace Sys2Proof.Machine

/-- Highest generation of the valid copies; 0 when neither is valid (R339). -/
def Store.newest (x : Store) : Nat := max (if x.a.valid then x.a.gen else 0) (if x.b.valid then x.b.gen else 0)

def Store.copy (x : Store) (b : Bool) : StoreCopy := if b then x.b else x.a
def Store.setCopy (x : Store) (b : Bool) (c : StoreCopy) : Store := if b then { x with b := c } else { x with a := c }

/-- The header of the commit under way is written (R339 step 3). -/
def Store.written (x : Store) (c : Commit) : Store :=
  { x.setCopy c.copyB { magic := true, valid := true, gen := x.newest + 1, body := c.body } with commit := none }

/-- The commit under way is abandoned after its body has changed the copy: the header no longer matches (R343). -/
def Store.spoiled (x : Store) (c : Commit) : Store := { x.setCopy c.copyB { (x.copy c.copyB) with valid := false } with commit := none }

/-- The next commit starts when one is due (R339): the empty body of STORE_DEFAULTS first, then one that a STORE_COMMIT waits for, then pending
writes when STORE_DELAY is 0. -/
def State.commitNext (s : State) : State :=
  let x := s.mram
  if x.commit.isSome || x.sealed || s.uttexPause then s
  else if x.empty then ({ s with mram := { x with empty := false } } : State).startCommit { objs := [], lens := [] } false
  else if x.again then s.startCommit s.storedBody true
  else if x.dirty && s.rd D.STORE_DELAY 0 == 0 then s.startCommit s.storedBody false
  else s

/-- STORE_STATE when no commit runs. -/
def State.storeIdle (s : State) : State := if s.mram.commit.isSome then s else s.wr D.STORE_STATE 0 (if s.mram.dirty then 1 else 0)

/-- The commit under way has written its header. -/
def State.commitDone (s : State) (c : Commit) : State :=
  let s := { s with mram := s.mram.written c }
  let s := (s.wr D.STORE_GENERATION 0 (s.mram.copy c.copyB).gen).count D.STORE_COMMITS 0 1
  let s := s.storeIdle.commitNext
  if c.waits then s.odAnswer 0 0 0 else s

/-- The commit under way is abandoned after its retry (R343). -/
def State.commitFailed (s : State) (c : Commit) : State :=
  let s := { s with mram := s.mram.spoiled c }
  let s := ((s.wr D.STORE_STATE 0 3).raise Ev.STORE_FAULT 0 0).commitNext
  if c.waits then s.odAnswer St.STORE_FAULT 0 0 else s

/-- COMMIT_DONE (R339, R343): a commit that is still in its body or header has not ended; nor does one while the controller is paused
(Table 15.7). -/
def execCommitDone (o : CommitOutcome) (s : State) : Host.Outcome State Fault Refusal :=
  match (if s.uttexPause then none else s.mram.commit) with
  | none => .next s
  | some c => match o with
    | .done => .next (s.commitDone c)
    | .retriedOnce => .next (s.commitDone c)
    | .failedTwice => .next (s.commitFailed c)
    | .inBody => .next s
    | .inHeader => .next s

/-- STORE_DELAY_EXPIRY (R339). -/
def execStoreDelayExpiry (s : State) : Host.Outcome State Fault Refusal :=
  if s.mram.dirty && s.mram.commit.isNone && !s.mram.sealed && !s.uttexPause then .next (s.startCommit s.storedBody false) else .next s

/-- STORE_COMMIT's own rules (R339): the write waits for the end of a commit that starts after it. -/
def State.ownStoreCommit (s : State) : State :=
  let s := s.odHold
  if s.mram.commit.isSome || s.mram.empty then { s with mram := { s.mram with again := true } } else s.startCommit s.storedBody true

/-- STORE_COMMIT (R339). -/
def execStoreCommit (w : OdWrite) (s : State) : Host.Outcome State Fault Refusal :=
  s.odCmd (.storeCommit w) (fun t => t.odWrite D.STORE_COMMIT 0 w (fun u => u.ownStoreCommit))

/-- STORE_DEFAULTS' own rules (R344): an empty body is committed at once; later commits write what has changed since. -/
def State.ownStoreDefaults (s : State) : State :=
  let b : Body := { objs := s.objs.filter (fun e => storedKeys.contains e.1), lens := s.lens.filter (fun e => storedKeys.contains e.1) }
  (({ s with mram := { s.mram with empty := true, base := some b, since := [], dirty := false } } : State).commitNext).odDone

/-- STORE_DEFAULTS (R344). -/
def execStoreDefaults (w : OdWrite) (s : State) : Host.Outcome State Fault Refusal :=
  s.odCmd (.storeDefaults w) (fun t => t.odWrite D.STORE_DEFAULTS 0 w (fun u => u.ownStoreDefaults))

/-! ### Seal and load (R341, R342) -/

/-- The store is sealed: a commit whose header write has begun completes, another is abandoned; whether an abandoned body leaves its copy invalid
or with its older generation is a free value (R342). -/
def State.seal (s : State) (inHeader : Bool) : State :=
  match s.mram.commit with
  | none => { s with mram := { s.mram with sealed := true } }
  | some c =>
    if inHeader then { s with mram := { s.mram.written c with sealed := true } }
    else
      let x := if s.fresh % 2 = 0 then s.mram.spoiled c else { s.mram with commit := none }
      { s.drew with mram := { x with sealed := true } }

/-- The store as the next start finds it. -/
def Store.reopened (x : Store) : Store := { Store.init with a := x.a, b := x.b }

/-- The copy stage 3 loads: the valid one of the higher generation, A on a tie (R341); false is A. -/
def Store.bootCopy (x : Store) : Option Bool :=
  match x.a.valid, x.b.valid with
  | true, true => some (decide (x.a.gen < x.b.gen))
  | true, false => some false
  | false, true => some true
  | false, false => none

/-- The working copy and the values in force are loaded from a copy of the store (R341). -/
def State.takeCopy (s : State) (b : Bool) : State :=
  let c := s.mram.copy b
  let s := { s with objs := c.body.objs.foldl (fun t (e : Nat × List (Nat × Nat)) => Table.set [] e.1 e.2 t) s.objs,
                    lens := c.body.lens.foldl (fun t (e : Nat × List (Nat × Nat)) => Table.set [] e.1 e.2 t) s.lens,
                    force := c.body.objs.foldl (fun t (e : Nat × List (Nat × Nat)) => Table.set [] e.1 e.2 t) s.force }
  (s.wr D.STORE_BOOT_COPY 0 (if b then 2 else 1)).wr D.STORE_GENERATION 0 c.gen

/-- Stage 3 loads the store (R341): the values come into force, STORE_BOOT_COPY and STORE_GENERATION are set; the flag says that the store is
lost. -/
def State.loadStore (s : State) : State × Bool :=
  match s.mram.bootCopy with
  | some b => (s.takeCopy b, false)
  | none =>
    if s.mram.a.magic || s.mram.b.magic then (s.raise Ev.STORE_LOST 0 0, true) else (s, false)

end Sys2Proof.Machine
end

