-- ==== Sys2Proof/Machine/StartOps.lean ====
section
/-! DEFINITION. Resets of the device, the persistent log, and the stages of start-up (R386 to R414, R428 to R431). -/

namespace Sys2Proof.Machine

/-! ### Units (Table 15.4) -/

/-- Field of a unit; none for the device and what has no field. -/
def unitField (u : Nat) : Option Nat :=
  let n := u % 4096
  match u / 4096 with
  | 1 => some n
  | 2 => some (if n < 1024 then sliceField n else (n - 1024) / 8)
  | 3 => some (n / 4)
  | 4 => some (n / 128)
  | 5 => some (routerField n)
  | 6 => some (n / 8)
  | 7 => some (n / 64)
  | 8 => some (n / 64)
  | 9 => some (n / 64)
  | 10 => some n
  | 11 => some n
  | _ => none

/-- Units of each kind. -/
def kindCount (k : Nat) : Nat := ([1, 8, 1088, 32, 1024, 1024, 64, 512, 512, 512, 8, 8, 1, 2, 3][k]?).getD 0

/-- The unit a code names is present (R2, R411). -/
def State.unitHere (s : State) (u : Nat) : Bool :=
  decide (u % 4096 < kindCount (u / 4096)) &&
    (match unitField u with
     | some f => fieldPresent s.variant f && (if u / 4096 = 6 then s.has .link (u % 4096) else if u / 4096 = 7 then s.has .lane (u % 4096) else true)
     | none => true)

/-! ### The persistent fault log (R428 to R431) -/

/-- Entries of the log ring. -/
def logSize : Nat := 57344

/-- Newest LOG_SEQ held; 0 when the log is empty. -/
def State.logNewest (s : State) : Nat := ((s.flog.getLast?).map (fun e => e.1)).getD 0

/-- LOG_SEQ of the oldest entry held. -/
def State.logOldest (s : State) : Nat := ((s.flog.head?).map (fun e => e.1)).getD 0

/-- FAULT_LOG_SEQ and FAULT_LOG_OLDEST. -/
def State.logView (s : State) : State := (s.wr D.FAULT_LOG_SEQ 0 s.logNewest).wr D.FAULT_LOG_OLDEST 0 s.logOldest

/-- An entry is written after the newest; it overwrites the entry of its slot (R429). -/
def State.logWrite (s : State) (e : LogEnt) : State :=
  let k := s.logNewest + 1
  ({ s with flog := Table.filter (fun j _ => decide (k < j + logSize)) s.flog ++ [(k, some { e with boot := s.rd D.BOOT_COUNT 0 })],
            boot := { s.boot with torn := 0 } } : State).logView

/-- The write of an entry is torn by a power loss: its slot is lost (R431). -/
def State.logTear (s : State) : State :=
  let k := s.logNewest + 1
  { s with flog := Table.filter (fun j _ => decide (k < j + logSize)) s.flog, boot := { s.boot with torn := 1 } }

/-- LAST_LOSS_RESULT (R382, R430): 1 when the newest POWER_LOSS entry is followed by a LOSS_DONE entry, 2 when it is not, 0 with none. -/
def State.lossResult (s : State) : Nat :=
  let k := s.flog.foldl (fun a e => match e.2 with | some x => if x.kind = 2 then some (e.1) else a | none => a) none
  match k with
  | none => 0
  | some j => if s.flog.any (fun e => decide (j < e.1) && (match e.2 with | some x => x.kind == 3 | none => false)) then 1 else 2

/-! ### Device and link-hold resets (R405 to R409) -/

/-- Objects a device reset keeps: those outside the object store (R340), the state of the boot NOR (R393) and the strap (R361). -/
def keptKeys : List Nat := outsideStore ++ [D.FW_BANK_STATE, D.FW_BANK_SVN, D.XSD_STRAP].map objKey

/-- What the units kept by a link-hold reset show: links, optical engines, REF and gate time (Table 15.10). -/
def heldKeys : List Nat :=
  [D.LINK_STATE, D.LINK_DOWN_CAUSE, D.LINK_TRAINED_WIDTH, D.LINK_LANE_MASK, D.LINK_TRAIN_MODE_LAST, D.LINK_PARTNER_DEVICE, D.LINK_PARTNER_LINK,
   D.LINK_PARTNER_SERIAL, D.LINK_TX_IDLE, D.LINK_SCHED_LEAD, D.LINK_BEACON_SEEN, D.LINK_FLR_PROJ, D.LANE_FOM, D.LANE_BER, D.LANE_TX_COEF,
   D.LASER_IN_POWER, D.GATE_SYNC_STATE, D.GATE_UPSTREAM_LINK, D.GATE_HOPS, D.PTP_STATE, D.PTP_OFFSET, D.LINK_TIME_OFFSET, D.LINK_TIME_DELAY,
   D.XTAL_CHECK_COUNT, D.XTAL_ATTEMPTS, D.AO_CLOCK_SOURCE, D.INPUT_VOLTAGE].map objKey

/-- Values in force that change at a device reset only (R24, R209, R406). -/
def heldForce : List Nat := [D.DEVICE_NUMBER, D.SPINE_COMP_USER].map objKey

/-- The store is sealed as a reset begins, unless it is already; whether a commit was in its header is open (R342). -/
def State.sealNow (s : State) : State := if s.mram.sealed then s else s.drew.seal (s.fresh % 2 == 0)

/-- A bank that is being written is left invalid (R393). -/
def State.bankStop (s : State) : State :=
  (List.range 2).foldl (fun t b => if t.rd D.FW_BANK_STATE b = 3 then t.wr D.FW_BANK_STATE b 2 else t) s

/-- The tables without the keys that are not kept. -/
def keepOf (keys : List Nat) (l : List (Nat × List (Nat × Nat))) : List (Nat × List (Nat × Nat)) := l.filter (fun e => keys.contains e.1)

/-- A device reset (Table 15.10): everything but the stored objects, the defect map, the NOR and the log is lost, and stage 0 begins. -/
def State.restart (s : State) (cause : Nat) : State :=
  let s := s.sealNow.bankStop
  ({ State.reset with
      variant := s.variant, pending := s.pending, out := s.out, freeCtr := s.freeCtr, objs := keepOf keptKeys s.objs,
      lens := keepOf keptKeys s.lens, flog := s.flog, mram := s.mram.reopened,
      boot := { Boot.init with nor := s.boot.nor, pin := s.boot.pin, down := s.boot.down, wdtLog := s.boot.wdtLog, migs := s.boot.migs,
                               torn := s.boot.torn } } : State).wr D.LAST_RESET_CAUSE 0 cause

/-- A request of a link is answered with DEVICE_RESETTING, on its link (R409). -/
def State.resettingTo (s : State) (n hdr : Nat) : State :=
  s.sendLink n { step := 5, hdr := linkRspHeader hdr St.DEVICE_RESETTING 0, ext := 0, payload := 0, cls := 0, deadline := none }

/-- What the links and gate time keep over the reset that made `t` of `s` (R406, R409). -/
def State.keepLinks (t s : State) : State :=
  let put (l k : List (Nat × List (Nat × Nat))) : List (Nat × List (Nat × Nat)) :=
    l.foldl (fun a (e : Nat × List (Nat × Nat)) => Table.set [] e.1 e.2 a) k
  { t with
    objs := put (keepOf heldKeys s.objs) t.objs, force := keepOf heldForce s.force, gate := s.gate, gateRun := s.gateRun, gsv := s.gsv,
    lnks := s.lnks, linkQ := s.linkQ,
    quarantine := s.quarantine ++ (s.linkTab.filterMap (fun e => e.2.map (fun _ => e.1))) ++
      ((s.forwards.filter (fun f => decide (f.key < 2 ^ 18))).map (fun f => f.key)),
    boot := { t.boot with hold := true } }

/-! ### Reports (R387, R388) -/

/-- Table 15.2 without the first failure. -/
def reportWord (g : Nat) (nfail skipped halted : Bool) (attempt cause unit count ao boots gate detail : Nat) : Nat :=
  g + nfail.toNat * 2 ^ 4 + halted.toNat * 2 ^ 5 + skipped.toNat * 2 ^ 6 + (min attempt 255) * 2 ^ 8 + cause * 2 ^ 16 + unit * 2 ^ 32 +
    (min count 0xFFFF) * 2 ^ 48 + ao * 2 ^ 64 + boots * 2 ^ 96 + gate * 2 ^ 128 + (detail % 2 ^ 1792) * 2 ^ 256

/-- A report is posted: its object, BOOT_STATUS, the failures the stage kept, and the event (R325, R387). -/
def State.post (s : State) (g r : Nat) : State :=
  let s := { s.wr D.STARTUP_REPORT g r with boot := { s.boot with last := some g } }
  let s := if g < 3 then (s.boot.fails.filter (fun x => x.1 == g)).foldl (fun t x =>
      t.raise Ev.STARTUP_UNIT_FAIL 0 (g + x.2.2 * 2 ^ 16 + x.2.1 * 2 ^ 32)) s else s
  s.raise Ev.STARTUP_REPORT 0 r

/-- The stage that runs ends with its report: a halting or other cause of its own, or the cause of its first failure. Reports of stages 0 to 2 are
kept (R387). -/
def State.stageReport (s : State) (ao cause detail : Nat) (halted skipped : Bool) : State :=
  let g := s.rd D.BOOT_STAGE 0
  let fl := s.boot.fails.filter (fun x => x.1 == g)
  let first := (fl.head?).getD (0, 0, 0)
  let runs := Table.get 0 g s.boot.runs + 1
  let attempt := if skipped then 0 else if g = 1 then s.boot.xtalFails + 1 else runs
  let r := reportWord g (!fl.isEmpty) skipped halted attempt (if cause = 0 then first.2.2 else cause) first.2.1 fl.length ao
    (s.rd D.BOOT_COUNT 0) (if g < 2 then 0 else s.gate) detail
  let s := { s with boot := { s.boot with runs := Table.set 0 g runs s.boot.runs } }
  if g < 3 then { s with boot := { s.boot with kept := s.boot.kept ++ [(g, r)] } } else s.post g r

/-- Start-up halts in its stage (R388). -/
def State.halt (s : State) (ao cause detail : Nat) : State := (s.stageReport ao cause detail true false).wr D.BOOT_HALTED 0 1

/-! ### Stage 3 -/

/-- Manifest data of a bank that has not been programmed. -/
def blankImage : BankImage := { svn := 0, version := 0, manifestDigest := 0, digests := [], handover := [], handoverMin := [] }

def State.bankImage (s : State) (b : Nat) : BankImage := Table.get blankImage b s.boot.nor

/-- Image digest of a kind in a bank. -/
def imageDigest (i : BankImage) (k : Nat) : Nat := (i.digests[k]?).getD 0

/-- MEASUREMENT is extended with kind, count and digest (R413). -/
def State.extend (s : State) (k n d : Nat) : State :=
  s.wr D.MEASUREMENT 0 (shake256 131 (s.rd D.MEASUREMENT 0 + k * 2 ^ 512 + (n % 2 ^ 16) * 2 ^ 520 + (d % 2 ^ 512) * 2 ^ 536) % 2 ^ 512)

/-- Stage 3 begins (Table 15.1): the kept reports are posted, the store is loaded, the log is scanned, BOOT_NONCE is drawn, the identity key is
derived and, unless the stage runs again in this reset, BOOT_COUNT is incremented (R341, R353, R391, R412, R430, R431). -/
def State.stage3 (s : State) (again : Bool) : State :=
  let s := s.wr D.BOOT_STAGE 0 3
  let s := s.boot.kept.foldl (fun t e => t.post e.1 e.2) s
  let s := { s with boot := { s.boot with kept := [] } }
  let x := s.loadStore
  let held := keepOf heldForce s.force
  let s := x.1
  let s := if s.boot.hold then { s with force := held.foldl (fun a (e : Nat × List (Nat × Nat)) => Table.set [] e.1 e.2 a) s.force } else s
  let s := { s with boot := { s.boot with lost := s.boot.lost || x.2 } }
  let s := (s.logView.wr D.FAULT_LOG_TORN 0 s.boot.torn).wr D.LAST_LOSS_RESULT 0 s.lossResult
  let s := if s.boot.wdtLog then ({ s with boot := { s.boot with wdtLog := false } } : State).raise Ev.UTTEX_WATCHDOG 0 0 else s
  let s := (s.drew.wr D.BOOT_NONCE 0 s.fresh).wr D.DEVICE_ID_PUBKEY 0 (ed448Public Config.identityKey)
  let s := if again then s else s.wr D.BOOT_COUNT 0 ((s.rd D.BOOT_COUNT 0 + 1) % 2 ^ 32)
  (presentFields s.variant).foldl (fun t f =>
    (t.setClk f { Clk.init with target := t.rd D.FIELD_FREQ_BOOT f }).fieldRuns f (t.rd D.FIELD_FREQ_BOOT f)) s

/-- Every unit of a field whose controller has failed is failed for the boot (Table 15.9). -/
def State.fieldDead (s : State) (f : Nat) : State :=
  let s := { s with boot := { s.boot with dead := s.boot.dead ++ [f] } }
  let s := (fieldSlices f).foldl (fun t n => t.setCache n { Slice.init with failed := true }) s
  let s := (List.range 8).foldl (fun t j => t.wr D.SPARE_STATE (8 * f + j) 2) s
  (List.range 64).foldl (fun t e => t.wr D.TE_STATE (64 * f + e) 3) s

/-- A physical slice is not used in this boot. -/
def State.sliceOut (s : State) (k : Nat) : State :=
  if k < 1024 then s.setCache k { Slice.init with failed := true } else s.wr D.SPARE_STATE (k - 1024) 2

/-- The entries of the map that stage 3 acts on (Table 15.9): field controllers, slices and engines. -/
def State.mapOut (s : State) : State :=
  s.defects.foldl (fun t e =>
    let u := bits e 15 0
    let n := u % 4096
    if bits e 19 16 != 0 || !t.unitHere u || !t.named u 0 then t
    else if u / 4096 = 10 then (if t.boot.dead.contains n then t else t.fieldDead n)
    else if u / 4096 = 2 then t.sliceOut n
    else if u / 4096 = 9 then t.wr D.TE_STATE n 3
    else t) s

/-- The added entries, with BOOT_COUNT and FW_MIN_SVN, are lost (R397). -/
def State.mapLost (s : State) : State :=
  let n := s.rd D.DEFECT_FACTORY_COUNT 0
  let s := (List.range (s.rd D.DEFECT_ADDED_COUNT 0)).foldl (fun t i => t.wr D.DEFECT_ENTRY (n + i) 0) s
  (((s.wr D.DEFECT_ADDED_COUNT 0 0).wr D.BOOT_COUNT 0 1).wr D.FW_MIN_SVN 0 0).raise Ev.DEFECT_STORE_LOST 0 0

/-- The boot ROM accepts bank `b` (R390, R392). -/
def State.bankPasses (s : State) (o : StageOutcome) (b : Nat) : Bool :=
  (o.bankOk[b]?).getD false && decide (s.rd D.FW_MIN_SVN 0 ≤ (s.bankImage b).svn.toNat)

/-- The bank stage 3 boots, and whether it is the other bank: BOOT_BANK's, or once the other (R390, R391). -/
def State.bankChoice (s : State) (o : StageOutcome) : Option (Nat × Bool) :=
  if s.boot.fallback then (if s.bankPasses o s.boot.bank then some (s.boot.bank, true) else none)
  else
    let b := s.rd D.BOOT_BANK 0
    if s.bankPasses o b then some (b, false) else if s.bankPasses o (1 - b) then some (1 - b, true) else none

/-- The bank is accepted: RUNNING_BANK, the version, and MEASUREMENT with the manifest and the Uttex image (R390, R413). -/
def State.bankTake (s : State) (b : Nat) (fb : Bool) : State :=
  let i := s.bankImage b
  let s := { s with boot := { s.boot with bank := b, fallback := fb } }
  let s := (s.wr D.RUNNING_BANK 0 b).wr D.UTTEX_FW_VERSION 0 i.version.toNat
  (s.extend 0xF0 1 i.manifestDigest).extend 0 1 (imageDigest i 0)

/-- Detail of stage 3 (Table 15.3). -/
def State.detail3 (s : State) (lost : Bool) : Nat :=
  s.boot.bank + s.boot.fallback.toNat * 2 + s.rd D.STORE_BOOT_COPY 0 * 2 ^ 8 + (s.bankImage s.boot.bank).svn.toNat * 2 ^ 16 +
    s.rd D.UTTEX_FW_VERSION 0 * 2 ^ 48 + s.rd D.DEFECT_FACTORY_COUNT 0 * 2 ^ 80 + s.rd D.DEFECT_ADDED_COUNT 0 * 2 ^ 96 + lost.toNat * 2 ^ 112

/-! ### Stages 4 and 5 -/

/-- Units that failed a test or could not fetch their image in this stage, of kinds that `kinds` lists; a unit the map names is not tested. -/
def State.failsOf (s : State) (o : StageOutcome) (kinds : List Nat) : List (Nat × Nat) :=
  o.fails.filter (fun x => kinds.contains (x.1 / 4096) && s.unitHere x.1 && !s.named x.1 0)

/-- They are entered in the map and reported (R388, R391, R398). -/
def State.takeFails (s : State) (l : List (Nat × Nat)) : State :=
  l.foldl (fun t x => (t.addDefect x.1 0 1 x.2).noteFail x.1 (x.2 % 2 ^ 16)) s

/-- Failed units of other kinds are reported. -/
def State.otherFails (s : State) (o : StageOutcome) (kinds : List Nat) : State :=
  (o.fails.filter (fun x => !kinds.contains (x.1 / 4096) && s.unitHere x.1)).foldl (fun t x => t.noteFail x.1 (x.2 % 2 ^ 16)) s

/-- An image is bad (R391): the stage ends with FW_IMAGE_BAD, and start-up goes back to stage 3 on the other bank, once; then it halts. -/
def State.imageBad (s : State) (ao : Nat) : State :=
  if s.boot.fallback then s.halt ao Ca.FW_IMAGE_BAD 0
  else
    let s := s.stageReport ao Ca.FW_IMAGE_BAD 0 false false
    ({ s with boot := { s.boot with bank := 1 - s.boot.bank, fallback := true } } : State).stage3 true

/-- Boot slices of a field that are failed, ascending. -/
def State.outSlices (s : State) (f : Nat) : List Nat := (fieldSlices f).filter (fun n => (s.cache n).failed)

/-- Spares are assigned (R400): nearest free, working spare, ties to the lower number; else a hole. -/
def State.placeField (s : State) (f : Nat) : State :=
  (s.outSlices f).foldl (fun t n =>
    match t.nearestSpare n with
    | some j => (t.wr D.SLICE_HOME n (homeOfSpare j)).wr D.SPARE_STATE j 1
    | none => t.wr D.SLICE_HOME n homeOfHole) s

/-- The placement is made anew. -/
def State.place (s : State) : State :=
  let s := (List.range 64).foldl (fun t j => if t.rd D.SPARE_STATE j = 1 then t.wr D.SPARE_STATE j 0 else t) (s.clearObj D.SLICE_HOME)
  (presentFields s.variant).foldl (fun t f => t.placeField f) s

/-- Physical slices of a field that work. -/
def State.workingSlices (s : State) (f : Nat) : Nat :=
  ((fieldSlices f).filter (fun n => !(s.cache n).failed)).length + ((List.range 8).filter (fun j => s.rd D.SPARE_STATE (8 * f + j) != 2)).length

/-- Fields whose controller works. -/
def State.liveFields (s : State) : List Nat := (presentFields s.variant).filter (fun f => !s.boot.dead.contains f)

/-- Units that loaded the image of a kind (R413). -/
def State.loadedUnits (s : State) (k : Nat) : Nat :=
  if k = 0 then 1
  else if k = 1 then s.liveFields.length
  else if k = 2 then s.liveFields.foldl (fun a f => a + s.workingSlices f) 0
  else ((List.range 64).filter (fun n => s.has .link n && !s.linkBarred n)).length

/-- Detail of stage 5 (Table 15.3). -/
def State.detail5 (s : State) : Nat :=
  (presentFields s.variant).foldl (fun a f =>
    let spOut := ((List.range 8).filter (fun j => s.rd D.SPARE_STATE (8 * f + j) == 2)).length
    let out := (s.outSlices f).length + spOut
    let used := ((List.range 8).filter (fun j => s.rd D.SPARE_STATE (8 * f + j) == 1)).length
    let holes := ((fieldSlices f).filter (fun n => s.isHole n)).length
    let added := (s.defects.filter (fun e => bits e 21 20 == 1 && bits e 63 32 == s.rd D.BOOT_COUNT 0 && unitField (bits e 15 0) == some f)).length
    a + (min out 255 + min used 255 * 2 ^ 8 + min holes 255 * 2 ^ 16 + min added 255 * 2 ^ 24) * 2 ^ (32 * f)) 0

/-! ### Stages 6 to 10 -/

/-- Stage 6 begins: channels the map names, alone or with their stack, are retired or FAILED (R163), and retired channels are Off. -/
def State.stage6 (s : State) : State :=
  let s := s.wr D.BOOT_STAGE 0 6
  let out (t : State) (c : Nat) : Bool := t.has .chan c && (t.named (ucChannel c) 0 || t.named (ucStack (c / 32)) 0)
  let s := if s.defects.isEmpty then s else (List.range 1024).foldl (fun t c => if out t c then t.chanOut c else t) s
  (Table.get [] (objKey D.CHAN_BACKING) s.objs).foldl (fun t e => if e.2 = 2 then t.wr D.CHAN_POWER e.1 3 else t) s

/-- Migrations that a reset broke off start again at unit 0 (R406). -/
def State.migAgain (s : State) : State :=
  (Table.get [] (objKey D.CHAN_BACKING) s.objs).foldl (fun t e =>
    if e.2 = 1 then (t.setChan e.1 { (t.chan e.1) with mig := some (Table.get 0 e.1 t.boot.migs), dead := false }).wr D.MIG_PROGRESS e.1 0 else t) s

/-- Detail of stage 6 (Table 15.3). -/
def State.detail6 (s : State) : Nat :=
  (List.range 32).foldl (fun a m =>
    let v := if !s.has .stack m then 16
      else s.rd D.TRAIN_MODE_LAST m % 4 + Table.get 0 m s.boot.bands * 4 +
        (s.boot.fails.any (fun x => x.2.1 == ucStack m && x.2.2 == Ca.STACK_UNSUPPORTED)).toNat * 32
    a + v * 2 ^ (8 * m)) 0

/-- Stage 7's tests (R203, R204): routers the map names, then those that fail, are failed; the routing tables go round them. -/
def State.meshTest (s : State) (l : List (Nat × Nat)) : State :=
  let s := s.defects.foldl (fun t e =>
    if bits e 15 12 == 5 && bits e 19 16 == 0 && t.named (bits e 15 0) 0 then t.failRouterAs (bits e 11 0) (bits e 21 20) (e / 2 ^ 64) else t) s
  let s := l.foldl (fun t x => (t.failRouterAs (x.1 % 4096) 1 x.2).noteFail x.1 (x.2 % 2 ^ 16)) s
  if s.failedRouters.isEmpty then s
  else
    let s := State.settleRoutes 1024 s
    s.wr D.MESH_DETOUR_MAX 0 s.detourMax

/-- Detail of stage 7 (Table 15.3). -/
def State.detail7 (s : State) : Nat :=
  s.failedRouters.length + s.rd D.MESH_DETOUR_MAX 0 * 2 ^ 16 + (s.topoDigest % 2 ^ 512) * 2 ^ 64

/-- Stage 8 begins: bring-up of every present link whose LINK_POWER is not 2 (R292). -/
def State.stage8 (s : State) : State :=
  (List.range 64).foldl (fun t n =>
    if t.rd D.LINK_STATE n == 0 && t.linkMayRise n then t.linkRise n else t) (s.wr D.BOOT_STAGE 0 8)

/-- Detail of stage 8, and of the survey that replaces it (Table 15.3, R409). -/
def State.detail8 (s : State) : Nat :=
  (List.range 64).foldl (fun a n =>
    let st := s.rd D.LINK_STATE n
    let v := if !s.has .link n then 2 ^ 14
      else st + s.rd D.LINK_TRAINED_WIDTH n * 2 ^ 3 + s.rd D.LINK_TRAIN_MODE_LAST n * 2 ^ 7 +
        (if st = 1 then 1 else s.rd D.LINK_DOWN_CAUSE n) * 2 ^ 10
    a + v * 2 ^ (16 * n)) 0

/-- Stage 9 begins: the host port trains its link (R310). -/
def State.stage9 (s : State) : State := ((s.wr D.BOOT_STAGE 0 9).wr D.HOST_LINK_STATE 0 1).enforce D.HOST_MAX_RATE 0

/-- Stage 10's work (Table 15.1). -/
def State.stage10 (s : State) : State :=
  let s := s.refreshGroups.refreshLinks
  let s := if s.rd D.GATE_SOURCE 0 = 0 then s.setSync 1 else s
  (presentFields s.variant).foldl (fun t n =>
    if t.rd D.SITE_POWER n = 1 && !t.boot.dead.contains n then t.siteStart n
    else if t.rd D.SITE_POWER n = 2 then t.wr D.SITE_POWER n 0 else t) s

/-- Detail of stage 10 (Table 15.3). -/
def State.detail10 (s : State) (ms : Nat) : Nat :=
  let homes := (Table.get [] (objKey D.SLICE_HOME) s.objs)
  (homes.filter (fun e => bit e.2 16)).length + (homes.filter (fun e => bit e.2 17)).length * 2 ^ 16 +
    ((Table.get [] (objKey D.CHAN_BACKING) s.objs).filter (fun e => 2 ≤ e.2)).length * 2 ^ 32 +
    ((List.range 64).filter (fun n => s.rd D.LINK_STATE n == 3)).length * 2 ^ 48 + s.rd D.GATE_SYNC_STATE 0 * 2 ^ 56 + ms * 2 ^ 64

/-- A link-hold reset (R409): requests of the links are answered, everything else restarts at stage 3; stages 0 to 2 are reported as skipped. -/
def State.linkHold (s : State) (cause : Nat) : State :=
  let s := s.reqList.foldl (fun t x => match x.2.origin with | .link n h => (t.freeChunks x.2).resettingTo n h | _ => t) s
  let t := (s.restart cause).keepLinks s
  let t := [0, 1, 2].foldl (fun u g => (u.wr D.BOOT_STAGE 0 g).stageReport 0 0 0 false true) t
  t.stage3 false

end Sys2Proof.Machine
end

