-- ==== Sys2Proof/Machine/FaultCmds.lean ====
section
/-! DEFINITION. The loss of a field controller, the overflow flags of a fault queue, and the persistent fault log (R419, R422, R429 to R431). -/

namespace Sys2Proof.Machine

/-- Data recipients of a field: enabled partitions with a window that covers part of a channel of it (R419). -/
def State.fieldDataRecipients (s : State) (f : Nat) : List Nat :=
  (List.range 16).filter (fun p => (fieldSlices f).any (fun n => (s.chanRecipients n).contains p))

/-- FIELD_CTRL_FAIL (R419): FATAL for unit recipients, CONTAINED for the other data recipients of the field. -/
def execFieldCtrlFail (f : Fin 8) (s : State) : Host.Outcome State Fault Refusal :=
  if !fieldPresent s.variant f then .next s
  else
    let u := s.unitRecipients f
    let d := (s.fieldDataRecipients f).filter (fun p => !u.contains p)
    .next ((s.recordTo u 0x48 clsFatal (ucFieldCtrl f) 0 0 0).recordTo d 0x48 clsContained (ucFieldCtrl f) 0 0 0)

/-- FAULT_OVERFLOW_CLEAR's own rules (Table 16.8). -/
def State.ownOverflowClear (s : State) (p : Nat) : State :=
  ((List.range 256).foldl (fun t k => t.wr D.FAULT_TYPE_OVERFLOW (256 * p + k) 0) (s.wr D.FAULT_OVERFLOW p 0)).odDone

/-- FAULT_OVERFLOW_CLEAR (R422). -/
def execFaultOverflowClear (p : Fin 16) (w : OdWrite) (s : State) : Host.Outcome State Fault Refusal :=
  s.odCmd (.faultOverflowClear p w) (fun t => t.odWrite D.FAULT_OVERFLOW_CLEAR p w (fun u => u.ownOverflowClear p))

/-- FAULT_LOG_WRITE (R430): the oldest waiting entry is written. -/
def execFaultLogWrite (s : State) : Host.Outcome State Fault Refusal :=
  match s.flogWait with
  | [] => .next s
  | e :: r => .next (({ s with flogWait := r } : State).logWrite e)

/-- The 64 bytes of log entry `k` (Table 16.7). -/
def logBytes (k : Nat) (e : LogEnt) : Nat :=
  let b := k + e.boot * 2 ^ 64 + e.kind * 2 ^ 96 + e.mask * 2 ^ 112 + (e.body % 2 ^ 256) * 2 ^ 128
  b + (shake256 56 b % 2 ^ 64) * 2 ^ 448

/-- FAULT_LOG_SELECT's own rules (R431): an entry that is not held reads as zeros. -/
def State.ownLogSelect (s : State) (w : OdWrite) : State :=
  let k := odNum w
  let v := match Table.get none k s.flog with | some e => logBytes k e | none => 0
  (s.wr D.FAULT_LOG_ENTRY 0 v).odSet D.FAULT_LOG_SELECT 0 w

/-- FAULT_LOG_SELECT (R431). -/
def execFaultLogSelect (w : OdWrite) (s : State) : Host.Outcome State Fault Refusal :=
  s.odCmd (.faultLogSelect w) (fun t => t.odWrite D.FAULT_LOG_SELECT 0 w (fun u => u.ownLogSelect w))

end Sys2Proof.Machine
end

