-- ==== Sys2Proof/Machine/Partitions.lean ====
section
/-! DEFINITION. The commands of windows, partitions and re-binding (chapter 02). -/

namespace Sys2Proof.Machine

/-- WIN_INSTALL of an entry, from whatever interface: R35 first, then its place in the partition's order (R42). -/
def State.winInstall (s : State) (p g w e fid : Nat) (r : Reply) : State :=
  match s.weStatus e with
  | 0 => s.wcmd p (.install g w e fid) r
  | st => s.reply r st

/-- A write of WINDOW_ENTRY acts as WIN_INSTALL with FAULT_ID 0 (Table 2.10). -/
def State.ownWindow (s : State) (inst : Nat) (w : OdWrite) : State :=
  s.odHold.winInstall (inst / 256) (inst / 64 % 4) (inst % 64) (odNum w) 0 .od

/-- WIN_INSTALL (R42, Table 2.8). -/
def execWinInstall (src : CmdSrc) (s : State) : Host.Outcome State Fault Refusal :=
  match src with
  | .host f slot h payload =>
    let hn := h.toNat
    .next (s.hostCmd f slot hn payload 0x20 (fun t =>
      t.winInstall (hcPart f hn) (hcGroup hn) (hcIndex hn) (payload % 2 ^ 128) (hcArg hn) (.hostCmd f slot)))
  | .object inst w => s.odCmd (.winInstall src) (fun t => t.odWrite D.WINDOW_ENTRY inst w (fun u => u.ownWindow inst w))
  | .attach i m => .next (s.attachTake i m 0x20 (fun t => t))
  | .descriptor _ => .next s

/-- WIN_WITHDRAW (R42, R45): clears VALID. Through the object it is a write of an entry with VALID = 0. -/
def execWinWithdraw (src : CmdSrc) (s : State) : Host.Outcome State Fault Refusal :=
  match src with
  | .host f slot h payload =>
    let hn := h.toNat
    .next (s.hostCmd f slot hn payload 0x21 (fun t =>
      t.wcmd (hcPart f hn) (.withdraw (hcGroup hn) (hcIndex hn)) (.hostCmd f slot)))
  | .object inst w => s.odCmd (.winWithdraw src) (fun t => t.odWrite D.WINDOW_ENTRY inst w (fun u => u.ownWindow inst w))
  | .attach i m => .next (s.attachTake i m 0x21 (fun t => t))
  | .descriptor _ => .next s

/-- FAULT_DENY (R42): no object carries it. -/
def execFaultDeny (src : CmdSrc) (s : State) : Host.Outcome State Fault Refusal :=
  match src with
  | .host f slot h payload =>
    let hn := h.toNat
    .next (s.hostCmd f slot hn payload 0x22 (fun t => t.wcmd (hcPart f hn) (.deny (hcArg hn)) (.hostCmd f slot)))
  | .object _ _ => s.odCmd (.faultDeny src) (fun t => t.odFail St.OD_NO_OBJECT)
  | .attach i m => .next (s.attachTake i m 0x22 (fun t => t))
  | .descriptor _ => .next s

/-- FAULT_STALL_EXPIRY (R40): a type 0x24 record is written and the parked request completes with WINDOW_FAULT. -/
def execFaultStallExpiry (rid : Nat) (s : State) : Host.Outcome State Fault Refusal :=
  match s.req? rid with
  | some r => if isParked r then .next ((s.failRecord r 0x24).faultParked rid) else .next s
  | none => .next s

/-- WITHDRAWAL_ACK (R45): acts when the drained epoch has no request in flight. -/
def execWithdrawalAck (p : Fin 16) (s : State) : Host.Outcome State Fault Refusal :=
  match (s.part p).drain with
  | some (_, _, e) => if s.inFlightCount p e = 0 then .next (s.ackDrain p) else .next s
  | none => .next s

/-- DRAIN_LIMIT_EXPIRY (R45, R46): the requests left are revoked and the withdrawal is acknowledged. -/
def execDrainLimitExpiry (p : Fin 16) (s : State) : Host.Outcome State Fault Refusal :=
  match (s.part p).drain with
  | some (_, _, e) => .next ((s.revoke p (s.inFlightList p e)).ackDrain p)
  | none => .next s

/-- PART_ENABLE's own rules (R32). -/
def State.ownPartEnable (s : State) (p : Nat) (w : OdWrite) : State :=
  if odNum w = 1 then (s.wr D.PART_ENABLE p 1).odDone else s.odHold.wcmd p .disable .od

/-- PART_ENABLE (R32). -/
def execPartEnable (p : Fin 16) (w : OdWrite) (s : State) : Host.Outcome State Fault Refusal :=
  s.odCmd (.partEnable p w) (fun t => t.odWrite D.PART_ENABLE p w (fun u => u.ownPartEnable p w))

/-- A domain names only present fields (R33). -/
def domainPresent (v : Variant) (d : Nat) : Bool :=
  if d = 0 then true else if d = 1 then fieldPresent v 0 else if d = 2 then fieldPresent v 4 else fieldPresent v (d - 8)

/-- PART_DOMAIN's own rules (R33). -/
def State.ownPartDomain (s : State) (p : Nat) (w : OdWrite) : State :=
  if !domainPresent s.variant (odNum w) then s.odFail St.UNIT_ABSENT
  else if s.rdB D.PART_ENABLE p then s.odFail St.PART_BUSY
  else s.odSet D.PART_DOMAIN p w

/-- PART_DOMAIN (R33). -/
def execPartDomain (p : Fin 16) (w : OdWrite) (s : State) : Host.Outcome State Fault Refusal :=
  s.odCmd (.partDomain p w) (fun t => t.odWrite D.PART_DOMAIN p w (fun u => u.ownPartDomain p w))

/-! ### Re-binding -/

/-- Group, source and binding object of a resource (Table 2.3). -/
def resGroup : Resource → Nat
  | .port _ => 0
  | .te _ => 1
  | .pf => 3

def resSource : Resource → Nat
  | .port i => i.val
  | .te t => t.val
  | .pf => 0

def resObj : Resource → Obj
  | .port _ => D.PORT_PARTITION
  | .te _ => D.TE_PARTITION
  | .pf => D.PF_DATA_PARTITION

/-- A request of a resource under a partition. -/
def ofResource (x : Resource) (p : Nat) (r : Req) : Bool := r.group == resGroup x && r.source == resSource x && r.part == p

/-- Requests of a resource in flight under its old partition (Table 2.9 step 3). -/
def State.resInFlight (s : State) (x : Resource) (p : Nat) : List (Nat × Req) :=
  s.reqList.filter (fun y => ofResource x p y.2 && inFlight p y.2.epoch y.2 && s.unaccepted y.2)

/-- A write of a binding object (R48, R50): with a new value, steps 1 and 2 of Table 2.9. -/
def State.ownRebind (s : State) (x : Resource) (w : OdWrite) : State :=
  let old := s.rd (resObj x) (resSource x)
  if s.rebinds.any (fun b => b.res == x) then s.odFail St.PART_BUSY
  else if odNum w = old then s.odSet (resObj x) (resSource x) w
  else
    let b : Rebind := { res := x, old := old, new := odNum w, drained := false }
    let s : State := { s.odHold with rebinds := s.rebinds ++ [b] }
    s.faultAll old (ofResource x old)

/-- PORT_PARTITION (R48). -/
def execPortPartition (i : Fin 512) (w : OdWrite) (s : State) : Host.Outcome State Fault Refusal :=
  s.odCmd (.portPartition i w) (fun t => t.odWrite D.PORT_PARTITION i w (fun u => u.ownRebind (.port i) w))

/-- TE_PARTITION (R48). -/
def execTePartition (t : Fin 512) (w : OdWrite) (s : State) : Host.Outcome State Fault Refusal :=
  s.odCmd (.tePartition t w) (fun u => u.odWrite D.TE_PARTITION t w (fun v => v.ownRebind (.te t) w))

/-- PF_DATA_PARTITION (R48). -/
def execPfDataPartition (w : OdWrite) (s : State) : Host.Outcome State Fault Refusal :=
  s.odCmd (.pfDataPartition w) (fun t => t.odWrite D.PF_DATA_PARTITION 0 w (fun u => u.ownRebind .pf w))

/-- REBIND_DRAIN_EXPIRY (Table 2.9 step 3): what is left is revoked under the old partition. -/
def execRebindDrainExpiry (x : Resource) (s : State) : Host.Outcome State Fault Refusal :=
  match s.rebinds.find? (fun b => b.res == x) with
  | none => .next s
  | some b =>
    let s := s.revoke b.old (s.resInFlight x b.old)
    .next { s with rebinds := s.rebinds.map (fun c => if c.res == x then { c with drained := true } else c) }

/-- Requests held at a resource are stamped with its new partition. -/
def State.restamp (s : State) (x : Resource) (old new : Nat) : State :=
  s.reqList.foldl (fun t y =>
    if ofResource x old y.2 && y.2.stage == .held then t.setReq y.1 { y.2 with part := new } else t) s

/-- REBIND_STAMP_SWITCH (Table 2.9 steps 4 and 5, R135): acts once the drain is over; rings of the old partition stop first, and the write completes. -/
def execRebindStampSwitch (x : Resource) (s : State) : Host.Outcome State Fault Refusal :=
  match s.rebinds.find? (fun b => b.res == x) with
  | none => .next s
  | some b =>
    if !b.drained && !(s.resInFlight x b.old).isEmpty then .next s
    else
      let s := match x with
        | .te t => s.ringStopAll (fun c => rcEngine c == t.val && rcPart c == b.old) St.RING_DENIED
        | _ => s
      let s := { s with rebinds := s.rebinds.filter (fun c => c.res != x) }
      .next (((s.wr (resObj x) (resSource x) b.new).storeTouch.restamp x b.old b.new).odDone)

/-- LINK_PART_MASK's own rules (R49): bits are set at once; every bit cleared is a withdrawal of its partition. -/
def State.ownLinkMask (s : State) (n : Nat) (w : OdWrite) : State :=
  let old := s.rd D.LINK_PART_MASK n
  let gone := maskList 16 (old &&& (0xFFFF ^^^ odNum w))
  if gone.isEmpty then s.odSet D.LINK_PART_MASK n w
  else
    let s := (s.odHold.wr D.LINK_PART_MASK n (old ||| odNum w)).storeTouch
    gone.foldl (fun t p => t.wcmd p (.linkMask n) .od) s

/-- LINK_PART_MASK (R49). -/
def execLinkPartMask (n : Fin 64) (w : OdWrite) (s : State) : Host.Outcome State Fault Refusal :=
  s.odCmd (.linkPartMask n w) (fun t => t.odWrite D.LINK_PART_MASK n w (fun u => u.ownLinkMask n w))

end Sys2Proof.Machine
end

