-- ==== Sys2Proof/Machine/Regulation.lean ====
section
/-! DEFINITION. The commands of regulation: guarantees, masks, efficiencies, miss-register credits and the estimators (R237 to R250). -/

namespace Sys2Proof.Machine

/-- R237: against the state `t` with the write applied, some group's sum rises above its capacity. -/
def memExceeds (s t : State) : Bool :=
  (List.range 32).any (fun m => s.has .stack m && decide (s.memSum m < t.memSum m ∧ t.groupCapacity m < t.memSum m))

/-- The same for links. -/
def linkExceeds (s t : State) : Bool :=
  (List.range 64).any (fun n => s.has .link n && decide (s.linkSum n < t.linkSum n ∧ t.linkCapacity n < t.linkSum n))

/-- A write under R237: applied and published at every point, or refused. -/
def State.ownAdmit (s : State) (o : Obj) (i : Nat) (w : OdWrite) : State :=
  let t := s.wr o i (odNum w)
  if memExceeds s t || linkExceeds s t then s.odFail St.GUARANTEE_EXCEEDED
  else (((s.setObj o i w).refreshGroups).refreshLinks).odDone

/-- MEM_GROUP_MASK and LINK_MASK: a bit of an absent unit is refused (R237). -/
def State.ownMask (s : State) (o : Obj) (i : Nat) (w : OdWrite) (present : Nat) : State :=
  if odNum w &&& present = odNum w then s.ownAdmit o i w else s.odFail St.UNIT_ABSENT

/-- MEM_GUARANTEE (R237). -/
def execMemGuarantee (c : Fin 64) (w : OdWrite) (s : State) : Host.Outcome State Fault Refusal :=
  s.odCmd (.memGuarantee c w) (fun t => t.odWrite D.MEM_GUARANTEE c w (fun u => u.ownAdmit D.MEM_GUARANTEE c w))

/-- MEM_GROUP_MASK (R237). -/
def execMemGroupMask (c : Fin 64) (w : OdWrite) (s : State) : Host.Outcome State Fault Refusal :=
  s.odCmd (.memGroupMask c w) (fun t => t.odWrite D.MEM_GROUP_MASK c w (fun u =>
    u.ownMask D.MEM_GROUP_MASK c w (presentStackMask u.variant)))

/-- LINK_GUARANTEE (R237). -/
def execLinkGuarantee (c : Fin 64) (w : OdWrite) (s : State) : Host.Outcome State Fault Refusal :=
  s.odCmd (.linkGuarantee c w) (fun t => t.odWrite D.LINK_GUARANTEE c w (fun u => u.ownAdmit D.LINK_GUARANTEE c w))

/-- LINK_MASK (R237). -/
def execLinkMask (c : Fin 64) (w : OdWrite) (s : State) : Host.Outcome State Fault Refusal :=
  s.odCmd (.linkMask c w) (fun t => t.odWrite D.LINK_MASK c w (fun u => u.ownMask D.LINK_MASK c w (presentLinkMask u.variant)))

/-- MEM_EFFICIENCY (R234, R237): it changes no sum, so it is accepted. -/
def execMemEfficiency (w : OdWrite) (s : State) : Host.Outcome State Fault Refusal :=
  s.odCmd (.memEfficiency w) (fun t => t.odWrite D.MEM_EFFICIENCY 0 w (fun u => u.ownAdmit D.MEM_EFFICIENCY 0 w))

/-- LINK_EFFICIENCY (R234, R237). -/
def execLinkEfficiency (w : OdWrite) (s : State) : Host.Outcome State Fault Refusal :=
  s.odCmd (.linkEfficiency w) (fun t => t.odWrite D.LINK_EFFICIENCY 0 w (fun u => u.ownAdmit D.LINK_EFFICIENCY 0 w))

/-- Sum of CLASS_MISS_MIN over all classes. -/
def State.missMinSum (s : State) : Nat := (List.range 64).foldl (fun a c => a + s.rd D.CLASS_MISS_MIN c) 0

/-- CLASS_MISS_MIN's own rules (R250). -/
def State.ownMissMin (s : State) (c : Nat) (w : OdWrite) : State :=
  if 96 < (s.wr D.CLASS_MISS_MIN c (odNum w)).missMinSum ∨ s.rd D.CLASS_MISS_MAX c < odNum w then s.odFail St.CREDIT_EXCEEDED
  else s.odSet D.CLASS_MISS_MIN c w

/-- CLASS_MISS_MAX's own rules (R250). -/
def State.ownMissMax (s : State) (c : Nat) (w : OdWrite) : State :=
  if odNum w < s.rd D.CLASS_MISS_MIN c then s.odFail St.CREDIT_EXCEEDED else s.odSet D.CLASS_MISS_MAX c w

/-- CLASS_MISS_MIN (R250). -/
def execClassMissMin (c : Fin 64) (w : OdWrite) (s : State) : Host.Outcome State Fault Refusal :=
  s.odCmd (.classMissMin c w) (fun t => t.odWrite D.CLASS_MISS_MIN c w (fun u => u.ownMissMin c w))

/-- CLASS_MISS_MAX (R250). -/
def execClassMissMax (c : Fin 64) (w : OdWrite) (s : State) : Host.Outcome State Fault Refusal :=
  s.odCmd (.classMissMax c w) (fun t => t.odWrite D.CLASS_MISS_MAX c w (fun u => u.ownMissMax c w))

/-- What is left of an average after 1 µs with a time constant of 16 µs, e^(−1/16), in units of 10^(−18) (R242). -/
def estDecay : Nat := 939413062813475786

/-- The weighted average of an estimate and the bytes of the last microsecond, which are MB/s, in units of 10^(−18) (R242). -/
def estSum (e b : Nat) : Nat := e * estDecay + b * (10 ^ 18 - estDecay)

/-- The next value of estimator `k`: the average, rounded down or up as a free value says when it is no whole number (R242, log 3). -/
def State.estStep (s : State) (k e b : Nat) : Nat :=
  estSum e b / 10 ^ 18 + (if estSum e b % 10 ^ 18 = 0 then 0 else (Config.freeValue (s.freeCtr + k)).toNat % 2)

/-- BW_ESTIMATE_UPDATE (R242): every estimator takes the bytes served in the last microsecond. -/
def execBwEstimateUpdate (s : State) : Host.Outcome State Fault Refusal :=
  let t := (List.range 2048).foldl (fun u i => u.wr D.MEM_BW_EST i (s.estStep i (u.rd D.MEM_BW_EST i) (Table.get 0 i s.served))) s
  let t := (List.range 4096).foldl (fun u i =>
    u.wr D.LINK_BW_EST i (s.estStep (2048 + i) (u.rd D.LINK_BW_EST i) (Table.get 0 (2048 + i) s.served))) t
  .next { t with served := [], freeCtr := s.freeCtr + 6144 }

end Sys2Proof.Machine
end

