-- ==== Sys2Proof/Machine/Firmware.lean ====
section
/-! DEFINITION. Firmware banks, moult, and attestation (R390 to R396, R412 to R414). -/

namespace Sys2Proof.Machine

/-! ### Units and their images -/

/-- Units of a kind in a field that run firmware, as unit codes; the Uttex controller is the device's (kind 0 of Table 15.4). -/
def State.fwUnits (s : State) (k f : Nat) : List Nat :=
  if k = 1 then [ucFieldCtrl f]
  else if k = 2 then
    ((fieldSlices f).filter (fun n => !(s.cache n).failed)).map ucSlice ++
      ((List.range 8).filter (fun j => s.rd D.SPARE_STATE (8 * f + j) != 2)).map (fun j => ucSlice (1024 + 8 * f + j))
  else ((List.range 8).filter (fun j => s.has .link (8 * f + j) && !s.linkBarred (8 * f + j))).map (fun j => ucLink (8 * f + j))

/-- Every unit that runs firmware of kind `k`. -/
def State.fwAll (s : State) (k : Nat) : List Nat :=
  if k = 0 then [0] else s.liveFields.flatMap (fun f => s.fwUnits k f)

/-- Bank a unit runs from. -/
def State.bankOf (s : State) (u : Nat) : Nat := if s.boot.moved.contains u then 1 - s.boot.bank else s.boot.bank

/-- Kind of the firmware of a unit. -/
def fwKind (u : Nat) : Nat := match u / 4096 with | 10 => 1 | 2 => 2 | 6 => 3 | _ => 0

/-- A unit's image comes from bank `b`, or the moult reads it (R393). -/
def State.bankInUse (s : State) (b : Nat) : Bool :=
  (match s.boot.moult with | some m => m.bank == b | none => false) ||
    (if s.boot.bank = b then !([0, 1, 2, 3].all (fun k => (s.fwAll k).all (fun u => s.boot.moved.contains u))) else !s.boot.moved.isEmpty)

/-- RUNNING_BANK (R396). -/
def State.runningBank (s : State) : State :=
  s.wr D.RUNNING_BANK 0
    (if s.boot.moved.isEmpty then s.boot.bank
     else if [0, 1, 2, 3].all (fun k => (s.fwAll k).all (fun u => s.boot.moved.contains u)) then 1 - s.boot.bank else 2)

/-! ### Banks (R390, R392, R393) -/

/-- FW_BANK's own rules (R393): the write completes when it is accepted, and the bank is being written. -/
def State.ownFwBank (s : State) (b : Nat) (w : OdWrite) : State :=
  if s.bankInUse b then s.odFail St.FW_BANK_ACTIVE
  else (((s.wr D.FW_BANK b (odNum w)).wrLen D.FW_BANK b w.val.len).wr D.FW_BANK_STATE b 3).odDone

/-- FW_BANK_PROGRAMMED (R393). -/
def execFwBankProgrammed (b : Fin 2) (valid : Bool) (img : BankImage) (s : State) : Host.Outcome State Fault Refusal :=
  if s.rd D.FW_BANK_STATE b.val = 3 then
    let s := { s with boot := { s.boot with nor := Table.set blankImage b.val img s.boot.nor } }
    .next ((s.wr D.FW_BANK_STATE b (if valid then 1 else 2)).wr D.FW_BANK_SVN b img.svn.toNat)
  else .next s

/-- FW_MIN_SVN's own rules (R392); it is kept outside the object store (R397). -/
def State.ownMinSvn (s : State) (w : OdWrite) : State :=
  if odNum w < s.rd D.FW_MIN_SVN 0 then s.odFail St.OD_RANGE else (s.wr D.FW_MIN_SVN 0 (odNum w)).odDone

/-- FW_MIN_SVN (R392). -/
def execFwMinSvn (w : OdWrite) (s : State) : Host.Outcome State Fault Refusal :=
  s.odCmd (.fwMinSvn w) (fun t => t.odWrite D.FW_MIN_SVN 0 w (fun u => u.ownMinSvn w))

/-! ### Moult (R394 to R396) -/

/-- Fields of a moult command (Table 15.6). -/
def mcKind (c : Nat) : Nat := bits c 3 0
def mcBank (c : Nat) : Nat := bits c 4 4
def mcFields (c : Nat) : List Nat := maskList 8 (bits c 15 8)

/-- A reset, a slice retirement or a channel migration involves a field (R394, R405). -/
def State.fieldBusy (s : State) (f : Nat) : Bool :=
  s.boot.resets.any (fun x => match x with | .slice n => sliceField n == f | .field g _ => g == f) ||
    s.retiring.any (fun r => sliceField r.1 == f) || s.migrating (fun c => c / 128 == f) || s.migInto f

/-- The oldest handover version that a bank's image of kind `k` accepts, and the version a bank's image writes. -/
def State.handMin (s : State) (b k : Nat) : Nat := ((s.bankImage b).handoverMin[k]?).getD 0
def State.handover (s : State) (b k : Nat) : Nat := ((s.bankImage b).handover[k]?).getD 0

/-- Units a command names, by group (Table 15.7). -/
def State.moultGroups (s : State) (c : Nat) : List (List Nat) :=
  if mcKind c = 0 then [[0]] else (mcFields c).map (fun f => s.fwUnits (mcKind c) f)

/-- The checks of R394 in order. -/
def State.moultStatus (s : State) (c : Nat) : Nat :=
  let k := mcKind c
  let b := mcBank c
  if 3 < k || bits c 7 5 != 0 || c / 2 ^ 16 != 0 || (k == 0 && !(mcFields c).isEmpty) then St.OD_VALUE
  else if (mcFields c).any (fun f => !fieldPresent s.variant f) then St.UNIT_ABSENT
  else if s.boot.moult.isSome || (mcFields c).any s.fieldBusy then St.MOULT_BUSY
  else if s.rd D.FW_BANK_STATE b != 1 then St.FW_BANK_BAD
  else if (s.bankImage b).svn.toNat < s.rd D.FW_MIN_SVN 0 then St.FW_SVN_LOW
  else if (s.moultGroups c).flatten.any (fun u => decide (s.handover (s.bankOf u) k < s.handMin b k)) then St.MOULT_INCOMPATIBLE
  else 0

/-- The moult is over: MOULT_STATE, MEASUREMENT, and MOULT_DONE after the last group (R395, R413). -/
def State.moultEnd (s : State) (m : Moult) (st : Nat) : State :=
  let s := ({ s with boot := { s.boot with moult := none } } : State).wr D.MOULT_STATE 0 st
  let s := (s.extend m.kind m.done (imageDigest (s.bankImage m.bank) m.kind)).runningBank
  if st = 2 then s.raise Ev.MOULT_DONE 0 0 else s

/-- The moult goes on to its next unit, past groups that are done; it stops after a group in which an old image has resumed (R395). -/
def State.moultNext : Nat → State → Moult → State
  | 0, s, m => s.moultEnd m 2
  | fuel + 1, s, m =>
    match m.groups with
    | [] => s.moultEnd m (if m.reverted then 3 else 2)
    | [] :: rest => if m.reverted then s.moultEnd m 3 else State.moultNext fuel s { m with groups := rest }
    | _ => { s with boot := { s.boot with moult := some m } }

/-- MOULT_COMMAND's own rules (R394). -/
def State.ownMoult (s : State) (w : OdWrite) : State :=
  let c := odNum w
  let st := s.moultStatus c
  let s := s.wr D.MOULT_STATUS 0 st
  if st != 0 then s.odFail st
  else
    let m : Moult := { kind := mcKind c, bank := mcBank c, groups := s.moultGroups c, cur := none, done := 0, reverted := false }
    (((s.wr D.MOULT_STATE 0 1).wr D.MOULT_UNITS_DONE 0 0).odDone).moultNext (m.groups.length + 1) m

/-- MOULT_COMMAND (R394). -/
def execMoultCommand (w : OdWrite) (s : State) : Host.Outcome State Fault Refusal :=
  s.odCmd (.moultCommand w) (fun t => t.odWrite D.MOULT_COMMAND 0 w (fun u => u.ownMoult w))

/-- MOULT_UNIT_SWITCH (R395): the next unit of the group starts the new image. -/
def execMoultUnitSwitch (s : State) : Host.Outcome State Fault Refusal :=
  match s.boot.moult with
  | some m =>
    (match m.cur, m.groups with
     | none, (u :: _) :: _ => .next { s with boot := { s.boot with moult := some { m with cur := some u } } }
     | _, _ => .next s)
  | none => .next s

/-- The groups without a unit. -/
def dropUnit (u : Nat) (l : List (List Nat)) : List (List Nat) := l.map (fun g => g.filter (fun v => v != u))

/-- The unit in hand is done with: it leaves its group, and the moult goes on. -/
def State.moultStep (s : State) (m : Moult) (u : Nat) : State :=
  s.moultNext (m.groups.length + 1) { m with cur := none, groups := dropUnit u m.groups }

/-- A unit runs an image of bank `b`. -/
def State.runFrom (s : State) (u b : Nat) : State :=
  let rest := s.boot.moved.filter (fun v => v != u)
  { s with boot := { s.boot with moved := if b = s.boot.bank then rest else rest ++ [u] } }

/-- MOULT_READY (R395): the unit has switched. -/
def execMoultReady (s : State) : Host.Outcome State Fault Refusal :=
  match s.boot.moult with
  | some m =>
    (match m.cur with
     | some u =>
       let s := ((s.runFrom u m.bank).count D.MOULT_UNITS_DONE 0 1).runningBank
       let s := if u = 0 then s.wr D.UTTEX_FW_VERSION 0 (s.bankImage m.bank).version.toNat else s
       .next (s.moultStep { m with done := m.done + 1 } u)
     | none => .next s)
  | none => .next s

/-- MOULT_READY_TIMEOUT (R395): the old image resumes. -/
def execMoultReadyTimeout (s : State) : Host.Outcome State Fault Refusal :=
  match s.boot.moult with
  | some m =>
    (match m.cur with
     | some u => .next ((s.raise Ev.MOULT_REVERTED 0 (evWords [u])).moultStep { m with reverted := true } u)
     | none => .next s)
  | none => .next s

/-- A reset abandons the moult of the units in its scope (R396). -/
def State.moultDrop (s : State) (p : Nat → Bool) : State :=
  match s.boot.moult with
  | none => s
  | some m =>
    let gone := m.groups.flatten.filter p
    if gone.isEmpty then s
    else s.moultNext (m.groups.length + 1)
      { m with cur := m.cur.filter (fun u => !p u), groups := m.groups.map (fun g => g.filter (fun u => !p u)) }

/-! ### Attestation (R412, R414) -/

/-- ATTEST_NONCE's own rules (R414): a second nonce replaces the first. -/
def State.ownNonce (s : State) (w : OdWrite) : State :=
  ({ s.wr D.ATTEST_NONCE 0 (odNum w) with boot := { s.boot with attest := true } } : State).odDone

/-- ATTEST_NONCE (R414). -/
def execAttestNonce (w : OdWrite) (s : State) : Host.Outcome State Fault Refusal :=
  s.odCmd (.attestNonce w) (fun t => t.odWrite D.ATTEST_NONCE 0 w (fun u => u.ownNonce w))

/-- Kind record of an attestation report (Table 15.12): the digest most units run, from the bank booted on a tie. -/
def State.kindRecord (s : State) (k : Nat) : Nat :=
  let l := s.fwAll k
  let other := (l.filter (fun u => s.boot.moved.contains u)).length
  let own := l.length - other
  let b := if own < other then 1 - s.boot.bank else s.boot.bank
  imageDigest (s.bankImage b) k % 2 ^ 512 + max own other * 2 ^ 512 + min own other * 2 ^ 544

/-- Bytes 0 to 575 of the report (Table 15.12). -/
def State.attestBody (s : State) : Nat :=
  let i := s.bankImage s.boot.bank
  0x54414C48 + 2 ^ 32 + variantCode s.variant * 2 ^ 48 + halfFuse s.variant * 2 ^ 56 + s.rd D.DEVICE_SERIAL 0 * 2 ^ 64 + s.gate * 2 ^ 128 +
    s.rd D.BOOT_COUNT 0 * 2 ^ 192 + s.rd D.FW_MIN_SVN 0 * 2 ^ 224 + i.svn.toNat * 2 ^ 256 + s.rd D.CONFIG_LOCK 0 * 2 ^ 288 +
    s.boot.moult.isSome.toNat * 2 ^ 289 + s.rd D.RUNNING_BANK 0 * 2 ^ 290 + s.rd D.ATTEST_NONCE 0 * 2 ^ 512 + s.rd D.MEASUREMENT 0 * 2 ^ 1024 +
    (i.manifestDigest % 2 ^ 512) * 2 ^ 1536 + ([0, 1, 2, 3].foldl (fun a k => a + s.kindRecord k * 2 ^ (2048 + 640 * k)) 0)

/-- ATTEST_REPORT_READY (R414). -/
def execAttestReportReady (s : State) : Host.Outcome State Fault Refusal :=
  if s.boot.attest then
    let b := s.attestBody
    let s := { s with boot := { s.boot with attest := false } }
    .next ((s.wr D.ATTEST_REPORT 0 (b + ed448Sign Config.identityKey 576 b * 2 ^ 4608)).wrLen D.ATTEST_REPORT 0 690)
  else .next s

end Sys2Proof.Machine
end

