-- ==== Sys2Proof/Machine/Resets.lean ====
section
/-! DEFINITION. Software entries of the defect map, and the partial resets of a slice, a field and a partition (R398, R399, R402 to R405). -/

namespace Sys2Proof.Machine

/-! ### DEFECT_ADD (R398, R399) -/

/-- DEFECT_ADD's own rules: SOURCE and BOOT_COUNT are written as 0; an absent unit is UNIT_ABSENT (R411). -/
def State.ownDefectAdd (s : State) (w : OdWrite) : State :=
  let e := odNum w
  let u := bits e 15 0
  if bits e 31 20 != 0 || bits e 63 32 != 0 || 2 < bits e 19 16 || u / 4096 = 15 then s.odFail St.OD_VALUE
  else if !s.unitHere u then s.odFail St.UNIT_ABSENT
  else (s.addDefect u (bits e 19 16) 3 (e / 2 ^ 64)).odDone

/-- DEFECT_ADD (R398). -/
def execDefectAdd (w : OdWrite) (s : State) : Host.Outcome State Fault Refusal :=
  s.odCmd (.defectAdd w) (fun t => t.odWrite D.DEFECT_ADD 0 w (fun u => u.ownDefectAdd w))

/-! ### Slices (R402) -/

/-- A reset of overlapping scope runs, or a retirement or a migration involves the slice (R405). -/
def State.sliceBusy (s : State) (n : Nat) : Bool :=
  s.sliceResets n || (s.retireTo n).isSome || s.sliceMigrates n || s.migInto (sliceField n)

/-- The counters of a slice (R85, R145). -/
def sliceCounters : List Obj :=
  [D.CACHE_CE_COUNT, D.CACHE_UE_COUNT, D.TAG_CE_COUNT, D.TAG_SETS_LOST, D.VICTIM_HIT_COUNT, D.SWARM_FILL_COUNT, D.MISS_REG_FULL_COUNT,
   D.PREFETCH_ISSUED, D.PREFETCH_USED, D.READ_AFTER_DEAD, D.ATOMIC_OPS, D.ATOMIC_COMBINED, D.HOT_LINE_EVENTS, D.HOT_LINE_LAST]

/-- What has passed the ordering point of a slice is done. -/
def State.sliceDrained (s : State) (n : Nat) : Bool :=
  let x := s.cache (s.homeKey n)
  x.miss.isEmpty && x.victims.isEmpty && x.replay.isEmpty && x.busyQ.isEmpty &&
    x.tags.all (fun e => match e.2 with | some l => !l.abusy | none => true)

/-- The cache of a slice and its counters are clear; reduction units still wait at its input. -/
def State.sliceClear (s : State) (n : Nat) : State :=
  let k := s.homeKey n
  (sliceCounters.foldl (fun t o => t.wr o n 0) s).setCache k { Slice.init with units := (s.cache k).units }

/-- A reset of slice `n` goes on as far as it can: hot-line buffers are applied, dirty lines are written back as their channels take them, then
the cache is clear (R402). The flag says that it is done. -/
def State.sliceResetOn (s : State) (n : Nat) : State × Bool :=
  if s.sliceStatus n != 0 then (s, true)
  else if !s.sliceDrained n then (s, false)
  else
    let k := s.homeKey n
    let s := (s.cache k).hotBufs.foldl (fun t b => t.applyHot { key := k, n := n, src := b.src, dist := b.dist, line := b.line }) s
    if !s.sliceDrained n then (s, false)
    else
      let s := s.cleanSlice n
      if s.sliceDirty n then (s, false) else (s.sliceClear n, true)

/-- RESET_SLICE's own rules (R402, R405): the write completes when the reset ends. -/
def State.ownResetSlice (s : State) (n : Nat) : State :=
  if s.sliceStatus n != 0 then s.odFail (s.sliceStatus n)
  else if s.sliceBusy n then s.odFail St.RESET_BUSY
  else
    let s := ({ s with boot := { s.boot with resets := s.boot.resets ++ [.slice n] } } : State).odHold
    (s.sweepSliceEnd n St.SWEEP_ABORTED).moultDrop (fun u => u == ucSlice (s.homeKey n))

/-- RESET_SLICE (R402). -/
def execResetSlice (n : Fin 1024) (w : OdWrite) (s : State) : Host.Outcome State Fault Refusal :=
  s.odCmd (.resetSlice n w) (fun t => t.odWrite D.RESET_SLICE n w (fun u => u.ownResetSlice n))

/-! ### Fields (R403) -/

/-- Field of a launch target. -/
def launchField (action t : Nat) : Nat := if action = 1 ∨ action = 2 then t / 64 else t / 8

/-- Step 1 of R403: the field's requesters stop. -/
def State.fieldStop (s : State) (f : Nat) (links : Bool) : State :=
  let s := s.portsDown f 6
  let s := s.ringStopAll (fun c => rcEngine c / 64 == f) St.RESET_ABORTED
  let s := s.launchReset (fun a t => launchField a t == f && (a == 1 || a == 2 || links))
  let s := (fieldSlices f).foldl (fun t n => t.sweepSliceEnd n St.SWEEP_ABORTED) s
  if links then (List.range 8).foldl (fun t j => if t.rd D.LINK_STATE (8 * f + j) = 0 then t else t.linkStop (8 * f + j) 0) s else s

/-- RESET_FIELD's own rules (R403, R405). -/
def State.ownResetField (s : State) (f : Nat) (w : OdWrite) : State :=
  if s.fieldBusy f then s.odFail St.RESET_BUSY
  else
    let s := ({ s with boot := { s.boot with resets := s.boot.resets ++ [.field f (odNum w)] } } : State).odHold
    (s.fieldStop f (odNum w == 1)).moultDrop (fun u => unitField u == some f && (u / 4096 != 6 || odNum w == 1))

/-- RESET_FIELD (R403). -/
def execResetField (f : Fin 8) (w : OdWrite) (s : State) : Host.Outcome State Fault Refusal :=
  s.odCmd (.resetField f w) (fun t => t.odWrite D.RESET_FIELD f w (fun u => u.ownResetField f w))

/-- Step 4 of R403: engines are idle, ports enter RESET again, and links begin bring-up. -/
def State.fieldResume (s : State) (f : Nat) (links : Bool) : State :=
  let s := (List.range 64).foldl (fun t e =>
    if t.rd D.TE_STATE (64 * f + e) = 3 then t else t.wr D.TE_STATE (64 * f + e) 0) s
  let s := (List.range 64).foldl (fun t p =>
    let i := 64 * f + p
    if t.rd D.ATTACH_STATE i == 5 && t.rd D.ATTACH_DOWN_CAUSE i == 6 then t.portReset i else t) s
  if links then (List.range 8).foldl (fun t j =>
    let n := 8 * f + j
    if t.rd D.LINK_STATE n == 0 && t.linkMayRise n then t.linkRise n else t) s else s

/-- The slices of a reset that a field or slice has asked for. -/
def scopeSlices (s : State) : Scope → List Nat
  | .slice n => [n]
  | .field f _ => (fieldSlices f).filter (fun n => s.sliceStatus n == 0)

/-- A partial reset goes on; when its last slice is clear it ends, and its write completes (R402, R403, R405). -/
def State.resetOn (s : State) (x : Scope) : State :=
  let r := (scopeSlices s x).foldl (fun (a : State × Bool) n => let y := a.1.sliceResetOn n; (y.1, a.2 && y.2)) (s, true)
  if !r.2 then r.1
  else
    let s := { r.1 with boot := { r.1.boot with resets := r.1.boot.resets.filter (fun y => y != x) } }
    match x with
    | .slice n => s.odAnswer (s.sliceStatus n) 0 0
    | .field f v => (s.fieldResume f (v == 1)).odAnswer 0 0 0

/-! ### Partitions (R404) -/

/-- RESET_PARTITION's own rules (R404, R405). -/
def State.ownResetPartition (s : State) (p : Nat) : State :=
  let x := s.part p
  let h : WCmd → Bool := fun c => c == .reset
  if (match x.drain with | some (c, _, _) => h c | none => false) || x.wcmds.any (fun c => h c.1) then s.odFail St.RESET_BUSY
  else ((s.odHold).faultAll p (fun _ => true)).wcmd p .reset .od

/-- RESET_PARTITION (R404). -/
def execResetPartition (p : Fin 16) (w : OdWrite) (s : State) : Host.Outcome State Fault Refusal :=
  s.odCmd (.resetPartition p w) (fun t => t.odWrite D.RESET_PARTITION p w (fun u => u.ownResetPartition p))

end Sys2Proof.Machine
end

