-- ==== Sys2Proof/Machine/Startup.lean ====
section
/-! DEFINITION. The commands of start-up, power loss, temperature and whole-device resets (R360 to R362, R379 to R383, R386 to R409, R438). -/

namespace Sys2Proof.Machine

/-- The device is held in reset: by the pin, or after a power loss or a trip (R379, R383, R438). -/
def State.heldOff (s : State) : Bool := s.boot.pin || s.boot.down.isSome

/-- POWER_ON (R360, R361): the always-on domain starts on the RC oscillator, and stage 0 begins. -/
def execPowerOn (xsd : BitVec 3) (s : State) : Host.Outcome State Fault Refusal :=
  let t := s.restart 0
  .next (({ t with boot := { t.boot with down := none, wdtLog := false } } : State).wr D.XSD_STRAP 0 xsd.toNat)

/-- Stage 1 runs and its crystal check is still to come. -/
def State.checking (s : State) : Bool :=
  !s.heldOff && s.rd D.BOOT_STAGE 0 == 1 && s.rd D.AO_CLOCK_SOURCE 0 == 0

/-- XTAL_DELAY_EXPIRY (R362): the check passes on a count of 159 to 169; at most 3 checks are made. -/
def execXtalDelayExpiry (count : BitVec 16) (s : State) : Host.Outcome State Fault Refusal :=
  if s.checking && decide (s.rd D.XTAL_ATTEMPTS 0 < 3) then
    let s := s.count D.XTAL_ATTEMPTS 0 1
    if 159 ≤ count.toNat ∧ count.toNat ≤ 169 then
      .next (((s.wr D.XTAL_CHECK_COUNT 0 count.toNat).wr D.AO_CLOCK_SOURCE 0 1).swNormal 0)
    else .next s
  else .next s

/-- XTAL_RESTART (R362): stage 1 starts again after 3 checks that failed. -/
def execXtalRestart (s : State) : Host.Outcome State Fault Refusal :=
  if s.checking && s.rd D.XTAL_ATTEMPTS 0 == 3 then
    .next (({ s with boot := { s.boot with xtalFails := s.boot.xtalFails + 1 } } : State).wr D.XTAL_ATTEMPTS 0 0)
  else .next s

/-! ### Boot stages -/

/-- Stage 0 ends (Table 15.1). -/
def State.end0 (s : State) (o : StageOutcome) : State :=
  let s := s.otherFails o []
  let d := variantCode s.variant + halfFuse s.variant * 2 ^ 8 + s.rd D.XSD_STRAP 0 * 2 ^ 16
  if o.fuseCopiesAgree then (s.stageReport o.aoTime.toNat 0 d false false).wr D.BOOT_STAGE 0 1 else s.halt o.aoTime.toNat Ca.FUSE_BAD d

/-- Stage 1 ends once the crystal has passed its check: gate time starts (R207, R362). -/
def State.end1 (s : State) (o : StageOutcome) : State :=
  if s.rd D.AO_CLOCK_SOURCE 0 = 0 then s
  else
    let s := s.otherFails o []
    let d := s.rd D.XTAL_ATTEMPTS 0 + s.rd D.XTAL_CHECK_COUNT 0 * 2 ^ 8
    let s := (s.stageReport o.aoTime.toNat (if s.boot.xtalFails = 0 then 0 else Ca.XTAL_FAIL) d false false).wr D.BOOT_STAGE 0 2
    { s with gate := 0, gateRun := true }

/-- Stage 2 ends (R377, R378). -/
def State.end2 (s : State) (o : StageOutcome) : State :=
  let s := (s.otherFails o []).wr D.INPUT_VOLTAGE 0 o.inputMv.toNat
  let e := s.energyNow o.inputMv.toNat
  let s := e.2
  let d := o.inputMv.toNat + o.chargeUs.toNat * 2 ^ 16 + (e.1 % 2 ^ 32) * 2 ^ 32
  if !o.railsSettle then s.halt o.aoTime.toNat Ca.RAIL_FAIL d
  else if !s.energyWith none none none then s.halt o.aoTime.toNat St.ENERGY_LIMIT d
  else (s.stageReport o.aoTime.toNat 0 d false false).stage3 false

/-- Stage 3 ends (R341, R390, R397, R413). -/
def State.end3 (s : State) (o : StageOutcome) : State :=
  let s := s.otherFails o []
  let ao := o.aoTime.toNat
  let lost := !o.defectStoreOk
  let s := if lost then s.mapLost else s
  match s.bankChoice o with
  | none => s.halt ao Ca.FW_BANK_BAD (s.detail3 lost)
  | some (b, fb) =>
    let s := s.bankTake b fb
    if !o.factoryOk then s.halt ao Ca.FACTORY_STORE_BAD (s.detail3 lost)
    else (s.mapOut.stageReport ao (if s.boot.lost then Ca.STORE_LOST else 0) (s.detail3 lost) false false).wr D.BOOT_STAGE 0 4

/-- Byte n of stage 4's detail: 0 loaded, 1 failed, 2 absent. -/
def State.detail4 (s : State) : Nat :=
  (List.range 8).foldl (fun a n =>
    a + (if !fieldPresent s.variant n then 2 else if s.boot.dead.contains n then 1 else 0) * 2 ^ (8 * n)) 0

/-- Stage 4 ends (R391). -/
def State.end4 (s : State) (o : StageOutcome) : State :=
  let ao := o.aoTime.toNat
  let l := s.failsOf o [10]
  let s := (l.foldl (fun t x => if t.boot.dead.contains (x.1 % 4096) then t else t.fieldDead (x.1 % 4096)) (s.takeFails l)).otherFails o [10]
  if o.imageBad then s.imageBad ao
  else if s.liveFields.isEmpty then s.halt ao 0 s.detail4
  else (s.stageReport ao 0 s.detail4 false false).wr D.BOOT_STAGE 0 5

/-- Stage 5 ends (R391, R400, R413). -/
def State.end5 (s : State) (o : StageOutcome) : State :=
  let ao := o.aoTime.toNat
  let l := s.failsOf o [2, 6, 9]
  let s := (s.takeFails l).otherFails o [2, 6, 9]
  let s := l.foldl (fun t x =>
    if x.1 / 4096 = 2 then t.sliceOut (x.1 % 4096) else if x.1 / 4096 = 9 then t.wr D.TE_STATE (x.1 % 4096) 3 else t) s
  if o.imageBad then s.imageBad ao
  else
    let s := s.place
    let i := s.bankImage s.boot.bank
    let s := [1, 2, 3].foldl (fun t k => t.extend k (t.loadedUnits k) (imageDigest i k)) s
    (s.stageReport ao 0 s.detail5 false false).stage6

/-- Stage 6 ends (R159, R406). -/
def State.end6 (s : State) (o : StageOutcome) : State :=
  let l := s.failsOf o [4]
  let s := (l.foldl (fun t x => t.bootFail (x.1 % 4096)) s).otherFails o [4]
  ((s.migAgain).stageReport o.aoTime.toNat 0 s.detail6 false false).wr D.BOOT_STAGE 0 7

/-- The survey that replaces stage 8 of a link-hold reset (R409). -/
def State.survey (s : State) : State := ((s.wr D.BOOT_STAGE 0 8).stageReport 0 0 s.detail8 false true).stage9

/-- Stage 7 ends (R203, R204). -/
def State.end7 (s : State) (o : StageOutcome) : State :=
  let ao := o.aoTime.toNat
  let s := (s.meshTest (s.failsOf o [5])).otherFails o [5]
  if s.rd D.ROUTER_STATE (hostNode s.variant) = 1 then s.halt ao Ca.MESH_TEST_FAIL s.detail7
  else
    let s := s.stageReport ao 0 s.detail7 false false
    if s.boot.hold then s.survey else s.stage8

/-- Stage 8 ends (R292). -/
def State.end8 (s : State) (o : StageOutcome) : State :=
  let s := s.otherFails o []
  (s.stageReport o.aoTime.toNat 0 s.detail8 false false).stage9

/-- Stage 9 ends (R310). -/
def State.end9 (s : State) (o : StageOutcome) : State :=
  let s := s.otherFails o []
  let d := s.rd D.HOST_LINK_STATE 0 + s.rd D.HOST_LINK_RATE 0 * 2 ^ 8 + s.rd D.HOST_LINK_WIDTH 0 * 2 ^ 16
  (s.stageReport o.aoTime.toNat 0 d false false).wr D.BOOT_STAGE 0 10

/-- Stage 10 ends: the device is in service; the 10 s of a watchdog reset begin (R408, R409). -/
def State.end10 (s : State) (o : StageOutcome) : State :=
  let s := (s.otherFails o []).stage10
  let s := s.stageReport o.aoTime.toNat 0 (s.detail10 o.startMs.toNat) false false
  { s with boot := { s.boot with hold := false, wdt := s.boot.wdt.map (fun _ => some s.gate) } }

/-- Start-up is over. -/
def State.started (s : State) : Bool := s.boot.last == some 10

/-- BOOT_STAGE_END (R386 to R388): the stage that runs ends; nothing happens while the device is held in reset, has halted or has started. -/
def execBootStageEnd (o : StageOutcome) (s : State) : Host.Outcome State Fault Refusal :=
  if s.heldOff || s.rdB D.BOOT_HALTED 0 || s.started then .next s
  else match s.rd D.BOOT_STAGE 0 with
    | 0 => .next (s.end0 o)
    | 1 => .next (s.end1 o)
    | 2 => .next (s.end2 o)
    | 3 => .next (s.end3 o)
    | 4 => .next (s.end4 o)
    | 5 => .next (s.end5 o)
    | 6 => .next (s.end6 o)
    | 7 => .next (s.end7 o)
    | 8 => .next (s.end8 o)
    | 9 => .next (s.end9 o)
    | _ => .next (s.end10 o)

/-! ### Device and link-hold resets -/

/-- A device reset that a write or a repeated watchdog expiry requests; one that a write requests takes the sites down as an orderly off first
(R407). -/
def State.deviceReset (s : State) : State :=
  ((presentFields s.variant).foldl (fun t n => if t.sitePowered n then t.portsDown n 5 else t) s).restart 2

/-- The reset a write has asked for begins once its response has been sent (R405). -/
def State.runAsk (s : State) : State :=
  if s.odBusy then s
  else match s.boot.ask with
    | some 1 => s.deviceReset
    | some _ => s.linkHold 3
    | none => s

/-- RESET_DEVICE's own rules (R405): always accepted. -/
def State.ownResetDevice (s : State) (w : OdWrite) : State := ({ s with boot := { s.boot with ask := some (odNum w) } } : State).odDone

/-- DEVICE_RESET (R405, R407). -/
def execDeviceReset (w : OdWrite) (s : State) : Host.Outcome State Fault Refusal :=
  s.odCmd (.deviceReset w) (fun t => (t.odWrite D.RESET_DEVICE 0 w (fun u => u.ownResetDevice w)).runAsk)

/-- LINK_HOLD_RESET (R405, R409). -/
def execLinkHoldReset (w : OdWrite) (s : State) : Host.Outcome State Fault Refusal :=
  s.odCmd (.linkHoldReset w) (fun t => (t.odWrite D.RESET_DEVICE 0 w (fun u => u.ownResetDevice w)).runAsk)

/-- RESET_PIN (R407, R438): the device stays in reset until the pin rises; a power loss or trip has its own way out. -/
def execResetPin (s : State) : Host.Outcome State Fault Refusal :=
  if s.boot.pin then .next s
  else
    let s := { s with boot := { s.boot with pin := true } }
    if s.boot.down.isSome then .next s else .next (s.restart 1)

/-- RESET_PIN_RELEASE (R438): stage 0 begins 1 ms later. -/
def execResetPinRelease (s : State) : Host.Outcome State Fault Refusal := .next { s with boot := { s.boot with pin := false } }

/-- A watchdog expiry comes before stage 10 of the reset that the last one started, or within 10 s after it (R408). -/
def State.wdtSecond (s : State) : Bool :=
  match s.boot.wdt with
  | none => false
  | some none => true
  | some (some t) => decide (s.gate < t + 10 ^ 10)

/-- UTTEX_WATCHDOG (R408, R430): the Uttex controller runs from stage 3 on. -/
def execUttexWatchdog (s : State) : Host.Outcome State Fault Refusal :=
  if !s.odUp then .next s
  else
    let second := s.wdtSecond
    let s := { s with boot := { s.boot with wdtLog := true } }
    if second then .next (s.restart 4)
    else
      let t := s.linkHold 4
      .next { t with boot := { t.boot with wdt := some none } }

/-! ### Power loss and temperature (R379 to R383) -/

/-- The power-loss sequence (Table 14.8): `inHeader` is how far a commit has got, `done` whether step 6 is reached; the device is then held in
reset. -/
def State.lossSeq (s : State) (mv cause : Nat) (inHeader done : Bool) : State :=
  let up := s.odUp
  let s := s.raise Ev.POWER_LOSS 0 0
  let s := (presentFields s.variant).foldl (fun t n => if t.sitePowered n then t.siteFault n 4 else t) s
  let s := s.seal inHeader
  let s :=
    if !up then s
    else
      let recs := s.flogWait.filter (fun e => e.kind == 0)
      let s := s.logWrite { kind := 2, mask := 0, body := s.gate + mv * 2 ^ 64 + cause * 2 ^ 80, boot := 0 }
      let s := recs.foldl (fun t e => t.logWrite e) s
      if done then s.logWrite { kind := 3, mask := 0, body := 0, boot := 0 }
      else if s.fresh % 2 = 0 then s.drew else s.drew.logTear
  ({ s with boot := { s.boot with down := some cause } } : State).restart (if cause = 0 then 6 else 5)

/-- The commit under way had reached its header when the input fell (R382). -/
def headerWritten : CommitOutcome → Bool
  | .inHeader => true
  | .done => true
  | .retriedOnce => true
  | _ => false

/-- A device already held off waits for the input (R383). -/
def State.holdLow (s : State) : State := { s with boot := { s.boot with down := some 0 } }

/-- POWER_LOSS (R381, R382): a loss while the device is held off changes only what it waits for. -/
def execPowerLoss (mv : BitVec 16) (commit : CommitOutcome) (gotToEnd : Bool) (s : State) : Host.Outcome State Fault Refusal :=
  .next (if s.boot.down.isSome then s.holdLow else s.lossSeq mv.toNat 0 (headerWritten commit) gotToEnd)

/-- INPUT_RECOVERED (R383): the device starts from stage 0, or waits for the reset pin. -/
def execInputRecovered (s : State) : Host.Outcome State Fault Refusal :=
  if s.boot.down = some 0 then .next (({ s with boot := { s.boot with down := none } } : State).restart 6) else .next s

/-- A field's temperature with both offsets, in 0.1 °C (R379). -/
def State.tempOf (s : State) (f : Nat) (x : Int) : Int :=
  x + toSigned 32 (s.rd D.TSENSE_OFFSET_FACTORY f) + toSigned 32 (s.rd D.TSENSE_OFFSET_USER f)

/-- FIELD_TEMP in whole degrees; how a fraction is rounded is open (log 3). -/
def State.tempWhole (s : State) (t : Int) : Int × State :=
  if t % 10 = 0 then (t / 10, s) else (t / 10 + ((s.fresh % 2 : Nat) : Int), s.drew)

/-- The field reaches THERMAL_HOT_C (R379): the event, the cap, and a clock request for THERMAL_MHZ when it can be taken. -/
def State.tooHot (s : State) (f : Nat) : State :=
  let s := (s.setClk f { (s.clk f) with capped := true }).raise Ev.THERMAL_HOT 0 (evWords [f])
  let r := 2 ^ f + s.rd D.THERMAL_MHZ 0 * 2 ^ 16 + s.rd D.THERMAL_FALLBACK_ID 0 * 2 ^ 64
  if s.clockStatus r = 0 then s.clockReq r else s

/-- The steps of R379 at temperature `t` (0.1 °C). -/
def State.thermal (s : State) (f : Nat) (t : Int) : State :=
  let hot : Int := 10 * (s.rd D.THERMAL_HOT_C 0 : Int)
  let s := if hot ≤ t && !(s.clk f).capped then s.tooHot f
           else if t ≤ hot - 50 && (s.clk f).capped then s.setClk f { (s.clk f) with capped := false } else s
  let s := if 1100 ≤ t && s.rd D.FIELD_CLK_SRC f == 0 then (s.swNormal (f + 1)).onBypass f else s
  if 1150 ≤ t then
    let s := s.raise Ev.THERMAL_TRIP 0 (evWords [f])
    s.drew.lossSeq (s.rd D.INPUT_VOLTAGE 0) Ca.THERMAL_TRIP (s.fresh % 2 == 0) true
  else s

/-- Every present field reads below 90 °C. -/
def State.allCool (s : State) : Bool := (presentFields s.variant).all (fun f => toSigned 32 (s.rd D.FIELD_TEMP f) < 90)

/-- FIELD_TEMP_SAMPLE (R379): a device held by a trip leaves reset once every field is below 90 °C. -/
def execFieldTempSample (f : Fin 8) (deciCelsius : Int) (s : State) : Host.Outcome State Fault Refusal :=
  if !fieldPresent s.variant f then .next s
  else
    let t := s.tempOf f deciCelsius
    let x := s.tempWhole t
    let s := (x.2.wr D.FIELD_TEMP f (ofSigned 32 x.1)).wr D.THERMAL_VALID f 1
    match s.boot.down with
    | some c =>
      if c != 0 && s.allCool then .next (({ s with boot := { s.boot with down := none } } : State).restart 5) else .next s
    | none => .next (s.thermal f t)

end Sys2Proof.Machine
end

