-- ==== Sys2Proof/Machine/Dictionary.lean ====
section
/-! DEFINITION. The operations on an object that is named by its index: the rules of its owner, the values the device computes at a read, staged
segments and descriptions, and the commands of single operations (R329 to R337, R350). -/

namespace Sys2Proof.Machine

/-! ### The owners' rules -/

/-- An octet of HBM_VREF_USER is beyond ±5 steps (Table 6.7). -/
def vrefBeyond (len v : Nat) : Bool := (List.range len).any (fun i => decide (5 < (toSigned 8 (bytesOf v i 1)).natAbs))

/-- HBM_VREF_USER's own rules: the clamp of step 9 for every octet. -/
def State.ownVref (s : State) (m : Nat) (w : OdWrite) : State :=
  if vrefBeyond w.val.len (odNum w) then s.odFail St.OD_CLAMP else s.odSet D.HBM_VREF_USER m w

/-- GATE_UPSTREAM_MASK's own rules: the choice of R217 is made again. -/
def State.ownUpstreamMask (s : State) (w : OdWrite) : State := ((s.setObj D.GATE_UPSTREAM_MASK 0 w).chooseUpstream.noteHops).odDone

/-- CONFIG_LOCK's own rules (R334). -/
def State.ownConfigLock (s : State) (w : OdWrite) : State :=
  if odNum w = 0 && s.rdB D.CONFIG_LOCK 0 then s.odFail St.OD_LOCKED else s.odSet D.CONFIG_LOCK 0 w

/-- MGMT_PUBKEY's own rules: an installed key, or none (R354). -/
def State.ownPubkey (s : State) (k : Nat) (w : OdWrite) : State := s.odSet D.MGMT_PUBKEY k w

/-- Owners' rules of chapters 02 and 09. -/
def ownPartition (k i : Nat) (w : OdWrite) : Option (State → State) :=
  if k = objKey D.WINDOW_ENTRY then some (fun s => s.ownWindow i w)
  else if k = objKey D.PART_ENABLE then some (fun s => s.ownPartEnable i w)
  else if k = objKey D.PART_DOMAIN then some (fun s => s.ownPartDomain i w)
  else if k = objKey D.PORT_PARTITION then
    some (fun s => if h : i < 512 then s.ownRebind (.port ⟨i, h⟩) w else s.odFail St.OD_NO_OBJECT)
  else if k = objKey D.TE_PARTITION then
    some (fun s => if h : i < 512 then s.ownRebind (.te ⟨i, h⟩) w else s.odFail St.OD_NO_OBJECT)
  else if k = objKey D.PF_DATA_PARTITION then some (fun s => s.ownRebind .pf w)
  else if k = objKey D.LINK_PART_MASK then some (fun s => s.ownLinkMask i w)
  else if k = objKey D.MEM_GUARANTEE then some (fun s => s.ownAdmit D.MEM_GUARANTEE i w)
  else if k = objKey D.MEM_GROUP_MASK then some (fun s => s.ownMask D.MEM_GROUP_MASK i w (presentStackMask s.variant))
  else if k = objKey D.LINK_GUARANTEE then some (fun s => s.ownAdmit D.LINK_GUARANTEE i w)
  else if k = objKey D.LINK_MASK then some (fun s => s.ownMask D.LINK_MASK i w (presentLinkMask s.variant))
  else if k = objKey D.MEM_EFFICIENCY then some (fun s => s.ownAdmit D.MEM_EFFICIENCY 0 w)
  else if k = objKey D.LINK_EFFICIENCY then some (fun s => s.ownAdmit D.LINK_EFFICIENCY 0 w)
  else if k = objKey D.CLASS_MISS_MIN then some (fun s => s.ownMissMin i w)
  else if k = objKey D.CLASS_MISS_MAX then some (fun s => s.ownMissMax i w)
  else none

/-- Owners' rules of chapters 03 to 06. -/
def ownSliceSide (o : Obj) (i : Nat) (w : OdWrite) : Option (State → State) :=
  let k := objKey o
  if k = objKey D.SLICE_RETIRE then some (fun s => s.ownSliceRetire i)
  else if k = objKey D.TAG_PEEK_SELECT then some (fun s => s.ownTagPeek i w)
  else if k = objKey D.FORMAT_DESC then some (fun s => s.ownFormat i w)
  else if k = objKey D.SR_SEED then some (fun s => s.ownSrSeed w)
  else if k = objKey D.FLOW_SNAPSHOT then some (fun s => s.ownFlowSnapshot w)
  else if k = objKey D.FLOW_CLEAR then some (fun s => s.ownFlowClear w)
  else if 0x9100 ≤ o.idx ∧ o.idx < 0x9110 then some (fun s => s.ownRing (65536 * (o.idx - 0x9100) + i) w)
  else if k = objKey D.SWEEP_COMMAND then some (fun s => s.ownSweep i w)
  else if k = objKey D.SWEEP_ABORT then some (fun s => s.ownSweepAbort i)
  else if k = objKey D.SWEEP_GROUP then some (fun s => s.ownSweepGroup i w)
  else if k = objKey D.HBM_SELF_REFRESH then some (fun s => s.ownSelfRefresh i w)
  else if k = objKey D.CHANNEL_RETIRE then some (fun s => s.ownChannelRetire i w)
  else if k = objKey D.HBM_VREF_USER then some (fun s => s.ownVref i w)
  else none

/-- Owners' rules of chapters 07, 08 and 11. -/
def ownMeshSide (k i : Nat) (w : OdWrite) : Option (State → State) :=
  if k = objKey D.LAP_LOAD then some (fun s => s.ownLapLoad w)
  else if k = objKey D.LAP_SWITCH then some (fun s => s.ownLapSwitch w)
  else if k = objKey D.LAP_UNLOAD then some (fun s => s.ownLapUnload w)
  else if k = objKey D.LAP_RESUME then some (fun s => s.ownLapResume w)
  else if k = objKey D.RED_FLAGS_CLEAR then some (fun s => s.ownRedClear i)
  else if k = objKey D.GATE_SOURCE then some (fun s => s.ownGateSource w)
  else if k = objKey D.GATE_UPSTREAM_MASK then some (fun s => s.ownUpstreamMask w)
  else if k = objKey D.GATE_LAUNCH then some (fun s => s.ownLaunch w)
  else if k = objKey D.GATE_CANCEL then some (fun s => s.ownCancel w)
  else if k = objKey D.LINK_POWER then some (fun s => s.ownLinkPower i w)
  else if k = objKey D.LANE_BITSLIP then some (fun s => s.ownBitslip i w)
  else if k = objKey D.LINK_RETRAIN then some (fun s => s.ownRetrain i)
  else if k = objKey D.LINK_ROUTE then some (fun s => s.ownLinkRoute i w)
  else if k = objKey D.LINK_SNAPSHOT then some (fun s => s.ownSnapshot w)
  else none

/-- Owners' rules of chapters 10 and 14. -/
def ownSiteSide (k i : Nat) (w : OdWrite) : Option (State → State) :=
  if k = objKey D.ATTACH_PORT_RESET then some (fun s => s.ownPortReset i)
  else if k = objKey D.SITE_POWER then some (fun s => s.ownSitePower i w)
  else if k = objKey D.SITE_OPP then some (fun s => s.ownSiteOpp i w)
  else if k = objKey D.SITE_PMAX then some (fun s => s.ownSitePmax i w)
  else if k = objKey D.SITE_RAILS then some (fun s => s.ownSiteRails i w)
  else if k = objKey D.RAIL_VMIN then some (fun s => s.ownRailVmin i w)
  else if k = objKey D.RAIL_VMAX then some (fun s => s.ownRailVmax i w)
  else if k = objKey D.RAIL_DIE_CAP then some (fun s => s.ownRailDieCap i w)
  else if k = objKey D.FIELD_CLOCK_REQ then some (fun s => s.ownClockReq w)
  else if k = objKey D.CKOBS_SELECT then some (fun s => s.ownCkSelect w)
  else if k = objKey D.CKOBS_DIV then some (fun s => s.ownCkDiv w)
  else if k = objKey D.SLICE_POWER_MODE then some (fun s => s.ownSliceMode i w)
  else if k = objKey D.FIELD_POWER_MODE then some (fun s => s.ownFieldMode i w)
  else none

/-- Owners' rules of chapters 13, 15 and 16. -/
def ownDevice (k i : Nat) (w : OdWrite) : Option (State → State) :=
  if k = objKey D.STORE_COMMIT then some (fun s => s.ownStoreCommit)
  else if k = objKey D.STORE_DEFAULTS then some (fun s => s.ownStoreDefaults)
  else if k = objKey D.CONFIG_LOCK then some (fun s => s.ownConfigLock w)
  else if k = objKey D.MGMT_PUBKEY then some (fun s => s.ownPubkey i w)
  else if k = objKey D.FW_BANK then some (fun s => s.ownFwBank i w)
  else if k = objKey D.FW_MIN_SVN then some (fun s => s.ownMinSvn w)
  else if k = objKey D.MOULT_COMMAND then some (fun s => s.ownMoult w)
  else if k = objKey D.ATTEST_NONCE then some (fun s => s.ownNonce w)
  else if k = objKey D.DEFECT_ADD then some (fun s => s.ownDefectAdd w)
  else if k = objKey D.RESET_DEVICE then some (fun s => s.ownResetDevice w)
  else if k = objKey D.RESET_SLICE then some (fun s => s.ownResetSlice i)
  else if k = objKey D.RESET_FIELD then some (fun s => s.ownResetField i w)
  else if k = objKey D.RESET_PARTITION then some (fun s => s.ownResetPartition i)
  else if k = objKey D.FAULT_OVERFLOW_CLEAR then some (fun s => s.ownOverflowClear i)
  else if k = objKey D.FAULT_LOG_SELECT then some (fun s => s.ownLogSelect w)
  else none

/-- What a write of an object does once steps 1 to 9 have passed: its owner's rules, or a plain write. -/
def State.own (s : State) (o : Obj) (i : Nat) (w : OdWrite) : State :=
  let k := objKey o
  match ownPartition k i w, ownSliceSide o i w, ownMeshSide k i w, ownSiteSide k i w, ownDevice k i w with
  | some f, _, _, _, _ => f s
  | none, some f, _, _, _ => f s
  | none, none, some f, _, _ => f s
  | none, none, none, some f, _ => f s
  | none, none, none, none, some f => f s
  | none, none, none, none, none => s.odSet o i w

/-- A WRITE of whatever object the address names; `seg` when its value was staged. -/
def State.objWrite (s : State) (a : ObjAddr) (w : OdWrite) (seg : Bool) : State :=
  match findObj a.index.toNat a.sub.toNat with
  | none => s.odFail St.OD_NO_OBJECT
  | some o => s.odWriteAs o a.inst.toNat w seg (fun t => t.own o a.inst.toNat w)

/-! ### Reads -/

/-- Locked lines of a slice. -/
def State.lockedLines (s : State) (n : Nat) : Nat :=
  ((s.cache (s.homeKey n)).tags.filter (fun e => match e.2 with | some l => l.lock | none => false)).length

/-- A report the stack or the input meter may have made since the last read is an open value (log 3). -/
def State.tally (s : State) (o : Obj) (i n : Nat) : State := (s.count o i n).drew

/-- Values that the device computes when they are read, by object; none where the object holds its value. -/
def State.liveView (s : State) (k i : Nat) : Option (Nat × State) :=
  if k = objKey D.EPOCH_INFLIGHT then
    some ((match (s.part i).drain with | some (_, _, e) => s.inFlightCount i e | none => 0), s)
  else if k = objKey D.LOCKED_LINES then some (s.lockedLines i, s)
  else if k = objKey D.STACK_ECS_COUNT then
    let t := s.tally D.STACK_ECS_COUNT i (s.fresh % 2 ^ 32)
    some (t.rd D.STACK_ECS_COUNT i, t)
  else if k = objKey D.LAP_FS_BOUND then some (s.fsBound, s)
  else if k = objKey D.LAP_FS_WORST then some (s.fsWorst i, s)
  else if k = objKey D.MESH_TOPO_DIGEST then some (s.topoDigest, s)
  else if k = objKey D.GATE_TIME then some (s.gate, s)
  else if k = objKey D.GATE_ERR_BOUND then some (s.errBound, s)
  else if k = objKey D.LINK_SCHED_LEAD then some (s.schedLead i, s)
  else if k = objKey D.ATTACH_TAGS_OUT then some ((s.portTags i).length, s)
  else if k = objKey D.POWER_LIMIT_EFF then
    if (presentFields s.variant).all (fun f => s.rdB D.THERMAL_VALID f) then some (s.rd D.POWER_LIMIT 0, s)
    else some (s.wholeUnits (3 * s.rd D.POWER_LIMIT 0) 4)
  else if k = objKey D.INPUT_POWER then some (s.fresh % 2 ^ 32, s.drew)
  else if k = objKey D.STORED_ENERGY then some (s.energyNow (s.rd D.INPUT_VOLTAGE 0))
  else if k = objKey D.RETURN_MAX then
    let t := (s.wr D.RETURN_MAX 0 (max (s.rd D.RETURN_MAX 0) (s.fresh % 501))).drew
    some (t.rd D.RETURN_MAX 0, t)
  else if k = objKey D.FAULT_QUEUE_COUNT then some ((s.part i).normal.length, s)
  else if k = objKey D.FAULT_PRIO_COUNT then some ((s.part i).prio.length, s)
  else none

/-- A log entry as a route sees it: a host VF reads zeros where PART_MASK lacks its partition (R431). -/
def logFor (route : Route) (v : Nat) : Nat :=
  match route with
  | .hostVf p => if bit (bits v 127 112) p.val then v else 0
  | _ => v

/-- The value of an object at a read: its length, its bytes, and the state after it. -/
def State.objView (s : State) (o : Obj) (i : Nat) (route : Route) : Nat × Nat × State :=
  let n := s.rdLen o i
  match s.liveView (objKey o) i with
  | some (v, t) => (n, v % 2 ^ (8 * n), t)
  | none => (n, (if objKey o = objKey D.FAULT_LOG_ENTRY then logFor route (s.rd o i) else s.rd o i) % 2 ^ (8 * n), s)

/-- Objects of a slice that a hole does not answer (chapters 03 and 05). -/
def holeObj (idx : Nat) : Bool := idx == 0x4020 || idx == 0x4030 || idx == 0x4040 || idx == 0x9010

/-- The checks of a READ or READ_SEG, then the owner's rules; `seg` for READ_SEG, which alone reads a DOMAIN. -/
def State.readStatus (s : State) (o : Obj) (i : Nat) (route : Route) (seg : Bool) : Nat :=
  let c := s.odCheckRead o i route
  if c != 0 then c
  else if o.ty = .domain && !seg then St.OD_LENGTH
  else if holeObj o.idx && s.isHole i then St.SLICE_FAILED
  else 0

/-- Bytes of operations a message may hold (R350); the internal route has no message. -/
def opsLimit : Route → Nat
  | .phildofel => 1362
  | .internal => 2 ^ 40
  | _ => 4072

/-- Room for the data of the operation in hand, once the head of every operation has its place in the response (R350). -/
def State.room (s : State) (route : Route) : Nat :=
  match s.odRun with
  | none => opsLimit route - 16
  | some r => opsLimit route - 16 * (r.done.length + 1 + r.todo.length) - (r.done.map (fun x => roundUp x.2.2.1 4)).sum

/-- READ: the whole value, when it fits (R350). -/
def State.objRead (s : State) (a : ObjAddr) (route : Route) : State :=
  match findObj a.index.toNat a.sub.toNat with
  | none => s.odFail St.OD_NO_OBJECT
  | some o =>
    match s.readStatus o a.inst.toNat route false with
    | 0 =>
      let v := s.objView o a.inst.toNat route
      if s.room route < roundUp v.1 4 then s.odFail St.OD_LENGTH else v.2.2.odAnswer 0 v.1 v.2.1
    | st => s.odFail st

/-- READ_SEG: bytes from OFFSET, as many as are asked for, remain and fit (R350). -/
def State.objReadSeg (s : State) (a : ObjAddr) (route : Route) (offset len : Nat) : State :=
  match findObj a.index.toNat a.sub.toNat with
  | none => s.odFail St.OD_NO_OBJECT
  | some o =>
    match s.readStatus o a.inst.toNat route true with
    | 0 =>
      let v := s.objView o a.inst.toNat route
      let n := min len (min (v.1 - offset) (s.room route / 4 * 4))
      v.2.2.odAnswer 0 n (bytesOf v.2.1 offset n)
    | st => s.odFail st

/-! ### WRITE_SEG -/

/-- The staged value of an object. -/
def State.stagedOf (s : State) (a : ObjAddr) : Option Staged := s.staged.find? (fun x => x.obj == a)

/-- The staged value of an object is discarded. -/
def State.unstage (s : State) (a : ObjAddr) : State := { s with staged := s.staged.filter (fun x => x.obj != a) }

/-- A segment that is in order joins the value: it is kept, or with LAST the whole value is one write. -/
def State.stage (s : State) (src : SegSrc) (a : ObjAddr) (v : OdVal) (last : Bool) : State :=
  let s := s.unstage a
  if last then s.objWrite a { route := src.route, val := v } true
  else ({ s with staged := s.staged ++ [{ src := src, obj := a, val := v }] } : State).odDone

/-- A segment whose access is allowed takes its place (R350). -/
def State.segment (s : State) (src : SegSrc) (a : ObjAddr) (offset : Nat) (last : Bool) (v : OdVal) : State :=
  let new := v.val % 2 ^ (8 * v.len)
  match s.stagedOf a with
  | some x =>
    if x.src != src then (s.unstage a).odFail St.OD_SEGMENT
    else if offset = 0 then s.stage src a { len := v.len, val := new } last
    else if offset = x.val.len then s.stage src a { len := x.val.len + v.len, val := x.val.val + new * 2 ^ (8 * x.val.len) } last
    else (s.unstage a).odFail St.OD_SEGMENT
  | none => if offset = 0 then s.stage src a { len := v.len, val := new } last else s.odFail St.OD_SEGMENT

/-- Steps 1 to 5 of Table 13.3 for a segment, whose value is not yet known. -/
def State.segStatus (s : State) (o : Obj) (i : Nat) (route : Route) : Nat :=
  let p := s.odPresent o i
  if p != 0 then p
  else if accessWrite o.acc != 0 then accessWrite o.acc
  else if !bit o.wmask (routeBit route) then St.OD_ROUTE_DENIED
  else if (match route with | .hostVf v => !s.vfMayWrite v.val o i | _ => false) then St.OD_ROUTE_DENIED
  else if o.acc = .rwl && s.rdB D.CONFIG_LOCK 0 then St.OD_LOCKED
  else 0

/-- WRITE_SEG (R350). -/
def State.objWriteSeg (s : State) (src : SegSrc) (a : ObjAddr) (offset : Nat) (last : Bool) (v : OdVal) : State :=
  match findObj a.index.toNat a.sub.toNat with
  | none => s.odFail St.OD_NO_OBJECT
  | some o =>
    match s.segStatus o a.inst.toNat src.route with
    | 0 => s.segment src a offset last v
    | st => s.odFail st

/-! ### DESCRIBE -/

/-- Codes of Table 13.2. -/
def typeCode : ObjTy → Nat
  | .u8 => 1
  | .u16 => 2
  | .u32 => 3
  | .u64 => 4
  | .i32 => 5
  | .i64 => 6
  | .f32 => 7
  | .bool => 8
  | .octets => 9
  | .string => 10
  | .record => 11
  | .domain => 12

/-- Access codes of DESCRIBE (R350). -/
def accessCode : Access → Nat
  | .ro => 1
  | .rw => 2
  | .wo => 3
  | .rwl => 4
  | .fro => 5

/-- The 16-byte description (R350). Every read mask holds all four routes (R332). -/
def description (o : Obj) : Nat :=
  typeCode o.ty + accessCode o.acc * 2 ^ 8 + o.stored.toNat * 2 ^ 12 + o.wmask * 2 ^ 16 + 15 * 2 ^ 20 + (o.insts % 2 ^ 16) * 2 ^ 32 + o.len * 2 ^ 64

/-- DESCRIBE applies step 1 of Table 13.3 only (R335). -/
def State.objDescribe (s : State) (a : ObjAddr) (route : Route) : State :=
  match findObj a.index.toNat a.sub.toNat with
  | none => s.odFail St.OD_NO_OBJECT
  | some o =>
    if (if o.insts = 0 then a.inst.toNat != 0 else decide (o.insts ≤ a.inst.toNat)) then s.odFail St.OD_NO_OBJECT
    else if s.room route < 16 then s.odFail St.OD_LENGTH
    else s.odAnswer 0 16 (description o)

/-! ### Single operations -/

/-- A write that has ended: PHIL_ETHERTYPE comes into force once its response is sent, and a reset it has asked for begins (Table 13.11, R405). -/
def State.afterOd (s : State) : State := if s.odBusy then s else (s.enforce D.PHIL_ETHERTYPE 0).runAsk

/-- OBJECT_READ (R350). -/
def execObjectRead (route : Route) (a : ObjAddr) (s : State) : Host.Outcome State Fault Refusal :=
  s.odCmd (.objectRead route a) (fun t => t.objRead a route)

/-- OBJECT_WRITE (R350). -/
def execObjectWrite (a : ObjAddr) (w : OdWrite) (s : State) : Host.Outcome State Fault Refusal :=
  s.odCmd (.objectWrite a w) (fun t => (t.objWrite a w false).afterOd)

/-- READ_SEG (R350). -/
def execReadSeg (route : Route) (a : ObjAddr) (offset len : Nat) (s : State) : Host.Outcome State Fault Refusal :=
  s.odCmd (.readSeg route a offset len) (fun t => t.objReadSeg a route offset len)

/-- WRITE_SEG (R350). -/
def execWriteSeg (src : SegSrc) (a : ObjAddr) (offset : Nat) (last : Bool) (v : OdVal) (s : State) : Host.Outcome State Fault Refusal :=
  s.odCmd (.writeSeg src a offset last v) (fun t => (t.objWriteSeg src a offset last v).afterOd)

/-- DESCRIBE (R350). -/
def execDescribe (route : Route) (a : ObjAddr) (s : State) : Host.Outcome State Fault Refusal :=
  s.odCmd (.describe route a) (fun t => t.objDescribe a route)

/-- CONFIG_LOCK (R334). -/
def execConfigLock (w : OdWrite) (s : State) : Host.Outcome State Fault Refusal :=
  s.odCmd (.configLock w) (fun t => t.odWrite D.CONFIG_LOCK 0 w (fun u => u.ownConfigLock w))

/-- MGMT_PUBKEY (R354). The signature rule of R353 is that of the frame that carries the write. -/
def execMgmtPubkey (k : Fin 4) (w : OdWrite) (s : State) : Host.Outcome State Fault Refusal :=
  s.odCmd (.mgmtPubkey k w) (fun t => t.odWrite D.MGMT_PUBKEY k w (fun u => u.ownPubkey k w))

end Sys2Proof.Machine
end

