-- ==== Sys2Proof/Machine/Phildofel.lean ====
section
/-! DEFINITION. Transactions of the object dictionary, the mailbox of a function, the frames of the management port, and its events (R323, R336,
R348 to R357). -/

namespace Sys2Proof.Machine

/-! ### Messages (Tables 13.8, 13.9) -/

def phVersion (h : Nat) : Nat := bits h 7 0
def phKind (h : Nat) : Nat := bits h 11 8
def phSigned (h : Nat) : Bool := bit h 12
def phTxn (h : Nat) : Nat := bits h 31 16
def phNops (h : Nat) : Nat := bits h 55 48
def phCtr (h : Nat) : Nat := bits h 127 64
def phSerial (h : Nat) : Nat := bits h 191 128

/-- Operations that carry data in a request. -/
def opHasData (op : Nat) : Bool := op == 2 || op == 4

/-- The rules of Table 13.9 for a head: a defined OP, reserved bits and fields that are 0 for the operation. -/
def headOk (v : Nat) : Bool :=
  let op := bits v 7 0
  decide (1 ≤ op ∧ op ≤ 5) && bits v 15 9 == 0 && bits v 31 16 == 0 && bits v 95 88 == 0 && (!bit v 8 || op == 4) &&
    (bits v 127 96 == 0 || op == 3 || op == 4)

/-- `n` operations of a message of `len` bytes from byte `pos`, and the byte after them; none when one leaves the message or breaks its rules. -/
def parseOps : Nat → Nat → Nat → Nat → Option (List OdOp × Nat)
  | 0, _, _, pos => some ([], pos)
  | n + 1, x, len, pos =>
    let v := bytesOf x pos 16
    let dl := if opHasData (bits v 7 0) then bits v 87 72 else 0
    let next := pos + 16 + roundUp dl 4
    if len < pos + 16 ∨ !headOk v ∨ len < next then none
    else match parseOps n x len next with
      | none => none
      | some (l, e) =>
        some ({ op := bits v 7 0, last := bit v 8, index := bits v 47 32, inst := bits v 63 48, sub := bits v 71 64, len := bits v 87 72,
                offset := bits v 127 96, data := bytesOf x (pos + 16) dl } :: l, e)

/-- The frame checks of R351 step 2: the operations and the byte after them. A signature that SIGNED promises is within the message. -/
def parseMsg (x len : Nat) : Option (List OdOp × Nat) :=
  let h := bytesOf x 0 24
  if len < 24 || phVersion h != 1 || !(phKind h == 0 || phKind h == 3) || bits h 15 13 != 0 || bits h 47 32 != 0 || bits h 63 56 != 0 ||
      (phKind h == 0 && !decide (1 ≤ phNops h ∧ phNops h ≤ 16)) || (phKind h == 3 && phNops h != 0) then none
  else match parseOps (phNops h) x len 24 with
    | none => none
    | some (l, e) => if phSigned h && decide (len < e + 114) then none else some (l, e)

/-- The bytes of an operation that is done: its head and its data padded to 4 bytes. -/
def opBytes (x : OdOp × Nat × Nat × Nat) : Nat × Nat :=
  let o := x.1
  let n := x.2.2.1
  (16 + roundUp n 4,
   o.op + o.last.toNat * 2 ^ 8 + x.2.1 * 2 ^ 16 + o.index * 2 ^ 32 + o.inst * 2 ^ 48 + o.sub * 2 ^ 64 + n * 2 ^ 72 + o.offset * 2 ^ 96 +
     (x.2.2.2 % 2 ^ (8 * n)) * 2 ^ 128)

/-- The operations of a response one after another: length and bytes. -/
def opsBytes : List (OdOp × Nat × Nat × Nat) → Nat × Nat
  | [] => (0, 0)
  | x :: r => let a := opBytes x; let b := opsBytes r; (a.1 + b.1, a.2 + b.2 * 2 ^ (8 * a.1))

/-- STATUS of a response: that of the first operation that failed. -/
def firstFail (l : List (OdOp × Nat × Nat × Nat)) : Nat := ((l.find? (fun x => x.2.1 != 0)).map (fun x => x.2.1)).getD 0

/-- A response to the request with header `h`: length and bytes, without a signature. -/
def State.responseBytes (s : State) (h st : Nat) (signed : Bool) (l : List (OdOp × Nat × Nat × Nat)) : Nat × Nat :=
  let b := opsBytes l
  (24 + b.1, philHeader 1 signed (phTxn h) st l.length (phCtr h) (s.rd D.DEVICE_SERIAL 0) + b.2 * 2 ^ 192)

/-! ### Responses on the management port (R352, R353) -/

/-- Kept responses of a source. -/
def State.keptOf (s : State) (mac : Nat) : List (Nat × Nat × Nat) := ((s.philKept.find? (fun e => e.1 == mac)).map (fun e => e.2)).getD []

/-- The kept responses of a source become `l`, and it is the most recently used of at most 4 (R352). -/
def State.keepAs (s : State) (mac : Nat) (l : List (Nat × Nat × Nat)) : State :=
  { s with philKept := ((mac, l) :: s.philKept.filter (fun e => e.1 != mac)).take 4 }

/-- A response is sent to its source, signed when the request was signed, and kept (R352, R353). -/
def State.philRespond (s : State) (mac h st : Nat) (l : List (OdOp × Nat × Nat × Nat)) : State :=
  let b := s.responseBytes h st (phSigned h) l
  let r := if phSigned h then (b.1 + 114, b.2 + (s.signBytes b.1 b.2 % 2 ^ 912) * 2 ^ (8 * b.1)) else b
  (s.keepAs mac (((phTxn h, r.1, r.2) :: s.keptOf mac).take 16)).philOut mac r.1 r.2

/-! ### Transactions (R336) -/

/-- Route and source of a transaction's operations. -/
def fromRoute : OdFrom → Route
  | .phil _ _ => .phildofel
  | .mailbox f => if h : 1 ≤ f ∧ f ≤ 16 then .hostVf ⟨f - 1, by omega⟩ else .hostPf
  | .gone f => if h : 1 ≤ f ∧ f ≤ 16 then .hostVf ⟨f - 1, by omega⟩ else .hostPf

def fromSrc (f : OdFrom) : SegSrc :=
  { route := fromRoute f, mac := match f with | .phil m _ => BitVec.ofNat 48 m | _ => 0 }

/-- A request of DEVICE_SERIAL 0 may hold this operation: READ and DESCRIBE of area 0x1000 (R351); a mailbox has no such limit. -/
def broadcastOk (f : OdFrom) (h : Nat) (o : OdOp) : Bool :=
  match f with
  | .phil _ _ => phSerial h != 0 || ((o.op == 1 || o.op == 5) && o.index / 0x1000 == 1)
  | _ => true

/-- One operation of a transaction is started. -/
def State.odOp (s : State) (r : OdRun) (o : OdOp) : State :=
  let a : ObjAddr := { index := BitVec.ofNat 16 o.index, inst := BitVec.ofNat 16 o.inst, sub := BitVec.ofNat 8 o.sub }
  let route := fromRoute r.src
  let v : OdVal := { len := o.len, val := o.data }
  if !broadcastOk r.src r.hdr o then s.odFail St.OD_ROUTE_DENIED
  else match o.op with
    | 1 => s.objRead a route
    | 2 => s.objWrite a { route := route, val := v } false
    | 3 => s.objReadSeg a route o.offset o.len
    | 4 => s.objWriteSeg (fromSrc r.src) a o.offset o.last v
    | _ => s.objDescribe a route

/-- A mailbox response is written, and vector 0 is sent (R323, R357). -/
def State.mailboxDone (s : State) (f h st : Nat) (l : List (OdOp × Nat × Nat × Nat)) : State :=
  let b := s.responseBytes h st false l
  (s.setFn f { (s.fn f) with mbx := 2, mbxLen := b.1, mbxRsp := b.2 }).msix f 0

/-- A transaction ends: its response is sent, and what waits for that follows. -/
def State.odEnd (s : State) (r : OdRun) : State :=
  let st := firstFail r.done
  let s := { s with odRun := none }
  let s := match r.src with
    | .phil mac _ => s.philRespond mac r.hdr st r.done
    | .mailbox f => s.mailboxDone f r.hdr st r.done
    | .gone _ => s
  s.afterOd

/-- The transaction runs until an operation waits or none is left; after a failure the rest carry OD_NOT_RUN (R336, R351). -/
def State.odGo : Nat → State → State
  | 0, s => s
  | n + 1, s =>
    match s.odRun with
    | none => s
    | some r =>
      match r.cur, r.result, r.todo with
      | some _, none, _ => s
      | some o, some x, _ => State.odGo n { s with odRun := some { r with cur := none, result := none, done := r.done ++ [(o, x)] } }
      | none, _, [] => s.odEnd r
      | none, _, o :: rest =>
        let t : State := { s with odRun := some { r with cur := some o, result := none, todo := rest } }
        State.odGo n (if firstFail r.done != 0 then t.odFail St.OD_NOT_RUN else t.odOp { r with cur := some o, todo := rest } o)

/-- Steps a transaction of at most 16 operations takes. -/
def odSteps : Nat := 40

/-- A transaction starts. -/
def State.odStart (s : State) (src : OdFrom) (h : Nat) (l : List OdOp) : State :=
  State.odGo odSteps { s with odRun := some { src := src, hdr := h, todo := l, cur := none, done := [], result := none } }

/-- Bytes the operations of a request occupy. -/
def opsSize (e : Nat) : Nat := e - 24

/-! ### The mailbox (R323, R357) -/

/-- A mailbox request reaches the controller. -/
def State.mailboxTake (s : State) (f len x : Nat) : State :=
  let x := x % 2 ^ (8 * len)
  let h := bytesOf x 0 24
  match parseMsg x len with
  | none => s.mailboxDone f h St.PHIL_BAD []
  | some (l, e) =>
    if 4096 < len || phKind h != 0 || phSigned h || !(phSerial h == 0 || phSerial h == s.rd D.DEVICE_SERIAL 0) || decide (4072 < opsSize e) then
      s.mailboxDone f h St.PHIL_BAD []
    else s.odStart (.mailbox f) h l

/-- MAILBOX_REQUEST (R323): a doorbell while busy is ignored; the request waits while the controller is busy (R336). -/
def execMailboxRequest (f : Fin 17) (len request : Nat) (s : State) : Host.Outcome State Fault Refusal :=
  if !s.odUp || !s.fnPresent f || (s.fn f).mbx == 1 then .next s
  else
    let s := s.setFn f { (s.fn f) with mbx := 1 }
    if s.odBusy || !s.backlog.isEmpty then .next { s with backlog := s.backlog ++ [.mailboxRequest f len request] }
    else .next (s.mailboxTake f len request)

/-! ### Frames (R348 to R356) -/

/-- Step 1 of R351: the frame is for this device and well formed for its port (Table 13.7). -/
def State.frameMine (s : State) (fr : EthFrame) : Bool :=
  let d := fr.dst.toNat
  let ser := phSerial (bytesOf fr.payload.val 0 24)
  !fr.tagged && decide (46 ≤ fr.payload.len ∧ fr.payload.len ≤ 1500) && fr.etype.toNat == s.cur D.PHIL_ETHERTYPE 0 &&
    (d == s.rd D.MGMT_MAC 0 || d == 0xFFFFFFFFFFFF || d == 0x191B01) && (ser == 0 || ser == s.rd D.DEVICE_SERIAL 0)

/-- The signature after byte `e` verifies under an installed key, over the bytes before it and BOOT_NONCE (R353). -/
def State.sigGood (s : State) (x e : Nat) : Bool :=
  let msg := bytesOf x 0 e + s.rd D.BOOT_NONCE 0 * 2 ^ (8 * e)
  (List.range 4).any (fun k => s.rdLen D.MGMT_PUBKEY k != 0 && ed448Verify (s.rd D.MGMT_PUBKEY k) (e + 8) msg (bytesOf x e 114))

/-- An unsigned request may hold this operation: reads as PHIL_READ_AUTH allows (R353), and a WRITE of MGMT_PUBKEY while no key is installed and
the lock is off (R354). -/
def State.unsignedOk (s : State) (o : OdOp) : Bool :=
  if opHasData o.op then o.op == 2 && o.index == 0xB010 && !s.anyKey && !s.rdB D.CONFIG_LOCK 0
  else !s.rdB D.PHIL_READ_AUTH 0 || o.index / 0x1000 == 1

/-- Authentication (R353): 0 when the request may run. -/
def State.philAuth (s : State) (x e : Nat) (l : List OdOp) : Bool :=
  let h := bytesOf x 0 24
  if phSigned h then s.sigGood x e && decide (s.rd D.PHIL_SESSION_CTR 0 < phCtr h) else l.all s.unsignedOk

/-- An acknowledgement clears the events up to its counter (R355); while a key is installed it counts only when its signature verifies. -/
def State.eventsAck (s : State) (x e : Nat) : State :=
  let h := bytesOf x 0 24
  if s.anyKey && !(phSigned h && s.sigGood x e) then s
  else { s with events := s.events.filter (fun v => decide (phCtr h < v.seq)) }

/-- A frame reaches the controller: steps 2 to 5 of R351. -/
def State.frameTake (s : State) (fr : EthFrame) : State :=
  let mac := fr.src.toNat
  let x := fr.payload.val % 2 ^ (8 * fr.payload.len)
  let h := bytesOf x 0 24
  match parseMsg x fr.payload.len with
  | none => s.philRespond mac h St.PHIL_BAD []
  | some (l, e) =>
    if 1362 < opsSize e then s.philRespond mac h St.PHIL_BAD []
    else if phKind h = 3 then s.eventsAck x e
    else match (s.keptOf mac).find? (fun k => k.1 == phTxn h) with
      | some k => (s.keepAs mac (s.keptOf mac)).philOut mac k.2.1 k.2.2
      | none =>
        if !s.philAuth x e l then (s.count D.PHIL_AUTH_FAIL 0 1).philRespond mac h St.PHIL_AUTH []
        else (if phSigned h then s.wr D.PHIL_SESSION_CTR 0 (phCtr h) else s).odStart (.phil mac (phSigned h)) h l

/-- The frame repeats the transaction that runs (R352). -/
def State.repeatsRun (s : State) (fr : EthFrame) : Bool :=
  let x := fr.payload.val % 2 ^ (8 * fr.payload.len)
  match s.odRun with
  | some r =>
    (match r.src with
    | .phil mac _ => mac == fr.src.toNat && phTxn r.hdr == phTxn (bytesOf x 0 24) && phKind (bytesOf x 0 24) == 0 && (parseMsg x fr.payload.len).isSome
    | _ => false)
  | none => false

/-- Frames that wait ahead of the controller (R356). -/
def State.framesWaiting (s : State) : Nat :=
  (s.backlog.filter (fun c => match c with | .phildofelRequest _ => true | .eventAck _ => true | _ => false)).length

/-- A frame arrives at the management port; `c` is the command that brings it. -/
def State.frameIn (s : State) (c : Instr) (fr : EthFrame) : State :=
  if !s.odUp || s.rd D.MGMT_LINK_STATE 0 != 2 || !s.frameMine fr || s.repeatsRun fr then s
  else if s.odBusy || !s.backlog.isEmpty then
    (if 32 ≤ s.framesWaiting then s.count D.PHIL_RX_DROPPED 0 1 else { s with backlog := s.backlog ++ [c] })
  else s.frameTake fr

/-- PHILDOFEL_REQUEST (R351). -/
def execPhildofelRequest (fr : EthFrame) (s : State) : Host.Outcome State Fault Refusal := .next (s.frameIn (.phildofelRequest fr) fr)

/-- EVENT_ACK (R355). -/
def execEventAck (fr : EthFrame) (s : State) : Host.Outcome State Fault Refusal := .next (s.frameIn (.eventAck fr) fr)

/-- PHIL_EVENT_RESEND (R355): the event sent longest ago is sent again, or dropped after 10 sends. The queue is in the order of the last sends. -/
def execPhilEventResend (s : State) : Host.Outcome State Fault Refusal :=
  match s.events with
  | [] => .next s
  | e :: r =>
    if s.uttexPause || e.sends == 0 then .next s
    else if 10 ≤ e.sends then .next (({ s with events := r } : State).count D.PHIL_EVENT_DROPPED 0 1)
    else .next (({ s with events := r ++ [{ e with sends := e.sends + 1 }] } : State).sendEvent e)

/-- MGMT_LINK_CHANGE (R348). -/
def execMgmtLinkChange (st : MgmtLink) (s : State) : Host.Outcome State Fault Refusal :=
  .next (if s.boot.pin || s.boot.down.isSome then s
         else s.wr D.MGMT_LINK_STATE 0 (match st with | .down => 0 | .negotiating => 1 | .up => 2))

end Sys2Proof.Machine
end

