-- ==== Sys2Proof/Machine/Requests.lean ====
section
/-! DEFINITION. The data-path messages of an attach port (R55, R96, R116, R260, R266). -/

namespace Sys2Proof.Machine

/-- READ (R260). -/
def execRead (i : Fin 512) (m : Msg) (s : State) : Host.Outcome State Fault Refusal := .next (s.attachOp i m 1)

/-- WRITE, doorbell writes included (R260, R28). -/
def execWrite (i : Fin 512) (m : Msg) (s : State) : Host.Outcome State Fault Refusal := .next (s.attachOp i m 2)

/-- ATOMIC (R116). -/
def execAtomic (i : Fin 512) (m : Msg) (s : State) : Host.Outcome State Fault Refusal := .next (s.attachOp i m 3)

/-- PREFETCH (R260). -/
def execPrefetch (i : Fin 512) (m : Msg) (s : State) : Host.Outcome State Fault Refusal := .next (s.attachOp i m 4)

/-- FMT_READ (R96). -/
def execFmtRead (i : Fin 512) (m : Msg) (s : State) : Host.Outcome State Fault Refusal := .next (s.attachOp i m 5)

/-- FMT_WRITE (R96). -/
def execFmtWrite (i : Fin 512) (m : Msg) (s : State) : Host.Outcome State Fault Refusal := .next (s.attachOp i m 6)

/-- SCALED_ACC (R96). -/
def execScaledAcc (i : Fin 512) (m : Msg) (s : State) : Host.Outcome State Fault Refusal := .next (s.attachOp i m 7)

/-- FENCE (R266). -/
def execFence (i : Fin 512) (m : Msg) (s : State) : Host.Outcome State Fault Refusal := .next (s.attachOp i m 9)

end Sys2Proof.Machine
end

