-- ==== Sys2Proof/Machine/Dispatch.lean ====
section
/-! DEFINITION. One arm per command: a direct call of its meaning. -/

namespace Sys2Proof.Machine

/-- The effect of a command on everything but the queue. -/
def exec (i : Instr) (s : State) : Host.Outcome State Fault Refusal :=
  match i with
  | .read n m => Sys2Proof.Machine.execRead n m s
  | .write n m => Sys2Proof.Machine.execWrite n m s
  | .atomic n m => Sys2Proof.Machine.execAtomic n m s
  | .prefetch n m => Sys2Proof.Machine.execPrefetch n m s
  | .fmtRead n m => Sys2Proof.Machine.execFmtRead n m s
  | .fmtWrite n m => Sys2Proof.Machine.execFmtWrite n m s
  | .scaledAcc n m => Sys2Proof.Machine.execScaledAcc n m s
  | .range src => Sys2Proof.Machine.execRange src s
  | .fence n m => Sys2Proof.Machine.execFence n m s
  | .formatSet src => Sys2Proof.Machine.execFormatSet src s
  | .ringWrite src => Sys2Proof.Machine.execRingWrite src s
  | .ringRead src => Sys2Proof.Machine.execRingRead src s
  | .sweep src => Sys2Proof.Machine.execSweep src s
  | .launch src => Sys2Proof.Machine.execLaunch src s
  | .launchCancel src => Sys2Proof.Machine.execLaunchCancel src s
  | .gateRead src => Sys2Proof.Machine.execGateRead src s
  | .attachDataFlit n flit => Sys2Proof.Machine.execAttachDataFlit n flit s
  | .attachParamFlit n flit => Sys2Proof.Machine.execAttachParamFlit n flit s
  | .attachNullFlit n flit => Sys2Proof.Machine.execAttachNullFlit n flit s
  | .attachResetTimer n => Sys2Proof.Machine.execAttachResetTimer n s
  | .attachTrainDone n => Sys2Proof.Machine.execAttachTrainDone n s
  | .attachTrainTimeout n => Sys2Proof.Machine.execAttachTrainTimeout n s
  | .attachParamTimeout n => Sys2Proof.Machine.execAttachParamTimeout n s
  | .attachPortReset n w => Sys2Proof.Machine.execAttachPortReset n w s
  | .attachResetDrainEnd n => Sys2Proof.Machine.execAttachResetDrainEnd n s
  | .ntfSend n => Sys2Proof.Machine.execNtfSend n s
  | .vfReq n frame => Sys2Proof.Machine.execVfReq n frame s
  | .vfDone n frame => Sys2Proof.Machine.execVfDone n frame s
  | .vfDoneTimeout n => Sys2Proof.Machine.execVfDoneTimeout n s
  | .railQuery n frame mv deciAmp => Sys2Proof.Machine.execRailQuery n frame mv deciAmp s
  | .portQuery n frame => Sys2Proof.Machine.execPortQuery n frame s
  | .sidebandAck n frame => Sys2Proof.Machine.execSidebandAck n frame s
  | .sidebandResend n => Sys2Proof.Machine.execSidebandResend n s
  | .railSettled n k => Sys2Proof.Machine.execRailSettled n k s
  | .siteSeqGapExpiry n => Sys2Proof.Machine.execSiteSeqGapExpiry n s
  | .railDroop n k mv => Sys2Proof.Machine.execRailDroop n k mv s
  | .sdroopRelease n mvs => Sys2Proof.Machine.execSdroopRelease n mvs s
  | .currentLimitHold n k us => Sys2Proof.Machine.execCurrentLimitHold n k us s
  | .siteFault n conditions => Sys2Proof.Machine.execSiteFault n conditions s
  | .sitePower n w => Sys2Proof.Machine.execSitePower n w s
  | .siteOpp j w => Sys2Proof.Machine.execSiteOpp j w s
  | .sitePmax n w => Sys2Proof.Machine.execSitePmax n w s
  | .siteRails n w => Sys2Proof.Machine.execSiteRails n w s
  | .railVmin j w => Sys2Proof.Machine.execRailVmin j w s
  | .railVmax j w => Sys2Proof.Machine.execRailVmax j w s
  | .railDieCap j w => Sys2Proof.Machine.execRailDieCap j w s
  | .sliceRead rid tag data => Sys2Proof.Machine.execSliceRead rid tag data s
  | .sliceWrite rid tag => Sys2Proof.Machine.execSliceWrite rid tag s
  | .sliceAtomic rid tag data => Sys2Proof.Machine.execSliceAtomic rid tag data s
  | .slicePrefetch rid tag => Sys2Proof.Machine.execSlicePrefetch rid tag s
  | .formatOnRead rid => Sys2Proof.Machine.execFormatOnRead rid s
  | .formatOnWrite rid => Sys2Proof.Machine.execFormatOnWrite rid s
  | .scaledAccumulate rid => Sys2Proof.Machine.execScaledAccumulate rid s
  | .rangePart rid => Sys2Proof.Machine.execRangePart rid s
  | .rangePartDone rid => Sys2Proof.Machine.execRangePartDone rid s
  | .lineFill sl line => Sys2Proof.Machine.execLineFill sl line s
  | .replayRetry sl => Sys2Proof.Machine.execReplayRetry sl s
  | .writebackIssued sl line => Sys2Proof.Machine.execWritebackIssued sl line s
  | .writebackAck sl line => Sys2Proof.Machine.execWritebackAck sl line s
  | .atomicBusyClear sl line => Sys2Proof.Machine.execAtomicBusyClear sl line s
  | .hotLineInterval sl => Sys2Proof.Machine.execHotLineInterval sl s
  | .hotBufferApply sl line => Sys2Proof.Machine.execHotBufferApply sl line s
  | .sliceFail sl => Sys2Proof.Machine.execSliceFail sl s
  | .spareAdoptionSwitch sl => Sys2Proof.Machine.execSpareAdoptionSwitch sl s
  | .sliceRetire sl w => Sys2Proof.Machine.execSliceRetire sl w s
  | .retireWalkEnd sl => Sys2Proof.Machine.execRetireWalkEnd sl s
  | .tagPeekSelect sl w => Sys2Proof.Machine.execTagPeekSelect sl w s
  | .reductionUnitApply sl => Sys2Proof.Machine.execReductionUnitApply sl s
  | .winInstall src => Sys2Proof.Machine.execWinInstall src s
  | .winWithdraw src => Sys2Proof.Machine.execWinWithdraw src s
  | .faultDeny src => Sys2Proof.Machine.execFaultDeny src s
  | .faultStallExpiry rid => Sys2Proof.Machine.execFaultStallExpiry rid s
  | .withdrawalAck p => Sys2Proof.Machine.execWithdrawalAck p s
  | .drainLimitExpiry p => Sys2Proof.Machine.execDrainLimitExpiry p s
  | .partEnable p w => Sys2Proof.Machine.execPartEnable p w s
  | .partDomain p w => Sys2Proof.Machine.execPartDomain p w s
  | .portPartition n w => Sys2Proof.Machine.execPortPartition n w s
  | .tePartition t w => Sys2Proof.Machine.execTePartition t w s
  | .pfDataPartition w => Sys2Proof.Machine.execPfDataPartition w s
  | .rebindDrainExpiry r => Sys2Proof.Machine.execRebindDrainExpiry r s
  | .rebindStampSwitch r => Sys2Proof.Machine.execRebindStampSwitch r s
  | .linkPartMask n w => Sys2Proof.Machine.execLinkPartMask n w s
  | .srSeed w => Sys2Proof.Machine.execSrSeed w s
  | .flowSnapshot w => Sys2Proof.Machine.execFlowSnapshot w s
  | .flowSnapDone => Sys2Proof.Machine.execFlowSnapDone s
  | .flowClear w => Sys2Proof.Machine.execFlowClear w s
  | .doorbell rid => Sys2Proof.Machine.execDoorbell rid s
  | .descriptorFetch r => Sys2Proof.Machine.execDescriptorFetch r s
  | .descriptorStart r => Sys2Proof.Machine.execDescriptorStart r s
  | .teRequestDone r => Sys2Proof.Machine.execTeRequestDone r s
  | .descriptorComplete r => Sys2Proof.Machine.execDescriptorComplete r s
  | .gateWaitDone r => Sys2Proof.Machine.execGateWaitDone r s
  | .engineFail t => Sys2Proof.Machine.execEngineFail t s
  | .sweepLaunch p => Sys2Proof.Machine.execSweepLaunch p s
  | .sweepSliceLine p sl => Sys2Proof.Machine.execSweepSliceLine p sl s
  | .sweepComplete p => Sys2Proof.Machine.execSweepComplete p s
  | .sweepAbort p w => Sys2Proof.Machine.execSweepAbort p w s
  | .sweepTimeoutExpiry p => Sys2Proof.Machine.execSweepTimeoutExpiry p s
  | .sweepProgressRefresh p => Sys2Proof.Machine.execSweepProgressRefresh p s
  | .sweepGroup p w => Sys2Proof.Machine.execSweepGroup p w s
  | .gatherWrite n m => Sys2Proof.Machine.execGatherWrite n m s
  | .pseudoChannelIssue pc => Sys2Proof.Machine.execPseudoChannelIssue pc s
  | .hbmReadReturn pc e => Sys2Proof.Machine.execHbmReadReturn pc e s
  | .rowCloseTimeout pc bank => Sys2Proof.Machine.execRowCloseTimeout pc bank s
  | .stackTempSample m celsius => Sys2Proof.Machine.execStackTempSample m celsius s
  | .scrubStep c e => Sys2Proof.Machine.execScrubStep c e s
  | .initStep c => Sys2Proof.Machine.execInitStep c s
  | .stackTrain m o => Sys2Proof.Machine.execStackTrain m o s
  | .readTimingCheck pc inRange => Sys2Proof.Machine.execReadTimingCheck pc inRange s
  | .pdIdleExpiry c => Sys2Proof.Machine.execPdIdleExpiry c s
  | .selfRefreshExitDone c => Sys2Proof.Machine.execSelfRefreshExitDone c s
  | .hbmSelfRefresh c w => Sys2Proof.Machine.execHbmSelfRefresh c w s
  | .channelRetire c w => Sys2Proof.Machine.execChannelRetire c w s
  | .migrationUnitCopy c unreadable => Sys2Proof.Machine.execMigrationUnitCopy c unreadable s
  | .migrationEnd c => Sys2Proof.Machine.execMigrationEnd c s
  | .channelFail c => Sys2Proof.Machine.execChannelFail c s
  | .lapLoad w => Sys2Proof.Machine.execLapLoad w s
  | .lapLoadDone => Sys2Proof.Machine.execLapLoadDone s
  | .lapSwitch w => Sys2Proof.Machine.execLapSwitch w s
  | .lapTailStop => Sys2Proof.Machine.execLapTailStop s
  | .lapSwitchAtT => Sys2Proof.Machine.execLapSwitchAtT s
  | .lapUnload w => Sys2Proof.Machine.execLapUnload w s
  | .lapUnloadAtT => Sys2Proof.Machine.execLapUnloadAtT s
  | .lapResume w => Sys2Proof.Machine.execLapResume w s
  | .lapResumeAtT => Sys2Proof.Machine.execLapResumeAtT s
  | .lapSuspend => Sys2Proof.Machine.execLapSuspend s
  | .routerFail r => Sys2Proof.Machine.execRouterFail r s
  | .routeTableSwitch => Sys2Proof.Machine.execRouteTableSwitch s
  | .redFlagsClear f w => Sys2Proof.Machine.execRedFlagsClear f w s
  | .syncWord disagreeing => Sys2Proof.Machine.execSyncWord disagreeing s
  | .gateSource w => Sys2Proof.Machine.execGateSource w s
  | .timexDue n => Sys2Proof.Machine.execTimexDue n s
  | .timexRequest n m => Sys2Proof.Machine.execTimexRequest n m s
  | .timexReply n m => Sys2Proof.Machine.execTimexReply n m s
  | .timexFollowUp n m => Sys2Proof.Machine.execTimexFollowUp n m s
  | .gateStep => Sys2Proof.Machine.execGateStep s
  | .upstreamLossTimeout => Sys2Proof.Machine.execUpstreamLossTimeout s
  | .ptpSyncTimeout => Sys2Proof.Machine.execPtpSyncTimeout s
  | .holdoverLimitExpiry => Sys2Proof.Machine.execHoldoverLimitExpiry s
  | .ptpMessage m => Sys2Proof.Machine.execPtpMessage m s
  | .launchWake id => Sys2Proof.Machine.execLaunchWake id s
  | .launchAct id lateNs => Sys2Proof.Machine.execLaunchAct id lateNs s
  | .launchFrame n m => Sys2Proof.Machine.execLaunchFrame n m s
  | .launchResponse n m => Sys2Proof.Machine.execLaunchResponse n m s
  | .launchCancelFrame n m => Sys2Proof.Machine.execLaunchCancelFrame n m s
  | .launchCancelAnswer n m => Sys2Proof.Machine.execLaunchCancelAnswer n m s
  | .memGuarantee c w => Sys2Proof.Machine.execMemGuarantee c w s
  | .memGroupMask c w => Sys2Proof.Machine.execMemGroupMask c w s
  | .linkGuarantee c w => Sys2Proof.Machine.execLinkGuarantee c w s
  | .linkMask c w => Sys2Proof.Machine.execLinkMask c w s
  | .memEfficiency w => Sys2Proof.Machine.execMemEfficiency w s
  | .linkEfficiency w => Sys2Proof.Machine.execLinkEfficiency w s
  | .classMissMin c w => Sys2Proof.Machine.execClassMissMin c w s
  | .classMissMax c w => Sys2Proof.Machine.execClassMissMax c w s
  | .bwEstimateUpdate => Sys2Proof.Machine.execBwEstimateUpdate s
  | .linkPower n w => Sys2Proof.Machine.execLinkPower n w s
  | .linkOffDrainEnd n => Sys2Proof.Machine.execLinkOffDrainEnd n s
  | .linkBeacon n word crc => Sys2Proof.Machine.execLinkBeacon n word crc s
  | .linkPatternDone n => Sys2Proof.Machine.execLinkPatternDone n s
  | .linkLockDone n locked => Sys2Proof.Machine.execLinkLockDone n locked s
  | .laneBitslip n w => Sys2Proof.Machine.execLaneBitslip n w s
  | .linkEqDone n o => Sys2Proof.Machine.execLinkEqDone n o s
  | .linkCaps n partner => Sys2Proof.Machine.execLinkCaps n partner s
  | .linkMeasureDone n o => Sys2Proof.Machine.execLinkMeasureDone n o s
  | .linkPhaseTimeout n => Sys2Proof.Machine.execLinkPhaseTimeout n s
  | .linkLightLoss n => Sys2Proof.Machine.execLinkLightLoss n s
  | .laserLowDetect f centiDbm => Sys2Proof.Machine.execLaserLowDetect f centiDbm s
  | .linkRetryExpiry n => Sys2Proof.Machine.execLinkRetryExpiry n s
  | .linkIdleEntry n => Sys2Proof.Machine.execLinkIdleEntry n s
  | .linkIdleExit n => Sys2Proof.Machine.execLinkIdleExit n s
  | .linkRetrain n w => Sys2Proof.Machine.execLinkRetrain n w s
  | .linkBerInterval n lanes => Sys2Proof.Machine.execLinkBerInterval n lanes s
  | .linkRetrainDone n o => Sys2Proof.Machine.execLinkRetrainDone n o s
  | .linkFlit n lane decodes hdr body => Sys2Proof.Machine.execLinkFlit n lane decodes hdr body s
  | .linkAck n chunk => Sys2Proof.Machine.execLinkAck n chunk s
  | .schedStart n chunk u => Sys2Proof.Machine.execSchedStart n chunk u s
  | .linkRequest n m => Sys2Proof.Machine.execLinkRequest n m s
  | .linkRsp n m => Sys2Proof.Machine.execLinkRsp n m s
  | .linkRoute d w => Sys2Proof.Machine.execLinkRoute d w s
  | .linkRouteHoldExpiry d => Sys2Proof.Machine.execLinkRouteHoldExpiry d s
  | .linkQuarantineEnd n => Sys2Proof.Machine.execLinkQuarantineEnd n s
  | .linkSnapshot w => Sys2Proof.Machine.execLinkSnapshot w s
  | .hostMemoryRequest f q => Sys2Proof.Machine.execHostMemoryRequest f q s
  | .hostAtomicop f q op => Sys2Proof.Machine.execHostAtomicop f q op s
  | .faultRingWrite f p reg val => Sys2Proof.Machine.execFaultRingWrite f p reg val s
  | .faultRecordDeliver p => Sys2Proof.Machine.execFaultRecordDeliver p s
  | .mailboxRequest f len request => Sys2Proof.Machine.execMailboxRequest f len request s
  | .gateNow f half => Sys2Proof.Machine.execGateNow f half s
  | .vfEnable numVfs => Sys2Proof.Machine.execVfEnable numVfs s
  | .hostLinkTrained o => Sys2Proof.Machine.execHostLinkTrained o s
  | .hostLinkDown => Sys2Proof.Machine.execHostLinkDown s
  | .vfFlr v => Sys2Proof.Machine.execVfFlr v s
  | .pfFlr => Sys2Proof.Machine.execPfFlr s
  | .phildofelRequest fr => Sys2Proof.Machine.execPhildofelRequest fr s
  | .eventAck fr => Sys2Proof.Machine.execEventAck fr s
  | .philEventResend => Sys2Proof.Machine.execPhilEventResend s
  | .objectRead route a => Sys2Proof.Machine.execObjectRead route a s
  | .objectWrite a w => Sys2Proof.Machine.execObjectWrite a w s
  | .readSeg route a offset len => Sys2Proof.Machine.execReadSeg route a offset len s
  | .writeSeg src a offset last v => Sys2Proof.Machine.execWriteSeg src a offset last v s
  | .describe route a => Sys2Proof.Machine.execDescribe route a s
  | .storeCommit w => Sys2Proof.Machine.execStoreCommit w s
  | .storeDelayExpiry => Sys2Proof.Machine.execStoreDelayExpiry s
  | .commitDone o => Sys2Proof.Machine.execCommitDone o s
  | .storeDefaults w => Sys2Proof.Machine.execStoreDefaults w s
  | .configLock w => Sys2Proof.Machine.execConfigLock w s
  | .mgmtPubkey k w => Sys2Proof.Machine.execMgmtPubkey k w s
  | .powerOn xsd => Sys2Proof.Machine.execPowerOn xsd s
  | .xtalDelayExpiry count => Sys2Proof.Machine.execXtalDelayExpiry count s
  | .xtalRestart => Sys2Proof.Machine.execXtalRestart s
  | .fieldClockReq w => Sys2Proof.Machine.execFieldClockReq w s
  | .fieldClockSettled => Sys2Proof.Machine.execFieldClockSettled s
  | .pllUnlock f stopped => Sys2Proof.Machine.execPllUnlock f stopped s
  | .pllRelockAttempt f locks => Sys2Proof.Machine.execPllRelockAttempt f locks s
  | .clkForced k => Sys2Proof.Machine.execClkForced k s
  | .ckobsSelect w => Sys2Proof.Machine.execCkobsSelect w s
  | .ckobsDiv w => Sys2Proof.Machine.execCkobsDiv w s
  | .idleTimeout u sleep => Sys2Proof.Machine.execIdleTimeout u sleep s
  | .slicePowerMode sl w => Sys2Proof.Machine.execSlicePowerMode sl w s
  | .fieldPowerMode f w => Sys2Proof.Machine.execFieldPowerMode f w s
  | .chairliftAdmit elapsedNs => Sys2Proof.Machine.execChairliftAdmit elapsedNs s
  | .unitWakeDone u => Sys2Proof.Machine.execUnitWakeDone u s
  | .fieldTempSample f deciCelsius => Sys2Proof.Machine.execFieldTempSample f deciCelsius s
  | .powerLoss mv commit gotToEnd => Sys2Proof.Machine.execPowerLoss mv commit gotToEnd s
  | .inputRecovered => Sys2Proof.Machine.execInputRecovered s
  | .bootStageEnd o => Sys2Proof.Machine.execBootStageEnd o s
  | .fwBankProgrammed b valid img => Sys2Proof.Machine.execFwBankProgrammed b valid img s
  | .fwMinSvn w => Sys2Proof.Machine.execFwMinSvn w s
  | .moultCommand w => Sys2Proof.Machine.execMoultCommand w s
  | .moultUnitSwitch => Sys2Proof.Machine.execMoultUnitSwitch s
  | .moultReadyTimeout => Sys2Proof.Machine.execMoultReadyTimeout s
  | .defectAdd w => Sys2Proof.Machine.execDefectAdd w s
  | .resetSlice sl w => Sys2Proof.Machine.execResetSlice sl w s
  | .resetField f w => Sys2Proof.Machine.execResetField f w s
  | .resetPartition p w => Sys2Proof.Machine.execResetPartition p w s
  | .deviceReset w => Sys2Proof.Machine.execDeviceReset w s
  | .linkHoldReset w => Sys2Proof.Machine.execLinkHoldReset w s
  | .resetPin => Sys2Proof.Machine.execResetPin s
  | .uttexWatchdog => Sys2Proof.Machine.execUttexWatchdog s
  | .attestNonce w => Sys2Proof.Machine.execAttestNonce w s
  | .attestReportReady => Sys2Proof.Machine.execAttestReportReady s
  | .fieldCtrlFail f => Sys2Proof.Machine.execFieldCtrlFail f s
  | .faultOverflowClear p w => Sys2Proof.Machine.execFaultOverflowClear p w s
  | .faultLogWrite => Sys2Proof.Machine.execFaultLogWrite s
  | .faultLogSelect w => Sys2Proof.Machine.execFaultLogSelect w s
  | .stride => Sys2Proof.Machine.execStride s
  | .refresh pc bank => Sys2Proof.Machine.execRefresh pc bank s
  | .hbmRetrainDone pc => Sys2Proof.Machine.execHbmRetrainDone pc s
  | .linkTransmit n => Sys2Proof.Machine.execLinkTransmit n s
  | .partnerRetraining n => Sys2Proof.Machine.execPartnerRetraining n s
  | .mgmtLinkChange st => Sys2Proof.Machine.execMgmtLinkChange st s
  | .moultReady => Sys2Proof.Machine.execMoultReady s
  | .resetPinRelease => Sys2Proof.Machine.execResetPinRelease s
  | .linkSnapDone => Sys2Proof.Machine.execLinkSnapDone s

end Sys2Proof.Machine
end

