-- ==== Sys2Proof/Machine/Settle.lean ====
section
/-! DEFINITION. What the block does by itself when no command waits: requests, messages, transactions and resets that waited go on as far as they
can, and one stride of gate time passes (log 5). -/

namespace Sys2Proof.Machine

/-- Devices whose route set has changed and to which nothing is outstanding any more are released (R302). -/
def State.routesFree (s : State) : State := { s with routeHold := s.routeHold.filter (fun d => s.outTo d) }

/-- Held requests are admitted in the order they came (R247, R266, R315). -/
def State.admitAll (s : State) : State :=
  (s.reqList.filter (fun x => x.2.stage == .held)).foldl (fun t x => t.takeIn x.1) s

/-- The messages that ports hold go on (R48, R266). -/
def State.portsRun (s : State) : State :=
  (s.ports.filter (fun e => !e.2.held.isEmpty)).foldl (fun t e => State.portRun e.2.held.length t e.1) s

/-- Partial resets go on (R402, R403). -/
def State.resetsOn (s : State) : State := s.boot.resets.foldl (fun t x => t.resetOn x) s

/-- A live change whose unit has ended its moult is carried out (R396). -/
def State.liveRun (s : State) : State :=
  match s.boot.live with
  | none => s
  | some (k, i, w) =>
    match findObj (k / 256) (k % 256) with
    | none => s
    | some o => if s.liveWaits o i w then s else ({ s with boot := { s.boot with live := none } } : State).own o i w

/-- Events raised while the controller was paused are sent (Table 15.7). -/
def State.eventsOut (s : State) : State :=
  if s.uttexPause then s
  else
    let l := s.events.filter (fun e => e.sends == 0)
    l.foldl (fun t e => t.sendEvent e) { s with events := s.events.map (fun e => { e with sends := max e.sends 1 }) }

/-- A command that waited for the controller reaches it (R336). -/
def State.rerun (s : State) (c : Instr) : State :=
  match c with
  | .mailboxRequest f len x => s.mailboxTake f len x
  | .phildofelRequest fr => s.frameTake fr
  | .eventAck fr => s.frameTake fr
  | c => match exec c s with
    | .next t => t
    | _ => s

/-- The commands that wait for the controller reach it in order, until one of them waits for its completion (R336). -/
def State.drainBacklog : Nat → State → State
  | 0, s => s
  | n + 1, s =>
    if s.odBusy then s
    else match s.backlog with
      | [] => s
      | c :: r =>
        let t := ({ s with backlog := [] } : State).rerun c
        State.drainBacklog n { t with backlog := t.backlog ++ r }

/-- The object dictionary goes on: the live change, the transaction, a commit that is due, and the commands behind it. -/
def State.odSettle (s : State) : State :=
  let s := State.odGo odSteps s.liveRun
  let s := s.afterOd.commitNext
  State.drainBacklog s.backlog.length s

/-- Everything that waited goes on as far as it can. -/
def State.settle (s : State) : State := s.routesFree.admitAll.portsRun.forwardAgain.resetsOn.eventsOut.odSettle

/-- The block with no command waiting: what waited goes on, the routers take one stride, and gate time passes one count (log 5). -/
def State.idle (s : State) : State := s.settle.strideMove.tickGate

end Sys2Proof.Machine
end

