-- ==== Sys2Proof/Safety.lean ====
section
/-! DEFINITION. What the statements are said in: the invariant of every step, and what a command leaves as it was. -/

namespace Sys2Proof.Machine

/-- The forms every step keeps: memory and the poison map are canonical (log 2), at most 256 events wait for their acknowledgement (R355) and at
most 256 log entries wait to be written (R430). -/
def Formed (s : State) : Bool :=
  Memory.wf s.mem && Table.wf false s.poison && decide (s.events.length ≤ 256) && decide (s.flogWait.length ≤ 256)

/-- As far as object values go, `t` differs from `s` in the listed (object key, instance) pairs alone. -/
def ObjsBut (s t : State) (l : List (Nat × Nat)) : Prop := ∀ o j, (objKey o, j) ∉ l → t.rd o j = s.rd o j

/-- The controller of the object dictionary runs, and no command is in front of a new one (R336, R388). -/
def State.odFree (s : State) : Bool := s.odUp && !s.odBusy && s.backlog.isEmpty

/-- A write of object `o`, instance `i`, reaches its owner's rules: the controller is free, steps 1 to 9 of Table 13.3 pass, and no moult of its unit
holds it back (R335, R396). -/
def State.takes (s : State) (o : Obj) (i : Nat) (w : OdWrite) : Bool :=
  s.odFree && s.odCheck o i w false == 0 && !s.liveWaits o i w

/-- The pairs a write of a Stored object changes beside its own (R338). -/
def storeCells (o : Obj) : List (Nat × Nat) := if o.stored then [(objKey D.STORE_STATE, 0)] else []

/-- `t` is `s` after a plain write: the object has its value, a Stored one is pending in the object store or part of a commit that has begun, success
has been answered, and nothing else has changed (R336, R338). -/
structure Sets (s t : State) (o : Obj) (i v : Nat) : Prop where
  value : t.rd o i = v
  pend : o.stored = true → s.mram.sealed = false → t.mram.dirty = true ∨ t.mram.commit ≠ none
  answer : t.out = s.out ++ [.od 0 0 0]
  objs : ObjsBut s t ((objKey o, i) :: storeCells o)
  lens : ∀ o' j, (objKey o', j) ≠ (objKey o, i) → t.rdLen o' j = s.rdLen o' j
  rest : t = { s with objs := t.objs, lens := t.lens, mram := if o.stored then t.mram else s.mram, out := t.out }

/-- `t` is `s` with nothing changed but what has been sent: the answer of a refused object access. -/
def Refuses (s t : State) (st : Nat) : Prop := t = { s with out := s.out ++ [.od st 0 0] }

/-- The commands that are accesses of the object dictionary: they reach its controller at once, or wait their turn (R336). -/
def objectCommand : Instr → Bool
  | .range (.object _ _) => true
  | .formatSet (.object _ _) => true
  | .ringWrite (.object _ _) => true
  | .ringRead (.object _ _) => true
  | .sweep (.object _ _) => true
  | .launch (.object _ _) => true
  | .launchCancel (.object _ _) => true
  | .gateRead (.object _ _) => true
  | .attachPortReset _ _ => true
  | .sitePower _ _ => true
  | .siteOpp _ _ => true
  | .sitePmax _ _ => true
  | .siteRails _ _ => true
  | .railVmin _ _ => true
  | .railVmax _ _ => true
  | .railDieCap _ _ => true
  | .sliceRetire _ _ => true
  | .tagPeekSelect _ _ => true
  | .winInstall (.object _ _) => true
  | .winWithdraw (.object _ _) => true
  | .faultDeny (.object _ _) => true
  | .partEnable _ _ => true
  | .partDomain _ _ => true
  | .portPartition _ _ => true
  | .tePartition _ _ => true
  | .pfDataPartition _ => true
  | .linkPartMask _ _ => true
  | .srSeed _ => true
  | .flowSnapshot _ => true
  | .flowClear _ => true
  | .sweepAbort _ _ => true
  | .sweepGroup _ _ => true
  | .hbmSelfRefresh _ _ => true
  | .channelRetire _ _ => true
  | .lapLoad _ => true
  | .lapSwitch _ => true
  | .lapUnload _ => true
  | .lapResume _ => true
  | .redFlagsClear _ _ => true
  | .gateSource _ => true
  | .memGuarantee _ _ => true
  | .memGroupMask _ _ => true
  | .linkGuarantee _ _ => true
  | .linkMask _ _ => true
  | .memEfficiency _ => true
  | .linkEfficiency _ => true
  | .classMissMin _ _ => true
  | .classMissMax _ _ => true
  | .linkPower _ _ => true
  | .laneBitslip _ _ => true
  | .linkRetrain _ _ => true
  | .linkRoute _ _ => true
  | .linkSnapshot _ => true
  | .objectRead _ _ => true
  | .objectWrite _ _ => true
  | .readSeg _ _ _ _ => true
  | .writeSeg _ _ _ _ _ => true
  | .describe _ _ => true
  | .storeCommit _ => true
  | .storeDefaults _ => true
  | .configLock _ => true
  | .mgmtPubkey _ _ => true
  | .fieldClockReq _ => true
  | .ckobsSelect _ => true
  | .ckobsDiv _ => true
  | .slicePowerMode _ _ => true
  | .fieldPowerMode _ _ => true
  | .fwMinSvn _ => true
  | .moultCommand _ => true
  | .defectAdd _ => true
  | .resetSlice _ _ => true
  | .resetField _ _ => true
  | .resetPartition _ _ => true
  | .deviceReset _ => true
  | .linkHoldReset _ => true
  | .attestNonce _ => true
  | .faultOverflowClear _ _ => true
  | .faultLogSelect _ => true
  | _ => false

/-- As far as object values go, `t` differs from `s` in the objects of the listed keys alone. -/
def KeysBut (s t : State) (l : List Nat) : Prop := ∀ o j, objKey o ∉ l → t.rd o j = s.rd o j

/-- `t` differs from `s` in object values, the event queue, the waiting log entries and what has been sent, and in nothing else. -/
def Reports (s t : State) : Prop :=
  t = { s with objs := t.objs, events := t.events, eventSeq := t.eventSeq, flogWait := t.flogWait, out := t.out }

/-- A message reaches an ACTIVE port within the credit granted, and nothing at the port makes it wait (R256, R266). -/
def messageComes (s : State) (i : Nat) (m : Msg) : Bool :=
  s.rd D.ATTACH_STATE i == 4 &&
    decide ((((s.port i).reqRx + msgChunks m) % 2 ^ 16 + 2 ^ 16 - (s.port i).reqFreed) % 2 ^ 16 ≤ s.cur D.ATTACH_REQ_CREDITS i) && !s.portWaits i

/-- Its tag is free and its frame is that of operation `op`, so that it runs (steps 1 to 3 of R263). -/
def messageRuns (s : State) (i : Nat) (m : Msg) (op : Nat) : Bool :=
  messageComes s i m && !(s.portTags i).contains (mhTag m.hdr.toNat) && frameOk m op

/-- The state with the chunks of a message counted against the port's credit (R256). -/
def received (s : State) (i : Nat) (m : Msg) : State :=
  s.setPort i { s.port i with reqRx := ((s.port i).reqRx + msgChunks m) % 2 ^ 16 }

/-- A header write of the host starts a command: the function exists, its slot is not busy, OWN is set and the header is right for operation `op`
(R319, R320). -/
def hostRuns (s : State) (f slot h op : Nat) : Bool :=
  s.fnPresent f && !(Table.get Slot.init slot (s.fn f).slots).own && bit h 7 && hcStatus f h op == 0

/-- The state with a command's header and payload in its slot (R319). -/
def hostTaken (s : State) (f slot h payload : Nat) : State :=
  s.setFn f { s.fn f with
    slots := Table.set Slot.init slot { Table.get Slot.init slot (s.fn f).slots with own := bit h 7, hdr := h, payload := payload } (s.fn f).slots }

/-- Request `rid` of kind `kind` stands at its slice: it needs no splitting, its lines lie at `p` by the plan `pl`, no slice is being retired, and the
slice works and is awake (R55, R71, R370). -/
structure AtSlice (s : State) (rid : Nat) (r : Req) (pl : Plan) (p : Loc) (kind : ReqKind) : Prop where
  req : s.req? rid = some r
  stage : r.stage = .slice
  kind_eq : r.kind = kind
  one : crossesLine r = false
  plan : s.plan r = some pl
  donor : s.inDonor pl.h (pl.line * 128) = false
  still : s.retiring = []
  loc : s.planLoc pl = some p
  works : (s.cache p.key).failed = false
  awake : s.sliceUp p.n = (s, true)

/-- The request meets its one line in the cache with every sector it needs, and nothing is in its way (R57, R60, R72). -/
structure Hits (s : State) (rid : Nat) (r : Req) (pl : Plan) (p : Loc) (ln : Line) : Prop where
  cnt : pl.cnt = 1
  lines : pl.lines = [0]
  plain : isFmt r = false
  free : s.fmtWaiting rid pl.h pl.line pl.line = false
  idle : s.busyLine p pl = false
  cold : isHot (s.cache p.key) p = false
  empty : hotBufOf (s.cache p.key) p = none
  noMiss : missFind (s.cache p.key) p.line p.src p.dist = none
  line : ∃ k, tagFind (s.cache p.key) p.line p.src p.dist = some (k, ln)
  sectors : pl.need &&& (3 - ln.valid) = 0

/-- A frame of a site's die with this type arrives over a live sideband with a good CRC, and is no repetition of the last one (R269). -/
def frameNew (s : State) (n : Nat) (frame : BitVec 64) (ty : Nat) : Bool :=
  s.sbLive n && bits frame.toNat 7 0 == ty && sbCrc (frame.toNat % 2 ^ 56) == bits frame.toNat 63 56 &&
    (s.site n).lastSeq != some (sbSeq frame.toNat)

/-- `t` is `s` after a write that R237 admits: the object has its value, success has been answered, and of the other objects only the store's state, the
capacities and scales of the points, and the counts of dropped reports may differ. -/
structure Admits (s t : State) (o : Obj) (i v : Nat) : Prop where
  value : t.rd o i = v
  answer : t.out.getLast? = some (.od 0 0 0)
  others : KeysBut s t (objKey o :: (objKey D.STORE_STATE :: [objKey D.MEM_CAPACITY, objKey D.MEM_SCALE, objKey D.LINK_CAPACITY, objKey D.LINK_SCALE,
    objKey D.PHIL_EVENT_DROPPED, objKey D.FAULT_LOG_DROPPED]))

end Sys2Proof.Machine
end

