-- ==== Sys2Proof/Certificates/Slice0/Obligations.lean ====
section
/-! DEFINITION. The statements, from the spec's rules: every command's own effect and what it leaves, by family, and what every step keeps. -/

open Sys2Proof Sys2Proof.Machine

/-- A step takes the command at the front of the queue and runs it on the state with the queue's rest. -/
def Obligations.StepRunsTheFrontCommand : Prop :=
  ∀ (s : State) (c : Instr) (rest : List Instr), s.pending = c :: rest → step s = exec c { s with pending := rest }

/-- On an empty queue the block goes on by itself for one stride of gate time (the model's choice, log 5). -/
def Obligations.EmptyQueueLetsTimePass : Prop :=
  ∀ s : State, s.pending = [] → step s = .next s.idle ∧
    (s.settle.strideMove.gateRun = true → s.idle.gate = (s.settle.strideMove.gate + 1) % 2 ^ 64) ∧
    (s.settle.strideMove.gateRun = false → s.idle.gate = s.settle.strideMove.gate)

/-- No command and no state stops the block: every step answers a next state. -/
def Obligations.EveryStepAnswersANextState : Prop := ∀ s : State, ∃ t, step s = .next t

/-- Every step keeps memory and the poison map canonical, and the event and log queues within 256 entries. -/
def Obligations.EveryStepKeepsTheInvariant : Prop := ∀ s t : State, Formed s = true → step s = .next t → Formed t = true

/-- The invariant holds after reset. -/
def Obligations.ResetHasTheInvariant : Prop := Formed State.reset = true

/-- A step changes no fuse, takes one command from the queue, and unsends nothing. -/
def Obligations.EveryStepKeepsFusesQueueAndHistory : Prop :=
  ∀ s t : State, step s = .next t → t.variant = s.variant ∧ t.pending = s.pending.tail ∧ s.out <+: t.out ∧ s.freeCtr ≤ t.freeCtr

/-- After reset every object reads its default, memory reads zero, and no request, event or command waits. -/
def Obligations.ResetState : Prop :=
  (∀ o i, State.reset.rd o i = o.dflt .hn8f i) ∧ (∀ a, State.reset.byteAt a = 0) ∧ (∀ a, State.reset.poisonAt a = false) ∧
    State.reset.reqList = [] ∧ State.reset.events = [] ∧ State.reset.pending = [] ∧ State.reset.gateRun = false ∧
    State.reset.rd D.BOOT_STAGE 0 = 0

/-- An object reads what was last written to it, and a write of one object changes no other. -/
def Obligations.ObjectReadsWhatWasWritten : Prop :=
  ∀ (s : State) (o : Obj) (i v : Nat), (s.wr o i v).rd o i = v ∧ ObjsBut s (s.wr o i v) [(objKey o, i)] ∧
    s.wr o i v = { s with objs := (s.wr o i v).objs }

/-- A byte of HBM reads what was last stored to it, and a store changes no other byte. -/
def Obligations.MemoryReadsWhatWasStored : Prop :=
  ∀ (s : State) (a n v b : Nat), (s.store a n v).byteAt b = if a ≤ b ∧ b < a + n then v / 256 ^ (b - a) % 256 else s.byteAt b

/-- An object command does nothing before stage 3, and waits its turn while the controller is busy. -/
def Obligations.ObjectCommandsWaitForTheController : Prop :=
  ∀ (c : Instr) (s : State), objectCommand c = true →
    (s.odUp = false → exec c s = .next s) ∧
    (s.odUp = true → (s.odBusy || !s.backlog.isEmpty) = true → exec c s = .next { s with backlog := s.backlog ++ [c] })

/-- A refused object write answers the failing step of Table 13.3 and changes no object. -/
def Obligations.ObjectWriteRefusals : Prop :=
  (∀ (a : ObjAddr) (w : OdWrite) (s : State), s.odFree = true → s.boot.ask = none → findObj a.index.toNat a.sub.toNat = none →
    exec (.objectWrite a w) s = .next (({ s with out := s.out ++ [.od St.OD_NO_OBJECT 0 0] } : State).enforce D.PHIL_ETHERTYPE 0)) ∧
  (∀ (a : ObjAddr) (w : OdWrite) (o : Obj) (st : Nat) (s : State), s.odFree = true → s.boot.ask = none →
    findObj a.index.toNat a.sub.toNat = some o → s.odCheck o a.inst.toNat w false = st → st ≠ 0 → st ≠ St.UNIT_ABSENT →
    exec (.objectWrite a w) s = .next (({ s with out := s.out ++ [.od st 0 0] } : State).enforce D.PHIL_ETHERTYPE 0)) ∧
  (∀ (a : ObjAddr) (w : OdWrite) (o : Obj) (s : State), s.odFree = true → s.boot.ask = none →
    findObj a.index.toNat a.sub.toNat = some o → s.odCheck o a.inst.toNat w false = St.UNIT_ABSENT →
    exec (.objectWrite a w) s =
      .next (({ s.count D.UNIT_ABSENT_COUNT 0 1 with out := s.out ++ [.od St.UNIT_ABSENT 0 0] } : State).enforce D.PHIL_ETHERTYPE 0))

/-- The checks of an object write come in the order of Table 13.3. -/
def Obligations.ObjectWriteChecksInOrder : Prop :=
  ∀ (o : Obj) (i : Nat) (w : OdWrite) (seg : Bool) (s : State),
    ((if o.insts = 0 then i != 0 else decide (o.insts ≤ i)) = true → s.odCheck o i w seg = St.OD_NO_OBJECT) ∧
    ((if o.insts = 0 then i != 0 else decide (o.insts ≤ i)) = false → unitPresent s.variant o.unit i = false → s.odCheck o i w seg = St.UNIT_ABSENT) ∧
    (s.odPresent o i = 0 → accessWrite o.acc ≠ 0 → s.odCheck o i w seg = St.OD_READ_ONLY) ∧
    (s.odPresent o i = 0 → accessWrite o.acc = 0 → bit o.wmask (routeBit w.route) = false → s.odCheck o i w seg = St.OD_ROUTE_DENIED) ∧
    (∀ v, s.odPresent o i = 0 → accessWrite o.acc = 0 → w.route = .hostVf v → s.vfMayWrite v o i = false → s.odCheck o i w seg = St.OD_ROUTE_DENIED) ∧
    (s.odPresent o i = 0 → o.acc = .rwl → bit o.wmask (routeBit w.route) = true → (∀ v, w.route ≠ .hostVf v) → s.rdB D.CONFIG_LOCK 0 = true →
      s.odCheck o i w seg = St.OD_LOCKED) ∧
    (s.odPresent o i = 0 → o.acc = .rw → bit o.wmask (routeBit w.route) = true → (∀ v, w.route ≠ .hostVf v) → lengthOk o seg w.val.len = false →
      s.odCheck o i w seg = St.OD_LENGTH) ∧
    (s.odCheck o i w seg = 0 → s.odPresent o i = 0 ∧ accessWrite o.acc = 0 ∧ bit o.wmask (routeBit w.route) = true ∧
      (∀ v, w.route = .hostVf v → s.vfMayWrite v o i = true) ∧ (o.acc = .rwl → s.rdB D.CONFIG_LOCK 0 = false) ∧
      lengthOk o seg w.val.len = true ∧ checkValues w.val.len (odNum w) o.chk = 0)

/-- The operations of the object dictionary on a free controller: what each answers, sets and leaves. -/
def Obligations.DictionaryOperations : Prop :=
  (∀ (route : Route) (a : ObjAddr) (o : Obj) (s : State), s.odFree = true → findObj a.index.toNat a.sub.toNat = some o →
    s.readStatus o a.inst.toNat route false = 0 → roundUp (s.objView o a.inst.toNat route).1 4 ≤ s.room route →
    s.liveView (objKey o) a.inst.toNat = none → objKey o ≠ objKey D.FAULT_LOG_ENTRY →
    exec (.objectRead route a) s = .next { s with out := s.out ++
      [.od 0 (s.rdLen o a.inst.toNat) (s.rd o a.inst.toNat % 2 ^ (8 * s.rdLen o a.inst.toNat))] }) ∧
  (∀ (route : Route) (a : ObjAddr) (o : Obj) (v : Nat) (t s : State), s.odFree = true → findObj a.index.toNat a.sub.toNat = some o →
    s.readStatus o a.inst.toNat route false = 0 → roundUp (s.objView o a.inst.toNat route).1 4 ≤ s.room route →
    s.liveView (objKey o) a.inst.toNat = some (v, t) →
    exec (.objectRead route a) s = .next (t.odAnswer 0 (s.rdLen o a.inst.toNat) (v % 2 ^ (8 * s.rdLen o a.inst.toNat)))) ∧
  (∀ (a : ObjAddr) (w : OdWrite) (o : Obj) (s : State), s.boot.ask = none → findObj a.index.toNat a.sub.toNat = some o →
    s.takes o a.inst.toNat w = true → objKey o ≠ objKey D.STORE_STATE → (∀ t : State, t.own o a.inst.toNat w = t.odSet o a.inst.toNat w) →
    ∃ u, Sets s u o a.inst.toNat (odNum w) ∧ exec (.objectWrite a w) s = .next (u.enforce D.PHIL_ETHERTYPE 0)) ∧
  (∀ (route : Route) (a : ObjAddr) (offset len : Nat) (o : Obj) (s : State), s.odFree = true → findObj a.index.toNat a.sub.toNat = some o →
    s.readStatus o a.inst.toNat route true = 0 → s.liveView (objKey o) a.inst.toNat = none → objKey o ≠ objKey D.FAULT_LOG_ENTRY →
    exec (.readSeg route a offset len) s = .next { s with out := s.out ++
      [.od 0 (min len (min (s.rdLen o a.inst.toNat - offset) (s.room route / 4 * 4)))
        (bytesOf (s.rd o a.inst.toNat % 2 ^ (8 * s.rdLen o a.inst.toNat)) offset
          (min len (min (s.rdLen o a.inst.toNat - offset) (s.room route / 4 * 4))))] }) ∧
  (∀ (src : SegSrc) (a : ObjAddr) (v : OdVal) (o : Obj) (s : State), s.odFree = true → s.boot.ask = none →
    findObj a.index.toNat a.sub.toNat = some o → s.segStatus o a.inst.toNat src.route = 0 → s.stagedOf a = none →
    exec (.writeSeg src a 0 false v) s = .next (({ s with
      staged := s.staged ++ [{ src := src, obj := a, val := { len := v.len, val := v.val % 2 ^ (8 * v.len) } }],
      out := s.out ++ [.od 0 0 0] } : State).enforce D.PHIL_ETHERTYPE 0)) ∧
  (∀ (src : SegSrc) (a : ObjAddr) (offset : Nat) (last : Bool) (v : OdVal) (o : Obj) (x : Staged) (s : State), s.odFree = true → s.boot.ask = none →
    findObj a.index.toNat a.sub.toNat = some o → s.segStatus o a.inst.toNat src.route = 0 → s.stagedOf a = some x → offset ≠ 0 → offset ≠ x.val.len →
    exec (.writeSeg src a offset last v) s = .next (({ s.unstage a with out := s.out ++ [.od St.OD_SEGMENT 0 0] } : State).enforce D.PHIL_ETHERTYPE 0)) ∧
  (∀ (route : Route) (a : ObjAddr) (o : Obj) (s : State), s.odFree = true → findObj a.index.toNat a.sub.toNat = some o →
    (if o.insts = 0 then a.inst.toNat = 0 else a.inst.toNat < o.insts) →
    exec (.describe route a) s = .next { s with out := s.out ++ [.od 0 16 (description o)] }) ∧
  (∀ (w : OdWrite) (s : State), s.takes D.CONFIG_LOCK 0 w = true → (odNum w = 0 → s.rdB D.CONFIG_LOCK 0 = false) →
    ∃ t, exec (.configLock w) s = .next t ∧ Sets s t D.CONFIG_LOCK 0 (odNum w)) ∧
  (∀ (w : OdWrite) (s : State), s.takes D.CONFIG_LOCK 0 w = true → odNum w = 0 → s.rdB D.CONFIG_LOCK 0 = true →
    ∃ t, exec (.configLock w) s = .next t ∧ Refuses s t St.OD_LOCKED) ∧
  (∀ (k : Fin 4) (w : OdWrite) (s : State), s.takes D.MGMT_PUBKEY k w = true →
    ∃ t, exec (.mgmtPubkey k w) s = .next t ∧ Sets s t D.MGMT_PUBKEY k (odNum w))

/-- Raising an event numbers and queues its record, logs it where R430 says so, and changes nothing else. -/
def Obligations.RaisingAnEvent : Prop :=
  ∀ (s : State) (ev part detail : Nat),
    (s.raise ev part detail).eventSeq = s.eventSeq + 1 ∧
    (s.events.length < 256 → ∃ n, (s.raise ev part detail).events =
      s.events ++ [{ seq := s.eventSeq + 1, word := eventWord ev part (s.eventSeq + 1) s.gate detail, sends := n }] ∧
      (s.uttexPause = false → n = 1)) ∧
    (s.events.length = 256 → (s.raise ev part detail).rd D.PHIL_EVENT_DROPPED 0 = satAdd (8 * D.PHIL_EVENT_DROPPED.len) (s.rd D.PHIL_EVENT_DROPPED 0) 1) ∧
    (loggedEvent ev = true → s.flogWait.length < 256 → ∃ e, (s.raise ev part detail).flogWait = s.flogWait ++ [e] ∧ e.kind = 1 ∧
      e.body = eventWord ev part (s.eventSeq + 1) s.gate detail) ∧
    (loggedEvent ev = false → (s.raise ev part detail).flogWait = s.flogWait) ∧
    KeysBut s (s.raise ev part detail) [objKey D.PHIL_EVENT_DROPPED, objKey D.FAULT_LOG_DROPPED] ∧
    Reports s (s.raise ev part detail)

/-- How an attach port trains: RESET, TRAIN, PARAM, ACTIVE, and DOWN with its cause. -/
def Obligations.AttachPortTraining : Prop :=
  (∀ (i : Fin 512) (s : State), s.rd D.ATTACH_STATE i = 1 → exec (.attachResetTimer i) s = .next (s.wr D.ATTACH_STATE i 2)) ∧
  (∀ (i : Fin 512) (s : State), s.rd D.ATTACH_STATE i = 2 → ∃ t, exec (.attachTrainDone i) s = .next t ∧ t.rd D.ATTACH_STATE i = 3 ∧
    t.cur D.ATTACH_REQ_CREDITS i = s.rd D.ATTACH_REQ_CREDITS i ∧ (∃ f, t.out = s.out ++ [.attachFlit i f]) ∧
    ObjsBut s t [(objKey D.ATTACH_STATE, i.val)] ∧ t = { s with objs := t.objs, force := t.force, out := t.out }) ∧
  (∀ (i : Fin 512) (s : State), s.rd D.ATTACH_STATE i = 2 → ∃ t, exec (.attachTrainTimeout i) s = .next t ∧ t.rd D.ATTACH_STATE i = 5 ∧
    t.rd D.ATTACH_DOWN_CAUSE i = 1 ∧ t.port i = Port.init ∧ t.eventSeq = s.eventSeq + 1 ∧ t.mem = s.mem) ∧
  (∀ (i : Fin 512) (s : State), s.rd D.ATTACH_STATE i = 3 → ∃ t, exec (.attachParamTimeout i) s = .next t ∧ t.rd D.ATTACH_STATE i = 5 ∧
    t.rd D.ATTACH_DOWN_CAUSE i = 1 ∧ t.port i = Port.init ∧ t.eventSeq = s.eventSeq + 1 ∧ t.mem = s.mem) ∧
  (∀ (i : Fin 512) (flit : BitVec 2048) (s : State), s.rd D.ATTACH_STATE i = 3 → fhType flit.toNat = 1 → flitGood flit.toNat = true →
    bits (bytesOf flit.toNat 16 16) 15 0 = 1 → 64 ≤ bits (bytesOf flit.toNat 16 16) 31 16 →
    ∃ t, exec (.attachParamFlit i flit) s = .next t ∧ t.rd D.ATTACH_STATE i = 4 ∧
      t.rd D.ATTACH_DIE_ID i = bits (bytesOf flit.toNat 16 16) 127 64 ∧
      t.port i = { Port.init with ntfGrant := bits (bytesOf flit.toNat 16 16) 31 16 } ∧
      ObjsBut s t [(objKey D.ATTACH_STATE, i.val), (objKey D.ATTACH_DIE_ID, i.val)] ∧ t.mem = s.mem ∧ t.events = s.events) ∧
  (∀ (i : Fin 512) (flit : BitVec 2048) (s : State), s.rd D.ATTACH_STATE i = 3 → fhType flit.toNat = 1 → flitGood flit.toNat = true →
    (bits (bytesOf flit.toNat 16 16) 15 0 ≠ 1 ∨ bits (bytesOf flit.toNat 16 16) 31 16 < 64) →
    ∃ t, exec (.attachParamFlit i flit) s = .next t ∧ t.rd D.ATTACH_STATE i = 5 ∧ t.rd D.ATTACH_DOWN_CAUSE i = 7)

/-- Flits, notifications and the reset of an ACTIVE attach port. -/
def Obligations.AttachPortTraffic : Prop :=
  (∀ (i : Fin 512) (flit : BitVec 2048) (s : State), s.rd D.ATTACH_STATE i = 4 → fhType flit.toNat = 0 → flitGood flit.toNat = true →
    (s.flitApply i flit.toNat).rd D.ATTACH_STATE i = 4 → fhSeq flit.toNat = ((s.flitApply i flit.toNat).port i).rxSeq →
    exec (.attachDataFlit i flit) s = .next ((s.flitApply i flit.toNat).flitTake i flit.toNat)) ∧
  (∀ (i : Fin 512) (flit : BitVec 2048) (s : State), s.rd D.ATTACH_STATE i = 4 → fhType flit.toNat = 0 → flitGood flit.toNat = true →
    (s.flitApply i flit.toNat).rd D.ATTACH_STATE i = 4 → fhSeq flit.toNat ≠ ((s.flitApply i flit.toNat).port i).rxSeq →
    exec (.attachDataFlit i flit) s = .next ((s.flitApply i flit.toNat).flitDiscard i)) ∧
  (∀ (i : Fin 512) (flit : BitVec 2048) (s : State), s.rd D.ATTACH_STATE i = 4 → fhType flit.toNat = 0 → flitGood flit.toNat = false →
    exec (.attachDataFlit i flit) s = .next (s.flitDiscard i)) ∧
  (∀ (i : Fin 512) (flit : BitVec 2048) (s : State), s.rd D.ATTACH_STATE i = 4 → fhType flit.toNat = 2 → flitGood flit.toNat = true →
    fhNak flit.toNat = false → exec (.attachNullFlit i flit) s = .next (s.setPort i { s.port i with
      dieAck := fhAck flit.toNat, unacked := (s.port i).unacked - (fhAck flit.toNat + 4096 - (s.port i).dieAck) % 4096,
      ntfFreed := fhCredit flit.toNat })) ∧
  (∀ (i : Fin 512) (flit : BitVec 2048) (s : State), s.rd D.ATTACH_STATE i = 4 → fhType flit.toNat = 2 → flitGood flit.toNat = true →
    exec (.attachNullFlit i flit) s = .next (s.flitApply i flit.toNat)) ∧
  (∀ (i : Fin 512) (h v : Nat) (rest : List (Nat × Nat)) (s : State), s.rd D.ATTACH_STATE i = 4 → (s.port i).ntfs = (h, v) :: rest →
    ((s.port i).ntfTx + 2 ^ 16 - (s.port i).ntfFreed) % 2 ^ 16 + (1 + mhPch h) ≤ (s.port i).ntfGrant →
    ∃ t, exec (.ntfSend i) s = .next t ∧ t.out = s.out ++ [.ntf i h v] ∧ (t.port i).ntfs = rest ∧
      (t.port i).ntfTx = ((s.port i).ntfTx + (1 + mhPch h)) % 2 ^ 16 ∧ t = { s with ports := t.ports, out := t.out }) ∧
  (∀ (i : Fin 512) (w : OdWrite) (s : State), s.takes D.ATTACH_PORT_RESET i w = true → s.rd D.ATTACH_STATE i = 0 →
    exec (.attachPortReset i w) s = .next { s with out := s.out ++ [.od 0 0 0] }) ∧
  (∀ (i : Fin 512) (w : OdWrite) (s : State), s.takes D.ATTACH_PORT_RESET i w = true → s.rd D.ATTACH_STATE i = 4 → (s.port i).resetting = none →
    exec (.attachPortReset i w) s =
      .next { s.setPort i { s.port i with resetting := some (s.port i).reqFreed } with out := s.out ++ [.od 0 0 0] }) ∧
  (∀ (i : Fin 512) (w : OdWrite) (s : State), s.takes D.ATTACH_PORT_RESET i w = true → s.rd D.ATTACH_STATE i ≠ 0 → s.rd D.ATTACH_STATE i ≠ 4 →
    exec (.attachPortReset i w) s = .next { s.portReset i with out := s.out ++ [.od 0 0 0] }) ∧
  (∀ (i : Fin 512) (s : State), s.rd D.ATTACH_STATE i = 4 → (s.port i).resetting.isSome = true →
    ∃ t, exec (.attachResetDrainEnd i) s = .next t ∧ t.rd D.ATTACH_STATE i = 1 ∧ t.port i = Port.init ∧ t.mem = s.mem)

/-- A well-formed data-path message on an ACTIVE port enters as the request Table 10.6 names. -/
def Obligations.AttachMessagesEnter : Prop :=
  ∀ (i : Fin 512) (m : Msg) (s : State),
    (messageRuns s i m 1 = true → exec (.read i m) s =
      .next ((received s i m).enter (s.attachReq i m .read (mhLen m.hdr.toNat + 1) 0 0))) ∧
    (messageRuns s i m 2 = true → exec (.write i m) s =
      .next ((received s i m).enter (s.attachReq i m (writeKind s.variant (gaLocal (mhAddr m.hdr.toNat))) (mhLen m.hdr.toNat + 1) 0
        (m.payload % 2 ^ (8 * (mhLen m.hdr.toNat + 1)))))) ∧
    (messageRuns s i m 3 = true → exec (.atomic i m) s =
      .next ((received s i m).enter (s.attachReq i m .atomic (mhLen m.hdr.toNat + 1) (mhAttr m.hdr.toNat) m.payload))) ∧
    (messageRuns s i m 4 = true → exec (.prefetch i m) s = .next ((received s i m).enter (s.attachReq i m .prefetch 1 0 0))) ∧
    (messageRuns s i m 5 = true → exec (.fmtRead i m) s =
      .next ((received s i m).enter (s.attachReq i m .fmtRead (mhLen m.hdr.toNat) (mhAttr m.hdr.toNat) 0))) ∧
    (messageRuns s i m 6 = true → s.attachFmt i m false = 0 → exec (.fmtWrite i m) s =
      .next ((received s i m).enter (s.attachReq i m .fmtWrite (mhLen m.hdr.toNat) (mhAttr m.hdr.toNat) m.payload))) ∧
    (messageRuns s i m 7 = true → s.attachFmt i m true = 0 → exec (.scaledAcc i m) s =
      .next ((received s i m).enter (s.attachReq i m .scaledAcc (mhLen m.hdr.toNat) (mhAttr m.hdr.toNat) m.payload))) ∧
    (messageRuns s i m 8 = true → exec (.range (.attach i m)) s =
      .next ((received s i m).enter (s.attachReq i m .range (m.payload % 2 ^ 64) (mhAttr m.hdr.toNat) 0))) ∧
    (messageRuns s i m 9 = true → exec (.fence i m) s = .next ((received s i m).enter (s.attachReq i m .fence 1 0 0)))

/-- Malformed and repeated messages are counted and turned away, and a port that is not ACTIVE receives nothing. -/
def Obligations.AttachMessagesTurnedAway : Prop :=
  ∀ (i : Fin 512) (m : Msg) (op : Nat) (k : State → State) (s : State),
    (s.rd D.ATTACH_STATE i ≠ 4 → s.attachTake i m op k = s) ∧
    (messageComes s i m = true → (s.portTags i).contains (mhTag m.hdr.toNat) = true →
      (s.attachTake i m op k).rd D.ATTACH_PROTOCOL_ERR i = satAdd (8 * D.ATTACH_PROTOCOL_ERR.len) (s.rd D.ATTACH_PROTOCOL_ERR i) 1 ∧
      (s.attachTake i m op k).reqs = s.reqs) ∧
    (messageComes s i m = true → (s.portTags i).contains (mhTag m.hdr.toNat) = false → frameOk m op = false →
      (s.attachTake i m op k).rd D.ATTACH_PROTOCOL_ERR i = satAdd (8 * D.ATTACH_PROTOCOL_ERR.len) (s.rd D.ATTACH_PROTOCOL_ERR i) 1 ∧
      (s.attachTake i m op k).out = s.out ++ [.rsp i (rspHeader (mhTag m.hdr.toNat) St.ATTACH_MSG_BAD 0) 0] ∧
      (s.attachTake i m op k).reqs = s.reqs)

/-- A request that enters is held by its ingress rules, or checked at once. -/
def Obligations.EnteredRequestsAreHeldOrChecked : Prop :=
  ∀ (r : Req) (s : State), (r.kind ≠ .fence → (s.newReq { r with stage := .held }).classHold s.nextReq { r with stage := .held } = false) →
    ((s.newReq { r with stage := .held }).mustHold s.nextReq { r with stage := .held } = true →
      s.enter r = s.newReq { r with stage := .held }) ∧
    ((s.newReq { r with stage := .held }).mustHold s.nextReq { r with stage := .held } = false → r.kind ≠ .fence →
      s.enter r = (s.newReq { r with stage := .held }).checked s.nextReq { r with stage := .held }
        ((s.newReq { r with stage := .held }).checkReq { r with stage := .held })) ∧
    ((s.newReq { r with stage := .held }).mustHold s.nextReq { r with stage := .held } = false → r.kind = .fence →
      s.enter r = (s.newReq { r with stage := .held }).complete s.nextReq 0 0 0)

/-- The check of Table 2.5, in order. -/
def Obligations.WindowCheckInOrder : Prop :=
  ∀ (s : State) (p g src dev lo hi : Nat) (acc : Acc),
    (dev = s.devNum → (absentView s.variant lo = true ∨ absentView s.variant hi = true) →
      s.checkSpan p g src dev lo hi acc = .fail St.UNIT_ABSENT 0) ∧
    (dev ≠ s.devNum → g ≠ 2 → s.rdB D.PART_ENABLE p = false → s.checkSpan p g src dev lo hi acc = .fail St.PARTITION_DISABLED 0) ∧
    (dev ≠ s.devNum → g = 2 → s.rdB D.PART_ENABLE p = false ∨ bit (s.rd D.LINK_PART_MASK src) p = false →
      s.checkSpan p g src dev lo hi acc = .fail St.LINK_PARTITION_DENIED 0x23) ∧
    (dev ≠ s.devNum → s.rdB D.PART_ENABLE p = true → g ≠ 2 → s.rd D.PART_FAULT_STATE p ≠ 0 →
      s.checkSpan p g src dev lo hi acc = .fail St.PARTITION_STOPPED 0) ∧
    (dev = s.devNum → absentView s.variant lo = false → absentView s.variant hi = false → s.partStatus p g src = 0 →
      mappedOk s.variant lo hi (acc == .doorbell) = false → s.checkSpan p g src dev lo hi acc = .fail St.ADDRESS_UNMAPPED 0x22) ∧
    (s.preCheck p g src dev lo hi acc = none → s.winMatch p g dev lo hi = none → s.checkSpan p g src dev lo hi acc = .miss) ∧
    (∀ e, s.preCheck p g src dev lo hi acc = none → s.winMatch p g dev lo hi = some e → bit e (accBit acc) = false →
      s.checkSpan p g src dev lo hi acc = .fail St.WINDOW_PERM 0x21) ∧
    (∀ e, s.preCheck p g src dev lo hi acc = none → s.winMatch p g dev lo hi = some e → bit e (accBit acc) = true →
      s.checkSpan p g src dev lo hi acc = .pass) ∧
    (∀ e, s.winMatch p g dev lo hi = some e → ∃ w, w < 64 ∧ e = s.rd D.WINDOW_ENTRY (winIdx p g w) ∧ weCovers e dev lo hi = true ∧
      ∀ v, v < w → weCovers (s.rd D.WINDOW_ENTRY (winIdx p g v)) dev lo hi = false)

/-- The doorbell aperture takes 8-byte writes at the start of a ring's slot, and nothing else. -/
def Obligations.DoorbellAperture : Prop :=
  ∀ (s : State) (p g src lo hi : Nat) (acc : Acc), s.partStatus p g src = 0 → lo ≤ hi → hi < lo + 128 →
    (0xF0000000000 ≤ lo ∧ lo < 0xF0004000000) ∨ (0xF0000000000 ≤ hi ∧ hi < 0xF0004000000) →
    (acc = .doorbell → (∃ r, r < 1048576 ∧ lo = 0xF0000000000 + 64 * r) → hi = lo + 7 → s.preCheck p g src s.devNum lo hi acc = none) ∧
    (¬ (acc = .doorbell ∧ (∃ r, r < 1048576 ∧ lo = 0xF0000000000 + 64 * r) ∧ hi = lo + 7) →
      s.checkSpan p g src s.devNum lo hi acc = .fail St.ADDRESS_UNMAPPED 0x22) ∧
    (0xF0000000000 ≤ lo → lo < 0xF0004000000 → writeKind s.variant lo = .doorbell)

/-- A host command that is not right, or whose slot is busy, is turned away by name. -/
def Obligations.HostCommandsTurnedAway : Prop :=
  ∀ (f slot h p op : Nat) (k : State → State) (s : State),
    (s.fnPresent f = false → s.hostCmd f slot h p op k = s) ∧
    (s.fnPresent f = true → (Table.get Slot.init slot (s.fn f).slots).own = true →
      s.hostCmd f slot h p op k = s.count D.HOST_CMD_OVERRUN 0 1) ∧
    (s.fnPresent f = true → (Table.get Slot.init slot (s.fn f).slots).own = false → bit h 7 = false →
      s.hostCmd f slot h p op k = hostTaken s f slot h p) ∧
    (s.fnPresent f = true → (Table.get Slot.init slot (s.fn f).slots).own = false → bit h 7 = true → hcStatus f h op ≠ 0 →
      s.hostCmd f slot h p op k = (hostTaken s f slot h p).hostCmdDone f slot (hcStatus f h op) 0) ∧
    (hcOp h ≠ op ∨ bit h 6 = true ∨ bits h 31 25 ≠ 0 ∨ (f ≠ 0 ∧ bits h 11 8 ≠ 0) → hcStatus f h op = St.HOST_CMD_BAD) ∧
    (f ≠ 0 → op = 0x20 ∨ op = 0x21 ∨ op = 0x22 → hcStatus f h op = St.HOST_CMD_BAD ∨ hcStatus f h op = St.HOST_CMD_DENIED)

/-- A well-formed host command runs as Table 12.6 says. -/
def Obligations.HostCommandsRun : Prop :=
  ∀ (f : Fin 17) (k : Fin 16) (h : BitVec 64) (p : Nat) (s : State),
    (hostRuns s f k h.toNat 8 = true → exec (.range (.host f k h p)) s = .next ((hostTaken s f k h.toNat p).enter
      { origin := .hostCmd f k, kind := .range, group := 3, source := f, part := hcPart f h.toNat, cls := s.rd D.HOST_CLASS f,
        deadline := s.deadlineOf (s.rd D.HOST_CLASS f) none, dev := s.devNum, addr := p % 2 ^ 64, len := p / 2 ^ 64 % 2 ^ 64,
        attr := hcRangeOp h.toNat + (hcLocked h.toNat).toNat * 16, data := 0, poison := false, relaxed := false, epoch := 0, order := 0,
        stage := .held, chunks := 0, parts := [], record := 0, status := 0 })) ∧
    (hostRuns s f k h.toNat 0x10 = true → exec (.formatSet (.host f k h p)) s = .next
      (((hostTaken s f k h.toNat p).installFmt (64 * hcPart f h.toNat + hcIndex h.toNat) (p % 2 ^ 128)).2.hostCmdDone f k
        ((hostTaken s f k h.toNat p).installFmt (64 * hcPart f h.toNat + hcIndex h.toNat) (p % 2 ^ 128)).1 0)) ∧
    (hostRuns s f k h.toNat 0x11 = true → exec (.ringWrite (.host f k h p)) s =
      .next ((hostTaken s f k h.toNat p).ringWrite (hcArg h.toNat % 2 ^ 20) (p % 2 ^ 512) (some (hcPart f h.toNat)) (.hostCmd f k))) ∧
    (hostRuns s f k h.toNat 0x12 = true → rcPart (s.ringCtx (hcArg h.toNat % 2 ^ 20)) = hcPart f h.toNat →
      exec (.ringRead (.host f k h p)) s =
        .next ((hostTaken s f k h.toNat p).hostCmdDone f k 0 (s.ringCtx (hcArg h.toNat % 2 ^ 20)))) ∧
    (hostRuns s f k h.toNat 0x12 = true → rcPart (s.ringCtx (hcArg h.toNat % 2 ^ 20)) ≠ hcPart f h.toNat →
      exec (.ringRead (.host f k h p)) s = .next ((hostTaken s f k h.toNat p).hostCmdDone f k St.RING_DENIED 0)) ∧
    (hostRuns s f k h.toNat 0x13 = true → exec (.sweep (.host f k h p)) s = .next
      (((hostTaken s f k h.toNat p).sweepSubmit (hcPart f h.toNat) (p % 2 ^ 512)).2.hostCmdDone f k
        ((hostTaken s f k h.toNat p).sweepSubmit (hcPart f h.toNat) (p % 2 ^ 512)).1 0)) ∧
    (hostRuns s f k h.toNat 0x14 = true → exec (.launch (.host f k h p)) s =
      .next ((hostTaken s f k h.toNat p).launchSubmit (hostAsker f k h.toNat) (p % 2 ^ 256))) ∧
    (hostRuns s f k h.toNat 0x15 = true → exec (.launchCancel (.host f k h p)) s =
      .next ((hostTaken s f k h.toNat p).cancelSubmit (hostAsker f k h.toNat) (hcArg h.toNat))) ∧
    (hostRuns s f k h.toNat 0x16 = true → exec (.gateRead (.host f k h p)) s = .next ((hostTaken s f k h.toNat p).hostCmdDone f k 0 s.gate)) ∧
    (hostRuns s f k h.toNat 0x20 = true → (hostTaken s f k h.toNat p).weStatus (p % 2 ^ 128) = 0 →
      exec (.winInstall (.host f k h p)) s = .next ((hostTaken s f k h.toNat p).wcmd (hcPart f h.toNat)
        (.install (hcGroup h.toNat) (hcIndex h.toNat) (p % 2 ^ 128) (hcArg h.toNat)) (.hostCmd f k))) ∧
    (hostRuns s f k h.toNat 0x20 = true → (hostTaken s f k h.toNat p).weStatus (p % 2 ^ 128) ≠ 0 →
      exec (.winInstall (.host f k h p)) s = .next ((hostTaken s f k h.toNat p).hostCmdDone f k ((hostTaken s f k h.toNat p).weStatus (p % 2 ^ 128)) 0)) ∧
    (hostRuns s f k h.toNat 0x21 = true → exec (.winWithdraw (.host f k h p)) s =
      .next ((hostTaken s f k h.toNat p).wcmd (hcPart f h.toNat) (.withdraw (hcGroup h.toNat) (hcIndex h.toNat)) (.hostCmd f k))) ∧
    (hostRuns s f k h.toNat 0x22 = true → exec (.faultDeny (.host f k h p)) s =
      .next ((hostTaken s f k h.toNat p).wcmd (hcPart f h.toNat) (.deny (hcArg h.toNat)) (.hostCmd f k)))

/-- A well-formed command message of an attach port runs as Table 10.6 says. -/
def Obligations.AttachCommandsRun : Prop :=
  ∀ (i : Fin 512) (m : Msg) (s : State),
    (messageRuns s i m 0x10 = true → exec (.formatSet (.attach i m)) s = .next
      (((received s i m).installFmt (64 * s.rd D.PORT_PARTITION i + bits (mhAttr m.hdr.toNat) 5 0) (m.payload % 2 ^ 128)).2.attachAnswer i m
        ((received s i m).installFmt (64 * s.rd D.PORT_PARTITION i + bits (mhAttr m.hdr.toNat) 5 0) (m.payload % 2 ^ 128)).1 0 0)) ∧
    (messageRuns s i m 0x11 = true → exec (.ringWrite (.attach i m)) s = .next
      (((received s i m).portFree i m).ringWrite (mhAddr m.hdr.toNat % 2 ^ 20) (m.payload % 2 ^ 512) (some (s.rd D.PORT_PARTITION i))
        (.attach i (mhTag m.hdr.toNat)))) ∧
    (messageRuns s i m 0x12 = true → rcPart (s.ringCtx (mhAddr m.hdr.toNat % 2 ^ 20)) = s.rd D.PORT_PARTITION i →
      exec (.ringRead (.attach i m)) s = .next ((received s i m).attachAnswer i m 0 64 (s.ringCtx (mhAddr m.hdr.toNat % 2 ^ 20)))) ∧
    (messageRuns s i m 0x12 = true → rcPart (s.ringCtx (mhAddr m.hdr.toNat % 2 ^ 20)) ≠ s.rd D.PORT_PARTITION i →
      exec (.ringRead (.attach i m)) s = .next ((received s i m).attachAnswer i m St.RING_DENIED 0 0)) ∧
    (messageRuns s i m 0x13 = true → exec (.sweep (.attach i m)) s = .next
      (((received s i m).sweepSubmit (s.rd D.PORT_PARTITION i) (m.payload % 2 ^ 512)).2.attachAnswer i m
        ((received s i m).sweepSubmit (s.rd D.PORT_PARTITION i) (m.payload % 2 ^ 512)).1 0 0)) ∧
    (messageRuns s i m 0x14 = true → exec (.launch (.attach i m)) s = .next
      (((received s i m).portFree i m).launchSubmit ((received s i m).portAsker i m) (m.payload % 2 ^ 256))) ∧
    (messageRuns s i m 0x15 = true → exec (.launchCancel (.attach i m)) s = .next
      (((received s i m).portFree i m).cancelSubmit ((received s i m).portAsker i m) (m.payload % 2 ^ 32))) ∧
    (messageRuns s i m 0x16 = true → exec (.gateRead (.attach i m)) s = .next ((received s i m).attachAnswer i m 0 8 s.gate)) ∧
    (∀ (t : State) len data, ∃ u, t.attachAnswer i m 0 len data = u ∧
      u.out = t.out ++ [.rsp i (rspHeader (mhTag m.hdr.toNat) 0 (ceilDiv len 16)) (data % 2 ^ (8 * len))] ∧
      (u.port i).reqFreed = ((t.port i).reqFreed + msgChunks m) % 2 ^ 16)

/-- Window commands of a partition take effect in order; a withdrawal advances the epoch and waits for its drain. -/
def Obligations.WindowCommandsInOrder : Prop :=
  ∀ (p g w e fid n : Nat) (c : WCmd) (r : Reply) (s : State),
    ((s.part p).drain.isSome = true → s.wcmd p c r = s.setPart p { s.part p with wcmds := (s.part p).wcmds ++ [(c, r)] }) ∧
    ((s.part p).drain = none → narrows (s.rd D.WINDOW_ENTRY (winIdx p g w)) e = false →
      s.wcmd p (.install g w e fid) r = (((s.wr D.WINDOW_ENTRY (winIdx p g w) e).resolve p fid).recheckAll p).reply r 0) ∧
    ((s.part p).drain = none → narrows (s.rd D.WINDOW_ENTRY (winIdx p g w)) e = true →
      s.wcmd p (.install g w e fid) r =
        (((s.wr D.WINDOW_ENTRY (winIdx p g w) e).resolve p fid).beginDrain p (.install g w e fid) r).recheckAll p) ∧
    ((s.part p).drain = none → weValid (s.rd D.WINDOW_ENTRY (winIdx p g w)) = true →
      s.wcmd p (.withdraw g w) r = ((s.wr D.WINDOW_ENTRY (winIdx p g w) (setBit (s.rd D.WINDOW_ENTRY (winIdx p g w)) 0 false)).beginDrain p
        (.withdraw g w) r).recheckAll p) ∧
    ((s.part p).drain = none → weValid (s.rd D.WINDOW_ENTRY (winIdx p g w)) = false → s.wcmd p (.withdraw g w) r = s.reply r 0) ∧
    ((s.part p).drain = none → (s.part p).misses.any (fun m => m.fid == fid && !m.resolved) = false →
      s.wcmd p (.deny fid) r = s.reply r St.NO_SUCH_FAULT) ∧
    ((s.part p).drain = none → (s.part p).misses.any (fun m => m.fid == fid && !m.resolved) = true →
      s.wcmd p (.deny fid) r = ((s.resolve p fid).faultAll p (parkedOn fid)).reply r 0) ∧
    ((s.part p).drain = none → s.validWindows p = [] → s.wcmd p .disable r = (s.wr D.PART_ENABLE p 0).reply r 0) ∧
    ((s.part p).drain = none → s.validWindows p ≠ [] → s.wcmd p .disable r = ((s.clearWindows p).beginDrain p .disable r).recheckAll p) ∧
    ((s.part p).drain = none → ∃ t, s.wcmd p (.linkMask n) r = t ∧ t.rd D.LINK_PART_MASK n = setBit (s.rd D.LINK_PART_MASK n) p false ∧
      t.rd D.WINDOW_EPOCH p = (s.rd D.WINDOW_EPOCH p + 1) % 2 ^ 32) ∧
    ((s.beginDrain p c r).rd D.WINDOW_EPOCH p = (s.rd D.WINDOW_EPOCH p + 1) % 2 ^ 32 ∧
      ((s.beginDrain p c r).part p).drain = some (c, r, s.rd D.WINDOW_EPOCH p) ∧ ObjsBut s (s.beginDrain p c r) [(objKey D.WINDOW_EPOCH, p)]) ∧
    (weValid (s.rd D.WINDOW_ENTRY n) = false → narrows (s.rd D.WINDOW_ENTRY n) e = false)

/-- Object writes of windows, partition enables and domains, and link masks. -/
def Obligations.PartitionObjectWrites : Prop :=
  (∀ (i : Nat) (w : OdWrite) (s : State), s.takes D.WINDOW_ENTRY i w = true → s.weStatus (odNum w) = 0 →
    exec (.winInstall (.object i w)) s =
      .next (s.odHold.wcmd (i / 256) (.install (i / 64 % 4) (i % 64) (odNum w) 0) .od) ∧
    exec (.winWithdraw (.object i w)) s =
      .next (s.odHold.wcmd (i / 256) (.install (i / 64 % 4) (i % 64) (odNum w) 0) .od)) ∧
  (∀ (i : Nat) (w : OdWrite) (s : State), s.takes D.WINDOW_ENTRY i w = true → s.weStatus (odNum w) ≠ 0 → s.weStatus (odNum w) ≠ St.UNIT_ABSENT →
    (∃ t, exec (.winInstall (.object i w)) s = .next t ∧ Refuses s t (s.weStatus (odNum w))) ∧
    (∃ t, exec (.winWithdraw (.object i w)) s = .next t ∧ Refuses s t (s.weStatus (odNum w)))) ∧
  (∀ (i : Nat) (w : OdWrite) (s : State), s.odFree = true →
    ∃ t, exec (.faultDeny (.object i w)) s = .next t ∧ Refuses s t St.OD_NO_OBJECT) ∧
  (∀ (p : Fin 16) (w : OdWrite) (s : State), s.takes D.PART_ENABLE p w = true → odNum w = 1 →
    exec (.partEnable p w) s = .next { s.wr D.PART_ENABLE p 1 with out := s.out ++ [.od 0 0 0] }) ∧
  (∀ (p : Fin 16) (w : OdWrite) (s : State), s.takes D.PART_ENABLE p w = true → odNum w = 0 → (s.part p).drain = none → s.validWindows p = [] →
    exec (.partEnable p w) s = .next { s.wr D.PART_ENABLE p 0 with out := s.out ++ [.od 0 0 0] }) ∧
  (∀ (p : Fin 16) (w : OdWrite) (s : State), s.takes D.PART_ENABLE p w = true → odNum w = 0 →
    exec (.partEnable p w) s = .next (s.odHold.wcmd p .disable .od)) ∧
  (∀ (p : Fin 16) (w : OdWrite) (s : State), s.takes D.PART_DOMAIN p w = true → domainPresent s.variant (odNum w) = true →
    s.rdB D.PART_ENABLE p = false → ∃ t, exec (.partDomain p w) s = .next t ∧ Sets s t D.PART_DOMAIN p (odNum w)) ∧
  (∀ (p : Fin 16) (w : OdWrite) (s : State), s.takes D.PART_DOMAIN p w = true → domainPresent s.variant (odNum w) = true →
    s.rdB D.PART_ENABLE p = true → ∃ t, exec (.partDomain p w) s = .next t ∧ Refuses s t St.PART_BUSY) ∧
  (∀ (n : Fin 64) (w : OdWrite) (s : State), s.takes D.LINK_PART_MASK n w = true →
    maskList 16 (s.rd D.LINK_PART_MASK n &&& (0xFFFF ^^^ odNum w)) = [] →
    ∃ t, exec (.linkPartMask n w) s = .next t ∧ Sets s t D.LINK_PART_MASK n (odNum w)) ∧
  (∀ (n : Fin 64) (w : OdWrite) (s : State), s.takes D.LINK_PART_MASK n w = true →
    maskList 16 (s.rd D.LINK_PART_MASK n &&& (0xFFFF ^^^ odNum w)) ≠ [] →
    exec (.linkPartMask n w) s = .next ((maskList 16 (s.rd D.LINK_PART_MASK n &&& (0xFFFF ^^^ odNum w))).foldl
      (fun t p => t.wcmd p (.linkMask n) .od) ((s.odHold.wr D.LINK_PART_MASK n (s.rd D.LINK_PART_MASK n ||| odNum w)).storeTouch)))

/-- A re-binding write to a resource that is being re-bound is refused with PART_BUSY. -/
def Obligations.RebindingAgainIsBusy : Prop :=
  (∀ (i : Fin 512) (w : OdWrite) (s : State), s.takes D.PORT_PARTITION i w = true → s.rebinds.any (fun b => b.res == .port i) = true →
    ∃ t, exec (.portPartition i w) s = .next t ∧ Refuses s t St.PART_BUSY) ∧
  (∀ (i : Fin 512) (w : OdWrite) (s : State), s.takes D.TE_PARTITION i w = true → s.rebinds.any (fun b => b.res == .te i) = true →
    ∃ t, exec (.tePartition i w) s = .next t ∧ Refuses s t St.PART_BUSY) ∧
  (∀ (w : OdWrite) (s : State), s.takes D.PF_DATA_PARTITION 0 w = true → s.rebinds.any (fun b => b.res == .pf) = true →
    ∃ t, exec (.pfDataPartition w) s = .next t ∧ Refuses s t St.PART_BUSY)

/-- The steps of a re-binding. -/
def Obligations.RebindingSteps : Prop :=
  (∀ (i : Fin 512) (w : OdWrite) (s : State), s.takes D.PORT_PARTITION i w = true → s.rebinds.any (fun b => b.res == .port i) = false →
    (odNum w = s.rd D.PORT_PARTITION i → ∃ t, exec (.portPartition i w) s = .next t ∧ Sets s t D.PORT_PARTITION i (odNum w)) ∧
    (odNum w ≠ s.rd D.PORT_PARTITION i → exec (.portPartition i w) s = .next
      (({ s.odHold with rebinds := s.rebinds ++ [{ res := .port i, old := s.rd D.PORT_PARTITION i, new := odNum w, drained := false }] } : State).faultAll
        (s.rd D.PORT_PARTITION i) (ofResource (.port i) (s.rd D.PORT_PARTITION i))))) ∧
  (∀ (i : Fin 512) (w : OdWrite) (s : State), s.takes D.TE_PARTITION i w = true → s.rebinds.any (fun b => b.res == .te i) = false →
    (odNum w = s.rd D.TE_PARTITION i → ∃ t, exec (.tePartition i w) s = .next t ∧ Sets s t D.TE_PARTITION i (odNum w)) ∧
    (odNum w ≠ s.rd D.TE_PARTITION i → exec (.tePartition i w) s = .next
      (({ s.odHold with rebinds := s.rebinds ++ [{ res := .te i, old := s.rd D.TE_PARTITION i, new := odNum w, drained := false }] } : State).faultAll
        (s.rd D.TE_PARTITION i) (ofResource (.te i) (s.rd D.TE_PARTITION i))))) ∧
  (∀ (w : OdWrite) (s : State), s.takes D.PF_DATA_PARTITION 0 w = true → s.rebinds.any (fun b => b.res == .pf) = false →
    (odNum w = s.rd D.PF_DATA_PARTITION 0 → ∃ t, exec (.pfDataPartition w) s = .next t ∧ Sets s t D.PF_DATA_PARTITION 0 (odNum w)) ∧
    (odNum w ≠ s.rd D.PF_DATA_PARTITION 0 → exec (.pfDataPartition w) s = .next
      (({ s.odHold with rebinds := s.rebinds ++ [{ res := .pf, old := s.rd D.PF_DATA_PARTITION 0, new := odNum w, drained := false }] } : State).faultAll
        (s.rd D.PF_DATA_PARTITION 0) (ofResource .pf (s.rd D.PF_DATA_PARTITION 0))))) ∧
  (∀ (x : Resource) (b : Rebind) (s : State), s.rebinds.find? (fun c => c.res == x) = some b →
    ∃ t, t = s.revoke b.old (s.resInFlight x b.old) ∧ exec (.rebindDrainExpiry x) s =
      .next { t with rebinds := t.rebinds.map (fun c => if c.res == x then { c with drained := true } else c) }) ∧
  (∀ (x : Resource) (b : Rebind) (s : State), s.rebinds.find? (fun c => c.res == x) = some b → (b.drained = true ∨ s.resInFlight x b.old = []) →
    (∀ n, x ≠ .te n) → exec (.rebindStampSwitch x) s = .next
      ((((({ s with rebinds := s.rebinds.filter (fun c => c.res != x) } : State).wr (resObj x) (resSource x) b.new).storeTouch).restamp x b.old
        b.new).odDone)) ∧
  (∀ (n : Fin 512) (b : Rebind) (s : State), s.rebinds.find? (fun c => c.res == .te n) = some b →
    (b.drained = true ∨ s.resInFlight (.te n) b.old = []) → ∃ u, u = s.ringStopAll (fun c => rcEngine c == n.val && rcPart c == b.old) St.RING_DENIED ∧
      exec (.rebindStampSwitch (.te n)) s = .next
        ((((({ u with rebinds := u.rebinds.filter (fun c => c.res != .te n) } : State).wr D.TE_PARTITION n b.new).storeTouch).restamp (.te n) b.old
          b.new).odDone))

/-- Stall expiry, acknowledgement and drain expiry. -/
def Obligations.WithdrawalsEnd : Prop :=
  (∀ (rid fid : Nat) (r : Req) (s : State), s.req? rid = some r → r.stage = .parked fid → (∀ a b, r.origin ≠ .split a b) →
    exec (.faultStallExpiry rid) s = .next (((((s.failRecord r 0x24).delReq rid).freeChunks r).answer rid r.origin St.WINDOW_FAULT 0 0).dropMiss r.part fid)) ∧
  (∀ (p : Fin 16) (c : WCmd) (r : Reply) (e : Nat) (s : State), (s.part p).drain = some (c, r, e) → s.inFlightCount p e = 0 →
    exec (.withdrawalAck p) s = .next (s.ackDrain p)) ∧
  (∀ (p : Fin 16) (c : WCmd) (r : Reply) (e : Nat) (s : State), (s.part p).drain = some (c, r, e) →
    exec (.drainLimitExpiry p) s = .next ((s.revoke p (s.inFlightList p e)).ackDrain p)) ∧
  (∀ (p : Fin 16) (c : WCmd) (r : Reply) (e : Nat) (s : State), (s.part p).drain = some (c, r, e) → (s.part p).wcmds = [] → (c matches .withdraw ..) →
    s.ackDrain p = (s.setPart p { s.part p with drain := none }).reply r 0) ∧
  (∀ (p : Nat) (s : State), s.revoke p [] = s)

/-- A format descriptor is installed whole or refused with its status. -/
def Obligations.FormatDescriptors : Prop :=
  (∀ (i : Nat) (w : OdWrite) (s : State), s.takes D.FORMAT_DESC i w = true → fdStatus s.variant (odNum w) = 0 →
    exec (.formatSet (.object i w)) s = .next { s.wr D.FORMAT_DESC i (odNum w) with out := s.out ++ [.od 0 0 0] }) ∧
  (∀ (i : Nat) (w : OdWrite) (s : State), s.takes D.FORMAT_DESC i w = true → fdStatus s.variant (odNum w) ≠ 0 →
    fdStatus s.variant (odNum w) ≠ St.UNIT_ABSENT →
    ∃ t, exec (.formatSet (.object i w)) s = .next t ∧ Refuses s t (fdStatus s.variant (odNum w))) ∧
  (∀ (i v : Nat) (s : State), s.installFmt i v = (fdStatus s.variant v, if fdStatus s.variant v = 0 then s.wr D.FORMAT_DESC i v else s)) ∧
  (∀ (v : Variant) (d : Nat),
    (fdValid d = true → fmtSub4 (fdStored d) = true → fullFeatures v = false → fdStatus v d = St.UNIT_ABSENT) ∧
    ((fdValid d = false ∨ fmtSub4 (fdStored d) = false) → (bits d 31 30 ≠ 0 ∨ bits d 47 37 ≠ 0 ∨ bits d 127 64 ≠ 0) → fdStatus v d = St.FORMAT_BAD) ∧
    (fdValid d = false → bits d 31 30 = 0 → bits d 47 37 = 0 → bits d 127 64 = 0 → fdStatus v d = 0) ∧
    (fdStatus v d = 0 → fdValid d = true → (fmtKind (fdStored d)).isSome = true ∧ fmtWide (fdDelivered d) = true ∧
      (fdMode d = 2 → fdStored d = 0x11 ∨ fdStored d = 0x12) ∧ fdMode d ≠ 3 ∧ (fdMode d = 1 → fdScale d ≠ 0xFF)))

/-- The stochastic seed, and flow snapshots and clears. -/
def Obligations.SeedsAndFlows : Prop :=
  (∀ (w : OdWrite) (s : State), s.takes D.SR_SEED 0 w = true →
    ∃ t, exec (.srSeed w) s = .next t ∧ Sets { s with slices := Table.mapVals Slice.init (fun _ x => reseed x) s.slices } t D.SR_SEED 0 (odNum w)) ∧
  (∀ (w : OdWrite) (s : State), s.takes D.FLOW_SNAPSHOT 0 w = true → s.rd D.FLOW_SNAP_STATE 0 = 1 →
    ∃ t, exec (.flowSnapshot w) s = .next t ∧ Refuses s t St.FLOW_BUSY) ∧
  (∀ (w : OdWrite) (s : State), s.takes D.FLOW_SNAPSHOT 0 w = true → s.rd D.FLOW_SNAP_STATE 0 ≠ 1 →
    exec (.flowSnapshot w) s = .next { (s.wr D.FLOW_SNAPSHOT 0 (odNum w)).wr D.FLOW_SNAP_STATE 0 1 with out := s.out ++ [.od 0 0 0] }) ∧
  (∀ (s : State), s.rd D.FLOW_SNAP_STATE 0 = 1 → ∃ t, exec .flowSnapDone s = .next t ∧
    t.rd D.FLOW_SNAP_STATE 0 = 2 ∧ t.rd D.SNAP_GATE_TIME 0 = s.gate ∧
    t.rd D.SNAP_FLAGS 0 = (s.flowRows (s.rd D.FLOW_SNAPSHOT 0)).foldl (fun a c => a ||| c.flags) 0 ∧
    t.rd D.SNAP_BLOCKS 0 = sumRows (s.flowRows (s.rd D.FLOW_SNAPSHOT 0)) (fun c => c.blocks) ∧
    t.rd D.SNAP_CLIP 0 = sumRows (s.flowRows (s.rd D.FLOW_SNAPSHOT 0)) (fun c => c.clip) ∧
    t.rd D.SNAP_NAN_BLOCKS 0 = sumRows (s.flowRows (s.rd D.FLOW_SNAPSHOT 0)) (fun c => c.nanBlocks) ∧
    t.rd D.SNAP_AMAX 0 = (s.flowRows (s.rd D.FLOW_SNAPSHOT 0)).foldl (fun a c => max a c.amax) 0 ∧ t = { s with objs := t.objs }) ∧
  (∀ (w : OdWrite) (s : State), s.takes D.FLOW_CLEAR 0 w = true → exec (.flowClear w) s =
    .next { s with flows := s.flows.filter (fun e => e.1 % 1024 != odNum w), out := s.out ++ [.od 0 0 0] })

/-- Writing a ring context: its checks in order, and its effects. -/
def Obligations.RingContextWrites : Prop :=
  (∀ (i : Nat) (w : OdWrite) (s : State), s.takes (D.RING_CONTEXT (i / 65536)) (i % 65536) w = true →
    exec (.ringWrite (.object i w)) s = .next (s.odHold.ringWrite i (odNum w) none .od)) ∧
  (∀ (i : Nat) (w : OdWrite) (s : State), s.odFree = true → s.odCheckRead (D.RING_CONTEXT (i / 65536)) (i % 65536) w.route = 0 →
    exec (.ringRead (.object i w)) s = .next { s with out := s.out ++ [.od 0 64 (s.ringCtx i)] }) ∧
  (∀ (r v : Nat) (who : Option Nat) (o : Origin) (s : State),
    (rcEnable v = true → s.has .te (rcEngine v) = false → s.ringWrite r v who o = s.answer s.nextReq o St.UNIT_ABSENT 0 0) ∧
    (∀ p, (rcEnable v = false ∨ s.has .te (rcEngine v) = true) → who = some p → (rcPart (s.ringCtx r) ≠ p ∨ rcPart v ≠ p) →
      s.ringWrite r v who o = s.answer s.nextReq o St.RING_DENIED 0 0)) ∧
  (∀ (r v : Nat) (o : Origin) (s : State), (rcEnable v = false ∨ s.has .te (rcEngine v) = true) →
    (rcEnable (s.ringCtx r) = true → rcStopped (s.ringCtx r) = false →
      (setBits v 303 288 0 = setBits (s.ringCtx r) 303 288 0 → s.ringWrite r v none o = (s.setCtx r v).answer s.nextReq o 0 0 0) ∧
      (setBits v 303 288 0 ≠ setBits (s.ringCtx r) 303 288 0 → (s.ring r).disabling = none → v = setBit (s.ringCtx r) 0 false →
        s.ringWrite r v none o = s.ringDisable r o) ∧
      (setBits v 303 288 0 ≠ setBits (s.ringCtx r) 303 288 0 → v ≠ setBit (s.ringCtx r) 0 false →
        s.ringWrite r v none o = s.answer s.nextReq o St.RING_BUSY 0 0)) ∧
    ((rcEnable (s.ringCtx r) = false ∨ rcStopped (s.ringCtx r) = true) →
      (rcReserved v = true → s.ringWrite r v none o = s.answer s.nextReq o St.DESC_BAD 0 0) ∧
      (rcReserved v = false → rcEnable v = true → ¬ (4 ≤ rcSize v ∧ rcSize v ≤ 16) →
        s.ringWrite r v none o = s.answer s.nextReq o St.DESC_BAD 0 0) ∧
      (rcReserved v = false → rcEnable v = true → 4 ≤ rcSize v → rcSize v ≤ 16 → s.rd D.TE_PARTITION (rcEngine v) ≠ rcPart v →
        s.ringWrite r v none o = s.answer s.nextReq o St.RING_DENIED 0 0) ∧
      (rcReserved v = false → (rcEnable v = true → 4 ≤ rcSize v ∧ rcSize v ≤ 16 ∧ s.rd D.TE_PARTITION (rcEngine v) = rcPart v) →
        s.ringWrite r v none o = (((s.ringOrphan r).setCtx r v).setRing r Ring.init).answer s.nextReq o 0 0 0)))

/-- What a doorbell does to its ring. -/
def Obligations.DoorbellOutcomes : Prop :=
  (∀ (rid : Nat) (r : Req) (s : State), s.req? rid = some r → r.kind = .doorbell → r.stage = .slice →
    exec (.doorbell rid) s = .next ((s.doorbell (ringOfAddr r.addr) r.part r.data).2.complete rid (s.doorbell (ringOfAddr r.addr) r.part r.data).1 0 0)) ∧
  (∀ (r p v : Nat) (s : State),
    (rcEnable (s.ringCtx r) = false → s.doorbell r p v = (St.RING_DISABLED, s)) ∧
    (rcEnable (s.ringCtx r) = true → p ≠ rcPart (s.ringCtx r) → s.doorbell r p v = (St.RING_DENIED, s)) ∧
    (rcEnable (s.ringCtx r) = true → p = rcPart (s.ringCtx r) → v < 2 ^ 32 →
      (v + 2 ^ 32 - rcHead (s.ringCtx r)) % 2 ^ 32 ≤ 2 ^ rcSize (s.ringCtx r) →
      (rcTail (s.ringCtx r) + 2 ^ 32 - rcHead (s.ringCtx r)) % 2 ^ 32 ≤ (v + 2 ^ 32 - rcHead (s.ringCtx r)) % 2 ^ 32 →
      s.doorbell r p v = (0, s.setCtx r (setBits (s.ringCtx r) 255 224 v)) ∧
      (s.doorbell r p v).2.ringCtx r = setBits (s.ringCtx r) 255 224 v) ∧
    (rcEnable (s.ringCtx r) = true → p = rcPart (s.ringCtx r) →
      (2 ^ 32 ≤ v ∨ 2 ^ rcSize (s.ringCtx r) < (v % 2 ^ 32 + 2 ^ 32 - rcHead (s.ringCtx r)) % 2 ^ 32 ∨
        (v % 2 ^ 32 + 2 ^ 32 - rcHead (s.ringCtx r)) % 2 ^ 32 < (rcTail (s.ringCtx r) + 2 ^ 32 - rcHead (s.ringCtx r)) % 2 ^ 32) →
      s.doorbell r p v = (St.RING_TAIL_BAD, s)))

/-- How the descriptors of a ring are fetched, run and completed. -/
def Obligations.DescriptorsRun : Prop :=
  (∀ (r : Fin 1048576) (s : State), s.ringRuns r = true → (s.ring r).fetching = false → (s.ring r).fetched.length < 8 → s.fetchCount r ≠ 0 →
    exec (.descriptorFetch r) s = .next
      (((((s.teServe r).setRing r { s.ring r with fetching := true }).teEnter r (teFetchMark + (rcHead (s.ringCtx r) + (s.ring r).fetched.length) % 2 ^ 32) 0 .read
        s.devNum (rcBase (s.ringCtx r) + 64 * ((rcHead (s.ringCtx r) + (s.ring r).fetched.length) % 2 ^ 32 % 2 ^ rcSize (s.ringCtx r)))
        (64 * s.fetchCount r) 0 0 false)).teRefresh (rcEngine (s.ringCtx r)))) ∧
  (∀ (r : Fin 1048576) (i w : Nat) (rest : List (Nat × Nat)) (s : State), s.ringRuns r = true → (s.ring r).fetched = (i, w) :: rest →
    (s.ring r).active = [] → ∃ d u, d = ({ idx := i, word := w, st := .ready, pos := 0, unit := 0, sub := 0, data := 0, hot := false, poisoned := false, beyond := false, detail := 0 } : Desc) ∧
      u = (((s.setCtx r (setBits (s.ringCtx r) 223 192 ((rcHead (s.ringCtx r) + 1) % 2 ^ 32))).teServe r).setRing r
        { s.ring r with fetched := rest, active := [d] }) ∧
      (u.descOk w (s.fdesc (rcPart (s.ringCtx r)) (tdFmt w)) = false →
        exec (.descriptorStart r) s = .next ((u.descEnd r d St.DESC_BAD).teRefresh (rcEngine (s.ringCtx r)))) ∧
      (u.descOk w (s.fdesc (rcPart (s.ringCtx r)) (tdFmt w)) = true → tdOp w = 5 → exec (.descriptorStart r) s = .next (u.teRefresh (rcEngine (s.ringCtx r)))) ∧
      (u.descOk w (s.fdesc (rcPart (s.ringCtx r)) (tdFmt w)) = true → tdOp w ≠ 5 →
        exec (.descriptorStart r) s = .next ((u.descNext r d).teRefresh (rcEngine (s.ringCtx r))))) ∧
  (∀ (r : Fin 1048576) (d : Desc) (s : State), (s.ring r).active.find? (fun d => d.st == .ready && tdOp d.word == 5) = some d →
    exec (.range (.descriptor r)) s = .next (s.descNext r d)) ∧
  (∀ (r : Fin 1048576) (e : TeDone) (d : Desc) (s t : State), s.takeDone r = some (e, t) → e.desc < teFetchMark →
    (t.ring r).active.find? (fun d => d.idx == e.desc) = some d →
    (d.st = .reading → exec (.teRequestDone r) s = .next (t.descRead r d e.status e.data)) ∧
    (d.st = .writing → exec (.teRequestDone r) s = .next (t.descWrote r d e.status e.data))) ∧
  (∀ (r : Fin 1048576) (e : TeDone) (s t : State), s.takeDone r = some (e, t) → teFetchMark ≤ e.desc → e.desc < teCompMark →
    exec (.teRequestDone r) s = .next ((t.fetched r (e.desc - teFetchMark) e.status e.data (t.fetchCount r)).ringDrained r)) ∧
  (∀ (r : Fin 1048576) (e : TeDone) (d : Desc) (st : Nat) (s t : State), s.takeDone r = some (e, t) → teCompMark ≤ e.desc →
    (t.ring r).active.find? (fun d => d.idx == e.desc - teCompMark) = some d → d.st = .entry st →
    (e.status = 0 → exec (.teRequestDone r) s = .next ((t.compAdvance r).descLeave r d st)) ∧
    (e.status ≠ 0 → exec (.teRequestDone r) s = .next (t.compFailed r d.idx e.status))) ∧
  (∀ (r : Fin 1048576) (d : Desc) (st : Nat) (rest : List Desc) (s : State), (s.ring r).active = d :: rest → d.st = .done st →
    (tdComp d.word = false → st = 0 → exec (.descriptorComplete r) s = .next (s.descLeave r d 0)) ∧
    ((tdComp d.word = true ∨ st ≠ 0) → exec (.descriptorComplete r) s = .next ((s.putDesc r { d with st := .entry st }).teEnter r (teCompMark + d.idx) 0 .write
      s.devNum (compAddr (s.ringCtx r)) 32 0 (compEntry (rcSize (s.ringCtx r)) (rcCompIndex (s.ringCtx r)) d.idx st d.beyond d.word d.pos d.detail) false))) ∧
  (∀ (r : Fin 1048576) (d : Desc) (s : State), (s.ring r).active.find? (fun d => d.st == .gateWait) = some d →
    (tdImm d.word ≤ s.gate → exec (.gateWaitDone r) s = .next (s.descEnd r d 0)) ∧
    (s.gate < tdImm d.word → exec (.gateWaitDone r) s = .next s)) ∧
  (∀ (t : Fin 512) (s : State), s.has .te t = true → exec (.engineFail t) s = .next (s.failEngine t Ca.SELFTEST_FAIL))

/-- The life of a sweep: armed, running, stopping, done. -/
def Obligations.SweepLifecycle : Prop :=
  (∀ (p : Nat) (w : OdWrite) (s : State), s.takes D.SWEEP_COMMAND p w = true → s.sweepStatus p (odNum w) = 0 →
    exec (.sweep (.object p w)) s = .next (s.sweepArm p (odNum w)).odDone) ∧
  (∀ (p : Nat) (w : OdWrite) (s : State), s.takes D.SWEEP_COMMAND p w = true → s.sweepStatus p (odNum w) ≠ 0 → s.sweepStatus p (odNum w) ≠ St.UNIT_ABSENT →
    ∃ t, exec (.sweep (.object p w)) s = .next t ∧ Refuses s t (s.sweepStatus p (odNum w))) ∧
  (∀ (p : Fin 16) (x : SweepRun) (s : State), s.sweep? p = some x → s.rd D.SWEEP_STATE p = 1 → x.time ≤ s.gate →
    ∃ t y, exec (.sweepLaunch p) s = .next t ∧ t.rd D.SWEEP_STATE p = 2 ∧ t.sweep? p = some y ∧
      y.holes = (domainSlices s.variant (s.rd D.PART_DOMAIN p)).filter (fun n => s.isOut n || (s.cache (s.sliceKey n)).failed) ∧
      y.work = ((domainSlices s.variant (s.rd D.PART_DOMAIN p)).filter (fun n => !y.holes.contains n)).map (fun n => (n, 0)) ∧
      y = { x with work := y.work, holes := y.holes, early := y.early } ∧ ObjsBut s t [(objKey D.SWEEP_STATE, p.val)]) ∧
  (∀ (p : Fin 16) (n : Fin 1024) (i : Nat) (x : SweepRun) (s : State), s.sweep? p = some x → s.rd D.SWEEP_STATE p = 4 →
    x.work.find? (fun e => e.1 == n.val) = some (n.val, i) → exec (.sweepSliceLine p n) s = .next (s.setSweep p (some (sliceOut x n 0)))) ∧
  (∀ (p : Fin 16) (n : Fin 1024) (i j : Nat) (x y : SweepRun) (d : ItemDone) (s t : State), s.sweep? p = some x → s.rd D.SWEEP_STATE p = 2 →
    x.work.find? (fun e => e.1 == n.val) = some (n.val, i) → (s.sliceUp n).2 = true → s.rd D.WINDOW_EPOCH p = x.epoch →
    s.nextItem p x n i = some j → (∀ h o, locate s.variant (s.sweepItemAt p x.cmd j) = some (h, o) → s.inDonor h o = false) →
    s.sweepItem p x n j = some (t, d) → t.sweep? p = some y → exec (.sweepSliceLine p n) s = .next (t.setSweep p (some { y with
        work := y.work.map (fun e => if e.1 = n.val then (e.1, j + 1) else e), linesDone := y.linesDone + d.lines, unitsDone := y.unitsDone + d.units,
        early := if d.lines = 0 && y.early = 0 then St.SLICE_FAILED else y.early, poisoned := y.poisoned || d.pois }))) ∧
  (∀ (p : Fin 16) (x : SweepRun) (s : State), s.sweep? p = some x → s.rd D.SWEEP_STATE p = 2 → x.work.any (fun e => (s.nextItem p x e.1 e.2).isSome) = false →
    (x.early ≠ 0 → exec (.sweepComplete p) s = .next (s.sweepEnd p x x.early)) ∧
    (x.early = 0 → (swOp x.cmd ≠ 5 ∨ s.gatherDone p x = true) →
      exec (.sweepComplete p) s = .next (s.sweepEnd p x (if x.poisoned then St.POISONED else 0)))) ∧
  (∀ (p : Fin 16) (x : SweepRun) (s : State), s.sweep? p = some x →
    (s.rd D.SWEEP_STATE p = 4 → exec (.sweepComplete p) s = .next (s.sweepEnd p x x.early)) ∧
    (s.rd D.SWEEP_STATE p = 2 → exec (.sweepTimeoutExpiry p) s = .next (s.sweepEnd p x St.SWEEP_TIMEOUT)) ∧
    (exec (.sweepProgressRefresh p) s = .next (s.wr D.SWEEP_PROGRESS p x.linesDone))) ∧
  (∀ (p : Fin 16) (w : OdWrite) (s : State), s.takes D.SWEEP_ABORT p w = true →
    (s.rd D.SWEEP_STATE p = 0 ∨ s.rd D.SWEEP_STATE p = 3 → ∃ t, exec (.sweepAbort p w) s = .next t ∧ Refuses s t St.SWEEP_NONE) ∧
    (∀ x, s.rd D.SWEEP_STATE p = 1 → s.sweep? p = some x → exec (.sweepAbort p w) s = .next (s.sweepEnd p x St.SWEEP_ABORTED).odDone) ∧
    (∀ x, s.rd D.SWEEP_STATE p = 2 → s.sweep? p = some x → exec (.sweepAbort p w) s = .next
      { (s.setSweep p (some { x with early := St.SWEEP_ABORTED })).wr D.SWEEP_STATE p 4 with out := s.out ++ [.od 0 0 0] })) ∧
  (∀ (p : Fin 16) (w : OdWrite) (s : State), s.takes D.SWEEP_GROUP p w = true →
    (s.rd D.SWEEP_STATE p = 0 ∨ s.rd D.SWEEP_STATE p = 3 → ∃ t, exec (.sweepGroup p w) s = .next t ∧ Sets s t D.SWEEP_GROUP p (odNum w)) ∧
    (s.rd D.SWEEP_STATE p ≠ 0 → s.rd D.SWEEP_STATE p ≠ 3 → ∃ t, exec (.sweepGroup p w) s = .next t ∧ Refuses s t St.SWEEP_BUSY)) ∧
  (∀ (p st : Nat) (x : SweepRun) (s : State), swNotify x.cmd = false → ∃ t, s.sweepEnd p x st = t ∧ t.rd D.SWEEP_STATE p = 3 ∧
    t.rd D.SWEEP_RESULT p = s.sweepRecord p x st ∧ t.sweep? p = none ∧
    ObjsBut s t [(objKey D.SWEEP_STATE, p), (objKey D.SWEEP_RESULT, p)] ∧ t = { s with objs := t.objs, sweeps := t.sweeps }) ∧
  (∀ (n : Fin 64) (m : Msg) (s : State), s.linkHears n m 0x0A = true →
    exec (.gatherWrite n m) s = .next (s.gatherTake n m (linkChunks m.hdr.toNat)))

/-- Requests at their slice: the order of the slice, and what a hit answers and stores. -/
def Obligations.RequestsAtTheirSlice : Prop :=
  (∀ (rid : Nat) (r : Req) (pl : Plan) (p : Loc) (s : State),
    (AtSlice s rid r pl p .read → exec (.sliceRead rid .good .good) s = .next (s.order p [rid] rid r pl)) ∧
    (AtSlice s rid r pl p .write → exec (.sliceWrite rid .good) s = .next (s.order p [rid] rid r pl)) ∧
    (AtSlice s rid r pl p .atomic → exec (.sliceAtomic rid .good .good) s = .next ((s.hotCount p r).order p [rid] rid r pl)) ∧
    (AtSlice s rid r pl p .prefetch → exec (.slicePrefetch rid .good) s = .next (s.order p [rid] rid r pl)) ∧
    (AtSlice s rid r pl p .fmtRead → exec (.formatOnRead rid) s = .next (s.order p [rid] rid r pl)) ∧
    (AtSlice s rid r pl p .fmtWrite → exec (.formatOnWrite rid) s = .next (s.order p [rid] rid r pl)) ∧
    (AtSlice s rid r pl p .scaledAcc → exec (.scaledAccumulate rid) s = .next ((s.hotCount p r).order p [rid] rid r pl))) ∧
  (∀ (rid : Nat) (r : Req) (pl : Plan) (p : Loc) (ln : Line) (s : State), AtSlice s rid r pl p .read → Hits s rid r pl p ln → pl.need &&& ln.poison = 0 →
    exec (.sliceRead rid .good .good) s = .next ((s.useLine p).complete rid 0 r.len (bytesOf ln.data pl.off r.len))) ∧
  (∀ (rid : Nat) (r : Req) (pl : Plan) (p : Loc) (ln : Line) (s : State), AtSlice s rid r pl p .prefetch → Hits s rid r pl p ln →
    exec (.slicePrefetch rid .good) s = .next (s.complete rid 0 0 0)) ∧
  (∀ (rid : Nat) (r : Req) (pl : Plan) (p : Loc) (ln : Line) (s : State), AtSlice s rid r pl p .write → Hits s rid r pl p ln →
    exec (.sliceWrite rid .good) s = .next (s.perform p [rid] r pl)) ∧
  (∀ (rid : Nat) (r : Req) (pl : Plan) (p : Loc) (ln : Line) (s : State), AtSlice s rid r pl p .atomic → Hits (s.hotCount p r) rid r pl p ln →
    exec (.sliceAtomic rid .good .good) s = .next ((s.hotCount p r).perform p [rid] r pl))

/-- What a request does to the bytes of its lines. -/
def Obligations.RequestEffects : Prop :=
  (∀ (k n u pois : Nat) (r : Req) (pl : Plan) (s : State), r.kind = .read →
    (pois &&& pl.need ≠ 0 → s.eff k n r pl u pois = ({ u := u, pois := pois, st := St.POISONED, rlen := 0, rdata := 0, changed := false }, s)) ∧
    (pois &&& pl.need = 0 →
      s.eff k n r pl u pois = ({ u := u, pois := pois, st := 0, rlen := r.len, rdata := bytesOf u pl.off r.len, changed := false }, s))) ∧
  (∀ (k n u pois b : Nat) (r : Req) (pl : Plan) (s : State), r.kind = .write →
    (s.eff k n r pl u pois).2 = s ∧ (s.eff k n r pl u pois).1.changed = true ∧
    bytesOf (s.eff k n r pl u pois).1.u b 1 = if pl.off ≤ b ∧ b < pl.off + r.len then r.data / 256 ^ (b - pl.off) % 256 else bytesOf u b 1) ∧
  (∀ (k n u pois : Nat) (r : Req) (pl : Plan) (s : State), r.kind = .atomic →
    (pois &&& pl.need ≠ 0 → s.eff k n r pl u pois = ({ u := u, pois := pois, st := St.POISONED, rlen := 0, rdata := 0, changed := false }, s)) ∧
    (pois &&& pl.need = 0 → s.eff k n r pl u pois = ({
        u := atApply (r.len / atWidth (atTy r.attr)) (atOp r.attr) (atTy r.attr) pl.off r.data u, pois := pois, st := 0,
        rlen := atRspLen r.attr r.len, rdata := bytesOf u pl.off r.len, changed := true }, s.count D.ATOMIC_OPS n 1))) ∧
  (∀ (k n u pois : Nat) (r : Req) (pl : Plan) (s : State), r.kind = .fmtRead → pois &&& pl.need ≠ 0 →
    s.eff k n r pl u pois = ({ u := u, pois := pois, st := St.POISONED, rlen := 0, rdata := 0, changed := false }, s)) ∧
  (∀ (k n u pois : Nat) (r : Req) (pl : Plan) (s : State), r.kind = .scaledAcc → (pois ≠ 0 ∨ r.poison = true) →
    s.eff k n r pl u pois = ({ u := u, pois := pois, st := St.POISONED, rlen := 0, rdata := 0, changed := false }, s))

/-- Fills, retries, write-backs, and the busy and hot lines of a slice. -/
def Obligations.SliceQueues : Prop :=
  ∀ (n : Fin 1024) (k : Nat) (s : State), s.keysOf n = [k] →
    (∀ line m, (s.cache k).miss.find? (fun m => m.line == line && m.want &&& (3 - m.have_) == 0) = some m →
      exec (.lineFill n line) s = .next (s.fill { key := k, n := n, src := m.src, dist := m.dist, line := line } m)) ∧
    (exec (.replayRetry n) s = .next ((s.setCache k { s.cache k with replay := [] }).againAll ((s.cache k).replay.map (fun r => [r])))) ∧
    (∀ line v, (s.cache k).victims.find? (fun v => v.line.line == line && !v.issued && !v.line.abusy) = some v →
      s.wrRoom { key := k, n := n, src := v.line.src, dist := v.line.dist, line := line } v.line.cls = true →
      exec (.writebackIssued n line) s = .next ((s.setCache k (victimPut (s.cache k) { v with issued := true })).issueWrite
        { key := k, n := n, src := v.line.src, dist := v.line.dist, line := line } v.line)) ∧
    (∀ line v, (s.cache k).victims.find? (fun v => v.line.line == line && v.issued) = some v →
      exec (.writebackAck n line) s = .next ((s.setCache k (victimDrop (s.cache k) line v.line.src v.line.dist)).againAll (v.waiters.map (fun r => [r])))) ∧
    (∀ line v, ((s.cache k).tags.filterMap (fun e => e.2)).find? (fun l => l.line == line && l.abusy) = none →
      (s.cache k).victims.find? (fun v => v.line.line == line && v.line.abusy) = some v → exec (.atomicBusyClear n line) s = .next
        ((s.setCache k (victimPut (s.cache k) { v with line := { v.line with abusy := false }, waiters := [] })).againAll (v.waiters.map (fun r => [r])))) ∧
    (∀ line ln, ((s.cache k).tags.filterMap (fun e => e.2)).find? (fun l => l.line == line && l.abusy) = some ln →
      ∃ p t, p = ({ key := k, n := n, src := ln.src, dist := ln.dist, line := line } : Loc) ∧ t = s.putLine p { ln with abusy := false } ∧
        exec (.atomicBusyClear n line) s = .next ((t.setCache k { t.cache k with
            busyQ := (t.cache k).busyQ.filter (fun g => !((s.cache k).busyQ.filter (s.waitsOn p)).contains g) }).againAll
          ((s.cache k).busyQ.filter (s.waitsOn p)))) ∧
    (exec (.hotLineInterval n) s = .next ((s.setCache k { s.cache k with
        hotCounts := [], hot := ((s.cache k).hot.filter (fun e => decide (1 < e.2))).map (fun e => (e.1, e.2 - 1)) }).enforce D.HOT_LINE_THRESHOLD 0)) ∧
    (∀ line b, (s.cache k).hotBufs.find? (fun b => b.line == line) = some b →
      exec (.hotBufferApply n line) s = .next (s.applyHot { key := k, n := n, src := b.src, dist := b.dist, line := line }))

/-- The walks of a RANGE, and the reduction units at a slice. -/
def Obligations.RangesAndUnits : Prop :=
  (∀ (rid : Nat) (r : Req) (s : State), s.req? rid = some r → r.kind = .range → r.dev = s.devNum → r.stage = .slice →
    ∃ u, u = s.startWalks rid r ∧ exec (.rangePart rid) s = .next ((u.walks.filter (fun w => w.rid == rid)).foldl (fun t w =>
      { (State.walkRun (rangeCount r + 1) t w r).1 with
        walks := (State.walkRun (rangeCount r + 1) t w r).1.walks.map
          (fun v => if v.rid == rid && v.slice == w.slice then (State.walkRun (rangeCount r + 1) t w r).2 else v) }) u)) ∧
  (∀ (rid : Nat) (r : Req) (s : State), s.req? rid = some r → r.kind = .range → r.stage = .waiting →
    s.walks.filter (fun w => w.rid == rid && s.walkDone r w) = [] → r.parts = [] → ∃ u, u = ({ s with walks := s.walks.filter (fun _ => true) } : State) ∧
      exec (.rangePartDone rid) s = .next ((u.setReq rid r).complete rid r.status 16 r.record)) ∧
  (∀ (rid : Nat) (r : Req) (w : Walk) (s : State), s.req? rid = some r → r.kind = .range → r.stage = .waiting →
    s.walks.filter (fun w => w.rid == rid && s.walkDone r w) = [w] → r.parts = [w.slice] → w.status = 0 →
    ∃ u : State, u.walks = s.walks.filter (fun v => !(v.rid == rid && v == w)) ∧ u = { s with walks := u.walks } ∧
      exec (.rangePartDone rid) s = .next ((u.setReq rid { r with parts := [] }).complete rid r.status 16 r.record)) ∧
  (∀ (n : Fin 1024) (u : MUnit) (rest : List MUnit) (s : State), s.sliceUp n = (s, true) → (s.cache (s.sliceKey n)).units = u :: rest →
    (s.unitPlans u.rids = [] → exec (.reductionUnitApply n) s = .next (s.setCache (s.sliceKey n) { s.cache (s.sliceKey n) with units := rest })) ∧
    (∀ rid r pl l, s.unitPlans u.rids = (rid, r, pl) :: l → s.planLoc pl = none →
      exec (.reductionUnitApply n) s = .next ((s.setCache (s.sliceKey n) { s.cache (s.sliceKey n) with units := rest }).failAll u.rids St.SLICE_FAILED)))

/-- Failure, spare adoption and retirement of a slice, and the tag peek. -/
def Obligations.SliceLifecycle : Prop :=
  (∀ (n : Fin 1024) (s : State), exec (.sliceFail n) s = .next (s.failSlice n) ∧
    ((s.cache (s.homeKey n)).failed = true ∨ s.isHole n = true → exec (.sliceFail n) s = .next s)) ∧
  (∀ (n : Fin 1024) (j : Nat) (s : State), s.adopting.find? (fun a => a.1 == n.val) = some (n.val, j, true) →
    ∃ t, exec (.spareAdoptionSwitch n) s = .next t ∧ t.rd D.SLICE_HOME n = homeOfSpare j ∧ t.rd D.SPARE_STATE j = 1 ∧
      t.eventSeq = (({ s with adopting := s.adopting.filter (fun a => a.1 != n.val) } : State).topoChange
        (({ s with adopting := s.adopting.filter (fun a => a.1 != n.val) } : State).sliceEndpoint n)).eventSeq + 1) ∧
  (∀ (n : Fin 1024) (w : OdWrite) (s : State), s.takes D.SLICE_RETIRE n w = true →
    (s.sliceStatus n ≠ 0 → ∃ t, exec (.sliceRetire n w) s = .next t ∧ Refuses s t St.SLICE_FAILED) ∧
    (s.sliceStatus n = 0 → s.retiring.any (fun r => sliceField r.1 == sliceField n) = true →
      ∃ t, exec (.sliceRetire n w) s = .next t ∧ Refuses s t St.RETIRE_BUSY) ∧
    (s.sliceStatus n = 0 → s.retiring.any (fun r => sliceField r.1 == sliceField n) = false → s.sliceMigrates n = true →
      ∃ t, exec (.sliceRetire n w) s = .next t ∧ Refuses s t St.CHAN_RETIRE_BUSY) ∧
    (s.sliceStatus n = 0 → s.retiring.any (fun r => sliceField r.1 == sliceField n) = false → s.sliceMigrates n = false →
      exec (.sliceRetire n w) s = .next { ({ s with retiring := s.retiring ++ [(n.val, s.nearestSpare n)] } : State).wr D.RETIRE_STATE n 1 with
        out := s.out ++ [.od 0 0 0] })) ∧
  (∀ (n : Fin 1024) (dst : Option Nat) (s : State), s.retireTo n = some dst → (s.cache (s.homeKey n)) = Slice.init → dst = none → s.homeKey n = n.val →
    s.lapA = none → ∃ t, exec (.retireWalkEnd n) s = .next t ∧ t.rd D.RETIRE_STATE n = 2 ∧ t.rd D.SLICE_HOME n = homeOfHole ∧
      t.retiring = s.retiring.filter (fun r => r.1 != n.val) ∧ t.eventSeq = s.eventSeq + 1 ∧ t.mem = s.mem) ∧
  (∀ (n : Fin 1024) (w : OdWrite) (s : State), s.takes D.TAG_PEEK_SELECT n w = true →
    (s.sliceStatus n ≠ 0 → ∃ t, exec (.tagPeekSelect n w) s = .next t ∧ Refuses s t St.SLICE_FAILED) ∧
    (s.sliceStatus n = 0 → (s.cache (s.sliceKey n)).lost.contains (bits (odNum w) 9 0) = false →
      ∃ t k, exec (.tagPeekSelect n w) s = .next t ∧ t.rd D.TAG_PEEK_SELECT n = odNum w ∧
        k = tagWord (Table.get none (16 * bits (odNum w) 9 0 + bits (odNum w) 13 10) (s.cache (s.sliceKey n)).tags) ∧
        t.rd D.TAG_PEEK_VALUE n = k + parityBit 47 k * 2 ^ 47 + 3 * 2 ^ 48 ∧
        ObjsBut s t [(objKey D.TAG_PEEK_SELECT, n.val), (objKey D.TAG_PEEK_VALUE, n.val)]) ∧
    (s.sliceStatus n = 0 → (s.cache (s.sliceKey n)).lost.contains (bits (odNum w) 9 0) = true →
      ∃ t, exec (.tagPeekSelect n w) s = .next t ∧ t.rd D.TAG_PEEK_SELECT n = odNum w ∧ t.rd D.TAG_PEEK_VALUE n = s.fresh % 2 ^ 50 ∧
        t.freeCtr = s.freeCtr + 1))

/-- Frames of a site's sideband: requests, queries, acknowledgements, resends and the VF_DONE timeout. -/
def Obligations.SidebandFrames : Prop :=
  (∀ (n : Fin 8) (f : BitVec 64) (s : State), frameNew s n f 1 = true →
    (16 ≤ sbArg f.toNat ∨ opValid (s.opp n (sbArg f.toNat)) = false →
      exec (.vfReq n f) s = .next (s.sbAnswer n (sbSeq f.toNat) 0x42 (sbArg f.toNat) 1)) ∧
    (sbArg f.toNat < 16 → opValid (s.opp n (sbArg f.toNat)) = true → s.inTransition n = true →
      exec (.vfReq n f) s = .next (s.sbAnswer n (sbSeq f.toNat) 0x42 (sbArg f.toNat) 2)) ∧
    (sbArg f.toNat < 16 → opValid (s.opp n (sbArg f.toNat)) = true → s.inTransition n = false →
      1000 * s.rd D.SITE_PMAX n < opSum (s.opp n (sbArg f.toNat)) →
      exec (.vfReq n f) s = .next (s.sbAnswer n (sbSeq f.toNat) 0x42 (sbArg f.toNat) 3)) ∧
    (sbArg f.toNat < 16 → opValid (s.opp n (sbArg f.toNat)) = true → s.inTransition n = false →
      opSum (s.opp n (sbArg f.toNat)) ≤ 1000 * s.rd D.SITE_PMAX n →
      exec (.vfReq n f) s = .next (s.vfStart n (sbArg f.toNat) (sbSeq f.toNat)) ∧
      ((s.siteRails n).filter (fun r => decide (opVolt (s.opp n (s.rd D.SITE_OPP_CURRENT n)) r < opVolt (s.opp n (sbArg f.toNat)) r)) = [] →
        ((s.vfStart n (sbArg f.toNat) (sbSeq f.toNat)).site n).run = .granted (sbArg f.toNat) false))) ∧
  (∀ (n : Fin 8) (f : BitVec 64) (s : State), frameNew s n f 2 = true →
    ((∀ r, (s.site n).run ≠ .granted (sbArg f.toNat) r) → exec (.vfDone n f) s = .next (s.sbAnswer n (sbSeq f.toNat) 0x42 (sbArg f.toNat) 5)) ∧
    (∀ r, (s.site n).run = .granted (sbArg f.toNat) r → exec (.vfDone n f) s = .next (s.vfLower n (sbArg f.toNat) (sbSeq f.toNat)))) ∧
  (∀ (n : Fin 8) (k : Nat) (r : Bool) (s : State), (s.site n).run = .granted k r → s.rd D.SITE_POWER n ≠ 0 → ∃ t, exec (.vfDoneTimeout n) s = .next t ∧
    t.rd D.SITE_OPP_CURRENT n = (if r then k else s.rd D.SITE_OPP_CURRENT n) ∧ (t.site n).run = .idle ∧ t.eventSeq = s.eventSeq + 1) ∧
  (∀ (n : Fin 8) (f : BitVec 64) (mv da : BitVec 16) (s : State), frameNew s n f 3 = true → sbArg f.toNat < 8 →
    ∃ t, exec (.railQuery n f mv da) s = .next t ∧ t.rd D.RAIL_VOUT (8 * n + sbArg f.toNat) = mv.toNat ∧
      t.rd D.RAIL_IOUT (8 * n + sbArg f.toNat) = da.toNat ∧
      t.out = s.out ++ [.sideband n (sbFrame 0x43 (sbSeq f.toNat) (sbArg f.toNat) (mv.toNat + da.toNat * 2 ^ 16))]) ∧
  (∀ (n : Fin 8) (f : BitVec 64) (s : State), frameNew s n f 4 = true → sbArg f.toNat < 2 → exec (.portQuery n f) s =
    .next (s.sbAnswer n (sbSeq f.toNat) 0x46 (sbArg f.toNat) (s.portMask n (sbArg f.toNat)))) ∧
  (∀ (n : Fin 8) (f : BitVec 64) (s : State), s.sbLive n = true → bits f.toNat 7 0 = 0x7F → sbCrc (f.toNat % 2 ^ 56) = bits f.toNat 63 56 →
    exec (.sidebandAck n f) s = .next (s.setSite n { s.site n with unacked := (s.site n).unacked.filter (fun u => sbSeq u.1 != sbSeq f.toNat) })) ∧
  (∀ (n : Fin 8) (f c : Nat) (rest : List (Nat × Nat)) (s : State), (s.site n).unacked = (f, c) :: rest → s.sbLive n = true →
    (c ≤ 8 → exec (.sidebandResend n) s =
      .next { s.setSite n { s.site n with unacked := (f, c + 1) :: rest } with out := s.out ++ [.sideband n f] }) ∧
    (8 < c → exec (.sidebandResend n) s = .next ((s.setSite n { s.site n with unacked := rest }).count D.SITE_SB_LOST n 1)))

/-- Rails, droop, current limits and faults of a site, and the writes of its objects. -/
def Obligations.SiteRailsAndObjects : Prop :=
  (∀ (n k : Fin 8) (rest : List Nat) (s : State), (s.site n).run = .up k rest →
    (rest = [] → exec (.railSettled n k) s = .next (s.siteUp n)) ∧
    (rest ≠ [] → s.rd D.SITE_SEQ_GAP n = 0 → exec (.railSettled n k) s = .next (s.railsUp n rest)) ∧
    (rest ≠ [] → s.rd D.SITE_SEQ_GAP n ≠ 0 → exec (.railSettled n k) s = .next (s.setRun n (.upGap rest)))) ∧
  (∀ (n k : Fin 8) (rest : List Nat) (last : Nat) (s : State), (s.site n).run = .down k rest last →
    (rest ≠ [] → last = 0 → s.rd D.SITE_SEQ_GAP n ≠ 0 → exec (.railSettled n k) s = .next (s.setRun n (.downGap rest last))) ∧
    ((rest = [] ∨ last ≠ 0 ∨ s.rd D.SITE_SEQ_GAP n = 0) → exec (.railSettled n k) s = .next (s.railsDown n last rest))) ∧
  (∀ (n : Fin 8) (rest : List Nat) (last : Nat) (s : State),
    ((s.site n).run = .upGap rest → exec (.siteSeqGapExpiry n) s = .next (s.railsUp n rest)) ∧
    ((s.site n).run = .downGap rest last → exec (.siteSeqGapExpiry n) s = .next (s.railsDown n last rest))) ∧
  (∀ (n k : Fin 8) (mv : BitVec 16) (s : State), s.sbLive n = true → bit (s.rd D.SITE_RAILS n) k = true →
    (mv.toNat : Int) + s.rd D.RAIL_DROOP_MV (8 * n.val + k.val) < s.setpoint n k → (s.site n).droop = false →
    ∃ t, exec (.railDroop n k mv) s = .next t ∧ t.rd D.RAIL_VOUT (8 * n.val + k.val) = mv.toNat ∧ (t.site n).droop = true ∧
      t.rd D.SITE_DROOP_COUNT n = satAdd (8 * D.SITE_DROOP_COUNT.len) (s.rd D.SITE_DROOP_COUNT n) 1 ∧ t.out = s.out ++ [.sdroop n true]) ∧
  (∀ (n : Fin 8) (mvs : List (BitVec 16)) (s : State), (s.site n).droop = true → (s.siteRails n).all (fun k =>
      decide (2 * ((((mvs[k]?).getD 0).toNat : Int) - s.setpoint n k).natAbs ≤ s.rd D.RAIL_DROOP_MV (8 * n + k))) = true →
    ∃ t, exec (.sdroopRelease n mvs) s = .next t ∧ (t.site n).droop = false ∧ t.out.getLast? = some (.sdroop n false)) ∧
  (∀ (n k : Fin 8) (us : BitVec 32) (s : State), s.sitePowered n = true → bit (s.rd D.SITE_RAILS n) k = true →
    exec (.currentLimitHold n k us) s = .next ((s.count D.SITE_LIMIT_COUNT n 1).sbSend n 0x44 k us.toNat)) ∧
  (∀ (n : Fin 8) (c : BitVec 4) (k : Nat) (l : List Nat) (s : State), maskList 4 c.toNat = k :: l → s.sitePowered n = true →
    ∃ t, exec (.siteFault n c) s = .next t ∧ t = s.siteFault n (k + 1)) ∧
  (∀ (n : Fin 8) (w : OdWrite) (s : State), s.takes D.SITE_POWER n w = true →
    (odNum w = 1 → opValid (s.opp n 0) = false → ∃ t, exec (.sitePower n w) s = .next t ∧ Refuses s t St.SITE_OPP_BAD) ∧
    (odNum w = 1 → opValid (s.opp n 0) = true → s.rd D.SITE_POWER n = 1 → ∃ t, exec (.sitePower n w) s = .next t ∧ Sets s t D.SITE_POWER n 1) ∧
    (odNum w = 1 → opValid (s.opp n 0) = true → s.rd D.SITE_POWER n ≠ 1 → (s.site n).run = .idle →
      exec (.sitePower n w) s = .next ((s.setObj D.SITE_POWER n w).siteStart n).odDone) ∧
    (odNum w ≠ 1 → s.rd D.SITE_POWER n = 1 → (s.site n).run = .idle →
      exec (.sitePower n w) s = .next ((s.setObj D.SITE_POWER n w).siteStop n).odDone)) ∧
  (∀ (j : Fin 128) (w : OdWrite) (s : State), s.takes D.SITE_OPP j w = true → bits (odNum w) 319 289 = 0 →
    (List.range 8).any (fun k => decide (1200 < opImax (odNum w) k)) = false →
    (s.opRailsOk (j.val / 16) (odNum w) (s.rd D.RAIL_VMIN) (s.rd D.RAIL_VMAX) = false → ∃ t, exec (.siteOpp j w) s = .next t ∧ Refuses s t St.SITE_OPP_BAD) ∧
    (s.opRailsOk (j.val / 16) (odNum w) (s.rd D.RAIL_VMIN) (s.rd D.RAIL_VMAX) = true → opSum (odNum w) ≤ 1000 * s.rd D.SITE_PMAX (j.val / 16) →
      ((s.oppsUsed (j.val / 16)).contains (j.val % 16) = true → ∃ t, exec (.siteOpp j w) s = .next t ∧ Refuses s t St.SITE_OPP_BUSY) ∧
      ((s.oppsUsed (j.val / 16)).contains (j.val % 16) = false → ∃ t, exec (.siteOpp j w) s = .next t ∧ Sets s t D.SITE_OPP j (odNum w)))) ∧
  (∀ (n : Fin 8) (w : OdWrite) (s : State), s.takes D.SITE_PMAX n w = true →
    ((s.oppsUsed n).any (fun k => decide (1000 * odNum w < opSum (s.opp n k))) = true → ∃ t, exec (.sitePmax n w) s = .next t ∧ Refuses s t St.SITE_OPP_BUSY) ∧
    ((s.oppsUsed n).any (fun k => decide (1000 * odNum w < opSum (s.opp n k))) = false →
      ∃ t, exec (.sitePmax n w) s = .next t ∧ Sets s t D.SITE_PMAX n (odNum w))) ∧
  (∀ (n : Fin 8) (w : OdWrite) (s : State), s.takes D.SITE_RAILS n w = true →
    (s.energyWith (some (n.val, odNum w)) none none = true → ∃ t, exec (.siteRails n w) s = .next t ∧ Sets s t D.SITE_RAILS n (odNum w)) ∧
    (s.energyWith (some (n.val, odNum w)) none none = false → ∃ t, exec (.siteRails n w) s = .next t ∧ Refuses s t St.ENERGY_LIMIT)) ∧
  (∀ (j : Fin 64) (w : OdWrite) (s : State), s.takes D.RAIL_VMIN j w = true → s.absOk j (odNum w) = true →
    s.oppsFit (j.val / 8) (upd (s.rd D.RAIL_VMIN) j (odNum w)) (s.rd D.RAIL_VMAX) = true →
    ∃ t, exec (.railVmin j w) s = .next t ∧ Sets s t D.RAIL_VMIN j (odNum w)) ∧
  (∀ (j : Fin 64) (w : OdWrite) (s : State), s.takes D.RAIL_VMAX j w = true →
    (s.absOk j (odNum w) = false → ∃ t, exec (.railVmax j w) s = .next t ∧ Refuses s t St.OD_RANGE) ∧
    (s.absOk j (odNum w) = true → s.oppsFit (j.val / 8) (s.rd D.RAIL_VMIN) (upd (s.rd D.RAIL_VMAX) j (odNum w)) = true →
      s.energyWith none (some (j.val, odNum w)) none = true → ∃ t, exec (.railVmax j w) s = .next t ∧ Sets s t D.RAIL_VMAX j (odNum w))) ∧
  (∀ (j : Fin 64) (w : OdWrite) (s : State), s.takes D.RAIL_DIE_CAP j w = true →
    (s.energyWith none none (some (j.val, odNum w)) = true → ∃ t, exec (.railDieCap j w) s = .next t ∧ Sets s t D.RAIL_DIE_CAP j (odNum w)) ∧
    (s.energyWith none none (some (j.val, odNum w)) = false → ∃ t, exec (.railDieCap j w) s = .next t ∧ Refuses s t St.ENERGY_LIMIT))

/-- Pseudo-channels, refresh, temperature, scrubbing and initialisation of the HBM. -/
def Obligations.HbmOperation : Prop :=
  (∀ (i : Fin 2048) (x : Cand) (s : State), s.pcLive i = true → s.pcChoice i = some x →
    (x.hit = true → exec (.pseudoChannelIssue i) s = .next (s.pcIssue i x).feedAll) ∧
    (x.hit = false → s.actLimited i (s.pc i) = true → exec (.pseudoChannelIssue i) s = .next (s.count D.ACT_BUDGET_STALL (i.val / 2) 1)) ∧
    (x.hit = false → s.actLimited i (s.pc i) = false →
      exec (.pseudoChannelIssue i) s = .next ((s.activate i ((s.pc i).lineOf x)).pcIssue i x).feedAll)) ∧
  (∀ (i : Fin 2048) (e : Ecc) (r : RdEnt) (rest : List RdEnt) (s : State), (s.pc i).back = r :: rest →
    ∃ t, t = (s.setPc i { s.pc i with back := rest }).codeword (i.val / 2) (r.phys * 128 + 64 * (r.sectors / 2))
        (if (s.pc i).wrQueued r.phys r.sectors then .clean else e) false ∧
      exec (.hbmReadReturn i e) s = .next (t.deliver r (t.load (chanAddr (i.val / 2) (r.phys * 128)) 128)
        (t.poisonAt (chanAddr (i.val / 2) (r.phys * 128 + 64 * (r.sectors / 2)))))) ∧
  (∀ (i : Fin 2048) (b : Fin 64) (s : State), ∃ t, exec (.rowCloseTimeout i b) s = .next t ∧ Table.get none b (t.pc i).rows = none ∧
    t = { s with pcs := t.pcs }) ∧
  (∀ (i : Fin 2048) (b : Fin 64) (s : State), s.rd D.CHAN_POWER (i.val / 2) < 2 → ∃ t, exec (.refresh i b) s = .next t ∧
    Table.get none b (t.pc i).rows = none ∧ t = { s with pcs := t.pcs }) ∧
  (∀ (m : Fin 32) (c : Int) (s : State), s.has .stack m = true → s.rd D.TRAIN_MODE_LAST m = 1 ∨ s.rd D.TRAIN_MODE_LAST m = 2 →
    (nextBand (s.rd D.STACK_BAND m) c = s.rd D.STACK_BAND m → exec (.stackTempSample m c) s =
      .next (((s.wr D.STACK_TEMP m (ofSigned 32 c)).wr D.STACK_TEMP_VALID m 1).wr D.STACK_BAND m (s.rd D.STACK_BAND m))) ∧
    (nextBand (s.rd D.STACK_BAND m) c = 2 → s.rd D.STACK_BAND m < 2 → exec (.stackTempSample m c) s =
      .next (((((s.wr D.STACK_TEMP m (ofSigned 32 c)).wr D.STACK_TEMP_VALID m 1).wr D.STACK_BAND m 2).raise Ev.HBM_HOT 0 0).refreshGroup m)) ∧
    (nextBand (s.rd D.STACK_BAND m) c = 3 → s.rd D.STACK_BAND m < 3 → exec (.stackTempSample m c) s =
      .next ((((((s.wr D.STACK_TEMP m (ofSigned 32 c)).wr D.STACK_TEMP_VALID m 1).wr D.STACK_BAND m 3).raise Ev.HBM_TRIP 0 0).stackSleep m).refreshGroup m))) ∧
  (∀ (c : Fin 1024) (e : Ecc) (s : State), s.has .chan c = true → s.rd D.CHAN_POWER c.val < 2 → s.rd D.CHAN_BACKING c.val = 0 →
    exec (.scrubStep c e) s = .next ((s.setChan c { s.chan c with scrub := ((s.chan c).scrub + 1) % 2 ^ 25 }).codeword c (64 * (s.chan c).scrub) e
      (s.dirtyCached (s.holder c (64 * (s.chan c).scrub)).1 (s.holder c (64 * (s.chan c).scrub)).2 ||
        (s.pc (cellPc (64 * (s.chan c).scrub) + 2 * c.val)).wrQueued (64 * (s.chan c).scrub / 128) (2 ^ (64 * (s.chan c).scrub / 64 % 2))))) ∧
  (∀ (c : Fin 1024) (s : State), s.has .chan c = true → (s.chan c).inited < chanUnits → s.rd D.CHAN_POWER c.val < 2 → s.rd D.CHAN_BACKING c.val < 2 →
    ∃ t, exec (.initStep c) s = .next t ∧ (t.chan c).inited = (s.chan c).inited + 1 ∧
      ((s.chan c).inited + 1 < chanUnits → t = { s with chans := t.chans })) ∧
  (∀ (i : Fin 2048) (s : State), s.rd D.CHAN_POWER (i.val / 2) = 0 → (s.pc i).retrain = false →
    (exec (.readTimingCheck i false) s = .next ((s.setPc i { s.pc i with retrain := true }).count D.RETRAIN_COUNT (i.val / 2) 1)) ∧
    (exec (.readTimingCheck i true) s = .next s)) ∧
  (∀ (i : Fin 2048) (s : State), ∃ t, exec (.hbmRetrainDone i) s = .next t ∧ (t.pc i).retrain = false ∧ t = { s with pcs := t.pcs }) ∧
  (∀ (c : Fin 1024) (s : State), exec (.pdIdleExpiry c) s = .next (s.chanRest c)) ∧
  (∀ (c : Fin 1024) (s : State), s.rising.contains (.channel c) = true → s.rd D.CHAN_POWER c = 2 → s.rd D.STACK_BAND (c.val / 32) ≠ 3 →
    exec (.selfRefreshExitDone c) s =
      .next (({ s with rising := s.rising.filter (fun u => u != .channel c) } : State).wr D.CHAN_POWER c 0)) ∧
  (∀ (c : Fin 1024) (w : OdWrite) (s : State), s.takes D.HBM_SELF_REFRESH c w = true →
    (odNum w ≠ 0 → exec (.hbmSelfRefresh c w) s = .next ((s.setObj D.HBM_SELF_REFRESH c w).chanRest c).odDone) ∧
    (odNum w = 0 → s.rd D.CHAN_POWER c ≠ 2 → ∃ t, exec (.hbmSelfRefresh c w) s = .next t ∧ Sets s t D.HBM_SELF_REFRESH c 0))

/-- Training of stacks, and retirement and failure of channels. -/
def Obligations.HbmTrainingAndRetirement : Prop :=
  (∀ (m : Fin 32) (o : TrainOutcome) (s : State), s.has .stack m = true → s.rd D.BOOT_STAGE 0 = 6 → s.named (ucStack m) 0 = false →
    (o.supported = false → exec (.stackTrain m o) s =
      .next (((failedChans m (2 ^ 64 - 1)).foldl (fun t c => t.bootFail c)
        ((s.wr D.TRAIN_MODE_LAST m 3).noteFail (ucStack m) Ca.STACK_UNSUPPORTED)).refreshGroup m)) ∧
    (o.supported = true → (s.stackId m o).rdB D.FORCE_FULL_TRAIN 0 = false → (s.stackId m o).trainMatch m o = true → o.verifies = true →
      exec (.stackTrain m o) s = .next ((((s.stackId m o).wr D.TRAIN_MODE_LAST m 1).refreshGroup m).resetGroupEst m)) ∧
    (o.supported = true → o.verifies = false → exec (.stackTrain m o) s =
      .next ((((failedChans m o.failedPcs.toNat).foldl (fun t c => t.bootFail c)
        ((((s.stackId m o).saveTrain m o).wr D.TRAIN_MODE_LAST m (if o.failedPcs.toNat = 2 ^ 64 - 1 then 3 else 2)).raise Ev.HBM_TRAIN_FULL 0 0)).refreshGroup
          m).resetGroupEst m))) ∧
  (∀ (c : Fin 1024) (w : OdWrite) (s : State), s.takes D.CHANNEL_RETIRE c w = true →
    (s.retireStatus c (odNum w) = 0 →
      exec (.channelRetire c w) s = .next (s.retireStart c (odNum w) (s.rd D.CHAN_BACKING c == 3)).odDone) ∧
    (s.retireStatus c (odNum w) ≠ 0 → s.retireStatus c (odNum w) ≠ St.UNIT_ABSENT →
      ∃ t, exec (.channelRetire c w) s = .next t ∧ Refuses s t (s.retireStatus c (odNum w)))) ∧
  (∀ (c : Fin 1024) (bad : BitVec 8) (s : State), s.rd D.CHAN_BACKING c = 1 → s.rd D.MIG_PROGRESS c < chanUnits →
    ∃ u, u = (List.range 8).foldl (fun (t : State) j =>
        ((if bit bad.toNat j && !(s.chan c).dead then t.codeword c (512 * s.rd D.MIG_PROGRESS c + 64 * j) .failed false else t).copySector c
          ((s.chan c).mig.getD 0) (512 * s.rd D.MIG_PROGRESS c + 64 * j) (bit bad.toNat j || (s.chan c).dead))) s ∧
      exec (.migrationUnitCopy c bad) s = .next (u.wr D.MIG_PROGRESS c (s.rd D.MIG_PROGRESS c + 1)).feedAll) ∧
  (∀ (c : Fin 1024) (s : State), s.rd D.CHAN_BACKING c = 1 → s.rd D.MIG_PROGRESS c = chanUnits → ∃ u v,
    u = ((s.wr D.CHAN_BACKING c 2).wr D.CHAN_DONOR c ((s.chan c).mig.getD 0)).wr D.CHAN_POWER c 3 ∧
    v = (((u.setChan c { s.chan c with mig := none }).pcDead (2 * c)).pcDead (2 * c + 1)).storeTouch ∧
    exec (.migrationEnd c) s = .next ((((v.raise Ev.CHANNEL_RETIRED 0 0).chanRecord (channelSlice c) 0x45 clsCorrected (ucChannel c) 0
      (v.rd D.MIG_POISON_SECTORS c)).refreshGroup (c.val / 32)).feedAll)) ∧
  (∀ (c : Fin 1024) (s : State),
    ((s.has .chan c = false ∨ 2 ≤ s.rd D.CHAN_BACKING c.val ∨ (s.chan c).dead = true) → exec (.channelFail c) s = .next s) ∧
    (s.has .chan c = true → s.rd D.CHAN_BACKING c.val < 2 → (s.chan c).dead = false → ∃ u,
      u = (((s.setChan c { s.chan c with dead := true }).pcDead (2 * c)).pcDead (2 * c + 1)).addDefect (ucChannel c) 0 2 0 ∧
      (u.rd D.CHAN_BACKING c.val = 1 → exec (.channelFail c) s = .next (u.chanRecord (channelSlice c) 0x44 clsContained (ucChannel c) 0 0xFFFF)) ∧
      (u.rd D.CHAN_BACKING c.val ≠ 1 → u.rdB D.AUTO_RETIRE 0 = true → exec (.channelFail c) s = .next (u.autoRetire c true)) ∧
      (u.rd D.CHAN_BACKING c.val ≠ 1 → u.rdB D.AUTO_RETIRE 0 = false → exec (.channelFail c) s = .next (u.chanFailed c))))

/-- Loading, switching, unloading, suspending and resuming lap tables. -/
def Obligations.LapTables : Prop :=
  (∀ (w : OdWrite) (s : State), s.takes D.LAP_LOAD 0 w = true →
    (bits (odNum w) 63 44 ≠ 0 ∨ bits (odNum w) 127 96 ≠ 0 → ∃ t, exec (.lapLoad w) s = .next t ∧ Refuses s t St.OD_VALUE) ∧
    (bits (odNum w) 63 44 = 0 → bits (odNum w) 127 96 = 0 → s.lapLoad.isSome = true ∨ s.lapOp.isSome = true →
      ∃ t, exec (.lapLoad w) s = .next t ∧ Refuses s t St.LAP_BUSY) ∧
    (bits (odNum w) 63 44 = 0 → bits (odNum w) 127 96 = 0 → s.lapLoad = none → s.lapOp = none → ∃ t, exec (.lapLoad w) s = .next t ∧
      t.lapLoad = some (bits (odNum w) 43 0, bits (odNum w) 95 64) ∧ t.lapS = none ∧ t.lapA = s.lapA ∧ t.rd D.LAP_LOAD_STATE 0 = 1 ∧
      t.rd D.LAP_LOAD_DETAIL 0 = 0 ∧ t.mem = s.mem)) ∧
  (∀ (a len : Nat) (v : Nat × Bool) (s u : State), s.lapLoad = some (a, len) → u = { s with lapLoad := none } → 0 < len → len ≤ 2 ^ 28 →
    (u.lapReadStatus a len ≠ 0 → ∃ t, exec .lapLoadDone s = .next t ∧ t.rd D.LAP_LOAD_STATE 0 = 3 ∧
      t.rd D.LAP_LOAD_DETAIL 0 = (lapErr (u.lapReadStatus a len) 1).detail ∧ t.lapLoad = none ∧ t.lapS = s.lapS) ∧
    (∀ e, u.lapReadStatus a len = 0 → u.peekMany (len / 128 + 2) a len = v → v.2 = false → u.lapCheck v.1 len = some e →
      ∃ t, exec .lapLoadDone s = .next t ∧ t.rd D.LAP_LOAD_STATE 0 = 3 ∧ t.rd D.LAP_LOAD_DETAIL 0 = e.detail ∧ t.lapLoad = none ∧ t.lapS = s.lapS) ∧
    (u.lapReadStatus a len = 0 → u.peekMany (len / 128 + 2) a len = v → v.2 = false → u.lapCheck v.1 len = none →
      ∃ t, exec .lapLoadDone s = .next t ∧ t.lapS = some (lapTable v.1) ∧ t.lapA = s.lapA ∧ t.lapLoad = none ∧ t.rd D.LAP_LOAD_STATE 0 = 2)) ∧
  (∀ (w : OdWrite) (s : State), s.takes D.LAP_SWITCH 0 w = true →
    (s.switchStatus (odNum w) = 0 → exec (.lapSwitch w) s = .next { s.armLap .switch (odNum w) false with out := s.out ++ [.od 0 0 0] }) ∧
    (s.switchStatus (odNum w) ≠ 0 → s.switchStatus (odNum w) ≠ St.UNIT_ABSENT → exec (.lapSwitch w) s =
      .next { s.wr D.LAP_SWITCH_STATUS 0 (s.switchStatus (odNum w)) with out := s.out ++ [.od (s.switchStatus (odNum w)) 0 0] })) ∧
  (∀ (w : OdWrite) (s : State), s.takes D.LAP_UNLOAD 0 w = true →
    (s.lapOp.isSome = true → exec (.lapUnload w) s =
      .next { s.wr D.LAP_SWITCH_STATUS 0 St.LAP_BUSY with out := s.out ++ [.od St.LAP_BUSY 0 0] }) ∧
    (s.lapOp = none → odNum w % s.activeLen ≠ 0 ∨ odNum w < s.gate + 20000 → exec (.lapUnload w) s =
      .next { s.wr D.LAP_SWITCH_STATUS 0 St.LAP_SWITCH_TIME with out := s.out ++ [.od St.LAP_SWITCH_TIME 0 0] }) ∧
    (s.lapOp = none → odNum w % s.activeLen = 0 → s.gate + 20000 ≤ odNum w →
      exec (.lapUnload w) s = .next { s.armLap .unload (odNum w) false with out := s.out ++ [.od 0 0 0] })) ∧
  (∀ (w : OdWrite) (s : State), s.takes D.LAP_RESUME 0 w = true →
    (s.rd D.LAP_STATE 0 ≠ 2 → exec (.lapResume w) s =
      .next { s.wr D.LAP_SWITCH_STATUS 0 St.LAP_NOT_SUSPENDED with out := s.out ++ [.od St.LAP_NOT_SUSPENDED 0 0] }) ∧
    (∀ t, s.rd D.LAP_STATE 0 = 2 → s.lapA = some t → s.armStatus t t.len (odNum w) = 0 →
      exec (.lapResume w) s = .next { s.armLap .resume (odNum w) false with out := s.out ++ [.od 0 0 0] })) ∧
  (∀ (o : LapOp) (t : LapTable) (s : State), s.lapOp = some o → s.activeLap = some t →
    exec .lapTailStop s = .next (if o.kind ≠ .resume ∧ o.time ≤ s.gate + t.tail then { s with lapOp := some { o with tail := true } } else s)) ∧
  (∀ (o : LapOp) (t : LapTable) (s : State), s.lapOp = some o → o.kind = .switch → o.time ≤ s.gate → o.clock = false → s.lapS = some t →
    (s.lapStep789 t = none → ∃ u, exec .lapSwitchAtT s = .next u ∧ u.lapA = some t ∧ u.lapS = s.lapA ∧ u.lapOp = none ∧
      u.rd D.LAP_STATE 0 = 1 ∧ u.rd D.LAP_SWITCH_STATE 0 = 2 ∧ ∀ f, u.rd D.RED_FLAGS f = 0) ∧
    (∀ e, s.lapStep789 t = some e → exec .lapSwitchAtT s =
      .next (({ s with lapOp := none } : State).wr D.LAP_SWITCH_STATE 0 3 |>.wr D.LAP_SWITCH_STATUS 0 e.st))) ∧
  (∀ (o : LapOp) (s : State), s.lapOp = some o → o.kind = .unload → o.time ≤ s.gate → ∃ u, exec .lapUnloadAtT s = .next u ∧ u.lapA = none ∧
    u.lapS = (if s.lapA.isSome then s.lapA else s.lapS) ∧ u.lapOp = none ∧ u.rd D.LAP_STATE 0 = 0 ∧ u.rd D.LAP_SWITCH_STATE 0 = 2) ∧
  (∀ (o : LapOp) (t : LapTable) (s : State), s.lapOp = some o → o.kind = .resume → o.time ≤ s.gate → s.lapA = some t → s.lapStep789 t = none →
    ∃ u, exec .lapResumeAtT s = .next u ∧ u.lapA = some t ∧ u.lapS = s.lapS ∧ u.lapOp = none ∧ u.rd D.LAP_STATE 0 = 1 ∧
      u.rd D.LAP_SWITCH_STATE 0 = 2) ∧
  (∀ (c : Nat) (s : State), s.lapCause = some c →
    (s.rd D.LAP_STATE 0 = 1 → s.gate % 256 = 0 → ∃ u, exec .lapSuspend s = .next u ∧ u.rd D.LAP_STATE 0 = 2 ∧ u.flying = [] ∧ u.lapCause = none ∧
      u.lapA = s.lapA) ∧
    (s.rd D.LAP_STATE 0 ≠ 1 ∨ s.gate % 256 ≠ 0 → exec .lapSuspend s = .next s))

/-- One stride of the mesh, slips, route-around and reduction flags. -/
def Obligations.MeshMoves : Prop :=
  (∀ s : State, ∃ a, a = s.drainLanding.schedMove ∧
    exec .stride s = .next (((a.1.seamMove).skateMove a.2).skateIn).tickGate) ∧
  (∀ s : State, (s.gateRun = true → s.tickGate = { s with gate := (s.gate + 1) % 2 ^ 64 }) ∧ (s.gateRun = false → s.tickGate = s)) ∧
  (∀ (r p : Nat) (u : MUnit) (s : State), ∃ t, s.slip r p u = t ∧ t.fsQueue (outKey r p) = u :: s.fsQueue (outKey r p) ∧
    (∀ k, k ≠ outKey r p → t.fsQueue k = s.fsQueue k) ∧ t.rd D.LAP_SLIP 0 = satAdd (8 * D.LAP_SLIP.len) (s.rd D.LAP_SLIP 0) 1) ∧
  (∀ (k : Nat) (u : MUnit) (l : List MUnit) (n : Nat) (s : State), s.fsQueue k = u :: l → s.slotNow (routerField (k / 16)) = true →
    neighbour s.variant (k / 16) (k % 16) = some n → s.rd D.ROUTER_STATE n = 0 → s.fieldUp (routerField n) = (s, true) →
    routerField n = routerField (k / 16) → (s.fsQueue (outKey n (s.outPort n (k % 16) u.dst))).length < 32 →
    outKey n (s.outPort n (k % 16) u.dst) ≠ k → ∃ t, s.skateOut k = t ∧ t.fsQueue k = l ∧
      t.fsQueue (outKey n (s.outPort n (k % 16) u.dst)) = s.fsQueue (outKey n (s.outPort n (k % 16) u.dst)) ++ [u] ∧ t = { s with fsq := t.fsq }) ∧
  (∀ (r : Fin 1024) (s : State),
    (s.routerHere r = false ∨ s.rd D.ROUTER_STATE r ≠ 0 → exec (.routerFail r) s = .next s) ∧
    (exec (.routerFail r) s = .next (s.failRouter r))) ∧
  (∀ s : State,
    (s.routeFails = s.failedRouters → exec .routeTableSwitch s = .next s) ∧
    (s.routeFails ≠ s.failedRouters → s.avoidFailed.stranded = none → ∃ t, exec .routeTableSwitch s = .next t ∧ t.routeFails = s.failedRouters ∧
      t.rd D.MESH_DETOUR_MAX 0 = s.avoidFailed.detourMax ∧ ObjsBut s t [(objKey D.MESH_DETOUR_MAX, 0)])) ∧
  (∀ (f : Fin 64) (w : OdWrite) (s : State), s.takes D.RED_FLAGS_CLEAR f w = true →
    exec (.redFlagsClear f w) s = .next { s.wr D.RED_FLAGS f 0 with out := s.out ++ [.od 0 0 0] })

/-- Gate time: sync words, sources, the time exchange, steps, timeouts and reads. -/
def Obligations.GateTime : Prop :=
  (∀ (l : List (Fin 1024)) (s : State), s.gate % 1024 ≠ 0 → exec (.syncWord l) s = .next s) ∧
  (∀ (r : Fin 1024) (s : State), s.gate % 1024 = 0 →
    exec (.syncWord []) s = .next { s with gsv := { s.gsv with stale := [] } } ∧
    (fieldPresent s.variant (sliceField r.val) = true → s.rd D.FIELD_POWER (sliceField r.val) < 2 → ∃ t, exec (.syncWord [r]) s = .next t ∧
      t.gsv.stale = [] ∧ t.eventSeq = s.eventSeq + 1 ∧
      t.rd D.GATE_TAP_ERR_COUNT 0 = satAdd (8 * D.GATE_TAP_ERR_COUNT.len) (s.rd D.GATE_TAP_ERR_COUNT 0) 1)) ∧
  (∀ (w : OdWrite) (s : State), s.takes D.GATE_SOURCE 0 w = true → odNum w ≠ 2 → ∃ t, exec (.gateSource w) s = .next t ∧
    t.rd D.GATE_SOURCE 0 = odNum w ∧ t.rd D.GATE_UPSTREAM_LINK 0 = 0xFF ∧ t.rd D.PTP_STATE 0 = 0 ∧ t.rd D.GATE_HOPS 0 = 0 ∧
    t.rd D.GATE_SYNC_STATE 0 = (if odNum w = 0 ∧ 10 ≤ s.rd D.BOOT_STAGE 0 then 1 else 0) ∧ t.gsv.step = none ∧ t.gsv.lock = 0 ∧
    t.out.getLast? = some (.od 0 0 0)) ∧
  (∀ (st : Nat) (s : State), ∃ t, s.setSync st = t ∧ t.rd D.GATE_SYNC_STATE 0 = st ∧ (s.rd D.GATE_SYNC_STATE 0 = st → t = s) ∧
    (s.rd D.GATE_SYNC_STATE 0 ≠ st → t.eventSeq = s.eventSeq + 1 ∧ t.gsv.lock = 0 ∧ t.gsv.holdAt = (if st = 2 then s.gate else s.gsv.holdAt))) ∧
  (∀ (n : Fin 64) (s : State),
    (s.rd D.LINK_STATE n.val ≠ 3 → exec (.timexDue n) s = .next s) ∧
    (s.rd D.LINK_STATE n.val = 3 → exec (.timexDue n) s = .next
      ((s.setTmx n { s.tmx n with seq := ((s.tmx n).seq + 1) % 2 ^ 16, open_ := true, t1 := none, wait := false }).sendTimex n
        (timexHdr 0 (((s.tmx n).seq + 1) % 2 ^ 16) 0 0 0) 0))) ∧
  (∀ (n : Fin 64) (m : BitVec 256) (s : State), s.timexIs n m 0 = true → exec (.timexRequest n m) s = .next
    (s.sendTimex n (timexHdr 1 (txXseq m.toNat) (s.rd D.GATE_SYNC_STATE 0) s.ghops s.errBound) s.gate)) ∧
  (∀ (n : Fin 64) (m : BitVec 256) (a : Nat) (s : State), s.timexIs n m 1 = true → (s.tmx n).open_ = true → (s.tmx n).t1 = some a →
    txXseq m.toNat = (s.tmx n).seq → s.rd D.GATE_SOURCE 0 ≠ 2 → exec (.timexReply n m) s = .next (s.setTmx n
      { s.tmx n with open_ := false, wait := true, t2 := bits m.toNat 191 128, t4 := s.gate, known := true, state := bits m.toNat 25 24,
                     hops := bits m.toNat 29 26, err := bits m.toNat 61 30 })) ∧
  (∀ (n : Fin 64) (m : BitVec 256) (t1 : Nat) (off del : Int) (s : State), s.timexIs n m 2 = true → (s.tmx n).wait = true → (s.tmx n).t1 = some t1 →
    txXseq m.toNat = (s.tmx n).seq → s.rd D.GATE_SOURCE 0 ≠ 2 →
    2 * off = ((t1 : Int) - (s.tmx n).t2) + (((s.tmx n).t4 : Int) - bits m.toNat 191 128) + toSigned 32 (s.rd D.LINK_ASYM_USER n) →
    2 * del = (((s.tmx n).t4 : Int) - t1) - ((bits m.toNat 191 128 : Int) - (s.tmx n).t2) - 38 →
    -(2 ^ 31) ≤ off → off < 2 ^ 31 → 0 ≤ del → del < 2 ^ 32 → ∃ t, exec (.timexFollowUp n m) s = .next t ∧
      t.rd D.LINK_TIME_OFFSET n = ofSigned 32 off ∧ t.rd D.LINK_TIME_DELAY n = del.toNat ∧ t.freeCtr = s.freeCtr ∧
      (t.tmx n).wait = false ∧ (t.tmx n).off2 = some (2 * off)) ∧
  (∀ (off2 off : Int) (s : State), 2000 < off2.natAbs → s.rd D.GATE_SYNC_STATE 0 = 0 → s.stepOk = true →
    ∃ t, s.servo off2 off = t ∧ t.gsv.step = some (-off) ∧ t.gsv.lock = 0) ∧
  (∀ (off2 off : Int) (s : State), off2.natAbs ≤ 16 → s.gsv.lock = 7 → s.rd D.GATE_SYNC_STATE 0 = 0 →
    ∃ t, s.servo off2 off = t ∧ t.rd D.GATE_SYNC_STATE 0 = 1 ∧ t.gate = s.gate) ∧
  (∀ (d : Int) (s : State), s.gsv.step = some d →
    (s.gate % 1024 ≠ 0 → exec .gateStep s = .next s) ∧
    (s.gate % 1024 = 0 → s.synced = true → exec .gateStep s = .next { s with gsv := { s.gsv with step := none } }) ∧
    (s.gate % 1024 = 0 → s.synced = false → s.stepOk = true → ∃ t, exec .gateStep s = .next t ∧
      t.gate = min ((s.gate : Int) + d).toNat (2 ^ 64 - 1) ∧ t.rd D.GATE_STEP_COUNT 0 = satAdd (8 * D.GATE_STEP_COUNT.len) (s.rd D.GATE_STEP_COUNT 0) 1 ∧
      t.eventSeq = s.eventSeq + 1 ∧ t.gsv.step = none) ∧
    (s.gate % 1024 = 0 → s.synced = false → s.stepOk = false → ∃ t, exec .gateStep s = .next t ∧ t.gate = s.gate ∧ t.gsv.step = none ∧
      t.eventSeq = s.eventSeq + 1)) ∧
  (∀ s : State,
    (s.rd D.GATE_SOURCE 0 = 2 → s.rd D.GATE_SYNC_STATE 0 = 1 → exec .upstreamLossTimeout s = .next (s.setSync 2)) ∧
    (s.rd D.GATE_SOURCE 0 ≠ 2 ∨ s.rd D.GATE_SYNC_STATE 0 ≠ 1 → exec .upstreamLossTimeout s = .next s) ∧
    (s.rd D.GATE_SOURCE 0 = 1 → s.rd D.GATE_SYNC_STATE 0 = 1 → exec .ptpSyncTimeout s = .next ((s.setSync 2).wr D.PTP_STATE 0 1)) ∧
    (s.rd D.GATE_SOURCE 0 ≠ 1 ∨ s.rd D.GATE_SYNC_STATE 0 ≠ 1 → exec .ptpSyncTimeout s = .next s) ∧
    (s.rd D.GATE_SYNC_STATE 0 = 2 → exec .holdoverLimitExpiry s = .next (s.setSync 0)) ∧
    (s.rd D.GATE_SYNC_STATE 0 ≠ 2 → exec .holdoverLimitExpiry s = .next s)) ∧
  (∀ (m : PtpMsg) (s : State), s.rd D.GATE_SOURCE 0 ≠ 1 → exec (.ptpMessage m) s = .next s) ∧
  (∀ (d : BitVec 8) (p i : Nat) (s : State), s.rd D.GATE_SOURCE 0 = 1 → d.toNat = s.rd D.PTP_DOMAIN 0 → s.gsv.master = none →
    ∃ t, exec (.ptpMessage (.announce d p i)) s = .next t ∧ t.gsv.master = some (p, i) ∧ t.rd D.PTP_STATE 0 = 1) ∧
  (∀ (i : Nat) (w : OdWrite) (s : State), s.odFree = true →
    (s.odCheckRead D.GATE_TIME i w.route = 0 → exec (.gateRead (.object i w)) s = .next { s with out := s.out ++ [.od 0 8 s.gate] }) ∧
    (s.odCheckRead D.GATE_TIME i w.route ≠ 0 → s.odCheckRead D.GATE_TIME i w.route ≠ St.UNIT_ABSENT →
      ∃ t, exec (.gateRead (.object i w)) s = .next t ∧ Refuses s t (s.odCheckRead D.GATE_TIME i w.route)))

/-- Launches: submission, cancelling, waking, acting, and the frames of other devices. -/
def Obligations.Launches : Prop :=
  (∀ (i : Nat) (w : OdWrite) (s : State),
    (s.takes D.GATE_LAUNCH i w = true → exec (.launch (.object i w)) s = .next (s.launchSubmit (s.odAsker w) (odNum w))) ∧
    (s.takes D.GATE_CANCEL i w = true → exec (.launchCancel (.object i w)) s = .next (s.cancelSubmit (s.odAsker w) (odNum w)))) ∧
  (∀ (a : Asker) (r st t : Nat) (s : State),
    s.launchCheck r a.part a.priv (lrDevice r != s.devNum) (if s.namesRemote r then 50000 else 5000) = (st, t) →
    (st ≠ 0 → s.launchSubmit a r = s.answer 0 a.origin st 0 0) ∧
    (st = 0 → lrDevice r = s.devNum → ∃ (u : State) (id : Nat), id = (s.rd D.GATE_LAUNCH_ID 0 + 1) % 2 ^ 32 ∧
      s.launchSubmit a r = u.answer 0 a.origin 0 16 (id + t * 2 ^ 64) ∧ u.rd D.GATE_LAUNCH_ID 0 = id ∧ u.launch? id = some
        { rec256 := r, part := a.part, time := t, targets := s.launchTargets r, remote := false, status := 0, late := 0, missed := false,
          woken := false } ∧ ∀ j, j ≠ id → u.launch? j = s.launch? j)) ∧
  (∀ (r part lead : Nat) (link : Bool) (s : State),
    (s.launchPresent r = false → s.launchCheck r part link false lead = (St.UNIT_ABSENT, 0)) ∧
    (s.launchPresent r = true → s.rdB D.PART_ENABLE part = false → s.launchCheck r part link false lead = (St.PARTITION_DISABLED, 0)) ∧
    (lrTime r = 0 → s.launchTime r lead = some (s.gate + lead)) ∧
    (lrTime r ≠ 0 → s.gate + lead ≤ lrTime r → s.launchTime r lead = some (lrTime r)) ∧
    (lrTime r ≠ 0 → lrTime r < s.gate + lead → s.launchTime r lead = if lrLate r then some (s.gate + lead) else none)) ∧
  (∀ (id part : Nat) (priv : Bool) (l : Launch) (s : State),
    (s.launch? id = none → s.cancelHere id part priv = (St.NO_SUCH_LAUNCH, s)) ∧
    (s.launch? id = some l → l.part ≠ part → priv = false → s.cancelHere id part priv = (St.NO_SUCH_LAUNCH, s)) ∧
    (s.launch? id = some l → (l.part = part ∨ priv = true) → l.time < s.gate + 1000 → s.cancelHere id part priv = (St.GATE_CANCEL_LATE, s)) ∧
    (s.launch? id = some l → (l.part = part ∨ priv = true) → s.gate + 1000 ≤ l.time →
      s.cancelHere id part priv = (0, s.launchEnd id l St.GATE_CANCELLED))) ∧
  (∀ (id : Nat) (l : Launch) (s : State), s.launch? id = some l →
    (l.woken = true → exec (.launchWake id) s = .next s) ∧
    (l.woken = false → exec (.launchWake id) s = .next ((l.targets.flatMap (fun t => s.targetSleep (lrAction l.rec256) t)).foldl
      (fun t u => t.launchDemand u) (s.setLaunch id (some { l with woken := true })))) ∧
    (∀ late, s.launchTurn id l = false → exec (.launchAct id late) s = .next s) ∧
    (∀ late, s.launchTurn id l = true → l.targets = [] → late = 0 → lrDoneNotify l.rec256 = false → l.status = 0 →
      ∃ t, exec (.launchAct id late) s = .next t ∧ t.launch? id = none ∧
        t.rd D.GATE_LAUNCH_LAST 0 = launchDone id 0 l.missed false l.time ∧ ObjsBut s t [(objKey D.GATE_LAUNCH_LAST, 0)])) ∧
  (∀ (id st : Nat) (l : Launch) (s : State), st = 0 → lrDoneNotify l.rec256 = false → ∃ t, s.launchEnd id l st = t ∧ t.launch? id = none ∧
    (∀ j, j ≠ id → t.launch? j = s.launch? j) ∧ t.rd D.GATE_LAUNCH_LAST 0 = launchDone id st l.missed false l.time ∧ t.out = s.out) ∧
  (∀ (late : Nat) (s : State), ∃ t, s.noteMissed late = t ∧
    t.rd D.GATE_MISSED_COUNT 0 = satAdd (8 * D.GATE_MISSED_COUNT.len) (s.rd D.GATE_MISSED_COUNT 0) 1 ∧
    t.rd D.GATE_LATE_MAX 0 = max (s.rd D.GATE_LATE_MAX 0) (min late 0xFFFFFFFF)) ∧
  (∀ (n : Fin 64) (m : Msg) (s : State), linkUsable (s.rd D.LINK_STATE n) = true → s.boot.hold = false → lhTarget m.hdr.toNat = s.devNum →
    s.r31 n (lhPart m.hdr.toNat) = true → ∃ u, u = s.linkFreeReq n (linkChunks m.hdr.toNat) ∧
    (∀ st t, lhOp m.hdr.toNat = 0x14 →
      u.launchCheck (m.payload % 2 ^ 256) (lhPart m.hdr.toNat) (bit (lhAttr m.hdr.toNat) 0) false 5000 = (st, t) →
      (st ≠ 0 → exec (.launchFrame n m) s = .next (u.linkRespond m.hdr.toNat st 0 0)) ∧
      (st = 0 → exec (.launchFrame n m) s = .next ((u.launchQueue (m.payload % 2 ^ 256) (lhPart m.hdr.toNat) t true).1.linkRespond m.hdr.toNat 0 16
        ((u.rd D.GATE_LAUNCH_ID 0 + 1) % 2 ^ 32 + t * 2 ^ 64)))) ∧
    (lhOp m.hdr.toNat = 0x15 → exec (.launchCancelFrame n m) s = .next
      ((u.cancelHere (m.payload % 2 ^ 32) (lhPart m.hdr.toNat) false).2.linkRespond m.hdr.toNat
        (u.cancelHere (m.payload % 2 ^ 32) (lhPart m.hdr.toNat) false).1 0 0))) ∧
  (∀ (n : Fin 64) (m : Msg) (f : Forward) (s u : State), linkUsable (s.rd D.LINK_STATE n) = true → lhOp m.hdr.toNat = 0x30 → lhDev m.hdr.toNat = s.devNum →
    u = s.linkFreeRsp n (linkChunks m.hdr.toNat) → Table.get none (lhReqId m.hdr.toNat) u.linkTab = none →
    u.forwards.find? (fun g => g.key == lhReqId m.hdr.toNat) = some f →
    (s.answersForward m false = true → exec (.launchResponse n m) s = .next
      (({ u with forwards := u.forwards.filter (fun g => g.key != lhReqId m.hdr.toNat) } : State).forwardEnd f (lhStatus m.hdr.toNat)
        (m.payload % 2 ^ 32) (bits m.payload 127 64))) ∧
    (s.answersForward m true = true → exec (.launchCancelAnswer n m) s = .next
      (({ u with forwards := u.forwards.filter (fun g => g.key != lhReqId m.hdr.toNat) } : State).forwardEnd f (lhStatus m.hdr.toNat)
        (m.payload % 2 ^ 32) (bits m.payload 127 64))))

/-- Admission of guarantees, masks and miss credits, and the bandwidth estimators. -/
def Obligations.RegulationWrites : Prop :=
  (∀ (c : Fin 64) (w : OdWrite) (s t : State), s.takes D.MEM_GUARANTEE c w = true → t = s.wr D.MEM_GUARANTEE c (odNum w) →
    (memExceeds s t = true ∨ linkExceeds s t = true → ∃ u, exec (.memGuarantee c w) s = .next u ∧ Refuses s u St.GUARANTEE_EXCEEDED) ∧
    (memExceeds s t = false → linkExceeds s t = false → ∃ u, exec (.memGuarantee c w) s = .next u ∧ Admits s u D.MEM_GUARANTEE c (odNum w))) ∧
  (∀ (c : Fin 64) (w : OdWrite) (s t : State), s.takes D.LINK_GUARANTEE c w = true → t = s.wr D.LINK_GUARANTEE c (odNum w) →
    (memExceeds s t = true ∨ linkExceeds s t = true → ∃ u, exec (.linkGuarantee c w) s = .next u ∧ Refuses s u St.GUARANTEE_EXCEEDED) ∧
    (memExceeds s t = false → linkExceeds s t = false → ∃ u, exec (.linkGuarantee c w) s = .next u ∧ Admits s u D.LINK_GUARANTEE c (odNum w))) ∧
  (∀ (c : Fin 64) (w : OdWrite) (s t : State), s.takes D.MEM_GROUP_MASK c w = true → t = s.wr D.MEM_GROUP_MASK c (odNum w) →
    (odNum w &&& presentStackMask s.variant ≠ odNum w → ∃ u, exec (.memGroupMask c w) s = .next u ∧ u.out = s.out ++ [.od St.UNIT_ABSENT 0 0] ∧
      ObjsBut s u [(objKey D.UNIT_ABSENT_COUNT, 0)]) ∧
    (odNum w &&& presentStackMask s.variant = odNum w → memExceeds s t = true ∨ linkExceeds s t = true →
      ∃ u, exec (.memGroupMask c w) s = .next u ∧ Refuses s u St.GUARANTEE_EXCEEDED) ∧
    (odNum w &&& presentStackMask s.variant = odNum w → memExceeds s t = false → linkExceeds s t = false →
      ∃ u, exec (.memGroupMask c w) s = .next u ∧ Admits s u D.MEM_GROUP_MASK c (odNum w))) ∧
  (∀ (c : Fin 64) (w : OdWrite) (s t : State), s.takes D.LINK_MASK c w = true → t = s.wr D.LINK_MASK c (odNum w) →
    (odNum w &&& presentLinkMask s.variant ≠ odNum w → ∃ u, exec (.linkMask c w) s = .next u ∧ u.out = s.out ++ [.od St.UNIT_ABSENT 0 0] ∧
      ObjsBut s u [(objKey D.UNIT_ABSENT_COUNT, 0)]) ∧
    (odNum w &&& presentLinkMask s.variant = odNum w → memExceeds s t = true ∨ linkExceeds s t = true →
      ∃ u, exec (.linkMask c w) s = .next u ∧ Refuses s u St.GUARANTEE_EXCEEDED) ∧
    (odNum w &&& presentLinkMask s.variant = odNum w → memExceeds s t = false → linkExceeds s t = false →
      ∃ u, exec (.linkMask c w) s = .next u ∧ Admits s u D.LINK_MASK c (odNum w))) ∧
  (∀ (w : OdWrite) (s : State), s.takes D.MEM_EFFICIENCY 0 w = true → ∃ u, exec (.memEfficiency w) s = .next u ∧ Admits s u D.MEM_EFFICIENCY 0 (odNum w)) ∧
  (∀ (w : OdWrite) (s : State), s.takes D.LINK_EFFICIENCY 0 w = true → ∃ u, exec (.linkEfficiency w) s = .next u ∧ Admits s u D.LINK_EFFICIENCY 0 (odNum w)) ∧
  (∀ (c : Fin 64) (w : OdWrite) (s : State), s.takes D.CLASS_MISS_MIN c w = true →
    (96 < (s.wr D.CLASS_MISS_MIN c (odNum w)).missMinSum ∨ s.rd D.CLASS_MISS_MAX c < odNum w →
      ∃ t, exec (.classMissMin c w) s = .next t ∧ Refuses s t St.CREDIT_EXCEEDED) ∧
    ((s.wr D.CLASS_MISS_MIN c (odNum w)).missMinSum ≤ 96 → odNum w ≤ s.rd D.CLASS_MISS_MAX c →
      ∃ t, exec (.classMissMin c w) s = .next t ∧ Sets s t D.CLASS_MISS_MIN c (odNum w))) ∧
  (∀ (c : Fin 64) (w : OdWrite) (s : State), s.takes D.CLASS_MISS_MAX c w = true →
    (odNum w < s.rd D.CLASS_MISS_MIN c → ∃ t, exec (.classMissMax c w) s = .next t ∧ Refuses s t St.CREDIT_EXCEEDED) ∧
    (s.rd D.CLASS_MISS_MIN c ≤ odNum w → ∃ t, exec (.classMissMax c w) s = .next t ∧ Sets s t D.CLASS_MISS_MAX c (odNum w))) ∧
  (∀ s : State, ∃ t, exec .bwEstimateUpdate s = .next t ∧ t.served = [] ∧
    (∀ i, i < 2048 → estSum (s.rd D.MEM_BW_EST i) (Table.get 0 i s.served) / 10 ^ 18 ≤ t.rd D.MEM_BW_EST i ∧
      10 ^ 18 * t.rd D.MEM_BW_EST i < estSum (s.rd D.MEM_BW_EST i) (Table.get 0 i s.served) + 10 ^ 18) ∧
    (∀ i, i < 4096 → estSum (s.rd D.LINK_BW_EST i) (Table.get 0 (2048 + i) s.served) / 10 ^ 18 ≤ t.rd D.LINK_BW_EST i ∧
      10 ^ 18 * t.rd D.LINK_BW_EST i < estSum (s.rd D.LINK_BW_EST i) (Table.get 0 (2048 + i) s.served) + 10 ^ 18) ∧
    KeysBut s t [objKey D.MEM_BW_EST, objKey D.LINK_BW_EST])

/-- Bring-up and training of a link, phase by phase, and how it stops or fails. -/
def Obligations.LinkBringUp : Prop :=
  (∀ (n : Fin 64) (w : OdWrite) (s u : State), s.takes D.LINK_POWER n w = true → u = s.setObj D.LINK_POWER n w →
    (odNum w = 2 → linkUsable (s.rd D.LINK_STATE n) = true →
      exec (.linkPower n w) s = .next { u.setLnk n { s.lnk n with draining := true } with out := s.out ++ [.od 0 0 0] }) ∧
    (odNum w = 2 → s.rd D.LINK_STATE n = 0 → exec (.linkPower n w) s = .next { u with out := s.out ++ [.od 0 0 0] }) ∧
    (odNum w = 2 → linkUsable (s.rd D.LINK_STATE n) = false → s.rd D.LINK_STATE n ≠ 0 →
      exec (.linkPower n w) s = .next (u.linkStop n 0).odDone) ∧
    (odNum w ≠ 2 → s.rd D.LINK_STATE n = 0 → u.has .link n = true → u.linkBarred n = false →
      ∃ t, exec (.linkPower n w) s = .next t ∧ t.rd D.LINK_STATE n = 0 ∧ t.rd D.LINK_POWER n = odNum w ∧
        (.link n ∈ t.lift ∨ .link n ∈ t.rising)) ∧
    (odNum w ≠ 2 → s.rd D.LINK_STATE n ≠ 0 → (s.lnk n).draining = false → ∃ t, exec (.linkPower n w) s = .next t ∧ Sets s t D.LINK_POWER n (odNum w))) ∧
  (∀ (n : Fin 64) (s : State), ((s.lnk n).draining = true → exec (.linkOffDrainEnd n) s = .next (s.linkStop n 0)) ∧
    ((s.lnk n).draining = false → exec (.linkOffDrainEnd n) s = .next s)) ∧
  (∀ (n : Fin 64) (b : BitVec 128) (crc : BitVec 16) (s : State),
    (beaconOk b.toNat crc.toNat = false → exec (.linkBeacon n b crc) s = .next s) ∧
    (beaconOk b.toNat crc.toNat = true → s.rd D.LINK_STATE n = 1 →
      exec (.linkBeacon n b crc) s = .next ((s.wr D.LINK_BEACON_SEEN n b.toNat).linkTrain n)) ∧
    (beaconOk b.toNat crc.toNat = true → s.rd D.LINK_STATE n = 5 → exec (.linkBeacon n b crc) s = .next
      (if beaconState (s.rd D.LINK_BEACON_SEEN n) ≠ beaconState b.toNat then (s.wr D.LINK_BEACON_SEEN n b.toNat).linkDetect n
       else s.wr D.LINK_BEACON_SEEN n b.toNat)) ∧
    (s.rd D.LINK_STATE n ≠ 1 → s.rd D.LINK_STATE n ≠ 5 → exec (.linkBeacon n b crc) s = .next s)) ∧
  (∀ (n : Nat) (s : State), ∃ t, s.linkTrain n = t ∧ t.rd D.LINK_STATE n = 2 ∧ (t.lnk n).phase = 1 ∧ (t.lnk n).fomMin = s.rd D.LINK_FOM_MIN 0 ∧
    (t.lnk n).fibre = s.rd D.FIBRE_ID n ∧ t.rd D.LINK_REPLAYS n = 0 ∧ t.rd D.LINK_RETRAIN_COUNT n = 0) ∧
  (∀ (n : Fin 64) (l : BitVec 8) (s : State),
    (s.inPhase n 1 = true → exec (.linkPatternDone n) s = .next (s.setLnk n { s.lnk n with phase := 2 })) ∧
    (s.inPhase n 1 = false → exec (.linkPatternDone n) s = .next s) ∧
    (s.inPhase n 2 = false → exec (.linkLockDone n l) s = .next s) ∧
    (s.inPhase n 2 = true → l.toNat &&& s.laneAllow n = 0 → exec (.linkLockDone n l) s = .next (s.linkFail n 2)) ∧
    (s.inPhase n 2 = true → l.toNat &&& s.laneAllow n ≠ 0 → ∃ t, exec (.linkLockDone n l) s = .next t ∧ t = { s with lnks := t.lnks } ∧
      (t.lnk n).phase = 3 ∧ (t.lnk n).rxOk = l.toNat &&& s.laneAllow n)) ∧
  (∀ (i : Fin 512) (w : OdWrite) (s : State), s.takes D.LANE_BITSLIP i w = true →
    (s.rd D.LINK_LOCK_MODE (i.val / 8) ≠ 1 → exec (.laneBitslip i w) s = .next { s with out := s.out ++ [.od 0 0 0] }) ∧
    (s.rd D.LINK_LOCK_MODE (i.val / 8) = 1 → ∃ t, exec (.laneBitslip i w) s = .next t ∧ t.freeCtr = s.freeCtr + 1 ∧
      t.rd D.LANE_MARKER_MATCH i = s.fresh % 2 ^ 32 ∧ Table.get 0 (i.val % 8) (t.lnk (i.val / 8)).offs =
        (Table.get 0 (i.val % 8) (s.lnk (i.val / 8)).offs + odNum w) % 5440 ∧ ObjsBut s t [(objKey D.LANE_MARKER_MATCH, i)])) ∧
  (∀ (n : Fin 64) (o : EqOutcome) (s : State), (s.inPhase n 3 = false → exec (.linkEqDone n o) s = .next s) ∧
    (s.inPhase n 3 = true → ∃ t, exec (.linkEqDone n o) s = .next t ∧ (t.lnk n).phase = 4 ∧ (t.lnk n).band = o.band.val ∧
      ((s.lnk n).forceFull = true → (t.lnk n).full = true ∧ (t.lnk n).rxOk = (s.lnk n).rxOk &&& fomMask o.fullFoms (s.lnk n).fomMin))) ∧
  (∀ (n : Fin 64) (cb : BitVec 256) (s : State), (s.inPhase n 4 = false → exec (.linkCaps n cb) s = .next s) ∧
    (s.inPhase n 4 = true → cbVersion cb.toNat ≠ 1 → exec (.linkCaps n cb) s = .next (s.linkFail n 5)) ∧
    (s.inPhase n 4 = true → cbVersion cb.toNat = 1 → laneMask ((s.lnk n).rxOk &&& cbRxOk cb.toNat) ≠ 0 → ∃ t, exec (.linkCaps n cb) s = .next t ∧
      t.rd D.LINK_LANE_MASK n = laneMask ((s.lnk n).rxOk &&& cbRxOk cb.toNat) ∧ t.rd D.LINK_PARTNER_DEVICE n = bits cb.toNat 75 64 ∧
      t.rd D.LINK_PARTNER_LINK n = bits cb.toNat 81 76 ∧ t.rd D.LINK_PARTNER_SERIAL n = bits cb.toNat 191 128 ∧ (t.lnk n).phase = 5)) ∧
  (∀ (n : Fin 64) (o : MeasureOutcome) (s u : State), u = (s.noteBers n (s.rd D.LINK_LANE_MASK n) o.bers).wr D.LINK_FLR_PROJ n o.flr.toNat →
    (s.inPhase n 5 = false → exec (.linkMeasureDone n o) s = .next s) ∧
    (s.inPhase n 5 = true → badLanes (s.rd D.LINK_LANE_MASK n) o.bers = [] → o.flr.toNat ≤ flrLimit →
      exec (.linkMeasureDone n o) s = .next (u.linkActive n)) ∧
    (s.inPhase n 5 = true → badLanes (s.rd D.LINK_LANE_MASK n) o.bers ≠ [] →
      exec (.linkMeasureDone n o) s = .next (u.measureFail n (maskOf (badLanes (s.rd D.LINK_LANE_MASK n) o.bers))))) ∧
  (∀ (n clear : Nat) (s : State), (2 ≤ (s.lnk n).runs → s.measureFail n clear = s.linkFail n 4) ∧
    ((s.lnk n).runs < 2 → ∃ t, s.measureFail n clear = t ∧ (t.lnk n).phase = 4 ∧ (t.lnk n).runs = (s.lnk n).runs + 1 ∧
      (t.lnk n).rxOk = (s.lnk n).rxOk - ((s.lnk n).rxOk &&& clear))) ∧
  (∀ (n : Fin 64) (s : State),
    (s.rd D.LINK_STATE n = 4 → exec (.linkPhaseTimeout n) s = .next (s.linkFail n 8)) ∧
    (s.inPhase n 1 = true ∨ s.inPhase n 2 = true → exec (.linkPhaseTimeout n) s = .next (s.linkFail n 2)) ∧
    (s.inPhase n 3 = true ∨ s.inPhase n 4 = true → exec (.linkPhaseTimeout n) s = .next (s.linkFail n 3)) ∧
    (s.inPhase n 5 = true → exec (.linkPhaseTimeout n) s = .next (s.measureFail n 0)) ∧
    (s.rd D.LINK_STATE n = 5 → exec (.linkRetryExpiry n) s = .next (s.wr D.LINK_STATE n 1)) ∧
    (s.rd D.LINK_STATE n ≠ 5 → exec (.linkRetryExpiry n) s = .next s)) ∧
  (∀ (n st : Nat) (s : State), ∃ t, s.linkStop n st = t ∧ t.rd D.LINK_STATE n = st ∧ t.rd D.LINK_TX_IDLE n = 0 ∧ t.rd D.LINK_SCHED_LEAD n = 0xFFFFFFFF ∧
    t.rd D.LINK_TRAINED_WIDTH n = 0 ∧ t.rd D.LINK_LANE_MASK n = 0 ∧ (t.lnk n).txSeq = 0 ∧ (t.lnk n).draining = false) ∧
  (∀ (n cause : Nat) (s : State), (s.rd D.LINK_STATE n = 5 ∨ s.rd D.LINK_STATE n = 0 → s.linkFail n cause = s) ∧
    (s.rd D.LINK_STATE n ≠ 5 → s.rd D.LINK_STATE n ≠ 0 → ∃ u : State, u.rd D.LINK_DOWN_CAUSE n = cause ∧ u.eventSeq = s.eventSeq + 1 ∧
      s.linkFail n cause =
        (u.linkStop n 5).recordTo (maskList 16 (u.rd D.LINK_PART_MASK n)) 0x49 clsCorrected (ucLink n) 0 0 (s.linkEntries n).length))

/-- Loss of light, electrical idle, live retraining, acknowledgement and transmission. -/
def Obligations.LinkUpkeep : Prop :=
  (∀ (n : Fin 64) (s : State), (linkUsable (s.rd D.LINK_STATE n) = true → exec (.linkLightLoss n) s = .next (s.linkFail n 1)) ∧
    (linkUsable (s.rd D.LINK_STATE n) = false → exec (.linkLightLoss n) s = .next s)) ∧
  (∀ (f : Fin 8) (c : BitVec 32) (s : State),
    (fieldPresent s.variant f = false → exec (.laserLowDetect f c) s = .next s) ∧
    (fieldPresent s.variant f = true → laserMin ≤ toSigned 32 c.toNat → exec (.laserLowDetect f c) s = .next (s.wr D.LASER_IN_POWER f c.toNat)) ∧
    (fieldPresent s.variant f = true → toSigned 32 c.toNat < laserMin → ∃ u, u = (s.wr D.LASER_IN_POWER f c.toNat).raise Ev.LASER_LOW 0 (evWords [f]) ∧
      exec (.laserLowDetect f c) s = .next ((List.range 8).foldl (fun t k =>
        if t.has .link (8 * f.val + k) && (t.rd D.LINK_STATE (8 * f.val + k) == 2 || linkUsable (t.rd D.LINK_STATE (8 * f.val + k)))
        then t.linkFail (8 * f.val + k) 7 else t) u))) ∧
  (∀ (n : Fin 64) (s : State),
    (s.linkQuiet n = true → (s.lnk n).idleAsk = true → exec (.linkIdleEntry n) s = .next (((s.sendAck n).flitPad n).linkIdle n)) ∧
    (s.linkQuiet n = false → exec (.linkIdleEntry n) s = .next s) ∧
    (s.rdB D.LINK_TX_IDLE n = false → exec (.linkIdleExit n) s = .next s) ∧
    (s.rdB D.LINK_TX_IDLE n = true → s.rising.contains (.link n) = true → ∃ t, exec (.linkIdleExit n) s = .next t ∧
      t.rd D.LINK_TX_IDLE n = 0 ∧ t.out = s.out ++ [.linkBurst n] ∧ (t.lnk n).idleAsk = false ∧ .link n ∉ t.rising) ∧
    (s.rdB D.LINK_TX_IDLE n = true → s.rising.contains (.link n) = false → ∃ t, exec (.linkIdleExit n) s = .next t ∧
      t.rd D.LINK_TX_IDLE n = s.rd D.LINK_TX_IDLE n ∧ t.out = s.out ∧ .link n ∈ t.lift)) ∧
  (∀ (n : Fin 64) (w : OdWrite) (s : State), s.takes D.LINK_RETRAIN n w = true →
    (s.rd D.LINK_STATE n ≠ 3 → ∃ t, exec (.linkRetrain n w) s = .next t ∧ Refuses s t St.LINK_BUSY) ∧
    (s.rd D.LINK_STATE n = 3 → exec (.linkRetrain n w) s = .next { s.linkRetrainStart n with out := s.out ++ [.od 0 0 0] })) ∧
  (∀ (n : Fin 64) (s : State), (s.rd D.LINK_STATE n ≠ 3 → exec (.partnerRetraining n) s = .next s) ∧
    (s.rd D.LINK_STATE n = 3 → ∃ t, exec (.partnerRetraining n) s = .next t ∧ t.rd D.LINK_STATE n = 4 ∧ t.rd D.LINK_TX_IDLE n = 0 ∧
      (t.lnk n).txSeq = (s.lnk n).txSeq ∧ (t.lnk n).rxSeq = (s.lnk n).rxSeq ∧ t.linkQ = s.linkQ ∧ t.linkTab = s.linkTab)) ∧
  (∀ (n : Fin 64) (l : List LaneStat) (s : State), (s.rd D.LINK_STATE n ≠ 3 → exec (.linkBerInterval n l) s = .next s) ∧
    (s.rd D.LINK_STATE n = 3 → badLanes (s.rd D.LINK_LANE_MASK n) (l.map (fun x => x.ber)) ≠ [] →
      (s.noteBers n (s.rd D.LINK_LANE_MASK n) (l.map (fun x => x.ber))).rdB D.LINK_AUTO_RETRAIN 0 = true → exec (.linkBerInterval n l) s =
        .next ((s.noteBers n (s.rd D.LINK_LANE_MASK n) (l.map (fun x => x.ber))).linkRetrainStart n))) ∧
  (∀ (n : Fin 64) (o : RetrainOutcome) (s : State), (s.rd D.LINK_STATE n ≠ 4 → exec (.linkRetrainDone n o) s = .next s) ∧
    (s.rd D.LINK_STATE n = 4 → o.completes = false → exec (.linkRetrainDone n o) s = .next (s.linkFail n 8)) ∧
    (s.rd D.LINK_STATE n = 4 → o.completes = true → cbSerial o.partner.toNat ≠ s.rd D.LINK_PARTNER_SERIAL n → exec (.linkRetrainDone n o) s =
      .next (((s.raise Ev.LINK_PARTNER_CHANGED 0 0).linkFail n 8).linkDetect n)) ∧
    (s.rd D.LINK_STATE n = 4 → o.completes = true → cbSerial o.partner.toNat = s.rd D.LINK_PARTNER_SERIAL n → cbVersion o.partner.toNat = 1 →
      ∀ m, m = laneMask (o.lanesOk.toNat &&& s.laneAllow n &&& fomMask o.foms (s.lnk n).fomMin &&& cbRxOk o.partner.toNat) → m ≠ 0 → badLanes m o.bers = [] → ∃ t,
        exec (.linkRetrainDone n o) s = .next t ∧ t.rd D.LINK_STATE n = 3 ∧ t.rd D.LINK_LANE_MASK n = m ∧ t.rd D.LINK_TRAINED_WIDTH n = popCount 8 m ∧
        t.rd D.LINK_TRAIN_MODE_LAST n = 4)) ∧
  (∀ (n : Fin 64) (c : BitVec 128) (s : State), s.rd D.LINK_STATE n = 3 → lhOp c.toNat = 0x20 → ∃ x, x = { s.lnk n with
      txAck := bits c.toNat 17 6, reqCr := bits c.toNat 47 24, rspCr := bits c.toNat 71 48, schedCr := bits c.toNat 87 72 } ∧
    (bit c.toNat 18 = false → exec (.linkAck n c) s = .next (s.setLnk n x)) ∧
    (bit c.toNat 18 = true → ((s.lnk n).nakRun = 0 ∨ (s.lnk n).nakAck ≠ bits c.toNat 17 6) → exec (.linkAck n c) s = .next
      (((s.setLnk n { x with nakAck := bits c.toNat 17 6, nakRun := 1 }).count D.LINK_REPLAYS n 1).linkResend n)) ∧
    (bit c.toNat 18 = true → (s.lnk n).nakRun = 7 → (s.lnk n).nakAck = bits c.toNat 17 6 → exec (.linkAck n c) s = .next
      ((((s.setLnk n { x with nakAck := bits c.toNat 17 6, nakRun := 8 }).count D.LINK_REPLAYS n 1).linkResend n).linkRetrainStart n))) ∧
  (∀ (n : Fin 64) (s : State), (s.rd D.LINK_STATE n ≠ 3 → exec (.linkTransmit n) s = .next s) ∧
    (s.rd D.LINK_STATE n = 3 → s.rdB D.LINK_TX_IDLE n = false → exec (.linkTransmit n) s = .next (s.transmit n)) ∧
    (s.rd D.LINK_STATE n = 3 → s.rdB D.LINK_TX_IDLE n = true → s.ackDue n = false → s.txq n = [] → exec (.linkTransmit n) s = .next s) ∧
    (s.rd D.LINK_STATE n = 3 → s.rdB D.LINK_TX_IDLE n = true → s.ackDue n = true → s.rising.contains (.link n) = true →
      exec (.linkTransmit n) s = .next ((s.linkWake n).transmit n)) ∧
    (1024 ≤ (s.lnk n).unacked → s.transmit n = s) ∧
    ((s.lnk n).unacked < 1024 → s.ackDue n = true → ∃ t, s.transmit n = t ∧ t.out = s.out ++ [.linkChunk n (s.ackChunk n)] ∧
      (t.lnk n).nakDue = false ∧ (t.lnk n).sinceAck = 0) ∧
    ((s.lnk n).unacked < 1024 → s.ackDue n = false → s.txq n = [] → s.txChoose n = none → s.transmit n = s.flitPad n))

/-- Flits, scheduled units, requests and responses of a link, route sets and snapshots. -/
def Obligations.LinkTraffic : Prop :=
  (∀ (n : Fin 64) (lane : Fin 8) (d : Bool) (h : BitVec 20) (b : BitVec 5120) (s u : State), u = s.countWord n lane (!d) →
    (s.rd D.LINK_STATE n ≠ 3 → exec (.linkFlit n lane d h b) s = .next s) ∧
    (s.rd D.LINK_STATE n = 3 → d = false ∨ hcrc h.toNat ≠ bits h.toNat 19 14 → exec (.linkFlit n lane d h b) s = .next (u.flitLost n)) ∧
    (s.rd D.LINK_STATE n = 3 → d = true → hcrc h.toNat = bits h.toNat 19 14 → bit h.toNat 12 = true → exec (.linkFlit n lane d h b) s = .next u) ∧
    (s.rd D.LINK_STATE n = 3 → d = true → hcrc h.toNat = bits h.toNat 19 14 → bit h.toNat 12 = false → bits h.toNat 11 0 ≠ (u.lnk n).rxSeq →
      exec (.linkFlit n lane d h b) s = .next (u.flitLost n)) ∧
    (s.rd D.LINK_STATE n = 3 → d = true → hcrc h.toNat = bits h.toNat 19 14 → bit h.toNat 12 = false → bits h.toNat 11 0 = (u.lnk n).rxSeq →
      logicalLane (u.rd D.LINK_LANE_MASK n) lane = bits h.toNat 11 0 % max 1 (u.rd D.LINK_TRAINED_WIDTH n) →
      (u.lnk n).stream = [] → cutItems ((bodyChunks b.toNat).length + 1) (bodyChunks b.toNat) = ([], []) → ∃ t,
        exec (.linkFlit n lane d h b) s = .next t ∧ (t.lnk n).rxSeq = ((u.lnk n).rxSeq + 1) % 4096 ∧ (t.lnk n).episode = false ∧
        (t.lnk n).sinceAck = (u.lnk n).sinceAck + 1 ∧ t = { s with lnks := t.lnks })) ∧
  (∀ (n : Nat) (s : State), ((s.lnk n).episode = true → s.flitLost n = s) ∧
    ((s.lnk n).episode = false → ∃ t, s.flitLost n = t ∧ (t.lnk n).nakDue = true ∧ (t.lnk n).episode = true ∧
      t.rd D.LINK_REPLAYS n = satAdd (8 * D.LINK_REPLAYS.len) (s.rd D.LINK_REPLAYS n) 1)) ∧
  (∀ (n : Fin 64) (c : BitVec 128) (x : SchedUnit) (s : State), s.rd D.LINK_STATE n = 3 → lhOp c.toNat = 0x22 → s.boot.hold = false → x.msgs = [] →
    s.schedLead n = 0xFFFFFFFF → ∃ t, exec (.schedStart n c x) s = .next t ∧ (t.lnk n).schedFree = ((s.lnk n).schedFree + 1) % 2 ^ 16 ∧
      t = { s with lnks := t.lnks }) ∧
  (∀ (n : Fin 64) (m : Msg) (s : State), linkUsable (s.rd D.LINK_STATE n) = true → 1 ≤ lhOp m.hdr.toNat → lhOp m.hdr.toNat ≤ 8 → s.boot.hold = false →
    (lhTarget m.hdr.toNat ≠ s.devNum → exec (.linkRequest n m) s = .next (s.relayReq n m (linkChunks m.hdr.toNat))) ∧
    (lhTarget m.hdr.toNat = s.devNum → s.linkAbsent n m = false → s.r31 n (lhPart m.hdr.toNat) = false →
      exec (.linkRequest n m) s = .next (s.linkDeny n m.hdr.toNat (linkAccess m.hdr.toNat) (linkChunks m.hdr.toNat))) ∧
    (lhTarget m.hdr.toNat = s.devNum → (s.linkAbsent n m = true ∨ s.r31 n (lhPart m.hdr.toNat) = true) → s.linkFmt m.hdr.toNat = 0 → ∀ r,
      s.linkReqOf n m (linkChunks m.hdr.toNat) = some r → exec (.linkRequest n m) s = .next (s.enter r)) ∧
    (lhTarget m.hdr.toNat = s.devNum → (s.linkAbsent n m = true ∨ s.r31 n (lhPart m.hdr.toNat) = true) → s.linkFmt m.hdr.toNat ≠ 0 → exec (.linkRequest n m) s =
      .next ((s.linkFreeReq n (linkChunks m.hdr.toNat)).linkRespond m.hdr.toNat (s.linkFmt m.hdr.toNat) 0 0))) ∧
  (∀ (n : Fin 64) (m : Msg) (s u : State), linkUsable (s.rd D.LINK_STATE n) = true → lhOp m.hdr.toNat = 0x30 → u = s.linkFreeRsp n (linkChunks m.hdr.toNat) →
    (lhDev m.hdr.toNat ≠ s.devNum → exec (.linkRsp n m) s = .next (s.relayRsp n m (linkChunks m.hdr.toNat))) ∧
    (lhDev m.hdr.toNat = s.devNum → Table.get none (lhReqId m.hdr.toNat) u.linkTab = none →
      u.forwards.find? (fun f => f.key == lhReqId m.hdr.toNat) = none →
      exec (.linkRsp n m) s = .next (u.count D.LINK_STALE_RSP (lhReqId m.hdr.toNat / 4096) 1)) ∧
    (∀ rid r, lhDev m.hdr.toNat = s.devNum → Table.get none (lhReqId m.hdr.toNat) u.linkTab = some rid → lhStatus m.hdr.toNat = 0 →
      u.req? rid = some r → exec (.linkRsp n m) s = .next
        (({ u with linkTab := Table.set none (lhReqId m.hdr.toNat) none u.linkTab } : State).complete rid 0 (rspLen r (lhPch m.hdr.toNat)) m.payload))) ∧
  (∀ (d : Fin 4096) (w : OdWrite) (s : State), s.takes D.LINK_ROUTE d w = true →
    ((maskList 64 (odNum w)).any (fun n => !s.has .link n) = true → ∃ t, exec (.linkRoute d w) s = .next t ∧
      t.out = s.out ++ [.od St.UNIT_ABSENT 0 0] ∧ ObjsBut s t [(objKey D.UNIT_ABSENT_COUNT, 0)]) ∧
    ((maskList 64 (odNum w)).any (fun n => !s.has .link n) = false → (maskList 64 (odNum w)).any (fun n => !bit (s.rd D.LINK_ROUTE d) n) = false →
      ∃ t, exec (.linkRoute d w) s = .next t ∧ Sets s t D.LINK_ROUTE d (odNum w)) ∧
    ((maskList 64 (odNum w)).any (fun n => !s.has .link n) = false → (maskList 64 (odNum w)).any (fun n => !bit (s.rd D.LINK_ROUTE d) n) = true →
      exec (.linkRoute d w) s = .next ((s.setObj D.LINK_ROUTE d w).routeJoin d).odDone)) ∧
  (∀ (d : Fin 4096) (s : State),
    (d.val ∉ s.routeHold → exec (.linkRouteHoldExpiry d) s = .next s) ∧
    (d.val ∈ s.routeHold → ∃ t, exec (.linkRouteHoldExpiry d) s = .next t ∧ d.val ∉ t.routeHold ∧ t.rd D.LINK_ROUTE_FORCED 0 =
      (if s.outTo d then satAdd (8 * D.LINK_ROUTE_FORCED.len) (s.rd D.LINK_ROUTE_FORCED 0) 1 else s.rd D.LINK_ROUTE_FORCED 0))) ∧
  (∀ (n : Fin 64) (s : State), ∃ t, exec (.linkQuarantineEnd n) s = .next t ∧ t = { s with quarantine := t.quarantine } ∧
    ∀ k, k ∈ t.quarantine ↔ k ∈ s.quarantine ∧ k / 4096 ≠ n.val) ∧
  (∀ (w : OdWrite) (s : State), s.takes D.LINK_SNAPSHOT 0 w = true →
    (s.has .link (odNum w) = false → ∃ t, exec (.linkSnapshot w) s = .next t ∧ t.out = s.out ++ [.od St.UNIT_ABSENT 0 0] ∧
      ObjsBut s t [(objKey D.UNIT_ABSENT_COUNT, 0)]) ∧
    (s.has .link (odNum w) = true → exec (.linkSnapshot w) s =
      .next { ({ s with snapLink := some (odNum w) } : State).wr D.LINK_SNAP_STATE 0 1 with out := s.out ++ [.od 0 0 0] })) ∧
  (∀ (n : Nat) (s : State), s.snapLink = some n → ∃ t, exec .linkSnapDone s = .next t ∧ t.snapLink = none ∧ t.rd D.LINK_SNAP_STATE 0 = 2 ∧
    t.freeCtr = s.freeCtr + 8 ∧ ∀ k, k < 8 → t.rd D.SNAP_CODEWORDS k = (Table.get ((0, 0) : Nat × Nat) k (s.lnk n).lanes).1 ∧
      t.rd D.SNAP_UNCORRECTABLE k = (Table.get ((0, 0) : Nat × Nat) k (s.lnk n).lanes).2 ∧ t.rd D.SNAP_CORR_SYMBOLS k = (Config.freeValue (s.freeCtr + k)).toNat)

/-- GATE_NOW: an 8-byte read, and the two halves of one capture. -/
def Obligations.GateNowReads : Prop :=
  ∀ (f : Fin 17) (s : State), s.fnPresent f = true →
    exec (.gateNow f .whole) s = .next { s with out := s.out ++ [.reg f 8 s.gate] } ∧
    (∃ t, exec (.gateNow f .low) s = .next t ∧ t.out = s.out ++ [.reg f 4 (s.gate % 2 ^ 32)] ∧ (t.fn f).gateCap = s.gate ∧
      (∀ u : State, u.fnPresent f = true → (u.fn f).gateCap = (t.fn f).gateCap →
        exec (.gateNow f .high) u = .next { u with out := u.out ++ [.reg f 4 (s.gate / 2 ^ 32)] })) ∧
    (∀ tag r d, exec (.hostMemoryRequest f { write := false, bar := .bar0, offset := 8, len := 8, data := d, relaxed := r, tag := tag }) s =
      .next { s with out := s.out ++ [.hostCpl f tag 0 false 8 (s.gate % 2 ^ 64)] }) ∧
    (∀ tag r d, ∃ t, exec (.hostMemoryRequest f { write := false, bar := .bar0, offset := 8, len := 4, data := d, relaxed := r, tag := tag }) s =
      .next t ∧ t.out = s.out ++ [.hostCpl f tag 0 false 4 (s.gate % 2 ^ 32)] ∧ (t.fn f).gateCap = s.gate) ∧
    (∀ tag r d, exec (.hostMemoryRequest f { write := false, bar := .bar0, offset := 12, len := 4, data := d, relaxed := r, tag := tag }) s =
      .next { s with out := s.out ++ [.hostCpl f tag 0 false 4 ((s.fn f).gateCap / 2 ^ 32 % 2 ^ 32)] })

/-- The host port: memory requests, AtomicOps, fault rings, mailboxes, training and function resets. -/
def Obligations.HostPortCommands : Prop :=
  (∀ (f : Fin 17) (q : HostReq) (op : PcieAtomic) (s : State),
    (s.fnPresent f = false → exec (.hostMemoryRequest f q) s = .next s ∧ exec (.hostAtomicop f q op) s = .next s) ∧
    (s.fnPresent f = true → q.bar ≠ .bar0 → q.write = false →
      exec (.hostMemoryRequest f q) s = .next (s.enter (s.hostReq f q .read q.len 0))) ∧
    (s.fnPresent f = true → q.bar ≠ .bar0 → q.write = true → exec (.hostMemoryRequest f q) s =
      .next (s.enter (s.hostReq f { q with data := q.data % 2 ^ (8 * q.len) } (writeKind s.variant (barAddr q.bar q.offset)) q.len 0))) ∧
    (s.fnPresent f = true → q.bar = .bar0 → q.write = true → exec (.hostMemoryRequest f q) s = .next (s.regWrite f q.offset q.len q.data)) ∧
    (s.fnPresent f = true → q.bar = .bar0 → exec (.hostAtomicop f q op) s = .next { s with out := s.out ++ [.hostCpl f q.tag 1 false 0 0] }) ∧
    (s.fnPresent f = true → q.bar ≠ .bar0 → exec (.hostAtomicop f q op) s = .next
      (s.enter (s.hostReq f { q with write := false } .atomic (atomicOf op).2.2 ((atomicOf op).1 + (atomicOf op).2.1 * 2 ^ 4 + 2 ^ 7))))) ∧
  (∀ (f : Fin 17) (p : Fin 16) (v : BitVec 64) (s : State),
    (s.fnPresent f = false ∨ (f.val ≠ 0 ∧ p.val ≠ 0) → ∀ reg, exec (.faultRingWrite f p reg v) s = .next s) ∧
    (s.fnPresent f = true → f.val = 0 ∨ p.val = 0 →
      (∃ t, exec (.faultRingWrite f p .cons v) s = .next t ∧ (t.fn f).ring p = { (s.fn f).ring p with cons := v.toNat % 2 ^ 32 }) ∧
      (∃ t, exec (.faultRingWrite f p .base v) s = .next t ∧ ((t.fn f).ring p).base = v.toNat / 4096 * 4096) ∧
      (v.toNat % 2 ^ 32 ≠ 0 → v.toNat % 2 ^ 32 < 6 ∨ 16 < v.toNat % 2 ^ 32 → ∃ t, exec (.faultRingWrite f p .sizeLog2 v) s = .next t ∧
        (t.fn f).ring p = (s.fn f).ring p))) ∧
  (∀ (p : Fin 16) (q : Nat) (s : State),
    ((s.part p).nextRecord = none → exec (.faultRecordDeliver p) s = .next s) ∧
    (s.rd D.HOST_LINK_STATE 0 ≠ 2 ∨ ((s.fn 0).ring p).sizeLog2 = 0 ∨ ((s.fn 0).ring p).full = true → exec (.faultRecordDeliver p) s = .next s) ∧
    ((s.part p).nextRecord = some q → s.rd D.HOST_LINK_STATE 0 = 2 → ((s.fn 0).ring p).sizeLog2 ≠ 0 → ((s.fn 0).ring p).full = false →
      exec (.faultRecordDeliver p) s = .next (((s.setPart p ((s.part p).dropRecord q)).ringPut 0 p q).ringCopy p q))) ∧
  (∀ (f : Fin 17) (len x : Nat) (s : State),
    (s.odUp = false ∨ s.fnPresent f = false ∨ (s.fn f).mbx = 1 → exec (.mailboxRequest f len x) s = .next s) ∧
    (s.fnPresent f = true → (s.fn f).mbx ≠ 1 → s.odFree = true →
      exec (.mailboxRequest f len x) s = .next ((s.setFn f { s.fn f with mbx := 1 }).mailboxTake f len x)) ∧
    (s.fnPresent f = true → (s.fn f).mbx ≠ 1 → s.odUp = true → s.odFree = false → ∃ t, exec (.mailboxRequest f len x) s = .next t ∧
      t.backlog = s.backlog ++ [.mailboxRequest f len x] ∧ (t.fn f).mbx = 1)) ∧
  (∀ (n : Fin 17) (s : State), ∃ t, exec (.vfEnable n) s = .next t ∧ t.rd D.HOST_NUM_VFS 0 = n) ∧
  (∀ (r w : BitVec 8) (b : BitVec 128) (s : State), 9 ≤ s.rd D.BOOT_STAGE 0 → s.rd D.HOST_LINK_STATE 0 ≠ 2 →
    exec (.hostLinkTrained .timeout) s = .next (s.wr D.HOST_LINK_STATE 0 0) ∧
    (r.toNat = 1 ∨ r.toNat = 2 → r.toNat ≤ s.cur D.HOST_MAX_RATE 0 → w.toNat = 8 ∨ w.toNat = 16 → ∃ t, exec (.hostLinkTrained (.up r w b)) s = .next t ∧
      t.rd D.HOST_LINK_STATE 0 = 2 ∧ t.rd D.HOST_LINK_RATE 0 = r.toNat ∧ t.rd D.HOST_LINK_WIDTH 0 = w.toNat ∧ t.rd D.BRIDGE_SERIAL 0 = b.toNat)) ∧
  (∀ (o : HostTrain) (s : State), s.rd D.BOOT_STAGE 0 < 9 ∨ s.rd D.HOST_LINK_STATE 0 = 2 → exec (.hostLinkTrained o) s = .next s) ∧
  (∀ s : State, (s.rd D.HOST_LINK_STATE 0 ≠ 2 → exec .hostLinkDown s = .next s) ∧
    (s.rd D.HOST_LINK_STATE 0 = 2 → ∃ t, exec .hostLinkDown s = .next t ∧ t.rd D.HOST_LINK_STATE 0 = 1 ∧ t.rd D.HOST_LINK_RATE 0 = 0 ∧
      t.rd D.HOST_LINK_WIDTH 0 = 0)) ∧
  (∀ (v : Fin 16) (s : State), (s.fnPresent (v.val + 1) = false → exec (.vfFlr v) s = .next s) ∧
    (s.fnPresent (v.val + 1) = true → exec (.vfFlr v) s = .next ((s.fnReset (v.val + 1)).count D.HOST_FLR_COUNT (v.val + 1) 1)) ∧
    (∃ t, s.fnReset (v.val + 1) = t ∧ t.fn (v.val + 1) = HostFn.init)) ∧
  (∀ s : State, exec .pfFlr s = .next (((s.setVfs 0).fnReset 0).count D.HOST_FLR_COUNT 0 1))

/-- Requests, acknowledgements and events of the management port. -/
def Obligations.ManagementPort : Prop :=
  (∀ (fr : EthFrame) (s : State),
    (s.odUp = false ∨ s.rd D.MGMT_LINK_STATE 0 ≠ 2 ∨ s.frameMine fr = false ∨ s.repeatsRun fr = true →
      exec (.phildofelRequest fr) s = .next s ∧ exec (.eventAck fr) s = .next s) ∧
    (s.odFree = true → s.rd D.MGMT_LINK_STATE 0 = 2 → s.frameMine fr = true → s.repeatsRun fr = false →
      exec (.phildofelRequest fr) s = .next (s.frameTake fr) ∧ exec (.eventAck fr) s = .next (s.frameTake fr)) ∧
    (s.odUp = true → s.odFree = false → s.rd D.MGMT_LINK_STATE 0 = 2 → s.frameMine fr = true → s.repeatsRun fr = false →
      (32 ≤ s.framesWaiting → exec (.phildofelRequest fr) s = .next (s.count D.PHIL_RX_DROPPED 0 1)) ∧
      (s.framesWaiting < 32 → exec (.phildofelRequest fr) s = .next { s with backlog := s.backlog ++ [.phildofelRequest fr] } ∧
        exec (.eventAck fr) s = .next { s with backlog := s.backlog ++ [.eventAck fr] }))) ∧
  (∀ (fr : EthFrame) (x h : Nat) (s : State), x = fr.payload.val % 2 ^ (8 * fr.payload.len) → h = bytesOf x 0 24 →
    (parseMsg x fr.payload.len = none → s.frameTake fr = s.philRespond fr.src.toNat h St.PHIL_BAD []) ∧
    (∀ l e, parseMsg x fr.payload.len = some (l, e) → opsSize e ≤ 1362 →
      (phKind h = 3 → s.frameTake fr = s.eventsAck x e) ∧
      (∀ k, phKind h ≠ 3 → (s.keptOf fr.src.toNat).find? (fun k => k.1 == phTxn h) = some k →
        s.frameTake fr = (s.keepAs fr.src.toNat (s.keptOf fr.src.toNat)).philOut fr.src.toNat k.2.1 k.2.2) ∧
      (phKind h ≠ 3 → (s.keptOf fr.src.toNat).find? (fun k => k.1 == phTxn h) = none → s.philAuth x e l = false →
        s.frameTake fr = (s.count D.PHIL_AUTH_FAIL 0 1).philRespond fr.src.toNat h St.PHIL_AUTH []) ∧
      (phKind h ≠ 3 → (s.keptOf fr.src.toNat).find? (fun k => k.1 == phTxn h) = none → s.philAuth x e l = true →
        s.frameTake fr = (if phSigned h then s.wr D.PHIL_SESSION_CTR 0 (phCtr h) else s).odStart (.phil fr.src.toNat (phSigned h)) h l))) ∧
  (∀ (x e : Nat) (s : State),
    (s.anyKey = false → ∃ t, s.eventsAck x e = t ∧ t = { s with events := t.events } ∧
      ∀ v, v ∈ t.events ↔ v ∈ s.events ∧ phCtr (bytesOf x 0 24) < v.seq) ∧
    (s.anyKey = true → phSigned (bytesOf x 0 24) = false → s.eventsAck x e = s)) ∧
  (∀ (v : EvRec) (r : List EvRec) (s : State), s.events = v :: r →
    (s.uttexPause = true ∨ v.sends = 0 → exec .philEventResend s = .next s) ∧
    (s.uttexPause = false → 1 ≤ v.sends → v.sends < 10 → exec .philEventResend s =
      .next (({ s with events := r ++ [{ v with sends := v.sends + 1 }] } : State).sendEvent v)) ∧
    (s.uttexPause = false → 10 ≤ v.sends →
      exec .philEventResend s = .next (({ s with events := r } : State).count D.PHIL_EVENT_DROPPED 0 1))) ∧
  (∀ (st : MgmtLink) (s : State),
    (s.boot.pin = false → s.boot.down = none → exec (.mgmtLinkChange st) s =
      .next (s.wr D.MGMT_LINK_STATE 0 (match st with | .down => 0 | .negotiating => 1 | .up => 2))) ∧
    (s.boot.pin = true ∨ s.boot.down.isSome = true → exec (.mgmtLinkChange st) s = .next s))

/-- The object store's commits, the fault log, overflow flags, and the loss of a field controller. -/
def Obligations.StoreAndFaultLog : Prop :=
  (∀ (w : OdWrite) (s : State), s.takes D.STORE_COMMIT 0 w = true →
    (s.mram.commit.isSome = true ∨ s.mram.empty = true → ∃ t, exec (.storeCommit w) s = .next t ∧ t.mram = { s.mram with again := true } ∧
      t.odWait = true ∧ t.objs = s.objs) ∧
    (s.mram.commit = none → s.mram.empty = false → exec (.storeCommit w) s = .next (s.odHold.startCommit s.odHold.storedBody true))) ∧
  (∀ (b : Body) (v : Bool) (s : State), ∃ t, s.startCommit b v = t ∧ t.mram.commit = some { copyB := lowerCopy s.mram, body := b, waits := v } ∧
    t.mram.dirty = false ∧ t.rd D.STORE_STATE 0 = (if s.rd D.STORE_STATE 0 = 3 then 3 else 2) ∧ ObjsBut s t [(objKey D.STORE_STATE, 0)]) ∧
  (∀ s : State,
    (s.mram.dirty = true → s.mram.commit = none → s.mram.sealed = false → s.uttexPause = false →
      exec .storeDelayExpiry s = .next (s.startCommit s.storedBody false)) ∧
    (s.mram.dirty = false ∨ s.mram.commit.isSome = true ∨ s.mram.sealed = true ∨ s.uttexPause = true → exec .storeDelayExpiry s = .next s)) ∧
  (∀ (o : CommitOutcome) (s : State), s.uttexPause = true ∨ s.mram.commit = none → exec (.commitDone o) s = .next s) ∧
  (∀ (c : Commit) (s : State), s.uttexPause = false → s.mram.commit = some c →
    exec (.commitDone .inBody) s = .next s ∧ exec (.commitDone .inHeader) s = .next s ∧
    exec (.commitDone .done) s = .next (s.commitDone c) ∧ exec (.commitDone .retriedOnce) s = .next (s.commitDone c) ∧
    exec (.commitDone .failedTwice) s = .next (s.commitFailed c) ∧
    ((s.mram.written c).copy c.copyB = { magic := true, valid := true, gen := s.mram.newest + 1, body := c.body }) ∧
    ((s.mram.written c).copy (!c.copyB) = s.mram.copy (!c.copyB)) ∧ ((s.mram.spoiled c).copy c.copyB).valid = false ∧
    (s.mram.dirty = false → s.mram.again = false → s.mram.empty = false → s.mram.sealed = false → c.waits = false →
      (∃ t, s.commitDone c = t ∧ t.mram = s.mram.written c ∧ t.rd D.STORE_STATE 0 = 0 ∧ t.rd D.STORE_GENERATION 0 = s.mram.newest + 1 ∧
        t.rd D.STORE_COMMITS 0 = satAdd (8 * D.STORE_COMMITS.len) (s.rd D.STORE_COMMITS 0) 1) ∧
      (∃ t, s.commitFailed c = t ∧ t.mram = s.mram.spoiled c ∧ t.rd D.STORE_STATE 0 = 3 ∧ t.eventSeq = s.eventSeq + 1))) ∧
  (∀ (w : OdWrite) (s : State), s.takes D.STORE_DEFAULTS 0 w = true → ∃ b : Body,
    b = { objs := s.objs.filter (fun e => storedKeys.contains e.1), lens := s.lens.filter (fun e => storedKeys.contains e.1) } ∧
    exec (.storeDefaults w) s =
      .next (({ s with mram := { s.mram with empty := true, base := some b, since := [], dirty := false } } : State).commitNext).odDone ∧
    (s.mram.commit = none → s.mram.sealed = false → s.uttexPause = false → ∃ t, exec (.storeDefaults w) s = .next t ∧
      t.mram.commit = some { copyB := lowerCopy s.mram, body := { objs := [], lens := [] }, waits := false } ∧ t.mram.base = some b)) ∧
  (∀ s : State, (s.flogWait = [] → exec .faultLogWrite s = .next s) ∧
    (∀ e r, s.flogWait = e :: r → exec .faultLogWrite s = .next (({ s with flogWait := r } : State).logWrite e))) ∧
  (∀ (w : OdWrite) (s : State), s.takes D.FAULT_LOG_SELECT 0 w = true → ∃ t, exec (.faultLogSelect w) s = .next t ∧
    t.rd D.FAULT_LOG_SELECT 0 = odNum w ∧
    t.rd D.FAULT_LOG_ENTRY 0 = (match Table.get none (odNum w) s.flog with | some e => logBytes (odNum w) e | none => 0) ∧ t.flog = s.flog) ∧
  (∀ (p : Fin 16) (w : OdWrite) (s : State), s.takes D.FAULT_OVERFLOW_CLEAR p w = true → ∃ t, exec (.faultOverflowClear p w) s = .next t ∧
    t.rd D.FAULT_OVERFLOW p = 0 ∧ (∀ k, k < 256 → t.rd D.FAULT_TYPE_OVERFLOW (256 * p.val + k) = 0) ∧ t.out = s.out ++ [.od 0 0 0] ∧
    KeysBut s t [objKey D.FAULT_OVERFLOW, objKey D.FAULT_TYPE_OVERFLOW]) ∧
  (∀ (f : Fin 8) (s : State), (fieldPresent s.variant f = false → exec (.fieldCtrlFail f) s = .next s) ∧
    (fieldPresent s.variant f = true → exec (.fieldCtrlFail f) s = .next ((s.recordTo (s.unitRecipients f) 0x48 clsFatal (ucFieldCtrl f) 0 0 0).recordTo
      ((s.fieldDataRecipients f).filter (fun p => !(s.unitRecipients f).contains p)) 0x48 clsContained (ucFieldCtrl f) 0 0 0)))

/-- Field clock requests, loss and return of lock, forced switches, and CKOBS. -/
def Obligations.ClockCommands : Prop :=
  (∀ (w : OdWrite) (s : State), s.takes D.FIELD_CLOCK_REQ 0 w = true →
    (s.clockStatus (odNum w) = 0 → exec (.fieldClockReq w) s = .next (s.clockReq (odNum w)).odDone) ∧
    (s.clockStatus (odNum w) ≠ 0 → s.clockStatus (odNum w) ≠ St.UNIT_ABSENT →
      ∃ t, exec (.fieldClockReq w) s = .next t ∧ Refuses s t (s.clockStatus (odNum w))) ∧
    (s.clockStatus (odNum w) = St.UNIT_ABSENT → ∃ t, exec (.fieldClockReq w) s = .next t ∧ t.out = s.out ++ [.od St.UNIT_ABSENT 0 0] ∧
      ObjsBut s t [(objKey D.UNIT_ABSENT_COUNT, 0)])) ∧
  (∀ (r : Nat) (s : State),
    ((fcFields r).any (fun f => !fieldPresent s.variant f) = true → s.clockStatus r = St.UNIT_ABSENT) ∧
    ((fcFields r).any (fun f => !fieldPresent s.variant f) = false → fcMhz r < 250 ∨ 2200 < fcMhz r → s.clockStatus r = St.CLK_REQ_BAD) ∧
    ((fcFields r).any (fun f => s.belowFloor f (fcMhz r)) = false → ∃ t, s.clockReq r = t ∧ t.clkReq = some r ∧ t.rd D.FIELD_CLOCK_STATE 0 = 2 ∧
      t.rd D.FIELD_CLOCK_STATUS 0 = 0 ∧ t.lapOp = s.lapOp)) ∧
  (∀ s : State, (s.clkReq = none → exec .fieldClockSettled s = .next s) ∧
    (∀ r, s.clkReq = some r → s.rd D.FIELD_CLOCK_STATE 0 ≠ 2 → exec .fieldClockSettled s = .next s) ∧
    (s.lift.any isGlide = true → exec .fieldClockSettled s = .next s) ∧
    (∀ r, s.clkReq = some r → s.rd D.FIELD_CLOCK_STATE 0 = 2 → s.lift.any isGlide = false → ∃ t, exec .fieldClockSettled s = .next t ∧ t.clkReq = none ∧
      t.rd D.FIELD_CLOCK_STATE 0 = 3)) ∧
  (∀ (f : Fin 8) (st : Bool) (s : State),
    (fieldPresent s.variant f = false ∨ (s.clk f).unlocked = true → exec (.pllUnlock f st) s = .next s) ∧
    (fieldPresent s.variant f = true → (s.clk f).unlocked = false → ∃ u, u = ((s.setClk f { s.clk f with unlocked := true }).count
        D.PLL_UNLOCK_COUNT f 1).raise Ev.PLL_UNLOCK 0 (evWords [f]) ∧
      (s.rd D.FIELD_CLK_SRC f = 1 → exec (.pllUnlock f st) s = .next u) ∧
      (s.rd D.FIELD_CLK_SRC f ≠ 1 → exec (.pllUnlock f true) s = .next { u with clkPend := u.clkPend ++ [f.val + 1] }) ∧
      (s.rd D.FIELD_CLK_SRC f ≠ 1 → exec (.pllUnlock f false) s = .next ((u.swNormal (f.val + 1)).onBypass f)))) ∧
  (∀ (f : Fin 8) (s : State), ∃ t, s.onBypass f = t ∧ t.rd D.FIELD_CLK_SRC f = 1 ∧ t.rd D.FIELD_FREQ f = 500) ∧
  (∀ (f : Fin 8) (l : Bool) (s : State),
    ((s.clk f).unlocked = false ∨ l = false ∨ s.clkPend.contains (f.val + 1) = true → exec (.pllRelockAttempt f l) s = .next s) ∧
    ((s.clk f).unlocked = true → s.clkPend.contains (f.val + 1) = false → s.belowFloor f (s.clk f).target = false →
      exec (.pllRelockAttempt f true) s = .next ((s.setClk f { s.clk f with unlocked := false }).onPll f (s.clk f).target)) ∧
    ((s.clk f).unlocked = true → s.clkPend.contains (f.val + 1) = false → s.belowFloor f (s.clk f).target = true →
      (s.clk f).target < s.rd D.FIELD_FREQ f → exec (.pllRelockAttempt f true) s =
        .next (s.setClk f { s.clk f with unlocked := false, waiting := true }))) ∧
  (∀ (k : Fin 10) (s : State), (s.clkPend.contains k.val = false → exec (.clkForced k) s = .next s) ∧
    (s.clkPend.contains k.val = true → ∃ u, u = ({ s with clkPend := s.clkPend.filter (fun j => j != k.val) } : State).swForced k ∧
      u.rd D.CLK_SW_LOST k = 0xFFFFFFFF ∧ u.rd D.CLK_FORCED_COUNT k = satAdd (8 * D.CLK_FORCED_COUNT.len) (s.rd D.CLK_FORCED_COUNT k) 1 ∧
      u.eventSeq = s.eventSeq + 1 ∧ (1 ≤ k.val → k.val ≤ 8 → exec (.clkForced k) s = .next (u.onBypass (k.val - 1))) ∧
      (k.val = 0 ∨ k.val = 9 → exec (.clkForced k) s = .next u))) ∧
  (∀ (w : OdWrite) (s : State), s.takes D.CKOBS_SELECT 0 w = true →
    (s.ckFreq (odNum w) = none → ∃ t, exec (.ckobsSelect w) s = .next t ∧ Refuses s t St.OD_VALUE) ∧
    (∀ f, s.ckFreq (odNum w) = some f → 2500 * s.rd D.CKOBS_DIV 0 < f → ∃ t, exec (.ckobsSelect w) s = .next t ∧ Refuses s t St.CKOBS_RANGE) ∧
    (∀ f, s.ckFreq (odNum w) = some f → f ≤ 2500 * s.rd D.CKOBS_DIV 0 → odNum w = s.rd D.CKOBS_SELECT 0 →
      ∃ t, exec (.ckobsSelect w) s = .next t ∧ Sets s t D.CKOBS_SELECT 0 (odNum w)) ∧
    (∀ f, s.ckFreq (odNum w) = some f → f ≤ 2500 * s.rd D.CKOBS_DIV 0 → odNum w ≠ s.rd D.CKOBS_SELECT 0 →
      s.ckGated (s.rd D.CKOBS_SELECT 0) = false → exec (.ckobsSelect w) s = .next ((s.swNormal 9).odSet D.CKOBS_SELECT 0 w))) ∧
  (∀ (w : OdWrite) (s : State), s.takes D.CKOBS_DIV 0 w = true →
    (2500 * odNum w < (s.ckFreq (s.rd D.CKOBS_SELECT 0)).getD 0 → ∃ t, exec (.ckobsDiv w) s = .next t ∧ Refuses s t St.CKOBS_RANGE) ∧
    ((s.ckFreq (s.rd D.CKOBS_SELECT 0)).getD 0 ≤ 2500 * odNum w → ∃ t, exec (.ckobsDiv w) s = .next t ∧ Sets s t D.CKOBS_DIV 0 (odNum w)))

/-- Power states, the chairlift, temperature, power loss, and the reset pin. -/
def Obligations.PowerCommands : Prop :=
  (∀ (n : Fin 1024) (w : OdWrite) (s : State), s.takes D.SLICE_POWER_MODE n w = true →
    (odNum w = 3 → s.sliceLocked n = true → ∃ t, exec (.slicePowerMode n w) s = .next t ∧ Refuses s t St.PIN_HELD) ∧
    (odNum w ≠ 1 → odNum w ≠ 3 ∨ s.sliceLocked n = false →
      ∃ t, exec (.slicePowerMode n w) s = .next t ∧ Sets s t D.SLICE_POWER_MODE n (odNum w)) ∧
    (odNum w = 1 → s.has .slice n = true → s.isHole n = false →
      exec (.slicePowerMode n w) s = .next ((s.sliceUp n).1.odSet D.SLICE_POWER_MODE n w))) ∧
  (∀ (f : Fin 8) (w : OdWrite) (s : State), s.takes D.FIELD_POWER_MODE f w = true →
    (odNum w = 0 → ∃ t, exec (.fieldPowerMode f w) s = .next t ∧ Sets s t D.FIELD_POWER_MODE f 0) ∧
    (odNum w = 1 → exec (.fieldPowerMode f w) s = .next ((s.fieldUp f).1.odSet D.FIELD_POWER_MODE f w)) ∧
    (2 ≤ odNum w → s.fieldDepth f (odNum w) = none → ∃ t, exec (.fieldPowerMode f w) s = .next t ∧ Refuses s t St.GATE_BUSY) ∧
    (∀ d, 2 ≤ odNum w → s.fieldDepth f (odNum w) = some d → s.rd D.FIELD_POWER f < d → exec (.fieldPowerMode f w) s =
      .next ((s.wr D.FIELD_POWER f d).setObj D.FIELD_POWER_MODE f w).odDone)) ∧
  (∀ (n : Fin 1024) (b : Bool) (s : State),
    (s.rd D.SLICE_POWER_MODE n.val = 1 ∨ s.sliceQuiet n.val = false → exec (.idleTimeout (.slice n) b) s = .next s) ∧
    (s.has .slice n.val = true → s.isHole n.val = false → s.rd D.SLICE_POWER_MODE n.val ≠ 1 → s.sliceQuiet n.val = true →
      s.sliceResets n.val = false → s.rd D.SLICE_POWER n.val < 2 →
      exec (.idleTimeout (.slice n) false) s = .next (s.wr D.SLICE_POWER n 1))) ∧
  (∀ (f : Fin 8) (s : State), fieldPresent s.variant f = true → s.rd D.FIELD_POWER_MODE f ≠ 1 → s.rd D.FIELD_POWER f < 2 → s.routersEmpty f = true →
    (∀ d, s.fieldDepth f (s.rd D.FIELD_POWER_MODE f) = some d → exec (.idleTimeout (.field f) true) s = .next (s.wr D.FIELD_POWER f d)) ∧
    (s.fieldDepth f (s.rd D.FIELD_POWER_MODE f) = none → exec (.idleTimeout (.field f) true) s = .next s)) ∧
  (∀ (ns : Nat) (s : State), ∃ u, u = s.refill ns ∧ u.budget = min (s.budget + s.rd D.CHAIRLIFT_SLEW 0 * ns) (1000 * s.rd D.CHAIRLIFT_SLEW 0) ∧
    (u.liftNext = none → exec (.chairliftAdmit ns) s = .next u) ∧
    (∀ x, u.liftNext = some x →
      (u.fresh % 2 = 1 → exec (.chairliftAdmit ns) s = .next (u.drew.liftWait x).powerCapped) ∧
      (u.fresh % 2 ≠ 1 → u.drew.liftStep x ≤ u.drew.budget → exec (.chairliftAdmit ns) s = .next (u.drew.liftAdmit x)) ∧
      (u.fresh % 2 ≠ 1 → u.drew.budget < u.drew.liftStep x → exec (.chairliftAdmit ns) s = .next (u.drew.liftWait x)))) ∧
  (∀ (x : PowerUnit) (s : State), isGlide x = false →
    ∃ t, s.liftAdmit x = t ∧ t.budget = s.budget - s.liftStep x ∧ x ∈ t.rising ∧ x ∉ t.lift) ∧
  (∀ (f : Fin 8) (s : State), ∃ t, s.liftAdmit (.glide f) = t ∧ t.budget = s.budget - 250 ∧ t.rising = s.rising ∧
    (s.fresh % 2 = 1 → t.lift = s.lift) ∧ (s.fresh % 2 ≠ 1 → .glide f ∉ t.lift)) ∧
  (∀ (x : PowerUnit) (s : State),
    (s.rising.contains x = false ∨ s.parentUp x = false → exec (.unitWakeDone x) s = .next s) ∧
    (s.rising.contains x = true → s.parentUp x = true →
      exec (.unitWakeDone x) s = .next (({ s with rising := s.rising.filter (fun v => v != x) } : State).unitUp x)) ∧
    (∀ n : Fin 1024, s.unitUp (.slice n) = s.wr D.SLICE_POWER n 0) ∧ (∀ c : Fin 1024, s.unitUp (.channel c) = s.wr D.CHAN_POWER c 0) ∧
    (∀ n : Fin 64, (s.rd D.LINK_STATE n = 0 → s.linkMayRise n = true → s.unitUp (.link n) = s.linkDetect n) ∧
      (s.rd D.LINK_STATE n ≠ 0 → s.unitUp (.link n) = s.linkWake n))) ∧
  (∀ (f : Fin 8) (c : Int) (s : State), (fieldPresent s.variant f = false → exec (.fieldTempSample f c) s = .next s) ∧
    (∀ d, fieldPresent s.variant f = true → s.tempOf f c = 10 * d → s.boot.down = none → ∃ u,
      u = (s.wr D.FIELD_TEMP f (ofSigned 32 d)).wr D.THERMAL_VALID f 1 ∧ exec (.fieldTempSample f c) s = .next (u.thermal f (10 * d)) ∧
      (d < 110 → 10 * (s.rd D.THERMAL_HOT_C 0 : Int) ≤ 10 * d → (s.clk f).capped = false → u.thermal f (10 * d) = u.tooHot f) ∧
      (d < 110 → 10 * d < 10 * (s.rd D.THERMAL_HOT_C 0 : Int) → (s.clk f).capped = false → u.thermal f (10 * d) = u))) ∧
  (∀ (mv : BitVec 16) (c : CommitOutcome) (b : Bool) (s : State),
    (s.boot.down.isSome = true → exec (.powerLoss mv c b) s = .next { s with boot := { s.boot with down := some 0 } }) ∧
    (s.boot.down = none → exec (.powerLoss mv c b) s = .next (s.lossSeq mv.toNat 0 (headerWritten c) b))) ∧
  (∀ s : State, (s.boot.down = some 0 → exec .inputRecovered s = .next (({ s with boot := { s.boot with down := none } } : State).restart 6)) ∧
    (s.boot.down ≠ some 0 → exec .inputRecovered s = .next s) ∧
    (s.boot.pin = true → exec .resetPin s = .next s) ∧
    (s.boot.pin = false → s.boot.down = none → exec .resetPin s = .next (({ s with boot := { s.boot with pin := true } } : State).restart 1)) ∧
    (s.boot.pin = false → s.boot.down.isSome = true → exec .resetPin s = .next { s with boot := { s.boot with pin := true } }) ∧
    exec .resetPinRelease s = .next { s with boot := { s.boot with pin := false } })

/-- Power-on, the crystal, boot stages, firmware banks, attestation and the watchdog. -/
def Obligations.StartUpCommands : Prop :=
  (∀ (x : BitVec 3) (s : State), ∃ t, exec (.powerOn x) s = .next t ∧ t.rd D.BOOT_STAGE 0 = 0 ∧ t.gate = 0 ∧ t.gateRun = false ∧
    t.rd D.XSD_STRAP 0 = x.toNat ∧ t.boot.down = none ∧ t.reqs = [] ∧ t.mem = [] ∧ t.pending = s.pending) ∧
  (∀ (cause : Nat) (s : State), ∃ t, s.restart cause = t ∧ t.rd D.LAST_RESET_CAUSE 0 = cause ∧ t.rd D.BOOT_STAGE 0 = 0 ∧ t.gate = 0 ∧ t.gateRun = false ∧
    t.lapA = none ∧ t.lapS = none ∧ t.flog = s.flog ∧ t.pending = s.pending) ∧
  (∀ (c : BitVec 16) (s : State),
    (s.checking = false ∨ 3 ≤ s.rd D.XTAL_ATTEMPTS 0 → exec (.xtalDelayExpiry c) s = .next s) ∧
    (s.checking = true → s.rd D.XTAL_ATTEMPTS 0 < 3 → 159 ≤ c.toNat → c.toNat ≤ 169 → exec (.xtalDelayExpiry c) s =
      .next ((((s.count D.XTAL_ATTEMPTS 0 1).wr D.XTAL_CHECK_COUNT 0 c.toNat).wr D.AO_CLOCK_SOURCE 0 1).swNormal 0)) ∧
    (s.checking = true → s.rd D.XTAL_ATTEMPTS 0 < 3 → c.toNat < 159 ∨ 169 < c.toNat →
      exec (.xtalDelayExpiry c) s = .next (s.count D.XTAL_ATTEMPTS 0 1)) ∧
    (s.checking = true → s.rd D.XTAL_ATTEMPTS 0 = 3 → ∃ t, exec .xtalRestart s = .next t ∧ t.rd D.XTAL_ATTEMPTS 0 = 0 ∧
      t.boot.xtalFails = s.boot.xtalFails + 1) ∧
    (s.checking = false → exec .xtalRestart s = .next s)) ∧
  (∀ (o : StageOutcome) (s : State),
    (s.heldOff = true ∨ s.rdB D.BOOT_HALTED 0 = true ∨ s.started = true → exec (.bootStageEnd o) s = .next s) ∧
    (s.heldOff = false → s.rdB D.BOOT_HALTED 0 = false → s.started = false →
      (s.rd D.BOOT_STAGE 0 = 0 → exec (.bootStageEnd o) s = .next (s.end0 o)) ∧
      (s.rd D.BOOT_STAGE 0 = 1 → s.rd D.AO_CLOCK_SOURCE 0 = 0 → exec (.bootStageEnd o) s = .next s) ∧
      (s.rd D.BOOT_STAGE 0 = 1 → s.rd D.AO_CLOCK_SOURCE 0 ≠ 0 → ∃ t, exec (.bootStageEnd o) s = .next t ∧ t.gate = 0 ∧ t.gateRun = true ∧
        t.rd D.BOOT_STAGE 0 = 2) ∧
      (s.rd D.BOOT_STAGE 0 = 2 → exec (.bootStageEnd o) s = .next (s.end2 o)) ∧ (s.rd D.BOOT_STAGE 0 = 3 → exec (.bootStageEnd o) s = .next (s.end3 o)) ∧
      (s.rd D.BOOT_STAGE 0 = 4 → exec (.bootStageEnd o) s = .next (s.end4 o)) ∧ (s.rd D.BOOT_STAGE 0 = 5 → exec (.bootStageEnd o) s = .next (s.end5 o)) ∧
      (s.rd D.BOOT_STAGE 0 = 6 → exec (.bootStageEnd o) s = .next (s.end6 o)) ∧ (s.rd D.BOOT_STAGE 0 = 7 → exec (.bootStageEnd o) s = .next (s.end7 o)) ∧
      (s.rd D.BOOT_STAGE 0 = 8 → exec (.bootStageEnd o) s = .next (s.end8 o)) ∧ (s.rd D.BOOT_STAGE 0 = 9 → exec (.bootStageEnd o) s = .next (s.end9 o)) ∧
      (10 ≤ s.rd D.BOOT_STAGE 0 → exec (.bootStageEnd o) s = .next (s.end10 o))) ∧
    (o.fuseCopiesAgree = true → (s.end0 o).rd D.BOOT_STAGE 0 = 1) ∧
    (o.fuseCopiesAgree = false → (s.end0 o).rd D.BOOT_HALTED 0 = 1) ∧ ((s.end9 o).rd D.BOOT_STAGE 0 = 10)) ∧
  (∀ (b : Fin 2) (v : Bool) (img : BankImage) (s : State), (s.rd D.FW_BANK_STATE b.val ≠ 3 → exec (.fwBankProgrammed b v img) s = .next s) ∧
    (s.rd D.FW_BANK_STATE b.val = 3 → ∃ t, exec (.fwBankProgrammed b v img) s = .next t ∧ t.rd D.FW_BANK_STATE b = (if v then 1 else 2) ∧
      t.rd D.FW_BANK_SVN b = img.svn.toNat ∧ Table.get blankImage b.val t.boot.nor = img)) ∧
  (∀ (w : OdWrite) (s : State), s.takes D.FW_MIN_SVN 0 w = true →
    (odNum w < s.rd D.FW_MIN_SVN 0 → ∃ t, exec (.fwMinSvn w) s = .next t ∧ Refuses s t St.OD_RANGE) ∧
    (s.rd D.FW_MIN_SVN 0 ≤ odNum w → exec (.fwMinSvn w) s = .next { s.wr D.FW_MIN_SVN 0 (odNum w) with out := s.out ++ [.od 0 0 0] })) ∧
  (∀ (w : OdWrite) (s : State), s.takes D.ATTEST_NONCE 0 w = true → ∃ t, exec (.attestNonce w) s = .next t ∧ t.rd D.ATTEST_NONCE 0 = odNum w ∧
    t.boot.attest = true ∧ t.out = s.out ++ [.od 0 0 0]) ∧
  (∀ s : State, (s.boot.attest = false → exec .attestReportReady s = .next s) ∧
    (s.boot.attest = true → ∃ t, exec .attestReportReady s = .next t ∧ t.boot.attest = false ∧ t.rdLen D.ATTEST_REPORT 0 = 690 ∧
      t.rd D.ATTEST_REPORT 0 = s.attestBody + ed448Sign Config.identityKey 576 s.attestBody * 2 ^ 4608)) ∧
  (∀ s : State, (s.odUp = false → exec .uttexWatchdog s = .next s) ∧
    (s.odUp = true → ∃ u, u = ({ s with boot := { s.boot with wdtLog := true } } : State) ∧
      (s.wdtSecond = true → exec .uttexWatchdog s = .next (u.restart 4)) ∧
      (s.wdtSecond = false → exec .uttexWatchdog s = .next { u.linkHold 4 with boot := { (u.linkHold 4).boot with wdt := some none } })))

/-- Moults, added defects, and the resets of slices, fields, partitions and the device. -/
def Obligations.MoultsAndResets : Prop :=
  (∀ (w : OdWrite) (s : State), s.takes D.MOULT_COMMAND 0 w = true →
    (s.moultStatus (odNum w) ≠ 0 → s.moultStatus (odNum w) ≠ St.UNIT_ABSENT → exec (.moultCommand w) s =
      .next { s.wr D.MOULT_STATUS 0 (s.moultStatus (odNum w)) with out := s.out ++ [.od (s.moultStatus (odNum w)) 0 0] }) ∧
    (s.moultStatus (odNum w) = St.UNIT_ABSENT → ∃ t, exec (.moultCommand w) s = .next t ∧ t.rd D.MOULT_STATUS 0 = St.UNIT_ABSENT ∧
      t.out = s.out ++ [.od St.UNIT_ABSENT 0 0] ∧ ObjsBut s t [(objKey D.MOULT_STATUS, 0), (objKey D.UNIT_ABSENT_COUNT, 0)]) ∧
    (s.moultStatus (odNum w) = 0 → ∃ u m, u = ((((s.wr D.MOULT_STATUS 0 0).wr D.MOULT_STATE 0 1).wr D.MOULT_UNITS_DONE 0 0)) ∧
      m.groups = (s.wr D.MOULT_STATUS 0 0).moultGroups (odNum w) ∧ m.kind = bits (odNum w) 3 0 ∧ m.bank = bits (odNum w) 4 4 ∧ m.cur = none ∧ m.done = 0 ∧
      exec (.moultCommand w) s = .next (({ u with out := s.out ++ [.od 0 0 0] } : State).moultNext (m.groups.length + 1) m))) ∧
  (∀ (m : Moult) (s : State), s.boot.moult = some m →
    (∀ u g rest, m.cur = none → m.groups = (u :: g) :: rest →
      exec .moultUnitSwitch s = .next { s with boot := { s.boot with moult := some { m with cur := some u } } }) ∧
    (∀ u, m.cur = some u → exec .moultReadyTimeout s =
      .next ((s.raise Ev.MOULT_REVERTED 0 (evWords [u])).moultStep { m with reverted := true } u)) ∧
    (∀ u, m.cur = some u → u ≠ 0 → exec .moultReady s =
      .next ((((s.runFrom u m.bank).count D.MOULT_UNITS_DONE 0 1).runningBank).moultStep { m with done := m.done + 1 } u)) ∧
    (m.cur = none → exec .moultReady s = .next s ∧ exec .moultReadyTimeout s = .next s)) ∧
  (∀ s : State, s.boot.moult = none → exec .moultUnitSwitch s = .next s ∧ exec .moultReady s = .next s ∧ exec .moultReadyTimeout s = .next s) ∧
  (∀ (w : OdWrite) (s : State), s.takes D.DEFECT_ADD 0 w = true →
    (bits (odNum w) 31 20 ≠ 0 ∨ bits (odNum w) 63 32 ≠ 0 ∨ 2 < bits (odNum w) 19 16 ∨ bits (odNum w) 15 0 / 4096 = 15 →
      ∃ t, exec (.defectAdd w) s = .next t ∧ Refuses s t St.OD_VALUE) ∧
    (bits (odNum w) 31 20 = 0 → bits (odNum w) 63 32 = 0 → bits (odNum w) 19 16 ≤ 2 → bits (odNum w) 15 0 / 4096 ≠ 15 →
      s.unitHere (bits (odNum w) 15 0) = false → ∃ t, exec (.defectAdd w) s = .next t ∧ t.out = s.out ++ [.od St.UNIT_ABSENT 0 0] ∧
        ObjsBut s t [(objKey D.UNIT_ABSENT_COUNT, 0)]) ∧
    (bits (odNum w) 31 20 = 0 → bits (odNum w) 63 32 = 0 → bits (odNum w) 19 16 ≤ 2 → bits (odNum w) 15 0 / 4096 ≠ 15 →
      s.unitHere (bits (odNum w) 15 0) = true → exec (.defectAdd w) s =
        .next (s.addDefect (bits (odNum w) 15 0) (bits (odNum w) 19 16) 3 (odNum w / 2 ^ 64)).odDone)) ∧
  (∀ (n : Fin 1024) (w : OdWrite) (s : State), s.takes D.RESET_SLICE n w = true →
    (s.isHole n = true ∨ (s.cache (s.homeKey n)).failed = true → ∃ t, exec (.resetSlice n w) s = .next t ∧ Refuses s t St.SLICE_FAILED) ∧
    (s.sliceStatus n = 0 → s.sliceBusy n = true → ∃ t, exec (.resetSlice n w) s = .next t ∧ Refuses s t St.RESET_BUSY) ∧
    (s.sliceStatus n = 0 → s.sliceBusy n = false → ∃ u, u = ({ s with boot := { s.boot with resets := s.boot.resets ++ [.slice n] } } : State).odHold ∧
      exec (.resetSlice n w) s = .next ((u.sweepSliceEnd n St.SWEEP_ABORTED).moultDrop (fun x => x == ucSlice (u.homeKey n))))) ∧
  (∀ (f : Fin 8) (w : OdWrite) (s : State), s.takes D.RESET_FIELD f w = true →
    (s.fieldBusy f = true → ∃ t, exec (.resetField f w) s = .next t ∧ Refuses s t St.RESET_BUSY) ∧
    (s.fieldBusy f = false → ∃ u,
      u = ({ s with boot := { s.boot with resets := s.boot.resets ++ [.field f (odNum w)] } } : State).odHold ∧
      exec (.resetField f w) s = .next ((u.fieldStop f (odNum w == 1)).moultDrop
        (fun x => unitField x == some f.val && (x / 4096 != 6 || odNum w == 1))))) ∧
  (∀ (p : Fin 16) (w : OdWrite) (s : State), s.takes D.RESET_PARTITION p w = true →
    ((s.part p).wcmds.any (fun c => c.1 == .reset) = true → ∃ t, exec (.resetPartition p w) s = .next t ∧ Refuses s t St.RESET_BUSY) ∧
    ((s.part p).drain = none → (s.part p).wcmds = [] →
      exec (.resetPartition p w) s = .next (((s.odHold).faultAll p (fun _ => true)).wcmd p .reset .od))) ∧
  (∀ (w : OdWrite) (s : State), s.takes D.RESET_DEVICE 0 w = true → ∃ u : State,
    u = { s with boot := { s.boot with ask := some (odNum w) }, out := s.out ++ [.od 0 0 0] } ∧
    (odNum w = 1 → exec (.deviceReset w) s = .next (((presentFields s.variant).foldl
      (fun t n => if t.sitePowered n then t.portsDown n 5 else t) u).restart 2)) ∧
    (odNum w ≠ 1 → exec (.linkHoldReset w) s = .next (u.linkHold 3)) ∧
    (odNum w = 1 → exec (.linkHoldReset w) s = exec (.deviceReset w) s))
end

