-- ==== Sys2Proof/Laws/State.lean ====
section
/-! SUPPORT. What each named update leaves of each field of the state: one lemma per field per update, by definition. -/

namespace Sys2Proof.Machine

variable (s : State)

/-! ### `wr` -/

@[simp] theorem State.wr_variant (o : Obj) (i v : Nat) : (s.wr o i v).variant = s.variant := rfl
@[simp] theorem State.wr_pending (o : Obj) (i v : Nat) : (s.wr o i v).pending = s.pending := rfl
@[simp] theorem State.wr_out (o : Obj) (i v : Nat) : (s.wr o i v).out = s.out := rfl
@[simp] theorem State.wr_freeCtr (o : Obj) (i v : Nat) : (s.wr o i v).freeCtr = s.freeCtr := rfl
@[simp] theorem State.wr_gate (o : Obj) (i v : Nat) : (s.wr o i v).gate = s.gate := rfl
@[simp] theorem State.wr_gateRun (o : Obj) (i v : Nat) : (s.wr o i v).gateRun = s.gateRun := rfl
@[simp] theorem State.wr_lens (o : Obj) (i v : Nat) : (s.wr o i v).lens = s.lens := rfl
@[simp] theorem State.wr_mem (o : Obj) (i v : Nat) : (s.wr o i v).mem = s.mem := rfl
@[simp] theorem State.wr_poison (o : Obj) (i v : Nat) : (s.wr o i v).poison = s.poison := rfl
@[simp] theorem State.wr_reqs (o : Obj) (i v : Nat) : (s.wr o i v).reqs = s.reqs := rfl
@[simp] theorem State.wr_nextReq (o : Obj) (i v : Nat) : (s.wr o i v).nextReq = s.nextReq := rfl
@[simp] theorem State.wr_nextOrder (o : Obj) (i v : Nat) : (s.wr o i v).nextOrder = s.nextOrder := rfl
@[simp] theorem State.wr_parts (o : Obj) (i v : Nat) : (s.wr o i v).parts = s.parts := rfl
@[simp] theorem State.wr_rebinds (o : Obj) (i v : Nat) : (s.wr o i v).rebinds = s.rebinds := rfl
@[simp] theorem State.wr_events (o : Obj) (i v : Nat) : (s.wr o i v).events = s.events := rfl
@[simp] theorem State.wr_eventSeq (o : Obj) (i v : Nat) : (s.wr o i v).eventSeq = s.eventSeq := rfl
@[simp] theorem State.wr_flog (o : Obj) (i v : Nat) : (s.wr o i v).flog = s.flog := rfl
@[simp] theorem State.wr_flogWait (o : Obj) (i v : Nat) : (s.wr o i v).flogWait = s.flogWait := rfl
@[simp] theorem State.wr_ports (o : Obj) (i v : Nat) : (s.wr o i v).ports = s.ports := rfl
@[simp] theorem State.wr_sites (o : Obj) (i v : Nat) : (s.wr o i v).sites = s.sites := rfl
@[simp] theorem State.wr_fns (o : Obj) (i v : Nat) : (s.wr o i v).fns = s.fns := rfl
@[simp] theorem State.wr_teDone (o : Obj) (i v : Nat) : (s.wr o i v).teDone = s.teDone := rfl
@[simp] theorem State.wr_teCtx (o : Obj) (i v : Nat) : (s.wr o i v).teCtx = s.teCtx := rfl
@[simp] theorem State.wr_retiring (o : Obj) (i v : Nat) : (s.wr o i v).retiring = s.retiring := rfl
@[simp] theorem State.wr_walks (o : Obj) (i v : Nat) : (s.wr o i v).walks = s.walks := rfl
@[simp] theorem State.wr_adopting (o : Obj) (i v : Nat) : (s.wr o i v).adopting = s.adopting := rfl
@[simp] theorem State.wr_lift (o : Obj) (i v : Nat) : (s.wr o i v).lift = s.lift := rfl
@[simp] theorem State.wr_rising (o : Obj) (i v : Nat) : (s.wr o i v).rising = s.rising := rfl
@[simp] theorem State.wr_liftFirst (o : Obj) (i v : Nat) : (s.wr o i v).liftFirst = s.liftFirst := rfl
@[simp] theorem State.wr_budget (o : Obj) (i v : Nat) : (s.wr o i v).budget = s.budget := rfl
@[simp] theorem State.wr_capEv (o : Obj) (i v : Nat) : (s.wr o i v).capEv = s.capEv := rfl
@[simp] theorem State.wr_liftWaited (o : Obj) (i v : Nat) : (s.wr o i v).liftWaited = s.liftWaited := rfl
@[simp] theorem State.wr_clkPend (o : Obj) (i v : Nat) : (s.wr o i v).clkPend = s.clkPend := rfl
@[simp] theorem State.wr_lapA (o : Obj) (i v : Nat) : (s.wr o i v).lapA = s.lapA := rfl
@[simp] theorem State.wr_lapS (o : Obj) (i v : Nat) : (s.wr o i v).lapS = s.lapS := rfl
@[simp] theorem State.wr_lapOp (o : Obj) (i v : Nat) : (s.wr o i v).lapOp = s.lapOp := rfl
@[simp] theorem State.wr_lapCause (o : Obj) (i v : Nat) : (s.wr o i v).lapCause = s.lapCause := rfl
@[simp] theorem State.wr_demoted (o : Obj) (i v : Nat) : (s.wr o i v).demoted = s.demoted := rfl
@[simp] theorem State.wr_lapLoad (o : Obj) (i v : Nat) : (s.wr o i v).lapLoad = s.lapLoad := rfl
@[simp] theorem State.wr_clks (o : Obj) (i v : Nat) : (s.wr o i v).clks = s.clks := rfl
@[simp] theorem State.wr_clkReq (o : Obj) (i v : Nat) : (s.wr o i v).clkReq = s.clkReq := rfl
@[simp] theorem State.wr_pcs (o : Obj) (i v : Nat) : (s.wr o i v).pcs = s.pcs := rfl
@[simp] theorem State.wr_chans (o : Obj) (i v : Nat) : (s.wr o i v).chans = s.chans := rfl
@[simp] theorem State.wr_rfm (o : Obj) (i v : Nat) : (s.wr o i v).rfm = s.rfm := rfl
@[simp] theorem State.wr_buckets (o : Obj) (i v : Nat) : (s.wr o i v).buckets = s.buckets := rfl
@[simp] theorem State.wr_served (o : Obj) (i v : Nat) : (s.wr o i v).served = s.served := rfl
@[simp] theorem State.wr_missEv (o : Obj) (i v : Nat) : (s.wr o i v).missEv = s.missEv := rfl
@[simp] theorem State.wr_linkQ (o : Obj) (i v : Nat) : (s.wr o i v).linkQ = s.linkQ := rfl
@[simp] theorem State.wr_slices (o : Obj) (i v : Nat) : (s.wr o i v).slices = s.slices := rfl
@[simp] theorem State.wr_launches (o : Obj) (i v : Nat) : (s.wr o i v).launches = s.launches := rfl
@[simp] theorem State.wr_forwards (o : Obj) (i v : Nat) : (s.wr o i v).forwards = s.forwards := rfl
@[simp] theorem State.wr_farLaunches (o : Obj) (i v : Nat) : (s.wr o i v).farLaunches = s.farLaunches := rfl
@[simp] theorem State.wr_gsv (o : Obj) (i v : Nat) : (s.wr o i v).gsv = s.gsv := rfl
@[simp] theorem State.wr_rings (o : Obj) (i v : Nat) : (s.wr o i v).rings = s.rings := rfl
@[simp] theorem State.wr_sweeps (o : Obj) (i v : Nat) : (s.wr o i v).sweeps = s.sweeps := rfl
@[simp] theorem State.wr_flows (o : Obj) (i v : Nat) : (s.wr o i v).flows = s.flows := rfl
@[simp] theorem State.wr_force (o : Obj) (i v : Nat) : (s.wr o i v).force = s.force := rfl
@[simp] theorem State.wr_inj (o : Obj) (i v : Nat) : (s.wr o i v).inj = s.inj := rfl
@[simp] theorem State.wr_fsq (o : Obj) (i v : Nat) : (s.wr o i v).fsq = s.fsq := rfl
@[simp] theorem State.wr_landing (o : Obj) (i v : Nat) : (s.wr o i v).landing = s.landing := rfl
@[simp] theorem State.wr_flying (o : Obj) (i v : Nat) : (s.wr o i v).flying = s.flying := rfl
@[simp] theorem State.wr_seamq (o : Obj) (i v : Nat) : (s.wr o i v).seamq = s.seamq := rfl
@[simp] theorem State.wr_routeFails (o : Obj) (i v : Nat) : (s.wr o i v).routeFails = s.routeFails := rfl
@[simp] theorem State.wr_lnks (o : Obj) (i v : Nat) : (s.wr o i v).lnks = s.lnks := rfl
@[simp] theorem State.wr_routeHold (o : Obj) (i v : Nat) : (s.wr o i v).routeHold = s.routeHold := rfl
@[simp] theorem State.wr_snapLink (o : Obj) (i v : Nat) : (s.wr o i v).snapLink = s.snapLink := rfl
@[simp] theorem State.wr_linkTab (o : Obj) (i v : Nat) : (s.wr o i v).linkTab = s.linkTab := rfl
@[simp] theorem State.wr_quarantine (o : Obj) (i v : Nat) : (s.wr o i v).quarantine = s.quarantine := rfl
@[simp] theorem State.wr_odRun (o : Obj) (i v : Nat) : (s.wr o i v).odRun = s.odRun := rfl
@[simp] theorem State.wr_odWait (o : Obj) (i v : Nat) : (s.wr o i v).odWait = s.odWait := rfl
@[simp] theorem State.wr_backlog (o : Obj) (i v : Nat) : (s.wr o i v).backlog = s.backlog := rfl
@[simp] theorem State.wr_staged (o : Obj) (i v : Nat) : (s.wr o i v).staged = s.staged := rfl
@[simp] theorem State.wr_philKept (o : Obj) (i v : Nat) : (s.wr o i v).philKept = s.philKept := rfl
@[simp] theorem State.wr_mram (o : Obj) (i v : Nat) : (s.wr o i v).mram = s.mram := rfl
@[simp] theorem State.wr_boot (o : Obj) (i v : Nat) : (s.wr o i v).boot = s.boot := rfl

/-! ### `wrLen` -/

@[simp] theorem State.wrLen_variant (o : Obj) (i n : Nat) : (s.wrLen o i n).variant = s.variant := rfl
@[simp] theorem State.wrLen_pending (o : Obj) (i n : Nat) : (s.wrLen o i n).pending = s.pending := rfl
@[simp] theorem State.wrLen_out (o : Obj) (i n : Nat) : (s.wrLen o i n).out = s.out := rfl
@[simp] theorem State.wrLen_freeCtr (o : Obj) (i n : Nat) : (s.wrLen o i n).freeCtr = s.freeCtr := rfl
@[simp] theorem State.wrLen_gate (o : Obj) (i n : Nat) : (s.wrLen o i n).gate = s.gate := rfl
@[simp] theorem State.wrLen_gateRun (o : Obj) (i n : Nat) : (s.wrLen o i n).gateRun = s.gateRun := rfl
@[simp] theorem State.wrLen_objs (o : Obj) (i n : Nat) : (s.wrLen o i n).objs = s.objs := rfl
@[simp] theorem State.wrLen_mem (o : Obj) (i n : Nat) : (s.wrLen o i n).mem = s.mem := rfl
@[simp] theorem State.wrLen_poison (o : Obj) (i n : Nat) : (s.wrLen o i n).poison = s.poison := rfl
@[simp] theorem State.wrLen_reqs (o : Obj) (i n : Nat) : (s.wrLen o i n).reqs = s.reqs := rfl
@[simp] theorem State.wrLen_nextReq (o : Obj) (i n : Nat) : (s.wrLen o i n).nextReq = s.nextReq := rfl
@[simp] theorem State.wrLen_nextOrder (o : Obj) (i n : Nat) : (s.wrLen o i n).nextOrder = s.nextOrder := rfl
@[simp] theorem State.wrLen_parts (o : Obj) (i n : Nat) : (s.wrLen o i n).parts = s.parts := rfl
@[simp] theorem State.wrLen_rebinds (o : Obj) (i n : Nat) : (s.wrLen o i n).rebinds = s.rebinds := rfl
@[simp] theorem State.wrLen_events (o : Obj) (i n : Nat) : (s.wrLen o i n).events = s.events := rfl
@[simp] theorem State.wrLen_eventSeq (o : Obj) (i n : Nat) : (s.wrLen o i n).eventSeq = s.eventSeq := rfl
@[simp] theorem State.wrLen_flog (o : Obj) (i n : Nat) : (s.wrLen o i n).flog = s.flog := rfl
@[simp] theorem State.wrLen_flogWait (o : Obj) (i n : Nat) : (s.wrLen o i n).flogWait = s.flogWait := rfl
@[simp] theorem State.wrLen_ports (o : Obj) (i n : Nat) : (s.wrLen o i n).ports = s.ports := rfl
@[simp] theorem State.wrLen_sites (o : Obj) (i n : Nat) : (s.wrLen o i n).sites = s.sites := rfl
@[simp] theorem State.wrLen_fns (o : Obj) (i n : Nat) : (s.wrLen o i n).fns = s.fns := rfl
@[simp] theorem State.wrLen_teDone (o : Obj) (i n : Nat) : (s.wrLen o i n).teDone = s.teDone := rfl
@[simp] theorem State.wrLen_teCtx (o : Obj) (i n : Nat) : (s.wrLen o i n).teCtx = s.teCtx := rfl
@[simp] theorem State.wrLen_retiring (o : Obj) (i n : Nat) : (s.wrLen o i n).retiring = s.retiring := rfl
@[simp] theorem State.wrLen_walks (o : Obj) (i n : Nat) : (s.wrLen o i n).walks = s.walks := rfl
@[simp] theorem State.wrLen_adopting (o : Obj) (i n : Nat) : (s.wrLen o i n).adopting = s.adopting := rfl
@[simp] theorem State.wrLen_lift (o : Obj) (i n : Nat) : (s.wrLen o i n).lift = s.lift := rfl
@[simp] theorem State.wrLen_rising (o : Obj) (i n : Nat) : (s.wrLen o i n).rising = s.rising := rfl
@[simp] theorem State.wrLen_liftFirst (o : Obj) (i n : Nat) : (s.wrLen o i n).liftFirst = s.liftFirst := rfl
@[simp] theorem State.wrLen_budget (o : Obj) (i n : Nat) : (s.wrLen o i n).budget = s.budget := rfl
@[simp] theorem State.wrLen_capEv (o : Obj) (i n : Nat) : (s.wrLen o i n).capEv = s.capEv := rfl
@[simp] theorem State.wrLen_liftWaited (o : Obj) (i n : Nat) : (s.wrLen o i n).liftWaited = s.liftWaited := rfl
@[simp] theorem State.wrLen_clkPend (o : Obj) (i n : Nat) : (s.wrLen o i n).clkPend = s.clkPend := rfl
@[simp] theorem State.wrLen_lapA (o : Obj) (i n : Nat) : (s.wrLen o i n).lapA = s.lapA := rfl
@[simp] theorem State.wrLen_lapS (o : Obj) (i n : Nat) : (s.wrLen o i n).lapS = s.lapS := rfl
@[simp] theorem State.wrLen_lapOp (o : Obj) (i n : Nat) : (s.wrLen o i n).lapOp = s.lapOp := rfl
@[simp] theorem State.wrLen_lapCause (o : Obj) (i n : Nat) : (s.wrLen o i n).lapCause = s.lapCause := rfl
@[simp] theorem State.wrLen_demoted (o : Obj) (i n : Nat) : (s.wrLen o i n).demoted = s.demoted := rfl
@[simp] theorem State.wrLen_lapLoad (o : Obj) (i n : Nat) : (s.wrLen o i n).lapLoad = s.lapLoad := rfl
@[simp] theorem State.wrLen_clks (o : Obj) (i n : Nat) : (s.wrLen o i n).clks = s.clks := rfl
@[simp] theorem State.wrLen_clkReq (o : Obj) (i n : Nat) : (s.wrLen o i n).clkReq = s.clkReq := rfl
@[simp] theorem State.wrLen_pcs (o : Obj) (i n : Nat) : (s.wrLen o i n).pcs = s.pcs := rfl
@[simp] theorem State.wrLen_chans (o : Obj) (i n : Nat) : (s.wrLen o i n).chans = s.chans := rfl
@[simp] theorem State.wrLen_rfm (o : Obj) (i n : Nat) : (s.wrLen o i n).rfm = s.rfm := rfl
@[simp] theorem State.wrLen_buckets (o : Obj) (i n : Nat) : (s.wrLen o i n).buckets = s.buckets := rfl
@[simp] theorem State.wrLen_served (o : Obj) (i n : Nat) : (s.wrLen o i n).served = s.served := rfl
@[simp] theorem State.wrLen_missEv (o : Obj) (i n : Nat) : (s.wrLen o i n).missEv = s.missEv := rfl
@[simp] theorem State.wrLen_linkQ (o : Obj) (i n : Nat) : (s.wrLen o i n).linkQ = s.linkQ := rfl
@[simp] theorem State.wrLen_slices (o : Obj) (i n : Nat) : (s.wrLen o i n).slices = s.slices := rfl
@[simp] theorem State.wrLen_launches (o : Obj) (i n : Nat) : (s.wrLen o i n).launches = s.launches := rfl
@[simp] theorem State.wrLen_forwards (o : Obj) (i n : Nat) : (s.wrLen o i n).forwards = s.forwards := rfl
@[simp] theorem State.wrLen_farLaunches (o : Obj) (i n : Nat) : (s.wrLen o i n).farLaunches = s.farLaunches := rfl
@[simp] theorem State.wrLen_gsv (o : Obj) (i n : Nat) : (s.wrLen o i n).gsv = s.gsv := rfl
@[simp] theorem State.wrLen_rings (o : Obj) (i n : Nat) : (s.wrLen o i n).rings = s.rings := rfl
@[simp] theorem State.wrLen_sweeps (o : Obj) (i n : Nat) : (s.wrLen o i n).sweeps = s.sweeps := rfl
@[simp] theorem State.wrLen_flows (o : Obj) (i n : Nat) : (s.wrLen o i n).flows = s.flows := rfl
@[simp] theorem State.wrLen_force (o : Obj) (i n : Nat) : (s.wrLen o i n).force = s.force := rfl
@[simp] theorem State.wrLen_inj (o : Obj) (i n : Nat) : (s.wrLen o i n).inj = s.inj := rfl
@[simp] theorem State.wrLen_fsq (o : Obj) (i n : Nat) : (s.wrLen o i n).fsq = s.fsq := rfl
@[simp] theorem State.wrLen_landing (o : Obj) (i n : Nat) : (s.wrLen o i n).landing = s.landing := rfl
@[simp] theorem State.wrLen_flying (o : Obj) (i n : Nat) : (s.wrLen o i n).flying = s.flying := rfl
@[simp] theorem State.wrLen_seamq (o : Obj) (i n : Nat) : (s.wrLen o i n).seamq = s.seamq := rfl
@[simp] theorem State.wrLen_routeFails (o : Obj) (i n : Nat) : (s.wrLen o i n).routeFails = s.routeFails := rfl
@[simp] theorem State.wrLen_lnks (o : Obj) (i n : Nat) : (s.wrLen o i n).lnks = s.lnks := rfl
@[simp] theorem State.wrLen_routeHold (o : Obj) (i n : Nat) : (s.wrLen o i n).routeHold = s.routeHold := rfl
@[simp] theorem State.wrLen_snapLink (o : Obj) (i n : Nat) : (s.wrLen o i n).snapLink = s.snapLink := rfl
@[simp] theorem State.wrLen_linkTab (o : Obj) (i n : Nat) : (s.wrLen o i n).linkTab = s.linkTab := rfl
@[simp] theorem State.wrLen_quarantine (o : Obj) (i n : Nat) : (s.wrLen o i n).quarantine = s.quarantine := rfl
@[simp] theorem State.wrLen_odRun (o : Obj) (i n : Nat) : (s.wrLen o i n).odRun = s.odRun := rfl
@[simp] theorem State.wrLen_odWait (o : Obj) (i n : Nat) : (s.wrLen o i n).odWait = s.odWait := rfl
@[simp] theorem State.wrLen_backlog (o : Obj) (i n : Nat) : (s.wrLen o i n).backlog = s.backlog := rfl
@[simp] theorem State.wrLen_staged (o : Obj) (i n : Nat) : (s.wrLen o i n).staged = s.staged := rfl
@[simp] theorem State.wrLen_philKept (o : Obj) (i n : Nat) : (s.wrLen o i n).philKept = s.philKept := rfl
@[simp] theorem State.wrLen_mram (o : Obj) (i n : Nat) : (s.wrLen o i n).mram = s.mram := rfl
@[simp] theorem State.wrLen_boot (o : Obj) (i n : Nat) : (s.wrLen o i n).boot = s.boot := rfl

/-! ### `emit` -/

@[simp] theorem State.emit_variant (x : Out) : (s.emit x).variant = s.variant := rfl
@[simp] theorem State.emit_pending (x : Out) : (s.emit x).pending = s.pending := rfl
@[simp] theorem State.emit_freeCtr (x : Out) : (s.emit x).freeCtr = s.freeCtr := rfl
@[simp] theorem State.emit_gate (x : Out) : (s.emit x).gate = s.gate := rfl
@[simp] theorem State.emit_gateRun (x : Out) : (s.emit x).gateRun = s.gateRun := rfl
@[simp] theorem State.emit_objs (x : Out) : (s.emit x).objs = s.objs := rfl
@[simp] theorem State.emit_lens (x : Out) : (s.emit x).lens = s.lens := rfl
@[simp] theorem State.emit_mem (x : Out) : (s.emit x).mem = s.mem := rfl
@[simp] theorem State.emit_poison (x : Out) : (s.emit x).poison = s.poison := rfl
@[simp] theorem State.emit_reqs (x : Out) : (s.emit x).reqs = s.reqs := rfl
@[simp] theorem State.emit_nextReq (x : Out) : (s.emit x).nextReq = s.nextReq := rfl
@[simp] theorem State.emit_nextOrder (x : Out) : (s.emit x).nextOrder = s.nextOrder := rfl
@[simp] theorem State.emit_parts (x : Out) : (s.emit x).parts = s.parts := rfl
@[simp] theorem State.emit_rebinds (x : Out) : (s.emit x).rebinds = s.rebinds := rfl
@[simp] theorem State.emit_events (x : Out) : (s.emit x).events = s.events := rfl
@[simp] theorem State.emit_eventSeq (x : Out) : (s.emit x).eventSeq = s.eventSeq := rfl
@[simp] theorem State.emit_flog (x : Out) : (s.emit x).flog = s.flog := rfl
@[simp] theorem State.emit_flogWait (x : Out) : (s.emit x).flogWait = s.flogWait := rfl
@[simp] theorem State.emit_ports (x : Out) : (s.emit x).ports = s.ports := rfl
@[simp] theorem State.emit_sites (x : Out) : (s.emit x).sites = s.sites := rfl
@[simp] theorem State.emit_fns (x : Out) : (s.emit x).fns = s.fns := rfl
@[simp] theorem State.emit_teDone (x : Out) : (s.emit x).teDone = s.teDone := rfl
@[simp] theorem State.emit_teCtx (x : Out) : (s.emit x).teCtx = s.teCtx := rfl
@[simp] theorem State.emit_retiring (x : Out) : (s.emit x).retiring = s.retiring := rfl
@[simp] theorem State.emit_walks (x : Out) : (s.emit x).walks = s.walks := rfl
@[simp] theorem State.emit_adopting (x : Out) : (s.emit x).adopting = s.adopting := rfl
@[simp] theorem State.emit_lift (x : Out) : (s.emit x).lift = s.lift := rfl
@[simp] theorem State.emit_rising (x : Out) : (s.emit x).rising = s.rising := rfl
@[simp] theorem State.emit_liftFirst (x : Out) : (s.emit x).liftFirst = s.liftFirst := rfl
@[simp] theorem State.emit_budget (x : Out) : (s.emit x).budget = s.budget := rfl
@[simp] theorem State.emit_capEv (x : Out) : (s.emit x).capEv = s.capEv := rfl
@[simp] theorem State.emit_liftWaited (x : Out) : (s.emit x).liftWaited = s.liftWaited := rfl
@[simp] theorem State.emit_clkPend (x : Out) : (s.emit x).clkPend = s.clkPend := rfl
@[simp] theorem State.emit_lapA (x : Out) : (s.emit x).lapA = s.lapA := rfl
@[simp] theorem State.emit_lapS (x : Out) : (s.emit x).lapS = s.lapS := rfl
@[simp] theorem State.emit_lapOp (x : Out) : (s.emit x).lapOp = s.lapOp := rfl
@[simp] theorem State.emit_lapCause (x : Out) : (s.emit x).lapCause = s.lapCause := rfl
@[simp] theorem State.emit_demoted (x : Out) : (s.emit x).demoted = s.demoted := rfl
@[simp] theorem State.emit_lapLoad (x : Out) : (s.emit x).lapLoad = s.lapLoad := rfl
@[simp] theorem State.emit_clks (x : Out) : (s.emit x).clks = s.clks := rfl
@[simp] theorem State.emit_clkReq (x : Out) : (s.emit x).clkReq = s.clkReq := rfl
@[simp] theorem State.emit_pcs (x : Out) : (s.emit x).pcs = s.pcs := rfl
@[simp] theorem State.emit_chans (x : Out) : (s.emit x).chans = s.chans := rfl
@[simp] theorem State.emit_rfm (x : Out) : (s.emit x).rfm = s.rfm := rfl
@[simp] theorem State.emit_buckets (x : Out) : (s.emit x).buckets = s.buckets := rfl
@[simp] theorem State.emit_served (x : Out) : (s.emit x).served = s.served := rfl
@[simp] theorem State.emit_missEv (x : Out) : (s.emit x).missEv = s.missEv := rfl
@[simp] theorem State.emit_linkQ (x : Out) : (s.emit x).linkQ = s.linkQ := rfl
@[simp] theorem State.emit_slices (x : Out) : (s.emit x).slices = s.slices := rfl
@[simp] theorem State.emit_launches (x : Out) : (s.emit x).launches = s.launches := rfl
@[simp] theorem State.emit_forwards (x : Out) : (s.emit x).forwards = s.forwards := rfl
@[simp] theorem State.emit_farLaunches (x : Out) : (s.emit x).farLaunches = s.farLaunches := rfl
@[simp] theorem State.emit_gsv (x : Out) : (s.emit x).gsv = s.gsv := rfl
@[simp] theorem State.emit_rings (x : Out) : (s.emit x).rings = s.rings := rfl
@[simp] theorem State.emit_sweeps (x : Out) : (s.emit x).sweeps = s.sweeps := rfl
@[simp] theorem State.emit_flows (x : Out) : (s.emit x).flows = s.flows := rfl
@[simp] theorem State.emit_force (x : Out) : (s.emit x).force = s.force := rfl
@[simp] theorem State.emit_inj (x : Out) : (s.emit x).inj = s.inj := rfl
@[simp] theorem State.emit_fsq (x : Out) : (s.emit x).fsq = s.fsq := rfl
@[simp] theorem State.emit_landing (x : Out) : (s.emit x).landing = s.landing := rfl
@[simp] theorem State.emit_flying (x : Out) : (s.emit x).flying = s.flying := rfl
@[simp] theorem State.emit_seamq (x : Out) : (s.emit x).seamq = s.seamq := rfl
@[simp] theorem State.emit_routeFails (x : Out) : (s.emit x).routeFails = s.routeFails := rfl
@[simp] theorem State.emit_lnks (x : Out) : (s.emit x).lnks = s.lnks := rfl
@[simp] theorem State.emit_routeHold (x : Out) : (s.emit x).routeHold = s.routeHold := rfl
@[simp] theorem State.emit_snapLink (x : Out) : (s.emit x).snapLink = s.snapLink := rfl
@[simp] theorem State.emit_linkTab (x : Out) : (s.emit x).linkTab = s.linkTab := rfl
@[simp] theorem State.emit_quarantine (x : Out) : (s.emit x).quarantine = s.quarantine := rfl
@[simp] theorem State.emit_odRun (x : Out) : (s.emit x).odRun = s.odRun := rfl
@[simp] theorem State.emit_odWait (x : Out) : (s.emit x).odWait = s.odWait := rfl
@[simp] theorem State.emit_backlog (x : Out) : (s.emit x).backlog = s.backlog := rfl
@[simp] theorem State.emit_staged (x : Out) : (s.emit x).staged = s.staged := rfl
@[simp] theorem State.emit_philKept (x : Out) : (s.emit x).philKept = s.philKept := rfl
@[simp] theorem State.emit_mram (x : Out) : (s.emit x).mram = s.mram := rfl
@[simp] theorem State.emit_boot (x : Out) : (s.emit x).boot = s.boot := rfl

/-! ### `drew` -/

@[simp] theorem State.drew_variant : (s.drew).variant = s.variant := rfl
@[simp] theorem State.drew_pending : (s.drew).pending = s.pending := rfl
@[simp] theorem State.drew_out : (s.drew).out = s.out := rfl
@[simp] theorem State.drew_gate : (s.drew).gate = s.gate := rfl
@[simp] theorem State.drew_gateRun : (s.drew).gateRun = s.gateRun := rfl
@[simp] theorem State.drew_objs : (s.drew).objs = s.objs := rfl
@[simp] theorem State.drew_lens : (s.drew).lens = s.lens := rfl
@[simp] theorem State.drew_mem : (s.drew).mem = s.mem := rfl
@[simp] theorem State.drew_poison : (s.drew).poison = s.poison := rfl
@[simp] theorem State.drew_reqs : (s.drew).reqs = s.reqs := rfl
@[simp] theorem State.drew_nextReq : (s.drew).nextReq = s.nextReq := rfl
@[simp] theorem State.drew_nextOrder : (s.drew).nextOrder = s.nextOrder := rfl
@[simp] theorem State.drew_parts : (s.drew).parts = s.parts := rfl
@[simp] theorem State.drew_rebinds : (s.drew).rebinds = s.rebinds := rfl
@[simp] theorem State.drew_events : (s.drew).events = s.events := rfl
@[simp] theorem State.drew_eventSeq : (s.drew).eventSeq = s.eventSeq := rfl
@[simp] theorem State.drew_flog : (s.drew).flog = s.flog := rfl
@[simp] theorem State.drew_flogWait : (s.drew).flogWait = s.flogWait := rfl
@[simp] theorem State.drew_ports : (s.drew).ports = s.ports := rfl
@[simp] theorem State.drew_sites : (s.drew).sites = s.sites := rfl
@[simp] theorem State.drew_fns : (s.drew).fns = s.fns := rfl
@[simp] theorem State.drew_teDone : (s.drew).teDone = s.teDone := rfl
@[simp] theorem State.drew_teCtx : (s.drew).teCtx = s.teCtx := rfl
@[simp] theorem State.drew_retiring : (s.drew).retiring = s.retiring := rfl
@[simp] theorem State.drew_walks : (s.drew).walks = s.walks := rfl
@[simp] theorem State.drew_adopting : (s.drew).adopting = s.adopting := rfl
@[simp] theorem State.drew_lift : (s.drew).lift = s.lift := rfl
@[simp] theorem State.drew_rising : (s.drew).rising = s.rising := rfl
@[simp] theorem State.drew_liftFirst : (s.drew).liftFirst = s.liftFirst := rfl
@[simp] theorem State.drew_budget : (s.drew).budget = s.budget := rfl
@[simp] theorem State.drew_capEv : (s.drew).capEv = s.capEv := rfl
@[simp] theorem State.drew_liftWaited : (s.drew).liftWaited = s.liftWaited := rfl
@[simp] theorem State.drew_clkPend : (s.drew).clkPend = s.clkPend := rfl
@[simp] theorem State.drew_lapA : (s.drew).lapA = s.lapA := rfl
@[simp] theorem State.drew_lapS : (s.drew).lapS = s.lapS := rfl
@[simp] theorem State.drew_lapOp : (s.drew).lapOp = s.lapOp := rfl
@[simp] theorem State.drew_lapCause : (s.drew).lapCause = s.lapCause := rfl
@[simp] theorem State.drew_demoted : (s.drew).demoted = s.demoted := rfl
@[simp] theorem State.drew_lapLoad : (s.drew).lapLoad = s.lapLoad := rfl
@[simp] theorem State.drew_clks : (s.drew).clks = s.clks := rfl
@[simp] theorem State.drew_clkReq : (s.drew).clkReq = s.clkReq := rfl
@[simp] theorem State.drew_pcs : (s.drew).pcs = s.pcs := rfl
@[simp] theorem State.drew_chans : (s.drew).chans = s.chans := rfl
@[simp] theorem State.drew_rfm : (s.drew).rfm = s.rfm := rfl
@[simp] theorem State.drew_buckets : (s.drew).buckets = s.buckets := rfl
@[simp] theorem State.drew_served : (s.drew).served = s.served := rfl
@[simp] theorem State.drew_missEv : (s.drew).missEv = s.missEv := rfl
@[simp] theorem State.drew_linkQ : (s.drew).linkQ = s.linkQ := rfl
@[simp] theorem State.drew_slices : (s.drew).slices = s.slices := rfl
@[simp] theorem State.drew_launches : (s.drew).launches = s.launches := rfl
@[simp] theorem State.drew_forwards : (s.drew).forwards = s.forwards := rfl
@[simp] theorem State.drew_farLaunches : (s.drew).farLaunches = s.farLaunches := rfl
@[simp] theorem State.drew_gsv : (s.drew).gsv = s.gsv := rfl
@[simp] theorem State.drew_rings : (s.drew).rings = s.rings := rfl
@[simp] theorem State.drew_sweeps : (s.drew).sweeps = s.sweeps := rfl
@[simp] theorem State.drew_flows : (s.drew).flows = s.flows := rfl
@[simp] theorem State.drew_force : (s.drew).force = s.force := rfl
@[simp] theorem State.drew_inj : (s.drew).inj = s.inj := rfl
@[simp] theorem State.drew_fsq : (s.drew).fsq = s.fsq := rfl
@[simp] theorem State.drew_landing : (s.drew).landing = s.landing := rfl
@[simp] theorem State.drew_flying : (s.drew).flying = s.flying := rfl
@[simp] theorem State.drew_seamq : (s.drew).seamq = s.seamq := rfl
@[simp] theorem State.drew_routeFails : (s.drew).routeFails = s.routeFails := rfl
@[simp] theorem State.drew_lnks : (s.drew).lnks = s.lnks := rfl
@[simp] theorem State.drew_routeHold : (s.drew).routeHold = s.routeHold := rfl
@[simp] theorem State.drew_snapLink : (s.drew).snapLink = s.snapLink := rfl
@[simp] theorem State.drew_linkTab : (s.drew).linkTab = s.linkTab := rfl
@[simp] theorem State.drew_quarantine : (s.drew).quarantine = s.quarantine := rfl
@[simp] theorem State.drew_odRun : (s.drew).odRun = s.odRun := rfl
@[simp] theorem State.drew_odWait : (s.drew).odWait = s.odWait := rfl
@[simp] theorem State.drew_backlog : (s.drew).backlog = s.backlog := rfl
@[simp] theorem State.drew_staged : (s.drew).staged = s.staged := rfl
@[simp] theorem State.drew_philKept : (s.drew).philKept = s.philKept := rfl
@[simp] theorem State.drew_mram : (s.drew).mram = s.mram := rfl
@[simp] theorem State.drew_boot : (s.drew).boot = s.boot := rfl

/-! ### `setFn` -/

@[simp] theorem State.setFn_variant (f : Nat) (h : HostFn) : (s.setFn f h).variant = s.variant := rfl
@[simp] theorem State.setFn_pending (f : Nat) (h : HostFn) : (s.setFn f h).pending = s.pending := rfl
@[simp] theorem State.setFn_out (f : Nat) (h : HostFn) : (s.setFn f h).out = s.out := rfl
@[simp] theorem State.setFn_freeCtr (f : Nat) (h : HostFn) : (s.setFn f h).freeCtr = s.freeCtr := rfl
@[simp] theorem State.setFn_gate (f : Nat) (h : HostFn) : (s.setFn f h).gate = s.gate := rfl
@[simp] theorem State.setFn_gateRun (f : Nat) (h : HostFn) : (s.setFn f h).gateRun = s.gateRun := rfl
@[simp] theorem State.setFn_objs (f : Nat) (h : HostFn) : (s.setFn f h).objs = s.objs := rfl
@[simp] theorem State.setFn_lens (f : Nat) (h : HostFn) : (s.setFn f h).lens = s.lens := rfl
@[simp] theorem State.setFn_mem (f : Nat) (h : HostFn) : (s.setFn f h).mem = s.mem := rfl
@[simp] theorem State.setFn_poison (f : Nat) (h : HostFn) : (s.setFn f h).poison = s.poison := rfl
@[simp] theorem State.setFn_reqs (f : Nat) (h : HostFn) : (s.setFn f h).reqs = s.reqs := rfl
@[simp] theorem State.setFn_nextReq (f : Nat) (h : HostFn) : (s.setFn f h).nextReq = s.nextReq := rfl
@[simp] theorem State.setFn_nextOrder (f : Nat) (h : HostFn) : (s.setFn f h).nextOrder = s.nextOrder := rfl
@[simp] theorem State.setFn_parts (f : Nat) (h : HostFn) : (s.setFn f h).parts = s.parts := rfl
@[simp] theorem State.setFn_rebinds (f : Nat) (h : HostFn) : (s.setFn f h).rebinds = s.rebinds := rfl
@[simp] theorem State.setFn_events (f : Nat) (h : HostFn) : (s.setFn f h).events = s.events := rfl
@[simp] theorem State.setFn_eventSeq (f : Nat) (h : HostFn) : (s.setFn f h).eventSeq = s.eventSeq := rfl
@[simp] theorem State.setFn_flog (f : Nat) (h : HostFn) : (s.setFn f h).flog = s.flog := rfl
@[simp] theorem State.setFn_flogWait (f : Nat) (h : HostFn) : (s.setFn f h).flogWait = s.flogWait := rfl
@[simp] theorem State.setFn_ports (f : Nat) (h : HostFn) : (s.setFn f h).ports = s.ports := rfl
@[simp] theorem State.setFn_sites (f : Nat) (h : HostFn) : (s.setFn f h).sites = s.sites := rfl
@[simp] theorem State.setFn_teDone (f : Nat) (h : HostFn) : (s.setFn f h).teDone = s.teDone := rfl
@[simp] theorem State.setFn_teCtx (f : Nat) (h : HostFn) : (s.setFn f h).teCtx = s.teCtx := rfl
@[simp] theorem State.setFn_retiring (f : Nat) (h : HostFn) : (s.setFn f h).retiring = s.retiring := rfl
@[simp] theorem State.setFn_walks (f : Nat) (h : HostFn) : (s.setFn f h).walks = s.walks := rfl
@[simp] theorem State.setFn_adopting (f : Nat) (h : HostFn) : (s.setFn f h).adopting = s.adopting := rfl
@[simp] theorem State.setFn_lift (f : Nat) (h : HostFn) : (s.setFn f h).lift = s.lift := rfl
@[simp] theorem State.setFn_rising (f : Nat) (h : HostFn) : (s.setFn f h).rising = s.rising := rfl
@[simp] theorem State.setFn_liftFirst (f : Nat) (h : HostFn) : (s.setFn f h).liftFirst = s.liftFirst := rfl
@[simp] theorem State.setFn_budget (f : Nat) (h : HostFn) : (s.setFn f h).budget = s.budget := rfl
@[simp] theorem State.setFn_capEv (f : Nat) (h : HostFn) : (s.setFn f h).capEv = s.capEv := rfl
@[simp] theorem State.setFn_liftWaited (f : Nat) (h : HostFn) : (s.setFn f h).liftWaited = s.liftWaited := rfl
@[simp] theorem State.setFn_clkPend (f : Nat) (h : HostFn) : (s.setFn f h).clkPend = s.clkPend := rfl
@[simp] theorem State.setFn_lapA (f : Nat) (h : HostFn) : (s.setFn f h).lapA = s.lapA := rfl
@[simp] theorem State.setFn_lapS (f : Nat) (h : HostFn) : (s.setFn f h).lapS = s.lapS := rfl
@[simp] theorem State.setFn_lapOp (f : Nat) (h : HostFn) : (s.setFn f h).lapOp = s.lapOp := rfl
@[simp] theorem State.setFn_lapCause (f : Nat) (h : HostFn) : (s.setFn f h).lapCause = s.lapCause := rfl
@[simp] theorem State.setFn_demoted (f : Nat) (h : HostFn) : (s.setFn f h).demoted = s.demoted := rfl
@[simp] theorem State.setFn_lapLoad (f : Nat) (h : HostFn) : (s.setFn f h).lapLoad = s.lapLoad := rfl
@[simp] theorem State.setFn_clks (f : Nat) (h : HostFn) : (s.setFn f h).clks = s.clks := rfl
@[simp] theorem State.setFn_clkReq (f : Nat) (h : HostFn) : (s.setFn f h).clkReq = s.clkReq := rfl
@[simp] theorem State.setFn_pcs (f : Nat) (h : HostFn) : (s.setFn f h).pcs = s.pcs := rfl
@[simp] theorem State.setFn_chans (f : Nat) (h : HostFn) : (s.setFn f h).chans = s.chans := rfl
@[simp] theorem State.setFn_rfm (f : Nat) (h : HostFn) : (s.setFn f h).rfm = s.rfm := rfl
@[simp] theorem State.setFn_buckets (f : Nat) (h : HostFn) : (s.setFn f h).buckets = s.buckets := rfl
@[simp] theorem State.setFn_served (f : Nat) (h : HostFn) : (s.setFn f h).served = s.served := rfl
@[simp] theorem State.setFn_missEv (f : Nat) (h : HostFn) : (s.setFn f h).missEv = s.missEv := rfl
@[simp] theorem State.setFn_linkQ (f : Nat) (h : HostFn) : (s.setFn f h).linkQ = s.linkQ := rfl
@[simp] theorem State.setFn_slices (f : Nat) (h : HostFn) : (s.setFn f h).slices = s.slices := rfl
@[simp] theorem State.setFn_launches (f : Nat) (h : HostFn) : (s.setFn f h).launches = s.launches := rfl
@[simp] theorem State.setFn_forwards (f : Nat) (h : HostFn) : (s.setFn f h).forwards = s.forwards := rfl
@[simp] theorem State.setFn_farLaunches (f : Nat) (h : HostFn) : (s.setFn f h).farLaunches = s.farLaunches := rfl
@[simp] theorem State.setFn_gsv (f : Nat) (h : HostFn) : (s.setFn f h).gsv = s.gsv := rfl
@[simp] theorem State.setFn_rings (f : Nat) (h : HostFn) : (s.setFn f h).rings = s.rings := rfl
@[simp] theorem State.setFn_sweeps (f : Nat) (h : HostFn) : (s.setFn f h).sweeps = s.sweeps := rfl
@[simp] theorem State.setFn_flows (f : Nat) (h : HostFn) : (s.setFn f h).flows = s.flows := rfl
@[simp] theorem State.setFn_force (f : Nat) (h : HostFn) : (s.setFn f h).force = s.force := rfl
@[simp] theorem State.setFn_inj (f : Nat) (h : HostFn) : (s.setFn f h).inj = s.inj := rfl
@[simp] theorem State.setFn_fsq (f : Nat) (h : HostFn) : (s.setFn f h).fsq = s.fsq := rfl
@[simp] theorem State.setFn_landing (f : Nat) (h : HostFn) : (s.setFn f h).landing = s.landing := rfl
@[simp] theorem State.setFn_flying (f : Nat) (h : HostFn) : (s.setFn f h).flying = s.flying := rfl
@[simp] theorem State.setFn_seamq (f : Nat) (h : HostFn) : (s.setFn f h).seamq = s.seamq := rfl
@[simp] theorem State.setFn_routeFails (f : Nat) (h : HostFn) : (s.setFn f h).routeFails = s.routeFails := rfl
@[simp] theorem State.setFn_lnks (f : Nat) (h : HostFn) : (s.setFn f h).lnks = s.lnks := rfl
@[simp] theorem State.setFn_routeHold (f : Nat) (h : HostFn) : (s.setFn f h).routeHold = s.routeHold := rfl
@[simp] theorem State.setFn_snapLink (f : Nat) (h : HostFn) : (s.setFn f h).snapLink = s.snapLink := rfl
@[simp] theorem State.setFn_linkTab (f : Nat) (h : HostFn) : (s.setFn f h).linkTab = s.linkTab := rfl
@[simp] theorem State.setFn_quarantine (f : Nat) (h : HostFn) : (s.setFn f h).quarantine = s.quarantine := rfl
@[simp] theorem State.setFn_odRun (f : Nat) (h : HostFn) : (s.setFn f h).odRun = s.odRun := rfl
@[simp] theorem State.setFn_odWait (f : Nat) (h : HostFn) : (s.setFn f h).odWait = s.odWait := rfl
@[simp] theorem State.setFn_backlog (f : Nat) (h : HostFn) : (s.setFn f h).backlog = s.backlog := rfl
@[simp] theorem State.setFn_staged (f : Nat) (h : HostFn) : (s.setFn f h).staged = s.staged := rfl
@[simp] theorem State.setFn_philKept (f : Nat) (h : HostFn) : (s.setFn f h).philKept = s.philKept := rfl
@[simp] theorem State.setFn_mram (f : Nat) (h : HostFn) : (s.setFn f h).mram = s.mram := rfl
@[simp] theorem State.setFn_boot (f : Nat) (h : HostFn) : (s.setFn f h).boot = s.boot := rfl

/-! ### `setReq` -/

@[simp] theorem State.setReq_variant (rid : Nat) (r : Req) : (s.setReq rid r).variant = s.variant := rfl
@[simp] theorem State.setReq_pending (rid : Nat) (r : Req) : (s.setReq rid r).pending = s.pending := rfl
@[simp] theorem State.setReq_out (rid : Nat) (r : Req) : (s.setReq rid r).out = s.out := rfl
@[simp] theorem State.setReq_freeCtr (rid : Nat) (r : Req) : (s.setReq rid r).freeCtr = s.freeCtr := rfl
@[simp] theorem State.setReq_gate (rid : Nat) (r : Req) : (s.setReq rid r).gate = s.gate := rfl
@[simp] theorem State.setReq_gateRun (rid : Nat) (r : Req) : (s.setReq rid r).gateRun = s.gateRun := rfl
@[simp] theorem State.setReq_objs (rid : Nat) (r : Req) : (s.setReq rid r).objs = s.objs := rfl
@[simp] theorem State.setReq_lens (rid : Nat) (r : Req) : (s.setReq rid r).lens = s.lens := rfl
@[simp] theorem State.setReq_mem (rid : Nat) (r : Req) : (s.setReq rid r).mem = s.mem := rfl
@[simp] theorem State.setReq_poison (rid : Nat) (r : Req) : (s.setReq rid r).poison = s.poison := rfl
@[simp] theorem State.setReq_nextReq (rid : Nat) (r : Req) : (s.setReq rid r).nextReq = s.nextReq := rfl
@[simp] theorem State.setReq_nextOrder (rid : Nat) (r : Req) : (s.setReq rid r).nextOrder = s.nextOrder := rfl
@[simp] theorem State.setReq_parts (rid : Nat) (r : Req) : (s.setReq rid r).parts = s.parts := rfl
@[simp] theorem State.setReq_rebinds (rid : Nat) (r : Req) : (s.setReq rid r).rebinds = s.rebinds := rfl
@[simp] theorem State.setReq_events (rid : Nat) (r : Req) : (s.setReq rid r).events = s.events := rfl
@[simp] theorem State.setReq_eventSeq (rid : Nat) (r : Req) : (s.setReq rid r).eventSeq = s.eventSeq := rfl
@[simp] theorem State.setReq_flog (rid : Nat) (r : Req) : (s.setReq rid r).flog = s.flog := rfl
@[simp] theorem State.setReq_flogWait (rid : Nat) (r : Req) : (s.setReq rid r).flogWait = s.flogWait := rfl
@[simp] theorem State.setReq_ports (rid : Nat) (r : Req) : (s.setReq rid r).ports = s.ports := rfl
@[simp] theorem State.setReq_sites (rid : Nat) (r : Req) : (s.setReq rid r).sites = s.sites := rfl
@[simp] theorem State.setReq_fns (rid : Nat) (r : Req) : (s.setReq rid r).fns = s.fns := rfl
@[simp] theorem State.setReq_teDone (rid : Nat) (r : Req) : (s.setReq rid r).teDone = s.teDone := rfl
@[simp] theorem State.setReq_teCtx (rid : Nat) (r : Req) : (s.setReq rid r).teCtx = s.teCtx := rfl
@[simp] theorem State.setReq_retiring (rid : Nat) (r : Req) : (s.setReq rid r).retiring = s.retiring := rfl
@[simp] theorem State.setReq_walks (rid : Nat) (r : Req) : (s.setReq rid r).walks = s.walks := rfl
@[simp] theorem State.setReq_adopting (rid : Nat) (r : Req) : (s.setReq rid r).adopting = s.adopting := rfl
@[simp] theorem State.setReq_lift (rid : Nat) (r : Req) : (s.setReq rid r).lift = s.lift := rfl
@[simp] theorem State.setReq_rising (rid : Nat) (r : Req) : (s.setReq rid r).rising = s.rising := rfl
@[simp] theorem State.setReq_liftFirst (rid : Nat) (r : Req) : (s.setReq rid r).liftFirst = s.liftFirst := rfl
@[simp] theorem State.setReq_budget (rid : Nat) (r : Req) : (s.setReq rid r).budget = s.budget := rfl
@[simp] theorem State.setReq_capEv (rid : Nat) (r : Req) : (s.setReq rid r).capEv = s.capEv := rfl
@[simp] theorem State.setReq_liftWaited (rid : Nat) (r : Req) : (s.setReq rid r).liftWaited = s.liftWaited := rfl
@[simp] theorem State.setReq_clkPend (rid : Nat) (r : Req) : (s.setReq rid r).clkPend = s.clkPend := rfl
@[simp] theorem State.setReq_lapA (rid : Nat) (r : Req) : (s.setReq rid r).lapA = s.lapA := rfl
@[simp] theorem State.setReq_lapS (rid : Nat) (r : Req) : (s.setReq rid r).lapS = s.lapS := rfl
@[simp] theorem State.setReq_lapOp (rid : Nat) (r : Req) : (s.setReq rid r).lapOp = s.lapOp := rfl
@[simp] theorem State.setReq_lapCause (rid : Nat) (r : Req) : (s.setReq rid r).lapCause = s.lapCause := rfl
@[simp] theorem State.setReq_demoted (rid : Nat) (r : Req) : (s.setReq rid r).demoted = s.demoted := rfl
@[simp] theorem State.setReq_lapLoad (rid : Nat) (r : Req) : (s.setReq rid r).lapLoad = s.lapLoad := rfl
@[simp] theorem State.setReq_clks (rid : Nat) (r : Req) : (s.setReq rid r).clks = s.clks := rfl
@[simp] theorem State.setReq_clkReq (rid : Nat) (r : Req) : (s.setReq rid r).clkReq = s.clkReq := rfl
@[simp] theorem State.setReq_pcs (rid : Nat) (r : Req) : (s.setReq rid r).pcs = s.pcs := rfl
@[simp] theorem State.setReq_chans (rid : Nat) (r : Req) : (s.setReq rid r).chans = s.chans := rfl
@[simp] theorem State.setReq_rfm (rid : Nat) (r : Req) : (s.setReq rid r).rfm = s.rfm := rfl
@[simp] theorem State.setReq_buckets (rid : Nat) (r : Req) : (s.setReq rid r).buckets = s.buckets := rfl
@[simp] theorem State.setReq_served (rid : Nat) (r : Req) : (s.setReq rid r).served = s.served := rfl
@[simp] theorem State.setReq_missEv (rid : Nat) (r : Req) : (s.setReq rid r).missEv = s.missEv := rfl
@[simp] theorem State.setReq_linkQ (rid : Nat) (r : Req) : (s.setReq rid r).linkQ = s.linkQ := rfl
@[simp] theorem State.setReq_slices (rid : Nat) (r : Req) : (s.setReq rid r).slices = s.slices := rfl
@[simp] theorem State.setReq_launches (rid : Nat) (r : Req) : (s.setReq rid r).launches = s.launches := rfl
@[simp] theorem State.setReq_forwards (rid : Nat) (r : Req) : (s.setReq rid r).forwards = s.forwards := rfl
@[simp] theorem State.setReq_farLaunches (rid : Nat) (r : Req) : (s.setReq rid r).farLaunches = s.farLaunches := rfl
@[simp] theorem State.setReq_gsv (rid : Nat) (r : Req) : (s.setReq rid r).gsv = s.gsv := rfl
@[simp] theorem State.setReq_rings (rid : Nat) (r : Req) : (s.setReq rid r).rings = s.rings := rfl
@[simp] theorem State.setReq_sweeps (rid : Nat) (r : Req) : (s.setReq rid r).sweeps = s.sweeps := rfl
@[simp] theorem State.setReq_flows (rid : Nat) (r : Req) : (s.setReq rid r).flows = s.flows := rfl
@[simp] theorem State.setReq_force (rid : Nat) (r : Req) : (s.setReq rid r).force = s.force := rfl
@[simp] theorem State.setReq_inj (rid : Nat) (r : Req) : (s.setReq rid r).inj = s.inj := rfl
@[simp] theorem State.setReq_fsq (rid : Nat) (r : Req) : (s.setReq rid r).fsq = s.fsq := rfl
@[simp] theorem State.setReq_landing (rid : Nat) (r : Req) : (s.setReq rid r).landing = s.landing := rfl
@[simp] theorem State.setReq_flying (rid : Nat) (r : Req) : (s.setReq rid r).flying = s.flying := rfl
@[simp] theorem State.setReq_seamq (rid : Nat) (r : Req) : (s.setReq rid r).seamq = s.seamq := rfl
@[simp] theorem State.setReq_routeFails (rid : Nat) (r : Req) : (s.setReq rid r).routeFails = s.routeFails := rfl
@[simp] theorem State.setReq_lnks (rid : Nat) (r : Req) : (s.setReq rid r).lnks = s.lnks := rfl
@[simp] theorem State.setReq_routeHold (rid : Nat) (r : Req) : (s.setReq rid r).routeHold = s.routeHold := rfl
@[simp] theorem State.setReq_snapLink (rid : Nat) (r : Req) : (s.setReq rid r).snapLink = s.snapLink := rfl
@[simp] theorem State.setReq_linkTab (rid : Nat) (r : Req) : (s.setReq rid r).linkTab = s.linkTab := rfl
@[simp] theorem State.setReq_quarantine (rid : Nat) (r : Req) : (s.setReq rid r).quarantine = s.quarantine := rfl
@[simp] theorem State.setReq_odRun (rid : Nat) (r : Req) : (s.setReq rid r).odRun = s.odRun := rfl
@[simp] theorem State.setReq_odWait (rid : Nat) (r : Req) : (s.setReq rid r).odWait = s.odWait := rfl
@[simp] theorem State.setReq_backlog (rid : Nat) (r : Req) : (s.setReq rid r).backlog = s.backlog := rfl
@[simp] theorem State.setReq_staged (rid : Nat) (r : Req) : (s.setReq rid r).staged = s.staged := rfl
@[simp] theorem State.setReq_philKept (rid : Nat) (r : Req) : (s.setReq rid r).philKept = s.philKept := rfl
@[simp] theorem State.setReq_mram (rid : Nat) (r : Req) : (s.setReq rid r).mram = s.mram := rfl
@[simp] theorem State.setReq_boot (rid : Nat) (r : Req) : (s.setReq rid r).boot = s.boot := rfl

/-! ### `delReq` -/

@[simp] theorem State.delReq_variant (rid : Nat) : (s.delReq rid).variant = s.variant := rfl
@[simp] theorem State.delReq_pending (rid : Nat) : (s.delReq rid).pending = s.pending := rfl
@[simp] theorem State.delReq_out (rid : Nat) : (s.delReq rid).out = s.out := rfl
@[simp] theorem State.delReq_freeCtr (rid : Nat) : (s.delReq rid).freeCtr = s.freeCtr := rfl
@[simp] theorem State.delReq_gate (rid : Nat) : (s.delReq rid).gate = s.gate := rfl
@[simp] theorem State.delReq_gateRun (rid : Nat) : (s.delReq rid).gateRun = s.gateRun := rfl
@[simp] theorem State.delReq_objs (rid : Nat) : (s.delReq rid).objs = s.objs := rfl
@[simp] theorem State.delReq_lens (rid : Nat) : (s.delReq rid).lens = s.lens := rfl
@[simp] theorem State.delReq_mem (rid : Nat) : (s.delReq rid).mem = s.mem := rfl
@[simp] theorem State.delReq_poison (rid : Nat) : (s.delReq rid).poison = s.poison := rfl
@[simp] theorem State.delReq_nextReq (rid : Nat) : (s.delReq rid).nextReq = s.nextReq := rfl
@[simp] theorem State.delReq_nextOrder (rid : Nat) : (s.delReq rid).nextOrder = s.nextOrder := rfl
@[simp] theorem State.delReq_parts (rid : Nat) : (s.delReq rid).parts = s.parts := rfl
@[simp] theorem State.delReq_rebinds (rid : Nat) : (s.delReq rid).rebinds = s.rebinds := rfl
@[simp] theorem State.delReq_events (rid : Nat) : (s.delReq rid).events = s.events := rfl
@[simp] theorem State.delReq_eventSeq (rid : Nat) : (s.delReq rid).eventSeq = s.eventSeq := rfl
@[simp] theorem State.delReq_flog (rid : Nat) : (s.delReq rid).flog = s.flog := rfl
@[simp] theorem State.delReq_flogWait (rid : Nat) : (s.delReq rid).flogWait = s.flogWait := rfl
@[simp] theorem State.delReq_ports (rid : Nat) : (s.delReq rid).ports = s.ports := rfl
@[simp] theorem State.delReq_sites (rid : Nat) : (s.delReq rid).sites = s.sites := rfl
@[simp] theorem State.delReq_fns (rid : Nat) : (s.delReq rid).fns = s.fns := rfl
@[simp] theorem State.delReq_teDone (rid : Nat) : (s.delReq rid).teDone = s.teDone := rfl
@[simp] theorem State.delReq_teCtx (rid : Nat) : (s.delReq rid).teCtx = s.teCtx := rfl
@[simp] theorem State.delReq_retiring (rid : Nat) : (s.delReq rid).retiring = s.retiring := rfl
@[simp] theorem State.delReq_walks (rid : Nat) : (s.delReq rid).walks = s.walks := rfl
@[simp] theorem State.delReq_adopting (rid : Nat) : (s.delReq rid).adopting = s.adopting := rfl
@[simp] theorem State.delReq_lift (rid : Nat) : (s.delReq rid).lift = s.lift := rfl
@[simp] theorem State.delReq_rising (rid : Nat) : (s.delReq rid).rising = s.rising := rfl
@[simp] theorem State.delReq_liftFirst (rid : Nat) : (s.delReq rid).liftFirst = s.liftFirst := rfl
@[simp] theorem State.delReq_budget (rid : Nat) : (s.delReq rid).budget = s.budget := rfl
@[simp] theorem State.delReq_capEv (rid : Nat) : (s.delReq rid).capEv = s.capEv := rfl
@[simp] theorem State.delReq_liftWaited (rid : Nat) : (s.delReq rid).liftWaited = s.liftWaited := rfl
@[simp] theorem State.delReq_clkPend (rid : Nat) : (s.delReq rid).clkPend = s.clkPend := rfl
@[simp] theorem State.delReq_lapA (rid : Nat) : (s.delReq rid).lapA = s.lapA := rfl
@[simp] theorem State.delReq_lapS (rid : Nat) : (s.delReq rid).lapS = s.lapS := rfl
@[simp] theorem State.delReq_lapOp (rid : Nat) : (s.delReq rid).lapOp = s.lapOp := rfl
@[simp] theorem State.delReq_lapCause (rid : Nat) : (s.delReq rid).lapCause = s.lapCause := rfl
@[simp] theorem State.delReq_demoted (rid : Nat) : (s.delReq rid).demoted = s.demoted := rfl
@[simp] theorem State.delReq_lapLoad (rid : Nat) : (s.delReq rid).lapLoad = s.lapLoad := rfl
@[simp] theorem State.delReq_clks (rid : Nat) : (s.delReq rid).clks = s.clks := rfl
@[simp] theorem State.delReq_clkReq (rid : Nat) : (s.delReq rid).clkReq = s.clkReq := rfl
@[simp] theorem State.delReq_pcs (rid : Nat) : (s.delReq rid).pcs = s.pcs := rfl
@[simp] theorem State.delReq_chans (rid : Nat) : (s.delReq rid).chans = s.chans := rfl
@[simp] theorem State.delReq_rfm (rid : Nat) : (s.delReq rid).rfm = s.rfm := rfl
@[simp] theorem State.delReq_buckets (rid : Nat) : (s.delReq rid).buckets = s.buckets := rfl
@[simp] theorem State.delReq_served (rid : Nat) : (s.delReq rid).served = s.served := rfl
@[simp] theorem State.delReq_missEv (rid : Nat) : (s.delReq rid).missEv = s.missEv := rfl
@[simp] theorem State.delReq_linkQ (rid : Nat) : (s.delReq rid).linkQ = s.linkQ := rfl
@[simp] theorem State.delReq_slices (rid : Nat) : (s.delReq rid).slices = s.slices := rfl
@[simp] theorem State.delReq_launches (rid : Nat) : (s.delReq rid).launches = s.launches := rfl
@[simp] theorem State.delReq_forwards (rid : Nat) : (s.delReq rid).forwards = s.forwards := rfl
@[simp] theorem State.delReq_farLaunches (rid : Nat) : (s.delReq rid).farLaunches = s.farLaunches := rfl
@[simp] theorem State.delReq_gsv (rid : Nat) : (s.delReq rid).gsv = s.gsv := rfl
@[simp] theorem State.delReq_rings (rid : Nat) : (s.delReq rid).rings = s.rings := rfl
@[simp] theorem State.delReq_sweeps (rid : Nat) : (s.delReq rid).sweeps = s.sweeps := rfl
@[simp] theorem State.delReq_flows (rid : Nat) : (s.delReq rid).flows = s.flows := rfl
@[simp] theorem State.delReq_force (rid : Nat) : (s.delReq rid).force = s.force := rfl
@[simp] theorem State.delReq_inj (rid : Nat) : (s.delReq rid).inj = s.inj := rfl
@[simp] theorem State.delReq_fsq (rid : Nat) : (s.delReq rid).fsq = s.fsq := rfl
@[simp] theorem State.delReq_landing (rid : Nat) : (s.delReq rid).landing = s.landing := rfl
@[simp] theorem State.delReq_flying (rid : Nat) : (s.delReq rid).flying = s.flying := rfl
@[simp] theorem State.delReq_seamq (rid : Nat) : (s.delReq rid).seamq = s.seamq := rfl
@[simp] theorem State.delReq_routeFails (rid : Nat) : (s.delReq rid).routeFails = s.routeFails := rfl
@[simp] theorem State.delReq_lnks (rid : Nat) : (s.delReq rid).lnks = s.lnks := rfl
@[simp] theorem State.delReq_routeHold (rid : Nat) : (s.delReq rid).routeHold = s.routeHold := rfl
@[simp] theorem State.delReq_snapLink (rid : Nat) : (s.delReq rid).snapLink = s.snapLink := rfl
@[simp] theorem State.delReq_linkTab (rid : Nat) : (s.delReq rid).linkTab = s.linkTab := rfl
@[simp] theorem State.delReq_quarantine (rid : Nat) : (s.delReq rid).quarantine = s.quarantine := rfl
@[simp] theorem State.delReq_odRun (rid : Nat) : (s.delReq rid).odRun = s.odRun := rfl
@[simp] theorem State.delReq_odWait (rid : Nat) : (s.delReq rid).odWait = s.odWait := rfl
@[simp] theorem State.delReq_backlog (rid : Nat) : (s.delReq rid).backlog = s.backlog := rfl
@[simp] theorem State.delReq_staged (rid : Nat) : (s.delReq rid).staged = s.staged := rfl
@[simp] theorem State.delReq_philKept (rid : Nat) : (s.delReq rid).philKept = s.philKept := rfl
@[simp] theorem State.delReq_mram (rid : Nat) : (s.delReq rid).mram = s.mram := rfl
@[simp] theorem State.delReq_boot (rid : Nat) : (s.delReq rid).boot = s.boot := rfl

/-! ### `setPort` -/

@[simp] theorem State.setPort_variant (i : Nat) (p : Port) : (s.setPort i p).variant = s.variant := rfl
@[simp] theorem State.setPort_pending (i : Nat) (p : Port) : (s.setPort i p).pending = s.pending := rfl
@[simp] theorem State.setPort_out (i : Nat) (p : Port) : (s.setPort i p).out = s.out := rfl
@[simp] theorem State.setPort_freeCtr (i : Nat) (p : Port) : (s.setPort i p).freeCtr = s.freeCtr := rfl
@[simp] theorem State.setPort_gate (i : Nat) (p : Port) : (s.setPort i p).gate = s.gate := rfl
@[simp] theorem State.setPort_gateRun (i : Nat) (p : Port) : (s.setPort i p).gateRun = s.gateRun := rfl
@[simp] theorem State.setPort_objs (i : Nat) (p : Port) : (s.setPort i p).objs = s.objs := rfl
@[simp] theorem State.setPort_lens (i : Nat) (p : Port) : (s.setPort i p).lens = s.lens := rfl
@[simp] theorem State.setPort_mem (i : Nat) (p : Port) : (s.setPort i p).mem = s.mem := rfl
@[simp] theorem State.setPort_poison (i : Nat) (p : Port) : (s.setPort i p).poison = s.poison := rfl
@[simp] theorem State.setPort_reqs (i : Nat) (p : Port) : (s.setPort i p).reqs = s.reqs := rfl
@[simp] theorem State.setPort_nextReq (i : Nat) (p : Port) : (s.setPort i p).nextReq = s.nextReq := rfl
@[simp] theorem State.setPort_nextOrder (i : Nat) (p : Port) : (s.setPort i p).nextOrder = s.nextOrder := rfl
@[simp] theorem State.setPort_parts (i : Nat) (p : Port) : (s.setPort i p).parts = s.parts := rfl
@[simp] theorem State.setPort_rebinds (i : Nat) (p : Port) : (s.setPort i p).rebinds = s.rebinds := rfl
@[simp] theorem State.setPort_events (i : Nat) (p : Port) : (s.setPort i p).events = s.events := rfl
@[simp] theorem State.setPort_eventSeq (i : Nat) (p : Port) : (s.setPort i p).eventSeq = s.eventSeq := rfl
@[simp] theorem State.setPort_flog (i : Nat) (p : Port) : (s.setPort i p).flog = s.flog := rfl
@[simp] theorem State.setPort_flogWait (i : Nat) (p : Port) : (s.setPort i p).flogWait = s.flogWait := rfl
@[simp] theorem State.setPort_sites (i : Nat) (p : Port) : (s.setPort i p).sites = s.sites := rfl
@[simp] theorem State.setPort_fns (i : Nat) (p : Port) : (s.setPort i p).fns = s.fns := rfl
@[simp] theorem State.setPort_teDone (i : Nat) (p : Port) : (s.setPort i p).teDone = s.teDone := rfl
@[simp] theorem State.setPort_teCtx (i : Nat) (p : Port) : (s.setPort i p).teCtx = s.teCtx := rfl
@[simp] theorem State.setPort_retiring (i : Nat) (p : Port) : (s.setPort i p).retiring = s.retiring := rfl
@[simp] theorem State.setPort_walks (i : Nat) (p : Port) : (s.setPort i p).walks = s.walks := rfl
@[simp] theorem State.setPort_adopting (i : Nat) (p : Port) : (s.setPort i p).adopting = s.adopting := rfl
@[simp] theorem State.setPort_lift (i : Nat) (p : Port) : (s.setPort i p).lift = s.lift := rfl
@[simp] theorem State.setPort_rising (i : Nat) (p : Port) : (s.setPort i p).rising = s.rising := rfl
@[simp] theorem State.setPort_liftFirst (i : Nat) (p : Port) : (s.setPort i p).liftFirst = s.liftFirst := rfl
@[simp] theorem State.setPort_budget (i : Nat) (p : Port) : (s.setPort i p).budget = s.budget := rfl
@[simp] theorem State.setPort_capEv (i : Nat) (p : Port) : (s.setPort i p).capEv = s.capEv := rfl
@[simp] theorem State.setPort_liftWaited (i : Nat) (p : Port) : (s.setPort i p).liftWaited = s.liftWaited := rfl
@[simp] theorem State.setPort_clkPend (i : Nat) (p : Port) : (s.setPort i p).clkPend = s.clkPend := rfl
@[simp] theorem State.setPort_lapA (i : Nat) (p : Port) : (s.setPort i p).lapA = s.lapA := rfl
@[simp] theorem State.setPort_lapS (i : Nat) (p : Port) : (s.setPort i p).lapS = s.lapS := rfl
@[simp] theorem State.setPort_lapOp (i : Nat) (p : Port) : (s.setPort i p).lapOp = s.lapOp := rfl
@[simp] theorem State.setPort_lapCause (i : Nat) (p : Port) : (s.setPort i p).lapCause = s.lapCause := rfl
@[simp] theorem State.setPort_demoted (i : Nat) (p : Port) : (s.setPort i p).demoted = s.demoted := rfl
@[simp] theorem State.setPort_lapLoad (i : Nat) (p : Port) : (s.setPort i p).lapLoad = s.lapLoad := rfl
@[simp] theorem State.setPort_clks (i : Nat) (p : Port) : (s.setPort i p).clks = s.clks := rfl
@[simp] theorem State.setPort_clkReq (i : Nat) (p : Port) : (s.setPort i p).clkReq = s.clkReq := rfl
@[simp] theorem State.setPort_pcs (i : Nat) (p : Port) : (s.setPort i p).pcs = s.pcs := rfl
@[simp] theorem State.setPort_chans (i : Nat) (p : Port) : (s.setPort i p).chans = s.chans := rfl
@[simp] theorem State.setPort_rfm (i : Nat) (p : Port) : (s.setPort i p).rfm = s.rfm := rfl
@[simp] theorem State.setPort_buckets (i : Nat) (p : Port) : (s.setPort i p).buckets = s.buckets := rfl
@[simp] theorem State.setPort_served (i : Nat) (p : Port) : (s.setPort i p).served = s.served := rfl
@[simp] theorem State.setPort_missEv (i : Nat) (p : Port) : (s.setPort i p).missEv = s.missEv := rfl
@[simp] theorem State.setPort_linkQ (i : Nat) (p : Port) : (s.setPort i p).linkQ = s.linkQ := rfl
@[simp] theorem State.setPort_slices (i : Nat) (p : Port) : (s.setPort i p).slices = s.slices := rfl
@[simp] theorem State.setPort_launches (i : Nat) (p : Port) : (s.setPort i p).launches = s.launches := rfl
@[simp] theorem State.setPort_forwards (i : Nat) (p : Port) : (s.setPort i p).forwards = s.forwards := rfl
@[simp] theorem State.setPort_farLaunches (i : Nat) (p : Port) : (s.setPort i p).farLaunches = s.farLaunches := rfl
@[simp] theorem State.setPort_gsv (i : Nat) (p : Port) : (s.setPort i p).gsv = s.gsv := rfl
@[simp] theorem State.setPort_rings (i : Nat) (p : Port) : (s.setPort i p).rings = s.rings := rfl
@[simp] theorem State.setPort_sweeps (i : Nat) (p : Port) : (s.setPort i p).sweeps = s.sweeps := rfl
@[simp] theorem State.setPort_flows (i : Nat) (p : Port) : (s.setPort i p).flows = s.flows := rfl
@[simp] theorem State.setPort_force (i : Nat) (p : Port) : (s.setPort i p).force = s.force := rfl
@[simp] theorem State.setPort_inj (i : Nat) (p : Port) : (s.setPort i p).inj = s.inj := rfl
@[simp] theorem State.setPort_fsq (i : Nat) (p : Port) : (s.setPort i p).fsq = s.fsq := rfl
@[simp] theorem State.setPort_landing (i : Nat) (p : Port) : (s.setPort i p).landing = s.landing := rfl
@[simp] theorem State.setPort_flying (i : Nat) (p : Port) : (s.setPort i p).flying = s.flying := rfl
@[simp] theorem State.setPort_seamq (i : Nat) (p : Port) : (s.setPort i p).seamq = s.seamq := rfl
@[simp] theorem State.setPort_routeFails (i : Nat) (p : Port) : (s.setPort i p).routeFails = s.routeFails := rfl
@[simp] theorem State.setPort_lnks (i : Nat) (p : Port) : (s.setPort i p).lnks = s.lnks := rfl
@[simp] theorem State.setPort_routeHold (i : Nat) (p : Port) : (s.setPort i p).routeHold = s.routeHold := rfl
@[simp] theorem State.setPort_snapLink (i : Nat) (p : Port) : (s.setPort i p).snapLink = s.snapLink := rfl
@[simp] theorem State.setPort_linkTab (i : Nat) (p : Port) : (s.setPort i p).linkTab = s.linkTab := rfl
@[simp] theorem State.setPort_quarantine (i : Nat) (p : Port) : (s.setPort i p).quarantine = s.quarantine := rfl
@[simp] theorem State.setPort_odRun (i : Nat) (p : Port) : (s.setPort i p).odRun = s.odRun := rfl
@[simp] theorem State.setPort_odWait (i : Nat) (p : Port) : (s.setPort i p).odWait = s.odWait := rfl
@[simp] theorem State.setPort_backlog (i : Nat) (p : Port) : (s.setPort i p).backlog = s.backlog := rfl
@[simp] theorem State.setPort_staged (i : Nat) (p : Port) : (s.setPort i p).staged = s.staged := rfl
@[simp] theorem State.setPort_philKept (i : Nat) (p : Port) : (s.setPort i p).philKept = s.philKept := rfl
@[simp] theorem State.setPort_mram (i : Nat) (p : Port) : (s.setPort i p).mram = s.mram := rfl
@[simp] theorem State.setPort_boot (i : Nat) (p : Port) : (s.setPort i p).boot = s.boot := rfl

/-! ### `setSite` -/

@[simp] theorem State.setSite_variant (n : Nat) (x : Site) : (s.setSite n x).variant = s.variant := rfl
@[simp] theorem State.setSite_pending (n : Nat) (x : Site) : (s.setSite n x).pending = s.pending := rfl
@[simp] theorem State.setSite_out (n : Nat) (x : Site) : (s.setSite n x).out = s.out := rfl
@[simp] theorem State.setSite_freeCtr (n : Nat) (x : Site) : (s.setSite n x).freeCtr = s.freeCtr := rfl
@[simp] theorem State.setSite_gate (n : Nat) (x : Site) : (s.setSite n x).gate = s.gate := rfl
@[simp] theorem State.setSite_gateRun (n : Nat) (x : Site) : (s.setSite n x).gateRun = s.gateRun := rfl
@[simp] theorem State.setSite_objs (n : Nat) (x : Site) : (s.setSite n x).objs = s.objs := rfl
@[simp] theorem State.setSite_lens (n : Nat) (x : Site) : (s.setSite n x).lens = s.lens := rfl
@[simp] theorem State.setSite_mem (n : Nat) (x : Site) : (s.setSite n x).mem = s.mem := rfl
@[simp] theorem State.setSite_poison (n : Nat) (x : Site) : (s.setSite n x).poison = s.poison := rfl
@[simp] theorem State.setSite_reqs (n : Nat) (x : Site) : (s.setSite n x).reqs = s.reqs := rfl
@[simp] theorem State.setSite_nextReq (n : Nat) (x : Site) : (s.setSite n x).nextReq = s.nextReq := rfl
@[simp] theorem State.setSite_nextOrder (n : Nat) (x : Site) : (s.setSite n x).nextOrder = s.nextOrder := rfl
@[simp] theorem State.setSite_parts (n : Nat) (x : Site) : (s.setSite n x).parts = s.parts := rfl
@[simp] theorem State.setSite_rebinds (n : Nat) (x : Site) : (s.setSite n x).rebinds = s.rebinds := rfl
@[simp] theorem State.setSite_events (n : Nat) (x : Site) : (s.setSite n x).events = s.events := rfl
@[simp] theorem State.setSite_eventSeq (n : Nat) (x : Site) : (s.setSite n x).eventSeq = s.eventSeq := rfl
@[simp] theorem State.setSite_flog (n : Nat) (x : Site) : (s.setSite n x).flog = s.flog := rfl
@[simp] theorem State.setSite_flogWait (n : Nat) (x : Site) : (s.setSite n x).flogWait = s.flogWait := rfl
@[simp] theorem State.setSite_ports (n : Nat) (x : Site) : (s.setSite n x).ports = s.ports := rfl
@[simp] theorem State.setSite_fns (n : Nat) (x : Site) : (s.setSite n x).fns = s.fns := rfl
@[simp] theorem State.setSite_teDone (n : Nat) (x : Site) : (s.setSite n x).teDone = s.teDone := rfl
@[simp] theorem State.setSite_teCtx (n : Nat) (x : Site) : (s.setSite n x).teCtx = s.teCtx := rfl
@[simp] theorem State.setSite_retiring (n : Nat) (x : Site) : (s.setSite n x).retiring = s.retiring := rfl
@[simp] theorem State.setSite_walks (n : Nat) (x : Site) : (s.setSite n x).walks = s.walks := rfl
@[simp] theorem State.setSite_adopting (n : Nat) (x : Site) : (s.setSite n x).adopting = s.adopting := rfl
@[simp] theorem State.setSite_lift (n : Nat) (x : Site) : (s.setSite n x).lift = s.lift := rfl
@[simp] theorem State.setSite_rising (n : Nat) (x : Site) : (s.setSite n x).rising = s.rising := rfl
@[simp] theorem State.setSite_liftFirst (n : Nat) (x : Site) : (s.setSite n x).liftFirst = s.liftFirst := rfl
@[simp] theorem State.setSite_budget (n : Nat) (x : Site) : (s.setSite n x).budget = s.budget := rfl
@[simp] theorem State.setSite_capEv (n : Nat) (x : Site) : (s.setSite n x).capEv = s.capEv := rfl
@[simp] theorem State.setSite_liftWaited (n : Nat) (x : Site) : (s.setSite n x).liftWaited = s.liftWaited := rfl
@[simp] theorem State.setSite_clkPend (n : Nat) (x : Site) : (s.setSite n x).clkPend = s.clkPend := rfl
@[simp] theorem State.setSite_lapA (n : Nat) (x : Site) : (s.setSite n x).lapA = s.lapA := rfl
@[simp] theorem State.setSite_lapS (n : Nat) (x : Site) : (s.setSite n x).lapS = s.lapS := rfl
@[simp] theorem State.setSite_lapOp (n : Nat) (x : Site) : (s.setSite n x).lapOp = s.lapOp := rfl
@[simp] theorem State.setSite_lapCause (n : Nat) (x : Site) : (s.setSite n x).lapCause = s.lapCause := rfl
@[simp] theorem State.setSite_demoted (n : Nat) (x : Site) : (s.setSite n x).demoted = s.demoted := rfl
@[simp] theorem State.setSite_lapLoad (n : Nat) (x : Site) : (s.setSite n x).lapLoad = s.lapLoad := rfl
@[simp] theorem State.setSite_clks (n : Nat) (x : Site) : (s.setSite n x).clks = s.clks := rfl
@[simp] theorem State.setSite_clkReq (n : Nat) (x : Site) : (s.setSite n x).clkReq = s.clkReq := rfl
@[simp] theorem State.setSite_pcs (n : Nat) (x : Site) : (s.setSite n x).pcs = s.pcs := rfl
@[simp] theorem State.setSite_chans (n : Nat) (x : Site) : (s.setSite n x).chans = s.chans := rfl
@[simp] theorem State.setSite_rfm (n : Nat) (x : Site) : (s.setSite n x).rfm = s.rfm := rfl
@[simp] theorem State.setSite_buckets (n : Nat) (x : Site) : (s.setSite n x).buckets = s.buckets := rfl
@[simp] theorem State.setSite_served (n : Nat) (x : Site) : (s.setSite n x).served = s.served := rfl
@[simp] theorem State.setSite_missEv (n : Nat) (x : Site) : (s.setSite n x).missEv = s.missEv := rfl
@[simp] theorem State.setSite_linkQ (n : Nat) (x : Site) : (s.setSite n x).linkQ = s.linkQ := rfl
@[simp] theorem State.setSite_slices (n : Nat) (x : Site) : (s.setSite n x).slices = s.slices := rfl
@[simp] theorem State.setSite_launches (n : Nat) (x : Site) : (s.setSite n x).launches = s.launches := rfl
@[simp] theorem State.setSite_forwards (n : Nat) (x : Site) : (s.setSite n x).forwards = s.forwards := rfl
@[simp] theorem State.setSite_farLaunches (n : Nat) (x : Site) : (s.setSite n x).farLaunches = s.farLaunches := rfl
@[simp] theorem State.setSite_gsv (n : Nat) (x : Site) : (s.setSite n x).gsv = s.gsv := rfl
@[simp] theorem State.setSite_rings (n : Nat) (x : Site) : (s.setSite n x).rings = s.rings := rfl
@[simp] theorem State.setSite_sweeps (n : Nat) (x : Site) : (s.setSite n x).sweeps = s.sweeps := rfl
@[simp] theorem State.setSite_flows (n : Nat) (x : Site) : (s.setSite n x).flows = s.flows := rfl
@[simp] theorem State.setSite_force (n : Nat) (x : Site) : (s.setSite n x).force = s.force := rfl
@[simp] theorem State.setSite_inj (n : Nat) (x : Site) : (s.setSite n x).inj = s.inj := rfl
@[simp] theorem State.setSite_fsq (n : Nat) (x : Site) : (s.setSite n x).fsq = s.fsq := rfl
@[simp] theorem State.setSite_landing (n : Nat) (x : Site) : (s.setSite n x).landing = s.landing := rfl
@[simp] theorem State.setSite_flying (n : Nat) (x : Site) : (s.setSite n x).flying = s.flying := rfl
@[simp] theorem State.setSite_seamq (n : Nat) (x : Site) : (s.setSite n x).seamq = s.seamq := rfl
@[simp] theorem State.setSite_routeFails (n : Nat) (x : Site) : (s.setSite n x).routeFails = s.routeFails := rfl
@[simp] theorem State.setSite_lnks (n : Nat) (x : Site) : (s.setSite n x).lnks = s.lnks := rfl
@[simp] theorem State.setSite_routeHold (n : Nat) (x : Site) : (s.setSite n x).routeHold = s.routeHold := rfl
@[simp] theorem State.setSite_snapLink (n : Nat) (x : Site) : (s.setSite n x).snapLink = s.snapLink := rfl
@[simp] theorem State.setSite_linkTab (n : Nat) (x : Site) : (s.setSite n x).linkTab = s.linkTab := rfl
@[simp] theorem State.setSite_quarantine (n : Nat) (x : Site) : (s.setSite n x).quarantine = s.quarantine := rfl
@[simp] theorem State.setSite_odRun (n : Nat) (x : Site) : (s.setSite n x).odRun = s.odRun := rfl
@[simp] theorem State.setSite_odWait (n : Nat) (x : Site) : (s.setSite n x).odWait = s.odWait := rfl
@[simp] theorem State.setSite_backlog (n : Nat) (x : Site) : (s.setSite n x).backlog = s.backlog := rfl
@[simp] theorem State.setSite_staged (n : Nat) (x : Site) : (s.setSite n x).staged = s.staged := rfl
@[simp] theorem State.setSite_philKept (n : Nat) (x : Site) : (s.setSite n x).philKept = s.philKept := rfl
@[simp] theorem State.setSite_mram (n : Nat) (x : Site) : (s.setSite n x).mram = s.mram := rfl
@[simp] theorem State.setSite_boot (n : Nat) (x : Site) : (s.setSite n x).boot = s.boot := rfl

/-! ### `setPart` -/

@[simp] theorem State.setPart_variant (p : Nat) (x : Part) : (s.setPart p x).variant = s.variant := rfl
@[simp] theorem State.setPart_pending (p : Nat) (x : Part) : (s.setPart p x).pending = s.pending := rfl
@[simp] theorem State.setPart_out (p : Nat) (x : Part) : (s.setPart p x).out = s.out := rfl
@[simp] theorem State.setPart_freeCtr (p : Nat) (x : Part) : (s.setPart p x).freeCtr = s.freeCtr := rfl
@[simp] theorem State.setPart_gate (p : Nat) (x : Part) : (s.setPart p x).gate = s.gate := rfl
@[simp] theorem State.setPart_gateRun (p : Nat) (x : Part) : (s.setPart p x).gateRun = s.gateRun := rfl
@[simp] theorem State.setPart_objs (p : Nat) (x : Part) : (s.setPart p x).objs = s.objs := rfl
@[simp] theorem State.setPart_lens (p : Nat) (x : Part) : (s.setPart p x).lens = s.lens := rfl
@[simp] theorem State.setPart_mem (p : Nat) (x : Part) : (s.setPart p x).mem = s.mem := rfl
@[simp] theorem State.setPart_poison (p : Nat) (x : Part) : (s.setPart p x).poison = s.poison := rfl
@[simp] theorem State.setPart_reqs (p : Nat) (x : Part) : (s.setPart p x).reqs = s.reqs := rfl
@[simp] theorem State.setPart_nextReq (p : Nat) (x : Part) : (s.setPart p x).nextReq = s.nextReq := rfl
@[simp] theorem State.setPart_nextOrder (p : Nat) (x : Part) : (s.setPart p x).nextOrder = s.nextOrder := rfl
@[simp] theorem State.setPart_rebinds (p : Nat) (x : Part) : (s.setPart p x).rebinds = s.rebinds := rfl
@[simp] theorem State.setPart_events (p : Nat) (x : Part) : (s.setPart p x).events = s.events := rfl
@[simp] theorem State.setPart_eventSeq (p : Nat) (x : Part) : (s.setPart p x).eventSeq = s.eventSeq := rfl
@[simp] theorem State.setPart_flog (p : Nat) (x : Part) : (s.setPart p x).flog = s.flog := rfl
@[simp] theorem State.setPart_flogWait (p : Nat) (x : Part) : (s.setPart p x).flogWait = s.flogWait := rfl
@[simp] theorem State.setPart_ports (p : Nat) (x : Part) : (s.setPart p x).ports = s.ports := rfl
@[simp] theorem State.setPart_sites (p : Nat) (x : Part) : (s.setPart p x).sites = s.sites := rfl
@[simp] theorem State.setPart_fns (p : Nat) (x : Part) : (s.setPart p x).fns = s.fns := rfl
@[simp] theorem State.setPart_teDone (p : Nat) (x : Part) : (s.setPart p x).teDone = s.teDone := rfl
@[simp] theorem State.setPart_teCtx (p : Nat) (x : Part) : (s.setPart p x).teCtx = s.teCtx := rfl
@[simp] theorem State.setPart_retiring (p : Nat) (x : Part) : (s.setPart p x).retiring = s.retiring := rfl
@[simp] theorem State.setPart_walks (p : Nat) (x : Part) : (s.setPart p x).walks = s.walks := rfl
@[simp] theorem State.setPart_adopting (p : Nat) (x : Part) : (s.setPart p x).adopting = s.adopting := rfl
@[simp] theorem State.setPart_lift (p : Nat) (x : Part) : (s.setPart p x).lift = s.lift := rfl
@[simp] theorem State.setPart_rising (p : Nat) (x : Part) : (s.setPart p x).rising = s.rising := rfl
@[simp] theorem State.setPart_liftFirst (p : Nat) (x : Part) : (s.setPart p x).liftFirst = s.liftFirst := rfl
@[simp] theorem State.setPart_budget (p : Nat) (x : Part) : (s.setPart p x).budget = s.budget := rfl
@[simp] theorem State.setPart_capEv (p : Nat) (x : Part) : (s.setPart p x).capEv = s.capEv := rfl
@[simp] theorem State.setPart_liftWaited (p : Nat) (x : Part) : (s.setPart p x).liftWaited = s.liftWaited := rfl
@[simp] theorem State.setPart_clkPend (p : Nat) (x : Part) : (s.setPart p x).clkPend = s.clkPend := rfl
@[simp] theorem State.setPart_lapA (p : Nat) (x : Part) : (s.setPart p x).lapA = s.lapA := rfl
@[simp] theorem State.setPart_lapS (p : Nat) (x : Part) : (s.setPart p x).lapS = s.lapS := rfl
@[simp] theorem State.setPart_lapOp (p : Nat) (x : Part) : (s.setPart p x).lapOp = s.lapOp := rfl
@[simp] theorem State.setPart_lapCause (p : Nat) (x : Part) : (s.setPart p x).lapCause = s.lapCause := rfl
@[simp] theorem State.setPart_demoted (p : Nat) (x : Part) : (s.setPart p x).demoted = s.demoted := rfl
@[simp] theorem State.setPart_lapLoad (p : Nat) (x : Part) : (s.setPart p x).lapLoad = s.lapLoad := rfl
@[simp] theorem State.setPart_clks (p : Nat) (x : Part) : (s.setPart p x).clks = s.clks := rfl
@[simp] theorem State.setPart_clkReq (p : Nat) (x : Part) : (s.setPart p x).clkReq = s.clkReq := rfl
@[simp] theorem State.setPart_pcs (p : Nat) (x : Part) : (s.setPart p x).pcs = s.pcs := rfl
@[simp] theorem State.setPart_chans (p : Nat) (x : Part) : (s.setPart p x).chans = s.chans := rfl
@[simp] theorem State.setPart_rfm (p : Nat) (x : Part) : (s.setPart p x).rfm = s.rfm := rfl
@[simp] theorem State.setPart_buckets (p : Nat) (x : Part) : (s.setPart p x).buckets = s.buckets := rfl
@[simp] theorem State.setPart_served (p : Nat) (x : Part) : (s.setPart p x).served = s.served := rfl
@[simp] theorem State.setPart_missEv (p : Nat) (x : Part) : (s.setPart p x).missEv = s.missEv := rfl
@[simp] theorem State.setPart_linkQ (p : Nat) (x : Part) : (s.setPart p x).linkQ = s.linkQ := rfl
@[simp] theorem State.setPart_slices (p : Nat) (x : Part) : (s.setPart p x).slices = s.slices := rfl
@[simp] theorem State.setPart_launches (p : Nat) (x : Part) : (s.setPart p x).launches = s.launches := rfl
@[simp] theorem State.setPart_forwards (p : Nat) (x : Part) : (s.setPart p x).forwards = s.forwards := rfl
@[simp] theorem State.setPart_farLaunches (p : Nat) (x : Part) : (s.setPart p x).farLaunches = s.farLaunches := rfl
@[simp] theorem State.setPart_gsv (p : Nat) (x : Part) : (s.setPart p x).gsv = s.gsv := rfl
@[simp] theorem State.setPart_rings (p : Nat) (x : Part) : (s.setPart p x).rings = s.rings := rfl
@[simp] theorem State.setPart_sweeps (p : Nat) (x : Part) : (s.setPart p x).sweeps = s.sweeps := rfl
@[simp] theorem State.setPart_flows (p : Nat) (x : Part) : (s.setPart p x).flows = s.flows := rfl
@[simp] theorem State.setPart_force (p : Nat) (x : Part) : (s.setPart p x).force = s.force := rfl
@[simp] theorem State.setPart_inj (p : Nat) (x : Part) : (s.setPart p x).inj = s.inj := rfl
@[simp] theorem State.setPart_fsq (p : Nat) (x : Part) : (s.setPart p x).fsq = s.fsq := rfl
@[simp] theorem State.setPart_landing (p : Nat) (x : Part) : (s.setPart p x).landing = s.landing := rfl
@[simp] theorem State.setPart_flying (p : Nat) (x : Part) : (s.setPart p x).flying = s.flying := rfl
@[simp] theorem State.setPart_seamq (p : Nat) (x : Part) : (s.setPart p x).seamq = s.seamq := rfl
@[simp] theorem State.setPart_routeFails (p : Nat) (x : Part) : (s.setPart p x).routeFails = s.routeFails := rfl
@[simp] theorem State.setPart_lnks (p : Nat) (x : Part) : (s.setPart p x).lnks = s.lnks := rfl
@[simp] theorem State.setPart_routeHold (p : Nat) (x : Part) : (s.setPart p x).routeHold = s.routeHold := rfl
@[simp] theorem State.setPart_snapLink (p : Nat) (x : Part) : (s.setPart p x).snapLink = s.snapLink := rfl
@[simp] theorem State.setPart_linkTab (p : Nat) (x : Part) : (s.setPart p x).linkTab = s.linkTab := rfl
@[simp] theorem State.setPart_quarantine (p : Nat) (x : Part) : (s.setPart p x).quarantine = s.quarantine := rfl
@[simp] theorem State.setPart_odRun (p : Nat) (x : Part) : (s.setPart p x).odRun = s.odRun := rfl
@[simp] theorem State.setPart_odWait (p : Nat) (x : Part) : (s.setPart p x).odWait = s.odWait := rfl
@[simp] theorem State.setPart_backlog (p : Nat) (x : Part) : (s.setPart p x).backlog = s.backlog := rfl
@[simp] theorem State.setPart_staged (p : Nat) (x : Part) : (s.setPart p x).staged = s.staged := rfl
@[simp] theorem State.setPart_philKept (p : Nat) (x : Part) : (s.setPart p x).philKept = s.philKept := rfl
@[simp] theorem State.setPart_mram (p : Nat) (x : Part) : (s.setPart p x).mram = s.mram := rfl
@[simp] theorem State.setPart_boot (p : Nat) (x : Part) : (s.setPart p x).boot = s.boot := rfl

/-! ### `setCache` -/

@[simp] theorem State.setCache_variant (k : Nat) (x : Slice) : (s.setCache k x).variant = s.variant := rfl
@[simp] theorem State.setCache_pending (k : Nat) (x : Slice) : (s.setCache k x).pending = s.pending := rfl
@[simp] theorem State.setCache_out (k : Nat) (x : Slice) : (s.setCache k x).out = s.out := rfl
@[simp] theorem State.setCache_freeCtr (k : Nat) (x : Slice) : (s.setCache k x).freeCtr = s.freeCtr := rfl
@[simp] theorem State.setCache_gate (k : Nat) (x : Slice) : (s.setCache k x).gate = s.gate := rfl
@[simp] theorem State.setCache_gateRun (k : Nat) (x : Slice) : (s.setCache k x).gateRun = s.gateRun := rfl
@[simp] theorem State.setCache_objs (k : Nat) (x : Slice) : (s.setCache k x).objs = s.objs := rfl
@[simp] theorem State.setCache_lens (k : Nat) (x : Slice) : (s.setCache k x).lens = s.lens := rfl
@[simp] theorem State.setCache_mem (k : Nat) (x : Slice) : (s.setCache k x).mem = s.mem := rfl
@[simp] theorem State.setCache_poison (k : Nat) (x : Slice) : (s.setCache k x).poison = s.poison := rfl
@[simp] theorem State.setCache_reqs (k : Nat) (x : Slice) : (s.setCache k x).reqs = s.reqs := rfl
@[simp] theorem State.setCache_nextReq (k : Nat) (x : Slice) : (s.setCache k x).nextReq = s.nextReq := rfl
@[simp] theorem State.setCache_nextOrder (k : Nat) (x : Slice) : (s.setCache k x).nextOrder = s.nextOrder := rfl
@[simp] theorem State.setCache_parts (k : Nat) (x : Slice) : (s.setCache k x).parts = s.parts := rfl
@[simp] theorem State.setCache_rebinds (k : Nat) (x : Slice) : (s.setCache k x).rebinds = s.rebinds := rfl
@[simp] theorem State.setCache_events (k : Nat) (x : Slice) : (s.setCache k x).events = s.events := rfl
@[simp] theorem State.setCache_eventSeq (k : Nat) (x : Slice) : (s.setCache k x).eventSeq = s.eventSeq := rfl
@[simp] theorem State.setCache_flog (k : Nat) (x : Slice) : (s.setCache k x).flog = s.flog := rfl
@[simp] theorem State.setCache_flogWait (k : Nat) (x : Slice) : (s.setCache k x).flogWait = s.flogWait := rfl
@[simp] theorem State.setCache_ports (k : Nat) (x : Slice) : (s.setCache k x).ports = s.ports := rfl
@[simp] theorem State.setCache_sites (k : Nat) (x : Slice) : (s.setCache k x).sites = s.sites := rfl
@[simp] theorem State.setCache_fns (k : Nat) (x : Slice) : (s.setCache k x).fns = s.fns := rfl
@[simp] theorem State.setCache_teDone (k : Nat) (x : Slice) : (s.setCache k x).teDone = s.teDone := rfl
@[simp] theorem State.setCache_teCtx (k : Nat) (x : Slice) : (s.setCache k x).teCtx = s.teCtx := rfl
@[simp] theorem State.setCache_retiring (k : Nat) (x : Slice) : (s.setCache k x).retiring = s.retiring := rfl
@[simp] theorem State.setCache_walks (k : Nat) (x : Slice) : (s.setCache k x).walks = s.walks := rfl
@[simp] theorem State.setCache_adopting (k : Nat) (x : Slice) : (s.setCache k x).adopting = s.adopting := rfl
@[simp] theorem State.setCache_lift (k : Nat) (x : Slice) : (s.setCache k x).lift = s.lift := rfl
@[simp] theorem State.setCache_rising (k : Nat) (x : Slice) : (s.setCache k x).rising = s.rising := rfl
@[simp] theorem State.setCache_liftFirst (k : Nat) (x : Slice) : (s.setCache k x).liftFirst = s.liftFirst := rfl
@[simp] theorem State.setCache_budget (k : Nat) (x : Slice) : (s.setCache k x).budget = s.budget := rfl
@[simp] theorem State.setCache_capEv (k : Nat) (x : Slice) : (s.setCache k x).capEv = s.capEv := rfl
@[simp] theorem State.setCache_liftWaited (k : Nat) (x : Slice) : (s.setCache k x).liftWaited = s.liftWaited := rfl
@[simp] theorem State.setCache_clkPend (k : Nat) (x : Slice) : (s.setCache k x).clkPend = s.clkPend := rfl
@[simp] theorem State.setCache_lapA (k : Nat) (x : Slice) : (s.setCache k x).lapA = s.lapA := rfl
@[simp] theorem State.setCache_lapS (k : Nat) (x : Slice) : (s.setCache k x).lapS = s.lapS := rfl
@[simp] theorem State.setCache_lapOp (k : Nat) (x : Slice) : (s.setCache k x).lapOp = s.lapOp := rfl
@[simp] theorem State.setCache_lapCause (k : Nat) (x : Slice) : (s.setCache k x).lapCause = s.lapCause := rfl
@[simp] theorem State.setCache_demoted (k : Nat) (x : Slice) : (s.setCache k x).demoted = s.demoted := rfl
@[simp] theorem State.setCache_lapLoad (k : Nat) (x : Slice) : (s.setCache k x).lapLoad = s.lapLoad := rfl
@[simp] theorem State.setCache_clks (k : Nat) (x : Slice) : (s.setCache k x).clks = s.clks := rfl
@[simp] theorem State.setCache_clkReq (k : Nat) (x : Slice) : (s.setCache k x).clkReq = s.clkReq := rfl
@[simp] theorem State.setCache_pcs (k : Nat) (x : Slice) : (s.setCache k x).pcs = s.pcs := rfl
@[simp] theorem State.setCache_chans (k : Nat) (x : Slice) : (s.setCache k x).chans = s.chans := rfl
@[simp] theorem State.setCache_rfm (k : Nat) (x : Slice) : (s.setCache k x).rfm = s.rfm := rfl
@[simp] theorem State.setCache_buckets (k : Nat) (x : Slice) : (s.setCache k x).buckets = s.buckets := rfl
@[simp] theorem State.setCache_served (k : Nat) (x : Slice) : (s.setCache k x).served = s.served := rfl
@[simp] theorem State.setCache_missEv (k : Nat) (x : Slice) : (s.setCache k x).missEv = s.missEv := rfl
@[simp] theorem State.setCache_linkQ (k : Nat) (x : Slice) : (s.setCache k x).linkQ = s.linkQ := rfl
@[simp] theorem State.setCache_launches (k : Nat) (x : Slice) : (s.setCache k x).launches = s.launches := rfl
@[simp] theorem State.setCache_forwards (k : Nat) (x : Slice) : (s.setCache k x).forwards = s.forwards := rfl
@[simp] theorem State.setCache_farLaunches (k : Nat) (x : Slice) : (s.setCache k x).farLaunches = s.farLaunches := rfl
@[simp] theorem State.setCache_gsv (k : Nat) (x : Slice) : (s.setCache k x).gsv = s.gsv := rfl
@[simp] theorem State.setCache_rings (k : Nat) (x : Slice) : (s.setCache k x).rings = s.rings := rfl
@[simp] theorem State.setCache_sweeps (k : Nat) (x : Slice) : (s.setCache k x).sweeps = s.sweeps := rfl
@[simp] theorem State.setCache_flows (k : Nat) (x : Slice) : (s.setCache k x).flows = s.flows := rfl
@[simp] theorem State.setCache_force (k : Nat) (x : Slice) : (s.setCache k x).force = s.force := rfl
@[simp] theorem State.setCache_inj (k : Nat) (x : Slice) : (s.setCache k x).inj = s.inj := rfl
@[simp] theorem State.setCache_fsq (k : Nat) (x : Slice) : (s.setCache k x).fsq = s.fsq := rfl
@[simp] theorem State.setCache_landing (k : Nat) (x : Slice) : (s.setCache k x).landing = s.landing := rfl
@[simp] theorem State.setCache_flying (k : Nat) (x : Slice) : (s.setCache k x).flying = s.flying := rfl
@[simp] theorem State.setCache_seamq (k : Nat) (x : Slice) : (s.setCache k x).seamq = s.seamq := rfl
@[simp] theorem State.setCache_routeFails (k : Nat) (x : Slice) : (s.setCache k x).routeFails = s.routeFails := rfl
@[simp] theorem State.setCache_lnks (k : Nat) (x : Slice) : (s.setCache k x).lnks = s.lnks := rfl
@[simp] theorem State.setCache_routeHold (k : Nat) (x : Slice) : (s.setCache k x).routeHold = s.routeHold := rfl
@[simp] theorem State.setCache_snapLink (k : Nat) (x : Slice) : (s.setCache k x).snapLink = s.snapLink := rfl
@[simp] theorem State.setCache_linkTab (k : Nat) (x : Slice) : (s.setCache k x).linkTab = s.linkTab := rfl
@[simp] theorem State.setCache_quarantine (k : Nat) (x : Slice) : (s.setCache k x).quarantine = s.quarantine := rfl
@[simp] theorem State.setCache_odRun (k : Nat) (x : Slice) : (s.setCache k x).odRun = s.odRun := rfl
@[simp] theorem State.setCache_odWait (k : Nat) (x : Slice) : (s.setCache k x).odWait = s.odWait := rfl
@[simp] theorem State.setCache_backlog (k : Nat) (x : Slice) : (s.setCache k x).backlog = s.backlog := rfl
@[simp] theorem State.setCache_staged (k : Nat) (x : Slice) : (s.setCache k x).staged = s.staged := rfl
@[simp] theorem State.setCache_philKept (k : Nat) (x : Slice) : (s.setCache k x).philKept = s.philKept := rfl
@[simp] theorem State.setCache_mram (k : Nat) (x : Slice) : (s.setCache k x).mram = s.mram := rfl
@[simp] theorem State.setCache_boot (k : Nat) (x : Slice) : (s.setCache k x).boot = s.boot := rfl

/-! ### `setLnk` -/

@[simp] theorem State.setLnk_variant (n : Nat) (x : Lnk) : (s.setLnk n x).variant = s.variant := rfl
@[simp] theorem State.setLnk_pending (n : Nat) (x : Lnk) : (s.setLnk n x).pending = s.pending := rfl
@[simp] theorem State.setLnk_out (n : Nat) (x : Lnk) : (s.setLnk n x).out = s.out := rfl
@[simp] theorem State.setLnk_freeCtr (n : Nat) (x : Lnk) : (s.setLnk n x).freeCtr = s.freeCtr := rfl
@[simp] theorem State.setLnk_gate (n : Nat) (x : Lnk) : (s.setLnk n x).gate = s.gate := rfl
@[simp] theorem State.setLnk_gateRun (n : Nat) (x : Lnk) : (s.setLnk n x).gateRun = s.gateRun := rfl
@[simp] theorem State.setLnk_objs (n : Nat) (x : Lnk) : (s.setLnk n x).objs = s.objs := rfl
@[simp] theorem State.setLnk_lens (n : Nat) (x : Lnk) : (s.setLnk n x).lens = s.lens := rfl
@[simp] theorem State.setLnk_mem (n : Nat) (x : Lnk) : (s.setLnk n x).mem = s.mem := rfl
@[simp] theorem State.setLnk_poison (n : Nat) (x : Lnk) : (s.setLnk n x).poison = s.poison := rfl
@[simp] theorem State.setLnk_reqs (n : Nat) (x : Lnk) : (s.setLnk n x).reqs = s.reqs := rfl
@[simp] theorem State.setLnk_nextReq (n : Nat) (x : Lnk) : (s.setLnk n x).nextReq = s.nextReq := rfl
@[simp] theorem State.setLnk_nextOrder (n : Nat) (x : Lnk) : (s.setLnk n x).nextOrder = s.nextOrder := rfl
@[simp] theorem State.setLnk_parts (n : Nat) (x : Lnk) : (s.setLnk n x).parts = s.parts := rfl
@[simp] theorem State.setLnk_rebinds (n : Nat) (x : Lnk) : (s.setLnk n x).rebinds = s.rebinds := rfl
@[simp] theorem State.setLnk_events (n : Nat) (x : Lnk) : (s.setLnk n x).events = s.events := rfl
@[simp] theorem State.setLnk_eventSeq (n : Nat) (x : Lnk) : (s.setLnk n x).eventSeq = s.eventSeq := rfl
@[simp] theorem State.setLnk_flog (n : Nat) (x : Lnk) : (s.setLnk n x).flog = s.flog := rfl
@[simp] theorem State.setLnk_flogWait (n : Nat) (x : Lnk) : (s.setLnk n x).flogWait = s.flogWait := rfl
@[simp] theorem State.setLnk_ports (n : Nat) (x : Lnk) : (s.setLnk n x).ports = s.ports := rfl
@[simp] theorem State.setLnk_sites (n : Nat) (x : Lnk) : (s.setLnk n x).sites = s.sites := rfl
@[simp] theorem State.setLnk_fns (n : Nat) (x : Lnk) : (s.setLnk n x).fns = s.fns := rfl
@[simp] theorem State.setLnk_teDone (n : Nat) (x : Lnk) : (s.setLnk n x).teDone = s.teDone := rfl
@[simp] theorem State.setLnk_teCtx (n : Nat) (x : Lnk) : (s.setLnk n x).teCtx = s.teCtx := rfl
@[simp] theorem State.setLnk_retiring (n : Nat) (x : Lnk) : (s.setLnk n x).retiring = s.retiring := rfl
@[simp] theorem State.setLnk_walks (n : Nat) (x : Lnk) : (s.setLnk n x).walks = s.walks := rfl
@[simp] theorem State.setLnk_adopting (n : Nat) (x : Lnk) : (s.setLnk n x).adopting = s.adopting := rfl
@[simp] theorem State.setLnk_lift (n : Nat) (x : Lnk) : (s.setLnk n x).lift = s.lift := rfl
@[simp] theorem State.setLnk_rising (n : Nat) (x : Lnk) : (s.setLnk n x).rising = s.rising := rfl
@[simp] theorem State.setLnk_liftFirst (n : Nat) (x : Lnk) : (s.setLnk n x).liftFirst = s.liftFirst := rfl
@[simp] theorem State.setLnk_budget (n : Nat) (x : Lnk) : (s.setLnk n x).budget = s.budget := rfl
@[simp] theorem State.setLnk_capEv (n : Nat) (x : Lnk) : (s.setLnk n x).capEv = s.capEv := rfl
@[simp] theorem State.setLnk_liftWaited (n : Nat) (x : Lnk) : (s.setLnk n x).liftWaited = s.liftWaited := rfl
@[simp] theorem State.setLnk_clkPend (n : Nat) (x : Lnk) : (s.setLnk n x).clkPend = s.clkPend := rfl
@[simp] theorem State.setLnk_lapA (n : Nat) (x : Lnk) : (s.setLnk n x).lapA = s.lapA := rfl
@[simp] theorem State.setLnk_lapS (n : Nat) (x : Lnk) : (s.setLnk n x).lapS = s.lapS := rfl
@[simp] theorem State.setLnk_lapOp (n : Nat) (x : Lnk) : (s.setLnk n x).lapOp = s.lapOp := rfl
@[simp] theorem State.setLnk_lapCause (n : Nat) (x : Lnk) : (s.setLnk n x).lapCause = s.lapCause := rfl
@[simp] theorem State.setLnk_demoted (n : Nat) (x : Lnk) : (s.setLnk n x).demoted = s.demoted := rfl
@[simp] theorem State.setLnk_lapLoad (n : Nat) (x : Lnk) : (s.setLnk n x).lapLoad = s.lapLoad := rfl
@[simp] theorem State.setLnk_clks (n : Nat) (x : Lnk) : (s.setLnk n x).clks = s.clks := rfl
@[simp] theorem State.setLnk_clkReq (n : Nat) (x : Lnk) : (s.setLnk n x).clkReq = s.clkReq := rfl
@[simp] theorem State.setLnk_pcs (n : Nat) (x : Lnk) : (s.setLnk n x).pcs = s.pcs := rfl
@[simp] theorem State.setLnk_chans (n : Nat) (x : Lnk) : (s.setLnk n x).chans = s.chans := rfl
@[simp] theorem State.setLnk_rfm (n : Nat) (x : Lnk) : (s.setLnk n x).rfm = s.rfm := rfl
@[simp] theorem State.setLnk_buckets (n : Nat) (x : Lnk) : (s.setLnk n x).buckets = s.buckets := rfl
@[simp] theorem State.setLnk_served (n : Nat) (x : Lnk) : (s.setLnk n x).served = s.served := rfl
@[simp] theorem State.setLnk_missEv (n : Nat) (x : Lnk) : (s.setLnk n x).missEv = s.missEv := rfl
@[simp] theorem State.setLnk_linkQ (n : Nat) (x : Lnk) : (s.setLnk n x).linkQ = s.linkQ := rfl
@[simp] theorem State.setLnk_slices (n : Nat) (x : Lnk) : (s.setLnk n x).slices = s.slices := rfl
@[simp] theorem State.setLnk_launches (n : Nat) (x : Lnk) : (s.setLnk n x).launches = s.launches := rfl
@[simp] theorem State.setLnk_forwards (n : Nat) (x : Lnk) : (s.setLnk n x).forwards = s.forwards := rfl
@[simp] theorem State.setLnk_farLaunches (n : Nat) (x : Lnk) : (s.setLnk n x).farLaunches = s.farLaunches := rfl
@[simp] theorem State.setLnk_gsv (n : Nat) (x : Lnk) : (s.setLnk n x).gsv = s.gsv := rfl
@[simp] theorem State.setLnk_rings (n : Nat) (x : Lnk) : (s.setLnk n x).rings = s.rings := rfl
@[simp] theorem State.setLnk_sweeps (n : Nat) (x : Lnk) : (s.setLnk n x).sweeps = s.sweeps := rfl
@[simp] theorem State.setLnk_flows (n : Nat) (x : Lnk) : (s.setLnk n x).flows = s.flows := rfl
@[simp] theorem State.setLnk_force (n : Nat) (x : Lnk) : (s.setLnk n x).force = s.force := rfl
@[simp] theorem State.setLnk_inj (n : Nat) (x : Lnk) : (s.setLnk n x).inj = s.inj := rfl
@[simp] theorem State.setLnk_fsq (n : Nat) (x : Lnk) : (s.setLnk n x).fsq = s.fsq := rfl
@[simp] theorem State.setLnk_landing (n : Nat) (x : Lnk) : (s.setLnk n x).landing = s.landing := rfl
@[simp] theorem State.setLnk_flying (n : Nat) (x : Lnk) : (s.setLnk n x).flying = s.flying := rfl
@[simp] theorem State.setLnk_seamq (n : Nat) (x : Lnk) : (s.setLnk n x).seamq = s.seamq := rfl
@[simp] theorem State.setLnk_routeFails (n : Nat) (x : Lnk) : (s.setLnk n x).routeFails = s.routeFails := rfl
@[simp] theorem State.setLnk_routeHold (n : Nat) (x : Lnk) : (s.setLnk n x).routeHold = s.routeHold := rfl
@[simp] theorem State.setLnk_snapLink (n : Nat) (x : Lnk) : (s.setLnk n x).snapLink = s.snapLink := rfl
@[simp] theorem State.setLnk_linkTab (n : Nat) (x : Lnk) : (s.setLnk n x).linkTab = s.linkTab := rfl
@[simp] theorem State.setLnk_quarantine (n : Nat) (x : Lnk) : (s.setLnk n x).quarantine = s.quarantine := rfl
@[simp] theorem State.setLnk_odRun (n : Nat) (x : Lnk) : (s.setLnk n x).odRun = s.odRun := rfl
@[simp] theorem State.setLnk_odWait (n : Nat) (x : Lnk) : (s.setLnk n x).odWait = s.odWait := rfl
@[simp] theorem State.setLnk_backlog (n : Nat) (x : Lnk) : (s.setLnk n x).backlog = s.backlog := rfl
@[simp] theorem State.setLnk_staged (n : Nat) (x : Lnk) : (s.setLnk n x).staged = s.staged := rfl
@[simp] theorem State.setLnk_philKept (n : Nat) (x : Lnk) : (s.setLnk n x).philKept = s.philKept := rfl
@[simp] theorem State.setLnk_mram (n : Nat) (x : Lnk) : (s.setLnk n x).mram = s.mram := rfl
@[simp] theorem State.setLnk_boot (n : Nat) (x : Lnk) : (s.setLnk n x).boot = s.boot := rfl

end Sys2Proof.Machine
end

