-- ==== Sys2Proof/Laws/Table.lean ====
section
/-! SUPPORT. The laws of sparse tables: reading back what was written, writes leaving other keys alone, and writes keeping the canonical form.
Reading laws hold for every list, canonical or not. -/

namespace Sys2Proof.Machine

variable {α : Type}

@[simp] theorem Table.get_nil (d : α) (k : Nat) : Table.get d k [] = d := rfl

theorem Table.get_cons (d : α) (k j : Nat) (v : α) (r : List (Nat × α)) :
    Table.get d k ((j, v) :: r) = if k = j then v else Table.get d k r := rfl

@[simp] theorem Table.get_erase_same (d : α) (k : Nat) (l : List (Nat × α)) : Table.get d k (Table.erase k l) = d := by
  induction l with
  | nil => rfl
  | cons a r ih =>
    unfold Table.erase
    split
    · exact ih
    · rename_i h; rw [Table.get_cons, if_neg h, ih]

theorem Table.get_erase_ne (d : α) {k j : Nat} (h : j ≠ k) (l : List (Nat × α)) : Table.get d j (Table.erase k l) = Table.get d j l := by
  induction l with
  | nil => rfl
  | cons a r ih =>
    unfold Table.erase
    split
    · rename_i e; rw [ih, Table.get_cons, if_neg (e ▸ h)]
    · rw [Table.get_cons, Table.get_cons, ih]

variable [DecidableEq α]

/-- Reading a key after writing it gives the value written. -/
@[simp] theorem Table.get_set_same (d : α) (k : Nat) (v : α) (l : List (Nat × α)) : Table.get d k (Table.set d k v l) = v := by
  induction l with
  | nil => unfold Table.set; split <;> simp_all [Table.get]
  | cons a r ih =>
    unfold Table.set
    split
    · rename_i h
      split
      · rw [Table.get_cons, if_neg (Nat.ne_of_lt h), Table.get_erase_same]; exact (‹v = d›).symm
      · rw [Table.get_cons, if_pos rfl]
    · split
      · split
        · rw [Table.get_erase_same]; exact (‹v = d›).symm
        · rw [Table.get_cons, if_pos rfl]
      · rename_i h; rw [Table.get_cons, if_neg h, ih]

/-- Writing a key leaves every other key alone. -/
theorem Table.get_set_ne (d d' : α) {k j : Nat} (h : j ≠ k) (v : α) (l : List (Nat × α)) :
    Table.get d' j (Table.set d k v l) = Table.get d' j l := by
  induction l with
  | nil => unfold Table.set; split <;> simp [Table.get, h]
  | cons a r ih =>
    unfold Table.set
    split
    · split
      · rw [Table.get_cons, Table.get_cons, Table.get_erase_ne d' h]
      · rw [Table.get_cons, if_neg h]
    · split
      · rename_i e
        split
        · rw [Table.get_erase_ne d' h, Table.get_cons, if_neg (e ▸ h)]
        · rw [Table.get_cons, if_neg h, Table.get_cons, if_neg (e ▸ h)]
      · rw [Table.get_cons, Table.get_cons, ih]

/-- Every key of the table lies above `k`. -/
def Table.above (k : Nat) (l : List (Nat × α)) : Prop := ∀ e ∈ l, k < e.1

theorem Table.wf_cons (d : α) (k : Nat) (v : α) (l : List (Nat × α)) :
    Table.wf d ((k, v) :: l) = true ↔ v ≠ d ∧ Table.above k l ∧ Table.wf d l = true := by
  induction l generalizing k v with
  | nil => simp [Table.wf, Table.above]
  | cons b r ih =>
    have hb := ih b.1 b.2
    constructor
    · intro h
      simp only [Table.wf, Bool.and_eq_true, decide_eq_true_eq] at h
      refine ⟨h.1.1, ?_, h.2⟩
      intro e he
      rcases List.mem_cons.mp he with rfl | he
      · exact h.1.2
      · exact Nat.lt_trans h.1.2 ((hb.mp h.2).2.1 e he)
    · rintro ⟨h1, h2, h3⟩
      simp only [Table.wf, Bool.and_eq_true, decide_eq_true_eq]
      exact ⟨⟨h1, h2 b (List.mem_cons_self ..)⟩, h3⟩

omit [DecidableEq α] in
theorem Table.mem_erase {k : Nat} {e : Nat × α} {l : List (Nat × α)} (h : e ∈ Table.erase k l) : e ∈ l := by
  induction l with
  | nil => exact h
  | cons a r ih =>
    unfold Table.erase at h
    split at h
    · exact List.mem_cons_of_mem _ (ih h)
    · rcases List.mem_cons.mp h with rfl | h
      · exact List.mem_cons_self ..
      · exact List.mem_cons_of_mem _ (ih h)

theorem Table.erase_wf (d : α) (k : Nat) (l : List (Nat × α)) (h : Table.wf d l = true) : Table.wf d (Table.erase k l) = true := by
  induction l with
  | nil => exact h
  | cons a r ih =>
    obtain ⟨hv, ha, hr⟩ := (Table.wf_cons d a.1 a.2 r).mp h
    unfold Table.erase
    split
    · exact ih hr
    · exact (Table.wf_cons d _ _ _).mpr ⟨hv, fun e he => ha e (Table.mem_erase he), ih hr⟩

theorem Table.mem_set {d : α} {k : Nat} {v : α} {e : Nat × α} {l : List (Nat × α)} (h : e ∈ Table.set d k v l) : e.1 = k ∨ e ∈ l := by
  induction l with
  | nil =>
    unfold Table.set at h
    split at h
    · exact absurd h (List.not_mem_nil)
    · left; rw [List.mem_singleton.mp h]
  | cons a r ih =>
    unfold Table.set at h
    split at h
    · split at h
      · right
        rcases List.mem_cons.mp h with rfl | h
        · exact List.mem_cons_self ..
        · exact List.mem_cons_of_mem _ (Table.mem_erase h)
      · rcases List.mem_cons.mp h with rfl | h
        · left; rfl
        · right; exact h
    · split at h
      · split at h
        · right; exact List.mem_cons_of_mem _ (Table.mem_erase h)
        · rcases List.mem_cons.mp h with rfl | h
          · left; rfl
          · right; exact List.mem_cons_of_mem _ h
      · rcases List.mem_cons.mp h with rfl | h
        · right; exact List.mem_cons_self ..
        · rcases ih h with h | h
          · left; exact h
          · right; exact List.mem_cons_of_mem _ h

/-- Writing an entry keeps a table's canonical form. -/
theorem Table.set_wf (d : α) (k : Nat) (v : α) (l : List (Nat × α)) (h : Table.wf d l = true) : Table.wf d (Table.set d k v l) = true := by
  induction l with
  | nil => unfold Table.set; split <;> simp_all [Table.wf]
  | cons a r ih =>
    obtain ⟨hv, ha, hr⟩ := (Table.wf_cons d a.1 a.2 r).mp h
    unfold Table.set
    split
    · rename_i hk
      split
      · exact (Table.wf_cons d _ _ _).mpr ⟨hv, fun e he => ha e (Table.mem_erase he), Table.erase_wf d k r hr⟩
      · rename_i h2
        refine (Table.wf_cons d _ _ _).mpr ⟨h2, ?_, h⟩
        intro e he
        rcases List.mem_cons.mp he with rfl | he
        · exact hk
        · exact Nat.lt_trans hk (ha e he)
    · split
      · rename_i h2
        split
        · exact Table.erase_wf d k r hr
        · rename_i h3
          exact (Table.wf_cons d _ _ _).mpr ⟨h3, h2 ▸ ha, hr⟩
      · rename_i h1 h2
        refine (Table.wf_cons d _ _ _).mpr ⟨hv, ?_, ih hr⟩
        intro e he
        rcases Table.mem_set he with he | he
        · omega
        · exact ha e he

end Sys2Proof.Machine
end

