-- ==== Sys2Proof/Laws/Objects.lean ====
section
/-! SUPPORT. Reading an object after writing one, what an accepted object write does, and the answers of the object dictionary. -/

namespace Sys2Proof.Machine

@[simp] theorem State.rd_wr_same (s : State) (o : Obj) (i v : Nat) : (s.wr o i v).rd o i = v := by
  simp [State.rd, State.wr]

theorem State.rd_wr_key (s : State) {o o' : Obj} (h : objKey o' ≠ objKey o) (i j v : Nat) : (s.wr o i v).rd o' j = s.rd o' j := by
  simp [State.rd, State.wr, Table.get_set_ne _ [] h]

theorem State.rd_wr_inst (s : State) (o o' : Obj) {i j : Nat} (h : j ≠ i) (v : Nat) : (s.wr o i v).rd o' j = s.rd o' j := by
  by_cases hk : objKey o' = objKey o
  · simp only [State.rd, State.wr, hk, Table.get_set_same]
    exact Table.get_set_ne _ _ h _ _
  · exact s.rd_wr_key hk i j v

theorem State.rd_wr_ne (s : State) (o o' : Obj) {i j : Nat} (h : (objKey o', j) ≠ (objKey o, i)) (v : Nat) :
    (s.wr o i v).rd o' j = s.rd o' j := by
  by_cases hj : j = i
  · subst hj
    exact s.rd_wr_key (fun hk => h (by rw [hk])) _ _ _
  · exact s.rd_wr_inst o o' hj v

theorem State.rdLen_wrLen_ne (s : State) (o o' : Obj) {i j : Nat} (h : (objKey o', j) ≠ (objKey o, i)) (n : Nat) :
    (s.wrLen o i n).rdLen o' j = s.rdLen o' j := by
  unfold State.rdLen State.wrLen
  by_cases hk : objKey o' = objKey o
  · have hj : j ≠ i := fun hj => h (by rw [hk, hj])
    simp [hk, Table.get_set_ne _ 0 hj]
  · simp [Table.get_set_ne _ [] hk]

/-- Objects read the same in states that hold the same values for the same part. -/
theorem State.rd_congr {s t : State} (ho : t.objs = s.objs) (hv : t.variant = s.variant) (o : Obj) (i : Nat) : t.rd o i = s.rd o i := by
  simp [State.rd, ho, hv]

theorem State.rdLen_congr {s t : State} (h : t.lens = s.lens) (o : Obj) (i : Nat) : t.rdLen o i = s.rdLen o i := by
  simp [State.rdLen, h]

@[simp] theorem State.rd_emit (s : State) (x : Out) (o : Obj) (i : Nat) : (s.emit x).rd o i = s.rd o i := rfl
@[simp] theorem State.rdLen_emit (s : State) (x : Out) (o : Obj) (i : Nat) : (s.emit x).rdLen o i = s.rdLen o i := rfl
@[simp] theorem State.rdLen_wr (s : State) (o o' : Obj) (i v j : Nat) : (s.wr o i v).rdLen o' j = s.rdLen o' j := rfl
@[simp] theorem State.rd_wrLen (s : State) (o o' : Obj) (i v j : Nat) : (s.wrLen o i v).rd o' j = s.rd o' j := rfl
@[simp] theorem State.rd_setPort (s : State) (k : Nat) (p : Port) (o : Obj) (i : Nat) : (s.setPort k p).rd o i = s.rd o i := rfl
@[simp] theorem State.rd_setSite (s : State) (k : Nat) (p : Site) (o : Obj) (i : Nat) : (s.setSite k p).rd o i = s.rd o i := rfl
@[simp] theorem State.rd_setPart (s : State) (k : Nat) (p : Part) (o : Obj) (i : Nat) : (s.setPart k p).rd o i = s.rd o i := rfl
@[simp] theorem State.rd_setFn (s : State) (k : Nat) (p : HostFn) (o : Obj) (i : Nat) : (s.setFn k p).rd o i = s.rd o i := rfl
@[simp] theorem State.rd_setReq (s : State) (k : Nat) (p : Req) (o : Obj) (i : Nat) : (s.setReq k p).rd o i = s.rd o i := rfl
@[simp] theorem State.rd_delReq (s : State) (k : Nat) (o : Obj) (i : Nat) : (s.delReq k).rd o i = s.rd o i := rfl
@[simp] theorem State.rd_drew (s : State) (o : Obj) (i : Nat) : s.drew.rd o i = s.rd o i := rfl

@[simp] theorem State.port_setPort (s : State) (k : Nat) (p : Port) : (s.setPort k p).port k = p := by simp [State.port, State.setPort]
@[simp] theorem State.site_setSite (s : State) (k : Nat) (p : Site) : (s.setSite k p).site k = p := by simp [State.site, State.setSite]
@[simp] theorem State.part_setPart (s : State) (k : Nat) (p : Part) : (s.setPart k p).part k = p := by simp [State.part, State.setPart]
@[simp] theorem State.fn_setFn (s : State) (k : Nat) (p : HostFn) : (s.setFn k p).fn k = p := by simp [State.fn, State.setFn]
@[simp] theorem State.req?_setReq (s : State) (k : Nat) (p : Req) : (s.setReq k p).req? k = some p := by simp [State.req?, State.setReq]
@[simp] theorem State.req?_delReq (s : State) (k : Nat) : (s.delReq k).req? k = none := by simp [State.req?, State.delReq]

theorem ObjsBut.refl (s : State) (l : List (Nat × Nat)) : ObjsBut s s l := fun _ _ _ => rfl

theorem ObjsBut.congr {s t : State} (ho : t.objs = s.objs) (hv : t.variant = s.variant) (l : List (Nat × Nat)) : ObjsBut s t l :=
  fun _ _ _ => State.rd_congr ho hv _ _

theorem ObjsBut.wr {s t : State} {l : List (Nat × Nat)} (h : ObjsBut s t l) {o : Obj} {i : Nat} (hm : (objKey o, i) ∈ l) (v : Nat) :
    ObjsBut s (t.wr o i v) l := by
  intro o' j hn
  rw [State.rd_wr_ne _ _ _ (fun e => hn (by rw [e]; exact hm))]
  exact h o' j hn

/-- Only object values differ. -/
def OnlyObjs (s t : State) : Prop := t = { s with objs := t.objs }

theorem OnlyObjs.refl (s : State) : OnlyObjs s s := rfl

theorem OnlyObjs.wr {s t : State} (h : OnlyObjs s t) (o : Obj) (i v : Nat) : OnlyObjs s (t.wr o i v) := by
  unfold OnlyObjs at *
  rw [h]; rfl

theorem ObjsBut.trans {s t u : State} {l : List (Nat × Nat)} (h : ObjsBut s t l) (h' : ObjsBut t u l) : ObjsBut s u l :=
  fun o j hn => (h' o j hn).trans (h o j hn)

/-! ### Object writes -/

theorem State.odFree_iff (s : State) : s.odFree = true ↔ s.odUp = true ∧ s.odBusy = false ∧ s.backlog = [] := by
  simp [State.odFree, and_assoc]

theorem State.takes_iff (s : State) (o : Obj) (i : Nat) (w : OdWrite) :
    s.takes o i w = true ↔ s.odFree = true ∧ s.odCheck o i w false = 0 ∧ s.liveWaits o i w = false := by
  simp [State.takes, and_assoc]

theorem State.odBusy_false {s : State} (h : s.odBusy = false) : s.odWait = false ∧ s.odRun = none ∧ s.uttexPause = false := by
  simpa [State.odBusy, and_assoc] using h

/-- A free controller runs the command at once. -/
theorem State.odCmd_free {s : State} (h : s.odFree = true) (c : Instr) (k : State → State) : s.odCmd c k = .next (k s) := by
  obtain ⟨hu, hb, hl⟩ := s.odFree_iff.mp h
  simp [State.odCmd, hu, hb, hl]

/-- A write that is taken runs its owner's rules. -/
theorem State.odCmd_takes {s : State} {o : Obj} {i : Nat} {w : OdWrite} (h : s.takes o i w = true) (c : Instr) (own : State → State) :
    s.odCmd c (fun t => t.odWrite o i w own) = .next (own s) := by
  obtain ⟨hf, hc, hl⟩ := (s.takes_iff o i w).mp h
  simp [State.odCmd_free hf, State.odWrite, State.odWriteAs, hc, hl]

/-- A write that a step of Table 13.3 refuses gets that status, and changes nothing. -/
theorem State.odCmd_refused {s : State} {o : Obj} {i : Nat} {w : OdWrite} (hf : s.odFree = true) (hc : s.odCheck o i w false ≠ 0) (c : Instr)
    (own : State → State) : s.odCmd c (fun t => t.odWrite o i w own) = .next (s.odFail (s.odCheck o i w false)) := by
  simp only [State.odCmd_free hf, State.odWrite, State.odWriteAs]

/-- The controller is down: the command does nothing. -/
theorem State.odCmd_down {s : State} (h : s.odUp = false) (c : Instr) (k : State → State) : s.odCmd c k = .next s := by
  simp [State.odCmd, h]

/-- The controller is busy: the command waits its turn. -/
theorem State.odCmd_busy {s : State} (hu : s.odUp = true) (h : (s.odBusy || !s.backlog.isEmpty) = true) (c : Instr) (k : State → State) :
    s.odCmd c k = .next { s with backlog := s.backlog ++ [c] } := by
  simp [State.odCmd, hu, h]

/-- An answer, when no transaction runs and nothing waits. -/
theorem State.odAnswer_alone {s : State} (hr : s.odRun = none) (st len val : Nat) (h5 : st ≠ St.UNIT_ABSENT) :
    s.odAnswer st len val = { s with odWait := false, out := s.out ++ [.od st len val] } := by
  simp [State.odAnswer, State.noteStatus, h5, hr, State.emit]

/-- The same where nothing waited either. -/
theorem State.odAnswer_idle {s : State} (hw : s.odWait = false) (hr : s.odRun = none) (st len val : Nat) (h5 : st ≠ St.UNIT_ABSENT) :
    s.odAnswer st len val = { s with out := s.out ++ [.od st len val] } := by
  rw [State.odAnswer_alone hr _ _ _ h5, ← hw]

/-- A command whose write is taken, on a controller that nothing waits for. -/
theorem State.takes_idle {s : State} {o : Obj} {i : Nat} {w : OdWrite} (h : s.takes o i w = true) :
    s.odFree = true ∧ s.odWait = false ∧ s.odRun = none ∧ s.uttexPause = false ∧ s.backlog = [] := by
  have hf : s.odFree = true := by
    simp only [State.takes, Bool.and_eq_true] at h; exact h.1.1
  obtain ⟨-, hb, hl⟩ := s.odFree_iff.mp hf
  obtain ⟨hw, hr, hu⟩ := State.odBusy_false hb
  exact ⟨hf, hw, hr, hu, hl⟩

theorem State.odAnswer_free {s : State} (h : s.odFree = true) (st len val : Nat) (h5 : st ≠ St.UNIT_ABSENT) :
    s.odAnswer st len val = { s with out := s.out ++ [.od st len val] } := by
  obtain ⟨-, hb, -⟩ := s.odFree_iff.mp h
  obtain ⟨hw, hr, -⟩ := State.odBusy_false hb
  rw [State.odAnswer_alone hr _ _ _ h5, hw]

/-- Success, on a controller that nothing waits for. -/
theorem State.odDone_idle {s t : State} (h : s.odFree = true) (h1 : t.odWait = s.odWait) (h2 : t.odRun = s.odRun) :
    t.odDone = { t with out := t.out ++ [.od 0 0 0] } := by
  obtain ⟨-, hb, -⟩ := s.odFree_iff.mp h
  obtain ⟨hw, hr, -⟩ := State.odBusy_false hb
  exact State.odAnswer_idle (h1.trans hw) (h2.trans hr) _ _ _ (by decide)

/-- A refusal changes nothing but what has been sent. -/
theorem State.odFail_refuses {s : State} (h : s.odFree = true) {st : Nat} (hs : st ≠ St.UNIT_ABSENT) : Refuses s (s.odFail st) st := by
  unfold Refuses State.odFail
  rw [State.odAnswer_free h _ _ _ hs]

/-- The object store's share of a write: STORE_STATE and the store alone change, and the write is pending or captured. -/
theorem State.storeTouch_spec (s : State) :
    ObjsBut s s.storeTouch [(objKey D.STORE_STATE, 0)] ∧ (s.mram.sealed = false → s.storeTouch.mram.dirty = true ∨ s.storeTouch.mram.commit ≠ none) ∧
      s.storeTouch = { s with objs := s.storeTouch.objs, mram := s.storeTouch.mram } := by
  unfold State.storeTouch
  split
  · exact ⟨.refl _ _, fun h => by simp_all, rfl⟩
  · simp only []
    split
    · exact ⟨.congr rfl rfl _, fun _ => .inl rfl, rfl⟩
    · split
      · exact ⟨ObjsBut.wr (.congr rfl rfl _) (by simp) _, fun _ => .inr (by simp [State.startCommit]), rfl⟩
      · split
        · exact ⟨.congr rfl rfl _, fun _ => .inl rfl, rfl⟩
        · exact ⟨ObjsBut.wr (.congr rfl rfl _) (by simp) _, fun _ => .inl rfl, rfl⟩

theorem State.storeWrote_spec (s : State) (o : Obj) (i : Nat) :
    ObjsBut s (s.storeWrote o i) [(objKey D.STORE_STATE, 0)] ∧
      (s.mram.sealed = false → (s.storeWrote o i).mram.dirty = true ∨ (s.storeWrote o i).mram.commit ≠ none) ∧
      s.storeWrote o i = { s with objs := (s.storeWrote o i).objs, mram := (s.storeWrote o i).mram } := by
  unfold State.storeWrote
  simp only []
  split
  · obtain ⟨ha, hb, hc⟩ := State.storeTouch_spec { s with mram := { s.mram with since := s.mram.since ++ [(objKey o, i)] } }
    exact ⟨(ObjsBut.congr rfl rfl _).trans ha, hb, hc⟩
  · exact State.storeTouch_spec s

/-- Setting an object in the working copy. -/
structure SetsObj (s t : State) (o : Obj) (i v : Nat) : Prop where
  value : t.rd o i = v
  pend : o.stored = true → s.mram.sealed = false → t.mram.dirty = true ∨ t.mram.commit ≠ none
  objs : ObjsBut s t ((objKey o, i) :: storeCells o)
  lens : ∀ o' j, (objKey o', j) ≠ (objKey o, i) → t.rdLen o' j = s.rdLen o' j
  rest : t = { s with objs := t.objs, lens := t.lens, mram := if o.stored then t.mram else s.mram }

theorem State.setObj_sets (s : State) {o : Obj} (h : objKey o ≠ objKey D.STORE_STATE) (i : Nat) (w : OdWrite) :
    SetsObj s (s.setObj o i w) o i (odNum w) := by
  unfold State.setObj
  simp only []
  have base : (if o.fixed = true then s.wr o i (odNum w) else (s.wr o i (odNum w)).wrLen o i w.val.len).rd o i = odNum w ∧
      ObjsBut s (if o.fixed = true then s.wr o i (odNum w) else (s.wr o i (odNum w)).wrLen o i w.val.len) [(objKey o, i)] ∧
      (∀ o' j, (objKey o', j) ≠ (objKey o, i) →
        (if o.fixed = true then s.wr o i (odNum w) else (s.wr o i (odNum w)).wrLen o i w.val.len).rdLen o' j = s.rdLen o' j) ∧
      (if o.fixed = true then s.wr o i (odNum w) else (s.wr o i (odNum w)).wrLen o i w.val.len) =
        { s with objs := (if o.fixed = true then s.wr o i (odNum w) else (s.wr o i (odNum w)).wrLen o i w.val.len).objs,
                 lens := (if o.fixed = true then s.wr o i (odNum w) else (s.wr o i (odNum w)).wrLen o i w.val.len).lens } := by
    split
    · exact ⟨by simp, ObjsBut.wr (.refl _ _) (by simp) _, fun _ _ _ => rfl, rfl⟩
    · exact ⟨by simp, ObjsBut.trans (ObjsBut.wr (.refl _ _) (by simp) _) (.congr rfl rfl _),
        fun o' j hn => State.rdLen_wrLen_ne (s.wr o i (odNum w)) o o' hn _, rfl⟩
  generalize (if o.fixed = true then s.wr o i (odNum w) else (s.wr o i (odNum w)).wrLen o i w.val.len) = u at base ⊢
  obtain ⟨hv, ho, hl, hr⟩ := base
  by_cases hs : o.stored = true
  · simp only [hs, ↓reduceIte]
    obtain ⟨ha, hb, hc⟩ := u.storeWrote_spec o i
    have hm : u.mram = s.mram := by rw [hr]
    refine ⟨?_, fun _ hn => hb (by rw [hm]; exact hn), ?_, ?_, ?_⟩
    · rw [ha o i (by simp [h])]; exact hv
    · refine ObjsBut.trans (t := u) (fun o' j hn => ho o' j ?_) (fun o' j hn => ha o' j ?_)
      · simp [storeCells, hs] at hn ⊢; exact hn.1
      · simp [storeCells, hs] at hn ⊢; exact hn.2
    · intro o' j hn; rw [hc]; exact hl o' j hn
    · rw [hc]; simp only [hs, ↓reduceIte]; rw [hr]
  · have hs' : o.stored = false := by simpa using hs
    simp only [hs', Bool.false_eq_true, ↓reduceIte]
    refine ⟨hv, by simp [hs'], fun o' j hn => ho o' j (by simpa [storeCells, hs'] using hn), hl, ?_⟩
    simpa [hs'] using hr

/-- A plain write. -/
theorem State.odSet_sets {s : State} (hf : s.odFree = true) {o : Obj} (h : objKey o ≠ objKey D.STORE_STATE) (i : Nat) (w : OdWrite) :
    Sets s (s.odSet o i w) o i (odNum w) := by
  have hb := s.setObj_sets h i w
  obtain ⟨-, hbz, -⟩ := s.odFree_iff.mp hf
  obtain ⟨hw, hr, -⟩ := State.odBusy_false hbz
  have hrest := hb.rest
  have hrun : (s.setObj o i w).odRun = none := by rw [hrest]; exact hr
  have hwt : (s.setObj o i w).odWait = false := by rw [hrest]; exact hw
  have e : s.odSet o i w = { s.setObj o i w with out := (s.setObj o i w).out ++ [.od 0 0 0] } := by
    unfold State.odSet State.odDone
    rw [State.odAnswer_alone hrun _ _ _ (by decide)]
    simp only [hwt]
  rw [e]
  refine ⟨hb.value, hb.pend, ?_, fun o' j hn => hb.objs o' j hn, fun o' j hn => hb.lens o' j hn, ?_⟩
  · show (s.setObj o i w).out ++ _ = _
    rw [hrest]
  · show _ = _
    rw [hrest]
    split <;> rfl

end Sys2Proof.Machine
end

