-- ==== Sys2Proof/Laws/Events.lean ====
section
/-! SUPPORT. What raising an event, counting and sending leave as they were. -/

namespace Sys2Proof.Machine

theorem KeysBut.refl (s : State) (l : List Nat) : KeysBut s s l := fun _ _ _ => rfl

theorem KeysBut.trans {s t u : State} {l : List Nat} (h : KeysBut s t l) (h' : KeysBut t u l) : KeysBut s u l :=
  fun o j hn => (h' o j hn).trans (h o j hn)

theorem KeysBut.congr {s t : State} (ho : t.objs = s.objs) (hv : t.variant = s.variant) (l : List Nat) : KeysBut s t l :=
  fun _ _ _ => State.rd_congr ho hv _ _

theorem KeysBut.wr {s t : State} {l : List Nat} (h : KeysBut s t l) {o : Obj} (hm : objKey o ∈ l) (i v : Nat) : KeysBut s (t.wr o i v) l := by
  intro o' j hn
  rw [State.rd_wr_key _ (fun e => hn (by rw [e]; exact hm))]
  exact h o' j hn

theorem KeysBut.count {s t : State} {l : List Nat} (h : KeysBut s t l) {o : Obj} (hm : objKey o ∈ l) (i n : Nat) : KeysBut s (t.count o i n) l :=
  h.wr hm _ _

theorem KeysBut.mono {s t : State} {l m : List Nat} (h : KeysBut s t l) (hl : ∀ k, k ∈ l → k ∈ m) : KeysBut s t m :=
  fun o j hn => h o j (fun hk => hn (hl _ hk))

/-- Only what has been sent differs. -/
def Sends (s t : State) : Prop := t = { s with out := t.out }

theorem Sends.refl (s : State) : Sends s s := rfl

theorem Sends.trans {s t u : State} (h : Sends s t) (h' : Sends t u) : Sends s u := by
  unfold Sends at *
  rw [h', h]

theorem Sends.emit (s : State) (x : Out) : Sends s (s.emit x) := rfl

theorem Sends.msix (s : State) (f v : Nat) : Sends s (s.msix f v) := by
  unfold State.msix; split <;> rfl

theorem Sends.foldl {α : Type} {f : State → α → State} (hf : ∀ t a, Sends t (f t a)) (l : List α) (s : State) : Sends s (l.foldl f s) := by
  induction l generalizing s with
  | nil => rfl
  | cons a l ih => exact (hf s a).trans (ih _)

theorem Sends.eventVectors (s : State) : Sends s s.eventVectors := Sends.foldl (fun _ _ => Sends.msix _ _ _) _ _

theorem Sends.philOut (s : State) (d n b : Nat) : Sends s (s.philOut d n b) := by
  unfold State.philOut; split <;> rfl

theorem Sends.sendEvent (s : State) (e : EvRec) : Sends s (s.sendEvent e) := by
  unfold State.sendEvent; simp only []; split <;> exact Sends.philOut _ _ _ _

theorem Sends.keys {s t : State} (h : Sends s t) (l : List Nat) : KeysBut s t l := by
  rw [h]; exact .congr rfl rfl _

theorem Reports.refl (s : State) : Reports s s := rfl

theorem Reports.trans {s t u : State} (h : Reports s t) (h' : Reports t u) : Reports s u := by
  unfold Reports at *
  rw [h', h]

theorem Sends.reports {s t : State} (h : Sends s t) : Reports s t := by
  unfold Sends at h; unfold Reports; rw [h]

theorem Reports.wr (s : State) (o : Obj) (i v : Nat) : Reports s (s.wr o i v) := rfl

theorem Reports.count (s : State) (o : Obj) (i n : Nat) : Reports s (s.count o i n) := rfl

theorem Reports.emit (s : State) (x : Out) : Reports s (s.emit x) := rfl

theorem Reports.foldl {α : Type} {f : State → α → State} (hf : ∀ t a, Reports t (f t a)) (l : List α) (s : State) : Reports s (l.foldl f s) := by
  induction l generalizing s with
  | nil => rfl
  | cons a l ih => exact (hf s a).trans (ih _)

theorem KeysBut.foldl {α : Type} {k : List Nat} {f : State → α → State} (hf : ∀ t a, KeysBut t (f t a) k) (l : List α) (s : State) :
    KeysBut s (l.foldl f s) k := by
  induction l generalizing s with
  | nil => exact .refl _ _
  | cons a l ih => exact (hf s a).trans (ih _)

/-- Objects that raising an event may change. -/
def raiseKeys : List Nat := [objKey D.PHIL_EVENT_DROPPED, objKey D.FAULT_LOG_DROPPED]

theorem State.logPush_reports (s : State) (k m b : Nat) : Reports s (s.logPush k m b) := by
  unfold State.logPush; split <;> rfl

theorem State.logPush_keys (s : State) (k m b : Nat) : KeysBut s (s.logPush k m b) raiseKeys := by
  unfold State.logPush; split
  · exact .congr rfl rfl _
  · exact (KeysBut.refl _ _).count (by simp [raiseKeys]) _ _

/-- The queue's share of an event. -/
def State.queued (s : State) (ev part detail : Nat) : State :=
  let e : EvRec := { seq := s.eventSeq + 1, word := eventWord ev part (s.eventSeq + 1) s.gate detail, sends := if s.uttexPause then 0 else 1 }
  if s.events.length < 256 then { s with eventSeq := s.eventSeq + 1, events := s.events ++ [e] }
  else ({ s with eventSeq := s.eventSeq + 1, events := dropOldest s.events ++ [e] } : State).count D.PHIL_EVENT_DROPPED 0 1

/-- An event is queued; then something is sent; then it is logged, if R430 says so. -/
theorem State.raise_shape (s : State) (ev part detail : Nat) :
    ∃ t, Sends (s.queued ev part detail) t ∧
      s.raise ev part detail =
        if loggedEvent ev then t.logPush 1 0 (eventWord ev part (s.eventSeq + 1) s.gate detail) else t := by
  refine ⟨(if s.uttexPause then s.queued ev part detail else (s.queued ev part detail).sendEvent
    { seq := s.eventSeq + 1, word := eventWord ev part (s.eventSeq + 1) s.gate detail, sends := if s.uttexPause then 0 else 1 }).eventVectors, ?_, rfl⟩
  refine Sends.trans ?_ (Sends.eventVectors _)
  split
  · rfl
  · exact Sends.sendEvent _ _

theorem State.queued_reports (s : State) (ev part detail : Nat) : Reports s (s.queued ev part detail) := by
  unfold State.queued; simp only []; split <;> rfl

theorem State.queued_keys (s : State) (ev part detail : Nat) : KeysBut s (s.queued ev part detail) raiseKeys := by
  unfold State.queued; simp only []; split
  · exact .congr rfl rfl _
  · exact KeysBut.count (.congr rfl rfl _) (by simp [raiseKeys]) _ _

theorem State.raise_reports (s : State) (ev part detail : Nat) : Reports s (s.raise ev part detail) := by
  obtain ⟨t, ht, e⟩ := s.raise_shape ev part detail
  rw [e]
  have h := (s.queued_reports ev part detail).trans ht.reports
  split
  · exact h.trans (t.logPush_reports _ _ _)
  · exact h

theorem State.raise_keys (s : State) (ev part detail : Nat) : KeysBut s (s.raise ev part detail) raiseKeys := by
  obtain ⟨t, ht, e⟩ := s.raise_shape ev part detail
  rw [e]
  have h := (s.queued_keys ev part detail).trans (ht.keys _)
  split
  · exact h.trans (t.logPush_keys _ _ _)
  · exact h

/-- Any object but the two counters of the event path reads the same after an event. -/
theorem State.rd_raise (s : State) (ev part detail : Nat) {o : Obj} (h : objKey o ∉ raiseKeys) (i : Nat) :
    (s.raise ev part detail).rd o i = s.rd o i := s.raise_keys ev part detail o i h

theorem State.raise_eventSeq (s : State) (ev part detail : Nat) : (s.raise ev part detail).eventSeq = s.eventSeq + 1 := by
  obtain ⟨t, ht, e⟩ := s.raise_shape ev part detail
  have hq : (s.queued ev part detail).eventSeq = s.eventSeq + 1 := by
    unfold State.queued; simp only []; split <;> rfl
  have h1 : t.eventSeq = s.eventSeq + 1 := by rw [ht]; exact hq
  rw [e]
  split
  · unfold State.logPush; split <;> exact h1
  · exact h1

@[simp] theorem State.raise_port (s : State) (ev part detail i : Nat) : (s.raise ev part detail).port i = s.port i := by
  rw [s.raise_reports ev part detail]; rfl
@[simp] theorem State.raise_site (s : State) (ev part detail i : Nat) : (s.raise ev part detail).site i = s.site i := by
  rw [s.raise_reports ev part detail]; rfl
@[simp] theorem State.raise_mem (s : State) (ev part detail : Nat) : (s.raise ev part detail).mem = s.mem := by
  rw [s.raise_reports ev part detail]
@[simp] theorem State.raise_gate (s : State) (ev part detail : Nat) : (s.raise ev part detail).gate = s.gate := by
  rw [s.raise_reports ev part detail]
@[simp] theorem State.raise_boot (s : State) (ev part detail : Nat) : (s.raise ev part detail).boot = s.boot := by
  rw [s.raise_reports ev part detail]
@[simp] theorem State.raise_reqs (s : State) (ev part detail : Nat) : (s.raise ev part detail).reqs = s.reqs := by
  rw [s.raise_reports ev part detail]
@[simp] theorem State.raise_parts (s : State) (ev part detail : Nat) : (s.raise ev part detail).parts = s.parts := by
  rw [s.raise_reports ev part detail]
@[simp] theorem State.raise_lnks (s : State) (ev part detail : Nat) : (s.raise ev part detail).lnks = s.lnks := by
  rw [s.raise_reports ev part detail]
@[simp] theorem State.raise_gsv (s : State) (ev part detail : Nat) : (s.raise ev part detail).gsv = s.gsv := by
  rw [s.raise_reports ev part detail]
@[simp] theorem State.raise_mram (s : State) (ev part detail : Nat) : (s.raise ev part detail).mram = s.mram := by
  rw [s.raise_reports ev part detail]
@[simp] theorem State.raise_variant (s : State) (ev part detail : Nat) : (s.raise ev part detail).variant = s.variant := by
  rw [s.raise_reports ev part detail]

/-! ### Objects of listed keys, and reports -/

/-- `t` is `s` but for the objects of the listed keys and what reports change. -/
structure Tells (l : List Nat) (s t : State) : Prop where
  rest : Reports s t
  keys : KeysBut s t l

theorem Tells.refl (l : List Nat) (s : State) : Tells l s s := ⟨Reports.refl s, KeysBut.refl s l⟩
theorem Tells.trans {l : List Nat} {s t u : State} (h : Tells l s t) (h' : Tells l t u) : Tells l s u := ⟨h.rest.trans h'.rest, h.keys.trans h'.keys⟩
theorem Tells.wr {l : List Nat} {s t : State} (h : Tells l s t) {o : Obj} (hm : objKey o ∈ l) (i v : Nat) : Tells l s (t.wr o i v) :=
  ⟨h.rest.trans (Reports.wr t o i v), h.keys.wr hm i v⟩
theorem Tells.count {l : List Nat} {s t : State} (h : Tells l s t) {o : Obj} (hm : objKey o ∈ l) (i n : Nat) : Tells l s (t.count o i n) := h.wr hm i _
theorem Tells.emit {l : List Nat} {s t : State} (h : Tells l s t) (x : Out) : Tells l s (t.emit x) :=
  ⟨h.rest.trans (Reports.emit t x), h.keys.trans (KeysBut.congr rfl rfl l)⟩
theorem Tells.raise {l : List Nat} {s t : State} (h : Tells l s t) (hl : ∀ k, k ∈ raiseKeys → k ∈ l) (e p d : Nat) : Tells l s (t.raise e p d) :=
  ⟨h.rest.trans (State.raise_reports t e p d), h.keys.trans ((State.raise_keys t e p d).mono hl)⟩
theorem Tells.foldl {α : Type} {l : List Nat} {f : State → α → State} (hf : ∀ t a, Tells l t (f t a)) : ∀ (m : List α) (s : State), Tells l s (m.foldl f s)
  | [], s => Tells.refl l s
  | a :: m, s => (hf s a).trans (Tells.foldl hf m (f s a))
theorem Tells.rd {l : List Nat} {s t : State} (h : Tells l s t) {o : Obj} (ho : objKey o ∉ l) (i : Nat) : t.rd o i = s.rd o i := h.keys o i ho

end Sys2Proof.Machine
end

