-- ==== Sys2Proof/Laws/Commands.lean ====
section
/-! SUPPORT. What an access of the object dictionary that its owner takes answers, and plain facts about tables and object values. -/

namespace Sys2Proof.Machine

theorem takes_refuses {s : State} {o : Obj} {i : Nat} {w : OdWrite} (h : s.takes o i w = true) {c : Instr} {st : Nat} (e : exec c s = .next (s.odFail st))
    (hs : st ≠ St.UNIT_ABSENT) : ∃ t, exec c s = .next t ∧ Refuses s t st := ⟨_, e, State.odFail_refuses (State.takes_idle h).1 hs⟩
theorem takes_sets {s : State} {o : Obj} {i : Nat} {w : OdWrite} (h : s.takes o i w = true) {c : Instr} (e : exec c s = .next (s.odSet o i w))
    (ho : objKey o ≠ objKey D.STORE_STATE) : ∃ t, exec c s = .next t ∧ Sets s t o i (odNum w) := ⟨_, e, State.odSet_sets (State.takes_idle h).1 ho _ _⟩
theorem State.rd_out (t : State) (x : List Out) (o : Obj) (i : Nat) : ({ t with out := x } : State).rd o i = t.rd o i := rfl

theorem State.rd_setObj_key (s : State) {o o' : Obj} (h1 : objKey o ≠ objKey D.STORE_STATE) (h2 : objKey o' ≠ objKey o) (h3 : objKey o' ≠ objKey D.STORE_STATE)
    (i j : Nat) (w : OdWrite) : (s.setObj o i w).rd o' j = s.rd o' j := by
  refine (State.setObj_sets s h1 i w).objs _ _ ?_
  intro hm
  rcases List.mem_cons.1 hm with hm | hm
  · simp only [Prod.mk.injEq] at hm; exact absurd hm.1 h2
  · unfold storeCells at hm; split at hm
    · rw [List.mem_singleton] at hm; simp only [Prod.mk.injEq] at hm; exact absurd hm.1 h3
    · cases hm
theorem State.setObj_od (s : State) {o : Obj} (h1 : objKey o ≠ objKey D.STORE_STATE) (i : Nat) (w : OdWrite) :
    (s.setObj o i w).odWait = s.odWait ∧ (s.setObj o i w).odRun = s.odRun ∧ (s.setObj o i w).out = s.out := by
  rw [(State.setObj_sets s h1 i w).rest]; exact ⟨rfl, rfl, rfl⟩

theorem takes_absent {s : State} {o : Obj} {i : Nat} {w : OdWrite} (h : s.takes o i w = true) : ∃ u, s.odFail St.UNIT_ABSENT = u ∧
    u.out = s.out ++ [.od St.UNIT_ABSENT 0 0] ∧ ObjsBut s u [(objKey D.UNIT_ABSENT_COUNT, 0)] := by
  have q := State.odBusy_false ((State.odFree_iff s).1 (State.takes_idle h).1).2.1
  refine ⟨_, rfl, ?_, ?_⟩
  · unfold State.odFail State.odAnswer State.noteStatus; simp [State.count, q.2.1, State.emit]
  · unfold State.odFail State.odAnswer State.noteStatus; simp only [if_true]
    have : (s.count D.UNIT_ABSENT_COUNT 0 1).odRun = none := q.2.1
    rw [this]
    exact ((ObjsBut.refl s _).wr (List.mem_singleton.2 rfl) _).trans (ObjsBut.congr (by rfl) (by rfl) _)

theorem State.fn_same (s : State) (f : Nat) (h : HostFn) : (s.setFn f h).fn f = h := by unfold State.fn State.setFn; exact Table.get_set_same _ _ _ _
theorem State.lnk_same (s : State) (n : Nat) (x : Lnk) : (s.setLnk n x).lnk n = x := by unfold State.lnk State.setLnk; exact Table.get_set_same _ _ _ _
theorem State.clk_same (s : State) (n : Nat) (x : Clk) : (s.setClk n x).clk n = x := by unfold State.clk State.setClk; exact Table.get_set_same _ _ _ _
theorem State.rd_clear_same (s : State) (o : Obj) (i : Nat) : (s.clearObj o).rd o i = o.dflt s.variant i := by
  simp [State.rd, State.clearObj]
theorem State.rd_clear_key (s : State) {o o' : Obj} (h : objKey o' ≠ objKey o) (i : Nat) : (s.clearObj o).rd o' i = s.rd o' i := by
  unfold State.rd State.clearObj; rw [Table.get_set_ne _ _ h]

theorem OnlyObjs.trans {s t u : State} (h : OnlyObjs s t) (h' : OnlyObjs t u) : OnlyObjs s u := by
  unfold OnlyObjs at *
  exact h'.trans (by rw [h])

/-- Writes of one object, folded over a list. -/
theorem foldl_oneObj {α : Type} (l : List α) (o : Obj) (f : State → α → State) (h : ∀ t a, KeysBut t (f t a) [objKey o] ∧ OnlyObjs t (f t a)) :
    ∀ s, KeysBut s (l.foldl f s) [objKey o] ∧ OnlyObjs s (l.foldl f s) := by
  induction l with
  | nil => exact fun s => ⟨KeysBut.refl _ _, rfl⟩
  | cons a l ih =>
    intro s
    exact ⟨(h s a).1.trans (ih _).1, OnlyObjs.trans (h s a).2 (ih (f s a)).2⟩

theorem range_foldl_wr (o : Obj) (f : State → Nat → Nat → Nat) (hf : ∀ t u i x, t.served = u.served → f t i x = f u i x) (n : Nat) : ∀ s : State,
    let t := (List.range n).foldl (fun u i => u.wr o i (f u i (u.rd o i))) s
    t.served = s.served ∧ KeysBut s t [objKey o] ∧ (∀ i, i < n → t.rd o i = f s i (s.rd o i)) ∧ (∀ i, n ≤ i → t.rd o i = s.rd o i) ∧ OnlyObjs s t := by
  induction n with
  | zero => intro s; exact ⟨rfl, KeysBut.refl _ _, fun i h => absurd h (Nat.not_lt_zero i), fun _ _ => rfl, rfl⟩
  | succ n ih =>
    intro s
    simp only [List.range_succ, List.foldl_append, List.foldl_cons, List.foldl_nil]
    obtain ⟨a, b, c, d, e⟩ := ih s
    obtain ⟨t, ht⟩ : ∃ t, t = (List.range n).foldl (fun u i => u.wr o i (f u i (u.rd o i))) s := ⟨_, rfl⟩
    simp only [← ht] at a b c d e ⊢
    refine ⟨a, b.wr (List.mem_singleton.2 rfl) _ _, fun i h => ?_, fun i h => ?_, e.wr _ _ _⟩
    · by_cases k : i = n
      · subst k; rw [State.rd_wr_same, hf t s _ _ a, d _ (Nat.le_refl _)]
      · rw [State.rd_wr_inst _ _ _ k]; exact c i (by omega)
    · rw [State.rd_wr_inst _ _ _ (by omega)]; exact d i (by omega)

def regKeys : List Nat := [objKey D.MEM_CAPACITY, objKey D.MEM_SCALE, objKey D.LINK_CAPACITY, objKey D.LINK_SCALE, objKey D.PHIL_EVENT_DROPPED, objKey D.FAULT_LOG_DROPPED]

theorem zero_foldl (o : Obj) (base n : Nat) : ∀ s : State,
    let t := (List.range n).foldl (fun u k => u.wr o (base + k) 0) s
    KeysBut s t [objKey o] ∧ (∀ k, k < n → t.rd o (base + k) = 0) ∧ OnlyObjs s t := by
  induction n with
  | zero => intro s; exact ⟨KeysBut.refl _ _, fun i h => absurd h (Nat.not_lt_zero i), rfl⟩
  | succ n ih =>
    intro s
    simp only [List.range_succ, List.foldl_append, List.foldl_cons, List.foldl_nil]
    obtain ⟨b, c, e⟩ := ih s
    obtain ⟨t, ht⟩ : ∃ t, t = (List.range n).foldl (fun u k => u.wr o (base + k) 0) s := ⟨_, rfl⟩
    simp only [← ht] at b c e ⊢
    refine ⟨b.wr (List.mem_singleton.2 rfl) _ _, fun i h => ?_, e.wr _ _ _⟩
    by_cases k : i = n
    · subst k; rw [State.rd_wr_same]
    · rw [State.rd_wr_inst _ _ _ (by omega)]; exact c i (by omega)

end Sys2Proof.Machine
end

