-- ==== Sys2Proof/Laws/Memory.lean ====
section
/-! SUPPORT. The laws of memory (canonical form, reading back what was stored) and of the event queue. -/

namespace Sys2Proof.Machine

theorem memSet_wf (m : List Host.Cell) (a v : Nat) (h : Memory.wf m = true) : Memory.wf (memSet m a v) = true := Table.set_wf _ _ _ _ h

/-- A masked write keeps the canonical form. -/
theorem memWrite_wf (n a v mask : Nat) (m : List Host.Cell) (h : Memory.wf m = true) : Memory.wf (memWrite n a v mask m) = true := by
  induction n generalizing a v mask m with
  | zero => exact h
  | succ n ih =>
    unfold memWrite
    refine ih _ _ _ _ ?_
    split
    · exact memSet_wf _ _ _ h
    · exact h

/-- One byte after a masked write of `n` bytes from `a`: the byte written where its mask bit is set, else the byte before. -/
theorem memWrite_get (n a v mask : Nat) (m : List Host.Cell) (x : Nat) :
    Table.get (0 : BitVec 8) x (memWrite n a v mask m) =
      if a ≤ x ∧ x < a + n ∧ mask.testBit (x - a) = true then BitVec.ofNat 8 (v / 256 ^ (x - a)) else Table.get (0 : BitVec 8) x m := by
  induction n generalizing a v mask m with
  | zero =>
    have : ¬ (a ≤ x ∧ x < a + 0 ∧ mask.testBit (x - a) = true) := by omega
    rw [if_neg this]; rfl
  | succ n ih =>
    unfold memWrite
    rw [ih]
    by_cases hx : x = a
    · subst hx
      have h1 : ¬ (x + 1 ≤ x ∧ x < x + 1 + n ∧ (mask / 2).testBit (x - (x + 1)) = true) := by omega
      rw [if_neg h1]
      have hm : (mask % 2 = 1) = (mask.testBit 0 = true) := by simp [Nat.testBit_zero]
      by_cases hb : mask % 2 = 1
      · rw [if_pos hb, if_pos ⟨Nat.le_refl _, by omega, by rw [Nat.sub_self]; exact hm ▸ hb⟩]
        unfold memSet
        rw [Table.get_set_same, Nat.sub_self, Nat.pow_zero, Nat.div_one]
        apply BitVec.eq_of_toNat_eq
        simp [BitVec.toNat_ofNat]
      · have h2 : ¬ (x ≤ x ∧ x < x + (n + 1) ∧ mask.testBit (x - x) = true) := by
          rintro ⟨-, -, h⟩; rw [Nat.sub_self] at h; exact hb (hm ▸ h)
        rw [if_neg hb, if_neg h2]
    · have hg : Table.get (0 : BitVec 8) x (if mask % 2 = 1 then memSet m a (v % 256) else m) = Table.get (0 : BitVec 8) x m := by
        split
        · exact Table.get_set_ne _ _ hx _ _
        · rfl
      rw [hg]
      by_cases hlt : x < a
      · rw [if_neg (by omega), if_neg (by omega)]
      · obtain ⟨d, rfl⟩ : ∃ d, x = a + 1 + d := ⟨x - (a + 1), by omega⟩
        have e1 : a + 1 + d - (a + 1) = d := by omega
        have e2 : a + 1 + d - a = d + 1 := by omega
        have e3 : (mask / 2).testBit d = mask.testBit (d + 1) := (Nat.testBit_succ mask d).symm
        have e4 : v / 256 / 256 ^ d = v / 256 ^ (d + 1) := by rw [Nat.div_div_eq_div_mul, Nat.pow_succ, Nat.mul_comm]
        rw [e1, e2, e3, e4]
        have e5 : (a + 1 ≤ a + 1 + d ∧ a + 1 + d < a + 1 + n ∧ mask.testBit (d + 1) = true) ↔
            (a ≤ a + 1 + d ∧ a + 1 + d < a + (n + 1) ∧ mask.testBit (d + 1) = true) :=
          ⟨fun h => ⟨by omega, by omega, h.2.2⟩, fun h => ⟨by omega, by omega, h.2.2⟩⟩
        by_cases hc : (a ≤ a + 1 + d ∧ a + 1 + d < a + (n + 1) ∧ mask.testBit (d + 1) = true)
        · rw [if_pos hc, if_pos (e5.mpr hc)]
        · rw [if_neg hc, if_neg (fun h => hc (e5.mp h))]

theorem foldl_min_mem (l : List EvRec) (a : Nat) : l.foldl (fun x e => min x e.seq) a = a ∨ ∃ e ∈ l, l.foldl (fun x e => min x e.seq) a = e.seq := by
  induction l generalizing a with
  | nil => exact .inl rfl
  | cons b l ih =>
    rcases ih (min a b.seq) with h | ⟨e, he, h⟩
    · rcases Nat.le_total a b.seq with hab | hab
      · left; rw [List.foldl_cons, h]; exact Nat.min_eq_left hab
      · right; refine ⟨b, List.mem_cons_self .., ?_⟩; rw [List.foldl_cons, h]; exact Nat.min_eq_right hab
    · right; exact ⟨e, List.mem_cons_of_mem _ he, h⟩

/-- Dropping the oldest event shortens a queue that holds one. -/

theorem dropOldest_length (l : List EvRec) (h : l ≠ []) : (dropOldest l).length < l.length := by
  unfold dropOldest
  apply List.length_filter_lt_length_iff_exists.mpr
  cases l with
  | nil => exact absurd rfl h
  | cons a l =>
    rcases foldl_min_mem (a :: l) a.seq with hm | ⟨e, he, hm⟩
    · refine ⟨a, List.mem_cons_self .., ?_⟩; simp only [List.head?_cons, Option.map_some, Option.getD_some]; rw [hm]; simp
    · refine ⟨e, he, ?_⟩; simp only [List.head?_cons, Option.map_some, Option.getD_some]; rw [hm]; simp

end Sys2Proof.Machine
end

