-- ==== Sys2Proof/Laws/Keeps.lean ====
section
/-! SUPPORT. What every meaning keeps, whatever else it does: the part and the queue of commands stay as they are, what has been sent stays sent, free
values are drawn in order, and memory, the poison map, the event queue and the waiting log entries keep their forms. One lemma per operation says so
(KeepsOps.lean to KeepsRequests.lean); the lemmas here put them together. -/

namespace Sys2Proof.Machine

/-- `t` has come from `r` by operations of the block. -/
structure Keeps (r t : State) : Prop where
  variant : t.variant = r.variant
  pending : t.pending = r.pending
  out : r.out <+: t.out
  free : r.freeCtr ≤ t.freeCtr
  mem : Memory.wf r.mem = true → Memory.wf t.mem = true
  poison : Table.wf false r.poison = true → Table.wf false t.poison = true
  events : r.events.length ≤ 256 → t.events.length ≤ 256
  flog : r.flogWait.length ≤ 256 → t.flogWait.length ≤ 256

/-- The same for an outcome, an optional state, and a state that comes with other data. -/
def KeepsX (r : State) (o : Host.Outcome State Fault Refusal) : Prop := ∀ t, o = .next t → Keeps r t

def KeepsO (r : State) (o : Option State) : Prop := ∀ t, o = some t → Keeps r t

def KeepsO1 {α : Type} (r : State) (o : Option (State × α)) : Prop := ∀ t, o = some t → Keeps r t.1

def KeepsO2 {α : Type} (r : State) (o : Option (α × State)) : Prop := ∀ t, o = some t → Keeps r t.2

theorem Keeps.refl (r : State) : Keeps r r := ⟨rfl, rfl, List.prefix_refl _, Nat.le_refl _, id, id, id, id⟩

theorem keepsX_next {r t : State} (h : Keeps r t) : KeepsX r (.next t) := by intro u hu; cases hu; exact h

theorem keepsO_none {r : State} : KeepsO r none := by intro u hu; cases hu

theorem keepsO_some {r t : State} (h : Keeps r t) : KeepsO r (some t) := by intro u hu; cases hu; exact h

theorem keepsO1_none {α : Type} {r : State} : KeepsO1 (α := α) r none := by intro u hu; cases hu

theorem keepsO1_some {α : Type} {r : State} {p : State × α} (h : Keeps r p.1) : KeepsO1 r (some p) := by intro u hu; cases hu; exact h

theorem keepsO2_none {α : Type} {r : State} : KeepsO2 (α := α) r none := by intro u hu; cases hu

theorem keepsO2_some {α : Type} {r : State} {p : α × State} (h : Keeps r p.2) : KeepsO2 r (some p) := by intro u hu; cases hu; exact h

theorem keepsS_ite {c : Prop} [Decidable c] {r a b : State} (ha : Keeps r a) (hb : Keeps r b) : Keeps r (if c then a else b) := by
  split <;> assumption

theorem keepsX_ite {c : Prop} [Decidable c] {r : State} {a b : Host.Outcome State Fault Refusal} (ha : KeepsX r a) (hb : KeepsX r b) :
    KeepsX r (if c then a else b) := by
  split <;> assumption

theorem keepsO_ite {c : Prop} [Decidable c] {r : State} {a b : Option State} (ha : KeepsO r a) (hb : KeepsO r b) :
    KeepsO r (if c then a else b) := by
  split <;> assumption

theorem keepsO1_ite {c : Prop} [Decidable c] {α : Type} {r : State} {a b : Option (State × α)} (ha : KeepsO1 r a) (hb : KeepsO1 r b) :
    KeepsO1 r (if c then a else b) := by
  split <;> assumption

theorem keepsO2_ite {c : Prop} [Decidable c] {α : Type} {r : State} {a b : Option (α × State)} (ha : KeepsO2 r a) (hb : KeepsO2 r b) :
    KeepsO2 r (if c then a else b) := by
  split <;> assumption

theorem keepsP1_ite {c : Prop} [Decidable c] {α : Type} {r : State} {a b : State × α} (ha : Keeps r a.1) (hb : Keeps r b.1) :
    Keeps r (if c then a else b).1 := by
  split <;> assumption

theorem keepsP2_ite {c : Prop} [Decidable c] {α : Type} {r : State} {a b : α × State} (ha : Keeps r a.2) (hb : Keeps r b.2) :
    Keeps r (if c then a else b).2 := by
  split <;> assumption

theorem keeps_foldl {α : Type} {r s : State} {f : State → α → State} {l : List α} (hf : ∀ t a, Keeps r t → Keeps r (f t a))
    (h : Keeps r s) : Keeps r (l.foldl f s) := by
  induction l generalizing s with
  | nil => exact h
  | cons a l ih => exact ih (hf s a h)

theorem keeps_fst {α : Type} {r a : State} {b : α} {p : State × α} (h : Keeps r p.1) (e : p = (a, b)) : Keeps r a := by
  subst e; exact h

theorem keeps_snd {α : Type} {r a : State} {b : α} {p : α × State} (h : Keeps r p.2) (e : p = (b, a)) : Keeps r a := by
  subst e; exact h

theorem keeps_optO {r a : State} {p : Option State} (h : KeepsO r p) (e : p = some a) : Keeps r a := h a e

theorem keeps_optO1 {α : Type} {r a : State} {b : α} {p : Option (State × α)} (h : KeepsO1 r p) (e : p = some (a, b)) : Keeps r a := h _ e

theorem keeps_optO2 {α : Type} {r a : State} {b : α} {p : Option (α × State)} (h : KeepsO2 r p) (e : p = some (b, a)) : Keeps r a := h _ e

theorem keepsP1_foldl {α β : Type} {r : State} {s : State × β} {f : State × β → α → State × β} {l : List α}
    (hf : ∀ t a, Keeps r t.1 → Keeps r (f t a).1) (h : Keeps r s.1) : Keeps r (l.foldl f s).1 := by
  induction l generalizing s with
  | nil => exact h
  | cons a l ih => exact ih (hf s a h)

theorem keepsP2_foldl {α β : Type} {r : State} {s : β × State} {f : β × State → α → β × State} {l : List α}
    (hf : ∀ t a, Keeps r t.2 → Keeps r (f t a).2) (h : Keeps r s.2) : Keeps r (l.foldl f s).2 := by
  induction l generalizing s with
  | nil => exact h
  | cons a l ih => exact ih (hf s a h)

theorem keepsO_foldl {α : Type} {r : State} {s : Option State} {f : Option State → α → Option State} {l : List α}
    (hf : ∀ t a, KeepsO r t → KeepsO r (f t a)) (h : KeepsO r s) : KeepsO r (l.foldl f s) := by
  induction l generalizing s with
  | nil => exact h
  | cons a l ih => exact ih (hf s a h)

theorem keepsO1_foldl {α β : Type} {r : State} {s : Option (State × β)} {f : Option (State × β) → α → Option (State × β)} {l : List α}
    (hf : ∀ t a, KeepsO1 r t → KeepsO1 r (f t a)) (h : KeepsO1 r s) : KeepsO1 r (l.foldl f s) := by
  induction l generalizing s with
  | nil => exact h
  | cons a l ih => exact ih (hf s a h)

theorem keepsMapO1O {α : Type} {r : State} {o : Option (State × α)} {f : State × α → State} (hf : ∀ x, Keeps r x.1 → Keeps r (f x))
    (h : KeepsO1 r o) : KeepsO r (o.map f) := by
  intro t ht; cases o with
  | none => cases ht
  | some x => cases ht; exact hf x (h x rfl)

theorem keepsMapO1O1 {α β : Type} {r : State} {o : Option (State × α)} {f : State × α → State × β}
    (hf : ∀ x, Keeps r x.1 → Keeps r (f x).1) (h : KeepsO1 r o) : KeepsO1 r (o.map f) := by
  intro t ht; cases o with
  | none => cases ht
  | some x => cases ht; exact hf x (h x rfl)

def KeepsOF (r : State) (o : Option (State → State)) : Prop := ∀ k, o = some k → ∀ t, Keeps r t → Keeps r (k t)

theorem keepsOF_none {r : State} : KeepsOF r none := by intro k hk; cases hk

theorem keepsOF_some {r : State} {k : State → State} (h : ∀ t, Keeps r t → Keeps r (k t)) : KeepsOF r (some k) := by
  intro k' hk; cases hk; exact h

theorem keepsOF_ite {c : Prop} [Decidable c] {r : State} {a b : Option (State → State)} (ha : KeepsOF r a) (hb : KeepsOF r b) :
    KeepsOF r (if c then a else b) := by
  split <;> assumption

theorem keepsS_dite {c : Prop} [Decidable c] {r : State} {a : c → State} {b : ¬c → State} (ha : ∀ h, Keeps r (a h)) (hb : ∀ h, Keeps r (b h)) :
    Keeps r (if h : c then a h else b h) := by
  split
  · exact ha _
  · exact hb _

theorem keepsMapOO1 {β : Type} {r : State} {o : Option State} {f : State → State × β}
    (hf : ∀ x, Keeps r x → Keeps r (f x).1) (h : KeepsO r o) : KeepsO1 r (o.map f) := by
  intro t ht; cases o with
  | none => cases ht
  | some x => cases ht; exact hf x (h x rfl)

/-- A record update of other fields. -/
theorem keeps_mk {r s : State} {gate : Nat} {gateRun : Bool} {objs : List (Nat × List (Nat × Nat))} {lens : List (Nat × List (Nat ×
    Nat))} {reqs : List (Nat × Option Req)} {nextReq : Nat} {nextOrder : Nat} {parts : List (Nat × Part)} {rebinds : List Rebind}
    {eventSeq : Nat} {flog : List (Nat × Option LogEnt)} {ports : List (Nat × Port)} {sites : List (Nat × Site)} {fns : List (Nat ×
    HostFn)} {teDone : List TeDone} {teCtx : List (Nat × List Nat)} {retiring : List (Nat × Option Nat)} {walks : List Walk} {adopting :
    List (Nat × Nat × Bool)} {lift : List PowerUnit} {rising : List PowerUnit} {liftFirst : List PowerUnit} {budget : Nat} {capEv :
    Option Nat} {liftWaited : List PowerUnit} {clkPend : List Nat} {lapA : Option LapTable} {lapS : Option LapTable} {lapOp : Option
    LapOp} {lapCause : Option Nat} {demoted : List Nat} {lapLoad : Option (Nat × Nat)} {clks : List (Nat × Clk)} {clkReq : Option Nat}
    {pcs : List (Nat × Pc)} {chans : List (Nat × Chan)} {rfm : List (Nat × Rfm)} {buckets : List (Nat × Nat × Nat)} {served : List (Nat
    × Nat)} {missEv : List (Nat × Option Nat)} {linkQ : List (Nat × List TxMsg)} {slices : List (Nat × Slice)} {launches : List (Nat ×
    Option Launch)} {forwards : List Forward} {farLaunches : List FarLaunch} {gsv : Gsv} {rings : List (Nat × Ring)} {sweeps : List (Nat
    × Option SweepRun)} {flows : List (Nat × FlowCnt)} {force : List (Nat × List (Nat × Nat))} {inj : List (Nat × List MUnit)} {fsq :
    List (Nat × List MUnit)} {landing : List (Nat × List MUnit)} {flying : List (Nat × Nat × Nat × MUnit)} {seamq : List (Nat × List
    MUnit)} {routeFails : List Nat} {lnks : List (Nat × Lnk)} {routeHold : List Nat} {snapLink : Option Nat} {linkTab : List (Nat ×
    Option Nat)} {quarantine : List Nat} {odRun : Option OdRun} {odWait : Bool} {backlog : List Instr} {staged : List Staged} {philKept
    : List (Nat × List (Nat × Nat × Nat))} {mram : Store} {boot : Boot}     (h : Keeps r s) : Keeps r (State.mk s.variant s.pending
    s.out s.freeCtr gate gateRun objs lens s.mem s.poison reqs nextReq nextOrder parts rebinds s.events eventSeq flog s.flogWait ports
    sites fns teDone teCtx retiring walks adopting lift rising liftFirst budget capEv liftWaited clkPend lapA lapS lapOp lapCause
    demoted lapLoad clks clkReq pcs chans rfm buckets served missEv linkQ slices launches forwards farLaunches gsv rings sweeps flows
    force inj fsq landing flying seamq routeFails lnks routeHold snapLink linkTab quarantine odRun odWait backlog staged philKept mram
    boot) :=
  ⟨h.variant, h.pending, h.out, h.free, h.mem, h.poison, h.events, h.flog⟩

end Sys2Proof.Machine
end

