-- ==== Sys2Proof/Laws/KeepsOps.lean ====
section
/-! SUPPORT. What every operation keeps (Laws/Keeps.lean), one lemma each: the shared operations. -/

namespace Sys2Proof.Machine

theorem State.wr_keeps {r : State} {a0 : State} {a1 : Obj} {a2 : Nat} {a3 : Nat} (ha0 : Keeps r a0) :
    Keeps r (State.wr a0 a1 a2 a3) := by
  unfold State.wr
  exact keeps_mk ha0

theorem State.count_keeps {r : State} {a0 : State} {a1 : Obj} {a2 : Nat} {a3 : Nat} (ha0 : Keeps r a0) :
    Keeps r (State.count a0 a1 a2 a3) := by
  unfold State.count
  exact State.wr_keeps ha0

theorem State.noteStatus_keeps {r : State} {a0 : State} {a1 : Nat} (ha0 : Keeps r a0) :
    Keeps r (State.noteStatus a0 a1) := by
  unfold State.noteStatus
  exact keepsS_ite (State.count_keeps ha0) ha0

theorem State.emit_keeps {r s : State} {x : Out} (h : Keeps r s) : Keeps r (s.emit x) :=
  ⟨h.variant, h.pending, h.out.trans (List.prefix_append _ _), h.free, h.mem, h.poison, h.events, h.flog⟩

theorem State.msix_keeps {r : State} {a0 : State} {a1 : Nat} {a2 : Nat} (ha0 : Keeps r a0) :
    Keeps r (State.msix a0 a1 a2) := by
  unfold State.msix
  exact keepsS_ite (State.emit_keeps ha0) ha0

theorem State.setFn_keeps {r : State} {a0 : State} {a1 : Nat} {a2 : HostFn} (ha0 : Keeps r a0) :
    Keeps r (State.setFn a0 a1 a2) := by
  unfold State.setFn
  exact keeps_mk ha0

theorem State.hostCmdDone_keeps {r : State} {a0 : State} {a1 : Nat} {a2 : Nat} {a3 : Nat} {a4 : Nat} (ha0 : Keeps r a0) :
    Keeps r (State.hostCmdDone a0 a1 a2 a3 a4) := by
  unfold State.hostCmdDone
  extract_lets +onlyGivenNames x0
  have h0 : Keeps r x0 := State.noteStatus_keeps ha0
  try clear_value x0
  extract_lets +onlyGivenNames x1
  try clear_value x1
  extract_lets +onlyGivenNames x2
  try clear_value x2
  exact State.msix_keeps (State.setFn_keeps h0)

theorem State.eventVectors_keeps {r : State} {a0 : State} (ha0 : Keeps r a0) :
    Keeps r (State.eventVectors a0) := by
  unfold State.eventVectors
  exact keeps_foldl (fun _ _ h0 => State.msix_keeps h0) ha0

theorem State.philOut_keeps {r : State} {a0 : State} {a1 : Nat} {a2 : Nat} {a3 : Nat} (ha0 : Keeps r a0) :
    Keeps r (State.philOut a0 a1 a2 a3) := by
  unfold State.philOut
  exact keepsS_ite (State.emit_keeps ha0) ha0

theorem State.sendEvent_keeps {r : State} {a0 : State} {a1 : EvRec} (ha0 : Keeps r a0) :
    Keeps r (State.sendEvent a0 a1) := by
  unfold State.sendEvent
  extract_lets +onlyGivenNames x0
  try clear_value x0
  extract_lets +onlyGivenNames x1
  try clear_value x1
  extract_lets +onlyGivenNames x2
  try clear_value x2
  exact keepsS_ite (State.philOut_keeps ha0) (State.philOut_keeps ha0)

theorem State.logPush_keeps {r s : State} {k m b : Nat} (h : Keeps r s) : Keeps r (s.logPush k m b) := by
  unfold State.logPush
  split
  · rename_i hl
    refine ⟨h.variant, h.pending, h.out, h.free, h.mem, h.poison, h.events, fun _ => ?_⟩
    simp only [List.length_append, List.length_cons, List.length_nil]; omega
  · exact State.count_keeps h

/-- A queue of events replaced by one of at most 256. -/
theorem keeps_events {r s : State} {l : List EvRec} (h : Keeps r s) (hl : s.events.length ≤ 256 → l.length ≤ 256) :
    Keeps r { s with events := l } :=
  ⟨h.variant, h.pending, h.out, h.free, h.mem, h.poison, fun w => hl (h.events w), h.flog⟩
theorem State.raise_keeps {r s : State} {ev part detail : Nat} (h : Keeps r s) : Keeps r (s.raise ev part detail) := by
  unfold State.raise
  extract_lets +onlyGivenNames x0
  extract_lets +onlyGivenNames x1
  extract_lets +onlyGivenNames x2
  extract_lets +onlyGivenNames x3
  have h3 : Keeps r x3 := keeps_mk h
  extract_lets +onlyGivenNames x4
  have h4 : Keeps r x4 := by
    unfold x4
    split
    · rename_i hl
      exact keeps_events h3 (fun _ => by simp only [List.length_append, List.length_cons, List.length_nil]; omega)
    · rename_i hl
      refine State.count_keeps (keeps_events h3 (fun hw => ?_))
      have hn : x3.events ≠ [] := by intro he; rw [he] at hl; exact hl (by decide)
      have := dropOldest_length x3.events hn
      simp only [List.length_append, List.length_cons, List.length_nil]; omega
  extract_lets +onlyGivenNames x5
  have h5 : Keeps r x5 := State.eventVectors_keeps (keepsS_ite h4 (State.sendEvent_keeps h4))
  exact keepsS_ite (State.logPush_keeps h5) h5

theorem State.setPart_keeps {r : State} {a0 : State} {a1 : Nat} {a2 : Part} (ha0 : Keeps r a0) :
    Keeps r (State.setPart a0 a1 a2) := by
  unfold State.setPart
  exact keeps_mk ha0

theorem State.odAnswer_keeps {r : State} {a0 : State} {a1 : Nat} {a2 : Nat} {a3 : Nat} (ha0 : Keeps r a0) :
    Keeps r (State.odAnswer a0 a1 a2 a3) := by
  unfold State.odAnswer
  extract_lets +onlyGivenNames x0
  have h0 : Keeps r x0 := State.noteStatus_keeps ha0
  try clear_value x0
  extract_lets +onlyGivenNames x1
  have h1 : Keeps r x1 := keeps_mk h0
  try clear_value x1
  split
  · exact keeps_mk h1
  · exact State.emit_keeps h1

theorem State.setPort_keeps {r : State} {a0 : State} {a1 : Nat} {a2 : Port} (ha0 : Keeps r a0) :
    Keeps r (State.setPort a0 a1 a2) := by
  unfold State.setPort
  exact keeps_mk ha0

theorem State.delReq_keeps {r : State} {a0 : State} {a1 : Nat} (ha0 : Keeps r a0) :
    Keeps r (State.delReq a0 a1) := by
  unfold State.delReq
  exact keeps_mk ha0

theorem State.setReq_keeps {r : State} {a0 : State} {a1 : Nat} {a2 : Req} (ha0 : Keeps r a0) :
    Keeps r (State.setReq a0 a1 a2) := by
  unfold State.setReq
  exact keeps_mk ha0

theorem State.setSite_keeps {r : State} {a0 : State} {a1 : Nat} {a2 : Site} (ha0 : Keeps r a0) :
    Keeps r (State.setSite a0 a1 a2) := by
  unfold State.setSite
  exact keeps_mk ha0

theorem State.portSent_keeps {r : State} {a0 : State} {a1 : Nat} {a2 : Nat} (ha0 : Keeps r a0) :
    Keeps r (State.portSent a0 a1 a2) := by
  unfold State.portSent
  extract_lets +onlyGivenNames x0
  try clear_value x0
  extract_lets +onlyGivenNames x1
  try clear_value x1
  exact State.setPort_keeps ha0

theorem State.rsp_keeps {r : State} {a0 : State} {a1 : Nat} {a2 : Nat} {a3 : Nat} {a4 : Nat} {a5 : Nat} (ha0 : Keeps r a0) :
    Keeps r (State.rsp a0 a1 a2 a3 a4 a5) := by
  unfold State.rsp
  exact State.emit_keeps (State.portSent_keeps (State.noteStatus_keeps ha0))

theorem State.sendLink_keeps {r : State} {a0 : State} {a1 : Nat} {a2 : TxMsg} (ha0 : Keeps r a0) :
    Keeps r (State.sendLink a0 a1 a2) := by
  unfold State.sendLink
  exact keeps_mk ha0

theorem State.linkRespond_keeps {r : State} {a0 : State} {a1 : Nat} {a2 : Nat} {a3 : Nat} {a4 : Nat} (ha0 : Keeps r a0) :
    Keeps r (State.linkRespond a0 a1 a2 a3 a4) := by
  unfold State.linkRespond
  extract_lets +onlyGivenNames x0
  have h0 : Keeps r x0 := State.noteStatus_keeps ha0
  try clear_value x0
  split
  · exact State.sendLink_keeps h0
  · exact h0

theorem State.gatherAck_keeps {r : State} {a0 : State} {a1 : Nat} {a2 : Nat} {a3 : Nat} (ha0 : Keeps r a0) :
    Keeps r (State.gatherAck a0 a1 a2 a3) := by
  unfold State.gatherAck
  split
  · exact keepsS_ite (keeps_mk ha0) ha0
  · exact ha0

theorem State.answer_keeps {r : State} {a0 : State} {a1 : Nat} {a2 : Origin} {a3 : Nat} {a4 : Nat} {a5 : Nat} (ha0 : Keeps r a0) :
    Keeps r (State.answer a0 a1 a2 a3 a4 a5) := by
  unfold State.answer
  split
  · exact State.rsp_keeps ha0
  · exact State.emit_keeps (State.noteStatus_keeps ha0)
  · exact keepsS_ite ha0 (State.emit_keeps (State.noteStatus_keeps ha0))
  · exact State.hostCmdDone_keeps ha0
  · extract_lets +onlyGivenNames x0
    have h0 : Keeps r x0 := State.noteStatus_keeps ha0
    try clear_value x0
    exact keeps_mk h0
  · exact State.linkRespond_keeps ha0
  · exact State.odAnswer_keeps ha0
  · exact keepsS_ite (State.gatherAck_keeps ha0) ha0
  · exact ha0
  · exact ha0

theorem State.freeChunks_keeps {r : State} {a0 : State} {a1 : Req} (ha0 : Keeps r a0) :
    Keeps r (State.freeChunks a0 a1) := by
  unfold State.freeChunks
  split
  · extract_lets +onlyGivenNames x0
    try clear_value x0
    exact State.setPort_keeps ha0
  · exact keeps_mk ha0
  · exact ha0

theorem State.pieceDone_keeps {r : State} {a0 : State} {a1 : Nat} {a2 : Nat} {a3 : Nat} {a4 : Nat} {a5 : Nat} (ha0 : Keeps r a0) :
    Keeps r (State.pieceDone a0 a1 a2 a3 a4 a5) := by
  unfold State.pieceDone
  split
  · exact ha0
  · extract_lets +onlyGivenNames x0
    try clear_value x0
    exact keepsS_ite (State.answer_keeps (State.freeChunks_keeps (State.delReq_keeps ha0))) (State.setReq_keeps ha0)

theorem State.complete_keeps {r : State} {a0 : State} {a1 : Nat} {a2 : Nat} {a3 : Nat} {a4 : Nat} (ha0 : Keeps r a0) :
    Keeps r (State.complete a0 a1 a2 a3 a4) := by
  unfold State.complete
  split
  · exact ha0
  · split
    · exact State.pieceDone_keeps (State.delReq_keeps ha0)
    · exact State.answer_keeps (State.freeChunks_keeps (State.delReq_keeps ha0))

theorem State.storeMask_keeps {r s : State} {a n v m : Nat} (h : Keeps r s) : Keeps r (s.storeMask a n v m) :=
  ⟨h.variant, h.pending, h.out, h.free, fun w => memWrite_wf _ _ _ _ _ (h.mem w), h.poison, h.events, h.flog⟩

theorem State.setPoison_keeps {r s : State} {a : Nat} {b : Bool} (h : Keeps r s) : Keeps r (s.setPoison a b) :=
  ⟨h.variant, h.pending, h.out, h.free, h.mem, fun w => Table.set_wf _ _ _ _ (h.poison w), h.events, h.flog⟩

theorem State.newReq_keeps {r : State} {a0 : State} {a1 : Req} (ha0 : Keeps r a0) :
    Keeps r (State.newReq a0 a1) := by
  unfold State.newReq
  exact keeps_mk ha0

theorem State.enforce_keeps {r : State} {a0 : State} {a1 : Obj} {a2 : Nat} (ha0 : Keeps r a0) :
    Keeps r (State.enforce a0 a1 a2) := by
  unfold State.enforce
  exact keeps_mk ha0

theorem State.wrLen_keeps {r : State} {a0 : State} {a1 : Obj} {a2 : Nat} {a3 : Nat} (ha0 : Keeps r a0) :
    Keeps r (State.wrLen a0 a1 a2 a3) := by
  unfold State.wrLen
  exact keeps_mk ha0

theorem State.drew_keeps {r s : State} (h : Keeps r s) : Keeps r s.drew :=
  ⟨h.variant, h.pending, h.out, Nat.le_succ_of_le h.free, h.mem, h.poison, h.events, h.flog⟩

theorem State.clearObj_keeps {r : State} {a0 : State} {a1 : Obj} (ha0 : Keeps r a0) :
    Keeps r (State.clearObj a0 a1) := by
  unfold State.clearObj
  exact keeps_mk ha0

theorem State.store_keeps {r s : State} {a n v : Nat} (h : Keeps r s) : Keeps r (s.store a n v) :=
  ⟨h.variant, h.pending, h.out, h.free, fun w => memWrite_wf _ _ _ _ _ (h.mem w), h.poison, h.events, h.flog⟩

theorem State.refuse_keeps {r : State} {a0 : State} {a1 : Req} {a2 : Nat} (ha0 : Keeps r a0) :
    Keeps r (State.refuse a0 a1 a2) := by
  unfold State.refuse
  exact State.answer_keeps (State.freeChunks_keeps ha0)

theorem State.setCache_keeps {r : State} {a0 : State} {a1 : Nat} {a2 : Slice} (ha0 : Keeps r a0) :
    Keeps r (State.setCache a0 a1 a2) := by
  unfold State.setCache
  exact keeps_mk ha0

theorem State.setChan_keeps {r : State} {a0 : State} {a1 : Nat} {a2 : Chan} (ha0 : Keeps r a0) :
    Keeps r (State.setChan a0 a1 a2) := by
  unfold State.setChan
  exact keeps_mk ha0

theorem State.inject_keeps {r : State} {a0 : State} {a1 : MUnit} (ha0 : Keeps r a0) :
    Keeps r (State.inject a0 a1) := by
  unfold State.inject
  exact keeps_mk ha0

theorem State.writeLine_keeps {r : State} {a0 : State} {a1 : Nat} {a2 : Line} (ha0 : Keeps r a0) :
    Keeps r (State.writeLine a0 a1 a2) := by
  unfold State.writeLine
  split
  · exact ha0
  · extract_lets +onlyGivenNames x0
    have h0 : Keeps r x0 := State.storeMask_keeps ha0
    try clear_value x0
    extract_lets +onlyGivenNames x1
    have h1 : Keeps r x1 := keepsS_ite (State.setPoison_keeps h0) h0
    try clear_value x1
    exact keepsS_ite (State.setPoison_keeps h1) h1

theorem State.poke_keeps {r : State} {a0 : State} {a1 : Nat} {a2 : Nat} {a3 : Nat} {a4 : Bool} (ha0 : Keeps r a0) :
    Keeps r (State.poke a0 a1 a2 a3 a4) := by
  unfold State.poke
  split
  · exact ha0
  · split
    · exact ha0
    · extract_lets +onlyGivenNames x0
      try clear_value x0
      extract_lets +onlyGivenNames x1
      try clear_value x1
      extract_lets +onlyGivenNames x2
      try clear_value x2
      extract_lets +onlyGivenNames x3
      try clear_value x3
      extract_lets +onlyGivenNames x4
      try clear_value x4
      extract_lets +onlyGivenNames x5
      try clear_value x5
      split
      · extract_lets +onlyGivenNames x6
        try clear_value x6
        extract_lets +onlyGivenNames x7
        try clear_value x7
        exact State.setCache_keeps ha0
      · split
        · extract_lets +onlyGivenNames x8
          try clear_value x8
          extract_lets +onlyGivenNames x9
          try clear_value x9
          extract_lets +onlyGivenNames x10
          try clear_value x10
          extract_lets +onlyGivenNames x11
          have h11 : Keeps r x11 := keepsS_ite (State.writeLine_keeps ha0) ha0
          try clear_value x11
          exact State.setCache_keeps h11
        · exact State.setCache_keeps ha0
        · split
          · exact ha0
          · extract_lets +onlyGivenNames x12
            try clear_value x12
            extract_lets +onlyGivenNames x13
            have h13 : Keeps r x13 := State.storeMask_keeps ha0
            try clear_value x13
            extract_lets +onlyGivenNames x14
            have h14 : Keeps r x14 := keepsS_ite (State.setPoison_keeps h13) h13
            try clear_value x14
            exact keepsS_ite (State.setPoison_keeps h14) h14

theorem State.pokeMany_keeps {r : State} {n : Nat} {s : State} {a len v : Nat} {b : Bool} (h : Keeps r s) :
    Keeps r (State.pokeMany n s a len v b) := by
  induction n generalizing s a len v with
  | zero => exact h
  | succ n ih =>
    unfold State.pokeMany
    exact keepsS_ite (ih (State.poke_keeps h)) (State.poke_keeps h)

theorem State.poisonSectors_keeps {r : State} {a0 : State} {a1 : Nat} {a2 : Nat} {a3 : Nat} {a4 : Nat} {a5 : Nat} (ha0 : Keeps r a0) :
    Keeps r (State.poisonSectors a0 a1 a2 a3 a4 a5) := by
  unfold State.poisonSectors
  split
  · exact ha0
  · extract_lets +onlyGivenNames x0
    have h0 : Keeps r x0 := keepsS_ite (State.setPoison_keeps ha0) ha0
    try clear_value x0
    exact keepsS_ite (State.setPoison_keeps h0) h0

theorem State.poisonLine_keeps {r : State} {a0 : State} {a1 : Nat} {a2 : Nat} {a3 : Nat} {a4 : Nat} (ha0 : Keeps r a0) :
    Keeps r (State.poisonLine a0 a1 a2 a3 a4) := by
  unfold State.poisonLine
  exact State.poisonSectors_keeps ha0

theorem State.flowEvents_keeps {r : State} {a0 : State} {a1 : Nat} {a2 : Nat} {a3 : Nat} {a4 : FlowCnt} (ha0 : Keeps r a0) :
    Keeps r (State.flowEvents a0 a1 a2 a3 a4) := by
  unfold State.flowEvents
  exact keeps_mk ha0

theorem State.overflow_keeps {r : State} {a0 : State} {a1 : Nat} (ha0 : Keeps r a0) :
    Keeps r (State.overflow a0 a1) := by
  unfold State.overflow
  extract_lets +onlyGivenNames x0
  have h0 : Keeps r x0 := State.wr_keeps ha0
  try clear_value x0
  extract_lets +onlyGivenNames x1
  try clear_value x1
  extract_lets +onlyGivenNames x2
  try clear_value x2
  exact keepsS_ite (State.raise_keeps (State.setPart_keeps h0)) h0

theorem State.dropMiss_keeps {r : State} {a0 : State} {a1 : Nat} {a2 : Nat} (ha0 : Keeps r a0) :
    Keeps r (State.dropMiss a0 a1 a2) := by
  unfold State.dropMiss
  exact keepsS_ite ha0 (by
  extract_lets +onlyGivenNames x0
  try clear_value x0
  exact State.setPart_keeps ha0)

theorem State.faultParked_keeps {r : State} {a0 : State} {a1 : Nat} (ha0 : Keeps r a0) :
    Keeps r (State.faultParked a0 a1) := by
  unfold State.faultParked
  split
  · split
    · exact State.dropMiss_keeps (State.complete_keeps ha0)
    · exact ha0
  · exact ha0

theorem State.dropCount_keeps {r : State} {a0 : State} {a1 : Nat} {a2 : Nat} (ha0 : Keeps r a0) :
    Keeps r (State.dropCount a0 a1 a2) := by
  unfold State.dropCount
  exact State.count_keeps ha0

theorem State.teDirect_keeps {r : State} {a0 : State} {a1 : Nat} {a2 : Req} {a3 : Nat} (ha0 : Keeps r a0) :
    Keeps r (State.teDirect a0 a1 a2 a3) := by
  unfold State.teDirect
  exact keepsS_ite (by
  extract_lets +onlyGivenNames x0
  try clear_value x0
  exact State.complete_keeps (State.setReq_keeps ha0)) (State.complete_keeps (State.setReq_keeps (State.pokeMany_keeps ha0)))

theorem State.sendOne_keeps {r : State} {a0 : State} {a1 : Nat} {a2 : Req} (ha0 : Keeps r a0) :
    Keeps r (State.sendOne a0 a1 a2) := by
  unfold State.sendOne
  extract_lets +onlyGivenNames x0
  try clear_value x0
  exact keepsS_ite (State.complete_keeps (State.setReq_keeps ha0)) (keepsS_ite (by
  split
  · exact State.complete_keeps (State.setReq_keeps ha0)
  · exact State.inject_keeps (State.setReq_keeps ha0)) (by
  split
  · extract_lets +onlyGivenNames x1
    try clear_value x1
    exact State.inject_keeps (State.setReq_keeps ha0)
  · exact State.setReq_keeps ha0
  · split
    · exact State.complete_keeps (State.setReq_keeps ha0)
    · exact State.inject_keeps (State.setReq_keeps ha0)))

theorem State.sendPiece_keeps {r : State} {a0 : State} {a1 : Nat} {a2 : Req} {a3 : Nat × Nat} (ha0 : Keeps r a0) :
    Keeps r (State.sendPiece a0 a1 a2 a3) := by
  unfold State.sendPiece
  extract_lets +onlyGivenNames x0
  try clear_value x0
  extract_lets +onlyGivenNames x1
  try clear_value x1
  exact State.sendOne_keeps (State.newReq_keeps ha0)

theorem State.send_keeps {r : State} {a0 : State} {a1 : Nat} {a2 : Req} (ha0 : Keeps r a0) :
    Keeps r (State.send a0 a1 a2) := by
  unfold State.send
  extract_lets +onlyGivenNames x0
  try clear_value x0
  extract_lets +onlyGivenNames x1
  have h1 : Keeps r x1 := State.freeChunks_keeps (keeps_mk ha0)
  try clear_value x1
  extract_lets +onlyGivenNames x2
  try clear_value x2
  extract_lets +onlyGivenNames x3
  try clear_value x3
  exact keepsS_ite (State.teDirect_keeps h1) (keepsS_ite (by
  extract_lets +onlyGivenNames x4
  try clear_value x4
  extract_lets +onlyGivenNames x5
  try clear_value x5
  extract_lets +onlyGivenNames x6
  have h6 : Keeps r x6 := State.setReq_keeps h1
  try clear_value x6
  exact keeps_foldl (fun _ _ h7 => State.sendPiece_keeps h7) h6) (State.sendOne_keeps h1))

theorem State.addCount_keeps {r : State} {a0 : State} {a1 : Nat} {a2 : Nat} {a3 : Nat} (ha0 : Keeps r a0) :
    Keeps r (State.addCount a0 a1 a2 a3) := by
  unfold State.addCount
  extract_lets +onlyGivenNames x0
  try clear_value x0
  exact State.setPart_keeps ha0

theorem State.pushNormal_keeps {r : State} {a0 : State} {a1 : Nat} {a2 : Nat} (ha0 : Keeps r a0) :
    Keeps r (State.pushNormal a0 a1 a2) := by
  unfold State.pushNormal
  extract_lets +onlyGivenNames x0
  try clear_value x0
  exact keepsS_ite (State.setPart_keeps ha0) (keepsS_ite (State.overflow_keeps (State.dropCount_keeps ha0)) (by
  extract_lets +onlyGivenNames x1
  try clear_value x1
  extract_lets +onlyGivenNames x2
  have h2 : Keeps r x2 := State.setPart_keeps ha0
  try clear_value x2
  exact State.overflow_keeps (State.dropCount_keeps h2)))

theorem State.newRecord_keeps {r : State} {a0 : State} {a1 : Nat} {a2 : Nat} {a3 : Nat} {a4 : Nat} {a5 : Nat} {a6 : Nat} {a7 : Nat} {a8 : Nat} (ha0 : Keeps r a0) :
    Keeps r (State.newRecord a0 a1 a2 a3 a4 a5 a6 a7 a8) := by
  unfold State.newRecord
  extract_lets +onlyGivenNames x0
  try clear_value x0
  extract_lets +onlyGivenNames x1
  have h1 : Keeps r x1 := State.setPart_keeps ha0
  try clear_value x1
  exact State.pushNormal_keeps h1

theorem State.denialRecord_keeps {r : State} {a0 : State} {a1 : Nat} {a2 : Nat} {a3 : Nat} {a4 : Nat} {a5 : Nat} (ha0 : Keeps r a0) :
    Keeps r (State.denialRecord a0 a1 a2 a3 a4 a5) := by
  unfold State.denialRecord
  split
  · exact State.addCount_keeps ha0
  · exact State.newRecord_keeps ha0

theorem State.failRecord_keeps {r : State} {a0 : State} {a1 : Req} {a2 : Nat} (ha0 : Keeps r a0) :
    Keeps r (State.failRecord a0 a1 a2) := by
  unfold State.failRecord
  exact keepsS_ite ha0 (keepsS_ite (State.denialRecord_keeps ha0) (State.newRecord_keeps ha0))

theorem State.missRecord_keeps {r : State} {a0 : State} {a1 : Req} {a2 : Nat} (ha0 : Keeps r a0) :
    Keeps r (State.missRecord a0 a1 a2).1 := by
  unfold State.missRecord
  extract_lets +onlyGivenNames x0
  try clear_value x0
  split
  · exact State.addCount_keeps ha0
  · extract_lets +onlyGivenNames x1
    try clear_value x1
    extract_lets +onlyGivenNames x2
    have h2 : Keeps r x2 := State.newRecord_keeps ha0
    try clear_value x2
    extract_lets +onlyGivenNames x3
    try clear_value x3
    exact State.setPart_keeps h2

theorem State.checked_keeps {r : State} {a0 : State} {a1 : Nat} {a2 : Req} {a3 : ChkRes} (ha0 : Keeps r a0) :
    Keeps r (State.checked a0 a1 a2 a3) := by
  unfold State.checked
  split
  · exact State.send_keeps ha0
  · exact State.complete_keeps (State.failRecord_keeps (State.setReq_keeps ha0))
  · extract_lets +onlyGivenNames x0
    try clear_value x0
    extract_lets +onlyGivenNames x1
    try clear_value x1
    exact keepsS_ite (by
    split
    · rename_i p2_0 p2_1 e2
      have h2 := keeps_fst (State.missRecord_keeps ha0) e2
      exact State.setReq_keeps h2) (by
    split
    · rename_i p3_0 p3_1 e3
      have h3 := keeps_fst (State.missRecord_keeps ha0) e3
      exact State.dropMiss_keeps (State.complete_keeps (State.setReq_keeps (State.count_keeps h3))))

theorem State.recheck_keeps {r : State} {a0 : State} {a1 : Nat} (ha0 : Keeps r a0) :
    Keeps r (State.recheck a0 a1) := by
  unfold State.recheck
  split
  · exact keepsS_ite (by
    extract_lets +onlyGivenNames x0
    try clear_value x0
    split
    · exact ha0
    · exact State.checked_keeps ha0) ha0
  · exact ha0

theorem State.recheckAll_keeps {r : State} {a0 : State} {a1 : Nat} (ha0 : Keeps r a0) :
    Keeps r (State.recheckAll a0 a1) := by
  unfold State.recheckAll
  exact keeps_foldl (fun _ _ h0 => State.recheck_keeps h0) ha0

theorem State.dropPieces_keeps {r : State} {a0 : State} {a1 : Req} (ha0 : Keeps r a0) :
    Keeps r (State.dropPieces a0 a1) := by
  unfold State.dropPieces
  exact keepsS_ite (keeps_foldl (fun _ _ h0 => State.delReq_keeps h0) ha0) ha0

theorem State.revoke_keeps {r : State} {a0 : State} {a1 : Nat} {a2 : List (Nat × Req)} (ha0 : Keeps r a0) :
    Keeps r (State.revoke a0 a1 a2) := by
  unfold State.revoke
  split
  · exact ha0
  · extract_lets +onlyGivenNames x0
    try clear_value x0
    extract_lets +onlyGivenNames x1
    try clear_value x1
    extract_lets +onlyGivenNames x2
    have h2 : Keeps r x2 := State.newRecord_keeps ha0
    try clear_value x2
    exact keeps_foldl (fun _ _ h3 => State.count_keeps (State.complete_keeps (State.dropPieces_keeps h3))) h2

theorem State.odCmd_keeps {r : State} {a0 : State} {a1 : Instr} {a2 : State → State} (ha0 : Keeps r a0) (ha2 : ∀ t , Keeps r t → Keeps r (a2 t )) :
    KeepsX r (State.odCmd a0 a1 a2) := by
  unfold State.odCmd
  exact keepsX_next (keepsS_ite ha0 (keepsS_ite (keeps_mk ha0) (ha2 _  ha0)))

theorem State.odHold_keeps {r : State} {a0 : State} (ha0 : Keeps r a0) :
    Keeps r (State.odHold a0) := by
  unfold State.odHold
  exact keeps_mk ha0

theorem State.odFail_keeps {r : State} {a0 : State} {a1 : Nat} (ha0 : Keeps r a0) :
    Keeps r (State.odFail a0 a1) := by
  unfold State.odFail
  exact State.odAnswer_keeps ha0

theorem State.odWriteAs_keeps {r : State} {a0 : State} {a1 : Obj} {a2 : Nat} {a3 : OdWrite} {a4 : Bool} {a5 : State → State} (ha0 : Keeps r a0) (ha5 : ∀ t , Keeps r t → Keeps r (a5 t )) :
    Keeps r (State.odWriteAs a0 a1 a2 a3 a4 a5) := by
  unfold State.odWriteAs
  split
  · exact keepsS_ite (by
    extract_lets +onlyGivenNames x0
    have h0 : Keeps r x0 := State.odHold_keeps ha0
    try clear_value x0
    exact keeps_mk h0) (ha5 _  ha0)
  · exact State.odFail_keeps ha0

theorem State.odWrite_keeps {r : State} {a0 : State} {a1 : Obj} {a2 : Nat} {a3 : OdWrite} {a4 : State → State} (ha0 : Keeps r a0) (ha4 : ∀ t , Keeps r t → Keeps r (a4 t )) :
    Keeps r (State.odWrite a0 a1 a2 a3 a4) := by
  unfold State.odWrite
  exact State.odWriteAs_keeps ha0 (fun _ h0 => ha4 _  h0)

theorem State.odDone_keeps {r : State} {a0 : State} (ha0 : Keeps r a0) :
    Keeps r (State.odDone a0) := by
  unfold State.odDone
  exact State.odAnswer_keeps ha0

theorem State.startCommit_keeps {r : State} {a0 : State} {a1 : Body} {a2 : Bool} (ha0 : Keeps r a0) :
    Keeps r (State.startCommit a0 a1 a2) := by
  unfold State.startCommit
  extract_lets +onlyGivenNames x0
  try clear_value x0
  exact State.wr_keeps (keeps_mk ha0)

theorem State.storeTouch_keeps {r : State} {a0 : State} (ha0 : Keeps r a0) :
    Keeps r (State.storeTouch a0) := by
  unfold State.storeTouch
  exact keepsS_ite ha0 (by
  extract_lets +onlyGivenNames x0
  try clear_value x0
  extract_lets +onlyGivenNames x1
  have h1 : Keeps r x1 := keeps_mk ha0
  try clear_value x1
  exact keepsS_ite h1 (keepsS_ite (State.startCommit_keeps h1) (keepsS_ite h1 (State.wr_keeps h1))))

theorem State.storeWrote_keeps {r : State} {a0 : State} {a1 : Obj} {a2 : Nat} (ha0 : Keeps r a0) :
    Keeps r (State.storeWrote a0 a1 a2) := by
  unfold State.storeWrote
  extract_lets +onlyGivenNames x0
  try clear_value x0
  exact State.storeTouch_keeps (keeps_mk ha0)

theorem State.setObj_keeps {r : State} {a0 : State} {a1 : Obj} {a2 : Nat} {a3 : OdWrite} (ha0 : Keeps r a0) :
    Keeps r (State.setObj a0 a1 a2 a3) := by
  unfold State.setObj
  extract_lets +onlyGivenNames x0
  have h0 : Keeps r x0 := State.wr_keeps ha0
  try clear_value x0
  extract_lets +onlyGivenNames x1
  have h1 : Keeps r x1 := keepsS_ite h0 (State.wrLen_keeps h0)
  try clear_value x1
  exact keepsS_ite (State.storeWrote_keeps h1) h1

theorem State.odSet_keeps {r : State} {a0 : State} {a1 : Obj} {a2 : Nat} {a3 : OdWrite} (ha0 : Keeps r a0) :
    Keeps r (State.odSet a0 a1 a2 a3) := by
  unfold State.odSet
  exact State.odDone_keeps (State.setObj_keeps ha0)

theorem State.portNotify_keeps {r : State} {a0 : State} {a1 : Nat} {a2 : Nat} {a3 : Nat} {a4 : Nat} (ha0 : Keeps r a0) :
    Keeps r (State.portNotify a0 a1 a2 a3 a4) := by
  unfold State.portNotify
  exact keepsS_ite (by
  extract_lets +onlyGivenNames x0
  try clear_value x0
  exact State.setPort_keeps ha0) (State.count_keeps ha0)

theorem State.hostNotify_keeps {r : State} {a0 : State} {a1 : Nat} {a2 : Nat} {a3 : Nat} {a4 : Nat} {a5 : Nat} (ha0 : Keeps r a0) :
    Keeps r (State.hostNotify a0 a1 a2 a3 a4 a5) := by
  unfold State.hostNotify
  extract_lets +onlyGivenNames x0
  try clear_value x0
  extract_lets +onlyGivenNames x1
  try clear_value x1
  extract_lets +onlyGivenNames x2
  try clear_value x2
  extract_lets +onlyGivenNames x3
  have h3 : Keeps r x3 := State.setFn_keeps ha0
  try clear_value x3
  exact keepsS_ite (State.msix_keeps h3) (State.count_keeps h3)

theorem State.notify_keeps {r : State} {a0 : State} {a1 : Nat} {a2 : Nat} {a3 : Nat} {a4 : Nat} {a5 : Nat} (ha0 : Keeps r a0) :
    Keeps r (State.notify a0 a1 a2 a3 a4 a5) := by
  unfold State.notify
  exact keepsS_ite (State.hostNotify_keeps ha0) (keepsS_ite (State.portNotify_keeps ha0) ha0)

theorem State.launchRecord_keeps {r : State} {a0 : State} {a1 : Nat} {a2 : Nat} {a3 : Bool} {a4 : Nat} {a5 : Nat} {a6 : Bool} {a7 : Bool} {a8 : Nat} (ha0 : Keeps r a0) :
    Keeps r (State.launchRecord a0 a1 a2 a3 a4 a5 a6 a7 a8) := by
  unfold State.launchRecord
  extract_lets +onlyGivenNames x0
  try clear_value x0
  extract_lets +onlyGivenNames x1
  have h1 : Keeps r x1 := State.wr_keeps ha0
  try clear_value x1
  exact keepsS_ite (State.notify_keeps h1) h1

theorem State.setLaunch_keeps {r : State} {a0 : State} {a1 : Nat} {a2 : Option Launch} (ha0 : Keeps r a0) :
    Keeps r (State.setLaunch a0 a1 a2) := by
  unfold State.setLaunch
  exact keeps_mk ha0

theorem State.setCtx_keeps {r : State} {a0 : State} {a1 : Nat} {a2 : Nat} (ha0 : Keeps r a0) :
    Keeps r (State.setCtx a0 a1 a2) := by
  unfold State.setCtx
  exact State.wr_keeps ha0

theorem State.launchEnd_keeps {r : State} {a0 : State} {a1 : Nat} {a2 : Launch} {a3 : Nat} (ha0 : Keeps r a0) :
    Keeps r (State.launchEnd a0 a1 a2 a3) := by
  unfold State.launchEnd
  exact State.launchRecord_keeps (State.setLaunch_keeps ha0)

theorem State.launchDrop_keeps {r : State} {a0 : State} {a1 : Nat} {a2 : Launch} {a3 : Nat → Nat → Bool} (ha0 : Keeps r a0) :
    Keeps r (State.launchDrop a0 a1 a2 a3) := by
  unfold State.launchDrop
  extract_lets +onlyGivenNames x0
  try clear_value x0
  exact keepsS_ite ha0 (by
  extract_lets +onlyGivenNames x1
  try clear_value x1
  exact keepsS_ite (State.launchEnd_keeps ha0) (State.setLaunch_keeps ha0))

theorem State.launchReset_keeps {r : State} {a0 : State} {a1 : Nat → Nat → Bool} (ha0 : Keeps r a0) :
    Keeps r (State.launchReset a0 a1) := by
  unfold State.launchReset
  exact keeps_foldl (fun _ _ h0 => State.launchDrop_keeps h0) ha0

theorem State.launchAbort_keeps {r : State} {a0 : State} {a1 : Nat} (ha0 : Keeps r a0) :
    Keeps r (State.launchAbort a0 a1) := by
  unfold State.launchAbort
  exact keeps_foldl (fun _ _ h0 => State.launchEnd_keeps h0) ha0

theorem State.setRing_keeps {r : State} {a0 : State} {a1 : Nat} {a2 : Ring} (ha0 : Keeps r a0) :
    Keeps r (State.setRing a0 a1 a2) := by
  unfold State.setRing
  exact keeps_mk ha0

theorem State.compAdvance_keeps {r : State} {a0 : State} {a1 : Nat} (ha0 : Keeps r a0) :
    Keeps r (State.compAdvance a0 a1) := by
  unfold State.compAdvance
  extract_lets +onlyGivenNames x0
  try clear_value x0
  exact State.setCtx_keeps ha0

theorem State.stopEntry_keeps {r : State} {a0 : State} {a1 : Nat} {a2 : Nat} {a3 : Nat} {a4 : Bool} {a5 : Nat} {a6 : Nat} {a7 : Nat} (ha0 : Keeps r a0) :
    Keeps r (State.stopEntry a0 a1 a2 a3 a4 a5 a6 a7) := by
  unfold State.stopEntry
  extract_lets +onlyGivenNames x0
  try clear_value x0
  extract_lets +onlyGivenNames x1
  try clear_value x1
  split
  · exact State.compAdvance_keeps (State.pokeMany_keeps ha0)
  · exact State.raise_keeps ha0

theorem State.markStop_keeps {r : State} {a0 : State} {a1 : Nat} {a2 : Nat} {a3 : Nat} (ha0 : Keeps r a0) :
    Keeps r (State.markStop a0 a1 a2 a3) := by
  unfold State.markStop
  extract_lets +onlyGivenNames x0
  try clear_value x0
  extract_lets +onlyGivenNames x1
  try clear_value x1
  exact State.setRing_keeps (State.setCtx_keeps ha0)

theorem State.ringOrphan_keeps {r : State} {a0 : State} {a1 : Nat} (ha0 : Keeps r a0) :
    Keeps r (State.ringOrphan a0 a1) := by
  unfold State.ringOrphan
  extract_lets +onlyGivenNames x0
  have h0 : Keeps r x0 := keeps_foldl (fun _ _ h1 => by
    split
    · exact keepsS_ite (State.setReq_keeps h1) h1
    · exact h1) ha0
  try clear_value x0
  exact keeps_mk h0

theorem State.ringNotify_keeps {r : State} {a0 : State} {a1 : Nat} {a2 : Bool} {a3 : Nat} {a4 : Nat} (ha0 : Keeps r a0) :
    Keeps r (State.ringNotify a0 a1 a2 a3 a4) := by
  unfold State.ringNotify
  extract_lets +onlyGivenNames x0
  try clear_value x0
  exact State.notify_keeps ha0

theorem State.ringStop_keeps {r : State} {a0 : State} {a1 : Nat} {a2 : Nat} (ha0 : Keeps r a0) :
    Keeps r (State.ringStop a0 a1 a2) := by
  unfold State.ringStop
  extract_lets +onlyGivenNames x0
  try clear_value x0
  exact keepsS_ite ha0 (by
  extract_lets +onlyGivenNames x1
  try clear_value x1
  extract_lets +onlyGivenNames x2
  try clear_value x2
  extract_lets +onlyGivenNames x3
  have h3 : Keeps r x3 := keeps_foldl (fun _ _ h4 => State.stopEntry_keeps h4) ha0
  try clear_value x3
  extract_lets +onlyGivenNames x5
  have h5 : Keeps r x5 := State.setRing_keeps (State.markStop_keeps h3)
  try clear_value x5
  extract_lets +onlyGivenNames x6
  have h6 : Keeps r x6 := State.ringOrphan_keeps h5
  try clear_value x6
  exact State.ringNotify_keeps h6)

theorem State.doorbell_keeps {r : State} {a0 : State} {a1 : Nat} {a2 : Nat} {a3 : Nat} (ha0 : Keeps r a0) :
    Keeps r (State.doorbell a0 a1 a2 a3).2 := by
  unfold State.doorbell
  extract_lets +onlyGivenNames x0
  try clear_value x0
  extract_lets +onlyGivenNames x1
  try clear_value x1
  extract_lets +onlyGivenNames x2
  try clear_value x2
  exact keepsP2_ite ha0 (keepsP2_ite ha0 (keepsP2_ite (State.setCtx_keeps ha0) ha0))

theorem State.ringStopAll_keeps {r : State} {a0 : State} {a1 : Nat → Bool} {a2 : Nat} (ha0 : Keeps r a0) :
    Keeps r (State.ringStopAll a0 a1 a2) := by
  unfold State.ringStopAll
  exact keeps_foldl (fun _ _ h0 => State.ringStop_keeps h0) ha0

theorem State.compFault_keeps {r : State} {a0 : State} {a1 : Nat} {a2 : Nat} {a3 : Nat} (ha0 : Keeps r a0) :
    Keeps r (State.compFault a0 a1 a2 a3) := by
  unfold State.compFault
  exact State.ringNotify_keeps (State.raise_keeps (State.markStop_keeps ha0))

theorem State.setSweep_keeps {r : State} {a0 : State} {a1 : Nat} {a2 : Option SweepRun} (ha0 : Keeps r a0) :
    Keeps r (State.setSweep a0 a1 a2) := by
  unfold State.setSweep
  exact keeps_mk ha0

theorem State.sweepSliceEnd_keeps {r : State} {a0 : State} {a1 : Nat} {a2 : Nat} (ha0 : Keeps r a0) :
    Keeps r (State.sweepSliceEnd a0 a1 a2) := by
  unfold State.sweepSliceEnd
  exact keeps_foldl (fun _ _ h0 => by
  split
  · exact keepsS_ite (State.setSweep_keeps h0) h0
  · exact h0) ha0

theorem State.sweepEnd_keeps {r : State} {a0 : State} {a1 : Nat} {a2 : SweepRun} {a3 : Nat} (ha0 : Keeps r a0) :
    Keeps r (State.sweepEnd a0 a1 a2 a3) := by
  unfold State.sweepEnd
  extract_lets +onlyGivenNames x0
  try clear_value x0
  extract_lets +onlyGivenNames x1
  have h1 : Keeps r x1 := State.wr_keeps (State.wr_keeps (State.setSweep_keeps ha0))
  try clear_value x1
  exact keepsS_ite (State.notify_keeps h1) h1

theorem State.sweepStop_keeps {r : State} {a0 : State} {a1 : Nat} {a2 : Nat} (ha0 : Keeps r a0) :
    Keeps r (State.sweepStop a0 a1 a2) := by
  unfold State.sweepStop
  split
  · exact ha0
  · exact keepsS_ite (State.sweepEnd_keeps ha0) (keepsS_ite (State.wr_keeps (State.setSweep_keeps ha0)) ha0)

end Sys2Proof.Machine
end

