-- ==== Sys2Proof/Laws/KeepsWindows.lean ====
section
/-! SUPPORT. What every operation keeps (Laws/Keeps.lean), one lemma each: windows, faults and formats (chapters 02 and 04). -/

namespace Sys2Proof.Machine

theorem State.resolve_keeps {r : State} {a0 : State} {a1 : Nat} {a2 : Nat} (ha0 : Keeps r a0) :
    Keeps r (State.resolve a0 a1 a2) := by
  unfold State.resolve
  extract_lets +onlyGivenNames x0
  try clear_value x0
  extract_lets +onlyGivenNames x1
  have h1 : Keeps r x1 := State.setPart_keeps ha0
  try clear_value x1
  exact State.dropMiss_keeps h1

theorem State.beginDrain_keeps {r : State} {a0 : State} {a1 : Nat} {a2 : WCmd} {a3 : Reply} (ha0 : Keeps r a0) :
    Keeps r (State.beginDrain a0 a1 a2 a3) := by
  unfold State.beginDrain
  extract_lets +onlyGivenNames x0
  try clear_value x0
  exact State.setPart_keeps (State.wr_keeps ha0)

theorem State.reply_keeps {r : State} {a0 : State} {a1 : Reply} {a2 : Nat} (ha0 : Keeps r a0) :
    Keeps r (State.reply a0 a1 a2) := by
  unfold State.reply
  split
  · exact State.hostCmdDone_keeps ha0
  · exact State.odAnswer_keeps ha0
  · exact ha0

theorem State.faultAll_keeps {r : State} {a0 : State} {a1 : Nat} {a2 : Req → Bool} (ha0 : Keeps r a0) :
    Keeps r (State.faultAll a0 a1 a2) := by
  unfold State.faultAll
  exact keeps_foldl (fun _ _ h0 => State.faultParked_keeps h0) ha0

theorem State.clearWindows_keeps {r : State} {a0 : State} {a1 : Nat} (ha0 : Keeps r a0) :
    Keeps r (State.clearWindows a0 a1) := by
  unfold State.clearWindows
  exact keeps_foldl (fun _ _ h0 => State.wr_keeps h0) ha0

theorem State.zeroWindows_keeps {r : State} {a0 : State} {a1 : Nat} (ha0 : Keeps r a0) :
    Keeps r (State.zeroWindows a0 a1) := by
  unfold State.zeroWindows
  exact keeps_foldl (fun _ _ h0 => State.wr_keeps h0) ha0

theorem State.wcmdStart_keeps {r : State} {a0 : State} {a1 : Nat} {a2 : WCmd} {a3 : Reply} (ha0 : Keeps r a0) :
    Keeps r (State.wcmdStart a0 a1 a2 a3) := by
  unfold State.wcmdStart
  split
  · extract_lets +onlyGivenNames x0
    try clear_value x0
    extract_lets +onlyGivenNames x1
    have h1 : Keeps r x1 := State.resolve_keeps (State.wr_keeps ha0)
    try clear_value x1
    exact keepsS_ite (State.recheckAll_keeps (State.beginDrain_keeps h1)) (State.reply_keeps (State.recheckAll_keeps h1))
  · extract_lets +onlyGivenNames x2
    try clear_value x2
    exact keepsS_ite (State.recheckAll_keeps (State.beginDrain_keeps (State.wr_keeps ha0))) (State.reply_keeps ha0)
  · exact keepsS_ite (State.reply_keeps (State.faultAll_keeps (State.resolve_keeps ha0))) (State.reply_keeps ha0)
  · exact keepsS_ite (State.reply_keeps (State.wr_keeps ha0)) (State.recheckAll_keeps (State.beginDrain_keeps (State.clearWindows_keeps ha0)))
  · exact State.beginDrain_keeps (State.storeTouch_keeps (State.wr_keeps ha0))
  · exact State.beginDrain_keeps ha0
  · exact State.beginDrain_keeps (State.zeroWindows_keeps ha0)

theorem State.wcmd_keeps {r : State} {a0 : State} {a1 : Nat} {a2 : WCmd} {a3 : Reply} (ha0 : Keeps r a0) :
    Keeps r (State.wcmd a0 a1 a2 a3) := by
  unfold State.wcmd
  extract_lets +onlyGivenNames x0
  try clear_value x0
  exact keepsS_ite (State.setPart_keeps ha0) (State.wcmdStart_keeps ha0)

theorem State.unlockAll_keeps {r : State} {a0 : State} {a1 : Nat} (ha0 : Keeps r a0) :
    Keeps r (State.unlockAll a0 a1) := by
  unfold State.unlockAll
  exact keeps_mk ha0

theorem State.wcmdNext_keeps {r : State} {n : Nat} {s : State} {p : Nat} (h : Keeps r s) : Keeps r (State.wcmdNext n s p) := by
  induction n generalizing s with
  | zero => exact h
  | succ n ih =>
    unfold State.wcmdNext
    extract_lets x
    clear_value x
    split
    · exact ih (State.wcmdStart_keeps (State.setPart_keeps h))
    · exact h

theorem State.dropDesc_keeps {r : State} {a0 : State} {a1 : Nat} (ha0 : Keeps r a0) :
    Keeps r (State.dropDesc a0 a1) := by
  unfold State.dropDesc
  exact State.wr_keeps ha0

theorem State.dropDescs_keeps {r : State} {a0 : State} {a1 : Nat} (ha0 : Keeps r a0) :
    Keeps r (State.dropDescs a0 a1) := by
  unfold State.dropDescs
  exact keeps_foldl (fun _ _ h0 => State.dropDesc_keeps h0) ha0

theorem State.faultStateClear_keeps {r : State} {a0 : State} {a1 : Nat} (ha0 : Keeps r a0) :
    Keeps r (State.faultStateClear a0 a1) := by
  unfold State.faultStateClear
  exact keepsS_ite (State.wr_keeps ha0) ha0

theorem State.clearFlows_keeps {r : State} {a0 : State} {a1 : Nat} (ha0 : Keeps r a0) :
    Keeps r (State.clearFlows a0 a1) := by
  unfold State.clearFlows
  exact keeps_mk ha0

theorem State.partResetEnd_keeps {r : State} {a0 : State} {a1 : Nat} (ha0 : Keeps r a0) :
    Keeps r (State.partResetEnd a0 a1) := by
  unfold State.partResetEnd
  extract_lets +onlyGivenNames x0
  have h0 : Keeps r x0 := State.sweepStop_keeps (State.dropDescs_keeps ha0)
  try clear_value x0
  extract_lets +onlyGivenNames x1
  have h1 : Keeps r x1 := State.ringStopAll_keeps h0
  try clear_value x1
  exact State.faultStateClear_keeps (State.unlockAll_keeps (State.clearFlows_keeps (State.launchAbort_keeps h1)))

theorem State.wcmdEnd_keeps {r : State} {a0 : State} {a1 : Nat} {a2 : WCmd} {a3 : Reply} (ha0 : Keeps r a0) :
    Keeps r (State.wcmdEnd a0 a1 a2 a3) := by
  unfold State.wcmdEnd
  split
  · exact State.reply_keeps (State.wr_keeps ha0)
  · exact keepsS_ite ha0 (State.reply_keeps ha0)
  · exact State.launchAbort_keeps (State.sweepStop_keeps (State.ringStopAll_keeps ha0))
  · exact State.reply_keeps (State.partResetEnd_keeps ha0)
  · exact State.reply_keeps ha0

theorem State.ackDrain_keeps {r : State} {a0 : State} {a1 : Nat} (ha0 : Keeps r a0) :
    Keeps r (State.ackDrain a0 a1) := by
  unfold State.ackDrain
  extract_lets +onlyGivenNames x0
  try clear_value x0
  split
  · exact ha0
  · extract_lets +onlyGivenNames x1
    have h1 : Keeps r x1 := State.wcmdEnd_keeps (State.setPart_keeps ha0)
    try clear_value x1
    exact State.wcmdNext_keeps h1

theorem State.partStop_keeps {r : State} {a0 : State} {a1 : Nat} {a2 : Nat} (ha0 : Keeps r a0) :
    Keeps r (State.partStop a0 a1 a2) := by
  unfold State.partStop
  exact keepsS_ite ha0 (by
  extract_lets +onlyGivenNames x0
  have h0 : Keeps r x0 := State.raise_keeps (State.wr_keeps ha0)
  try clear_value x0
  exact State.wcmd_keeps (State.faultAll_keeps h0))

theorem State.pushPrio_keeps {r : State} {a0 : State} {a1 : Nat} {a2 : Nat} (ha0 : Keeps r a0) :
    Keeps r (State.pushPrio a0 a1 a2) := by
  unfold State.pushPrio
  extract_lets +onlyGivenNames x0
  try clear_value x0
  exact keepsS_ite (State.setPart_keeps ha0) (by
  extract_lets +onlyGivenNames x1
  try clear_value x1
  split
  · exact State.overflow_keeps (State.dropCount_keeps (State.setPart_keeps ha0))
  · exact State.overflow_keeps (State.dropCount_keeps (State.setPart_keeps ha0))
  · exact State.partStop_keeps (State.overflow_keeps (State.dropCount_keeps ha0)))

theorem State.unitRecord_keeps {r : State} {a0 : State} {a1 : Nat} {a2 : Nat} {a3 : Nat} {a4 : Nat} {a5 : Nat} {a6 : Nat} {a7 : Nat} (ha0 : Keeps r a0) :
    Keeps r (State.unitRecord a0 a1 a2 a3 a4 a5 a6 a7) := by
  unfold State.unitRecord
  extract_lets +onlyGivenNames x0
  try clear_value x0
  extract_lets +onlyGivenNames x1
  try clear_value x1
  extract_lets +onlyGivenNames x2
  try clear_value x2
  extract_lets +onlyGivenNames x3
  have h3 : Keeps r x3 := State.setPart_keeps ha0
  try clear_value x3
  extract_lets +onlyGivenNames x4
  have h4 : Keeps r x4 := by
    unfold x4
    split
    · extract_lets +onlyGivenNames x5
      try clear_value x5
      extract_lets +onlyGivenNames x6
      try clear_value x6
      exact State.setPart_keeps ha0
    · exact State.pushPrio_keeps h3
  try clear_value x4
  exact keepsS_ite (State.partStop_keeps h4) h4

theorem State.logRecord_keeps {r : State} {a0 : State} {a1 : List Nat} {a2 : Nat} {a3 : Nat} {a4 : Nat} {a5 : Nat} {a6 : Nat} {a7 : Nat} (ha0 : Keeps r a0) :
    Keeps r (State.logRecord a0 a1 a2 a3 a4 a5 a6 a7) := by
  unfold State.logRecord
  split
  · exact ha0
  · exact keepsS_ite ha0 (State.logPush_keeps ha0)

theorem State.recordTo_keeps {r : State} {a0 : State} {a1 : List Nat} {a2 : Nat} {a3 : Nat} {a4 : Nat} {a5 : Nat} {a6 : Nat} {a7 : Nat} (ha0 : Keeps r a0) :
    Keeps r (State.recordTo a0 a1 a2 a3 a4 a5 a6 a7) := by
  unfold State.recordTo
  exact keeps_foldl (fun _ _ h0 => State.unitRecord_keeps h0) (State.logRecord_keeps ha0)

theorem State.chanRecord_keeps {r : State} {a0 : State} {a1 : Nat} {a2 : Nat} {a3 : Nat} {a4 : Nat} {a5 : Nat} {a6 : Nat} (ha0 : Keeps r a0) :
    Keeps r (State.chanRecord a0 a1 a2 a3 a4 a5 a6) := by
  unfold State.chanRecord
  exact State.recordTo_keeps ha0

theorem State.dataRecord_keeps {r : State} {a0 : State} {a1 : Nat} {a2 : Nat} {a3 : Nat} {a4 : Nat} {a5 : Nat} {a6 : Nat} (ha0 : Keeps r a0) :
    Keeps r (State.dataRecord a0 a1 a2 a3 a4 a5 a6) := by
  unfold State.dataRecord
  exact State.recordTo_keeps ha0

theorem State.portOrphan_keeps {r : State} {a0 : State} {a1 : Nat} (ha0 : Keeps r a0) :
    Keeps r (State.portOrphan a0 a1) := by
  unfold State.portOrphan
  extract_lets +onlyGivenNames x0
  try clear_value x0
  exact keeps_mk ha0

theorem State.portDrop_keeps {r : State} {a0 : State} {a1 : Nat} (ha0 : Keeps r a0) :
    Keeps r (State.portDrop a0 a1) := by
  unfold State.portDrop
  exact keeps_foldl (fun _ _ h0 => keepsS_ite (by
  split
  · exact State.delReq_keeps h0
  · exact State.dropMiss_keeps (State.delReq_keeps h0)
  · exact State.setReq_keeps h0) h0) ha0

theorem State.portClear_keeps {r : State} {a0 : State} {a1 : Nat} (ha0 : Keeps r a0) :
    Keeps r (State.portClear a0 a1) := by
  unfold State.portClear
  extract_lets +onlyGivenNames x0
  have h0 : Keeps r x0 := State.count_keeps ha0
  try clear_value x0
  exact State.setPort_keeps (State.portOrphan_keeps (State.portDrop_keeps h0))

theorem State.sbSend_keeps {r : State} {a0 : State} {a1 : Nat} {a2 : Nat} {a3 : Nat} {a4 : Nat} (ha0 : Keeps r a0) :
    Keeps r (State.sbSend a0 a1 a2 a3 a4) := by
  unfold State.sbSend
  exact keepsS_ite (by
  extract_lets +onlyGivenNames x0
  try clear_value x0
  extract_lets +onlyGivenNames x1
  try clear_value x1
  exact State.emit_keeps (State.setSite_keeps ha0)) ha0

theorem State.sbPorts_keeps {r : State} {a0 : State} {a1 : Nat} (ha0 : Keeps r a0) :
    Keeps r (State.sbPorts a0 a1) := by
  unfold State.sbPorts
  exact State.sbSend_keeps ha0

theorem State.portDown_keeps {r : State} {a0 : State} {a1 : Nat} {a2 : Nat} (ha0 : Keeps r a0) :
    Keeps r (State.portDown a0 a1 a2) := by
  unfold State.portDown
  extract_lets +onlyGivenNames x0
  try clear_value x0
  extract_lets +onlyGivenNames x1
  have h1 : Keeps r x1 := State.raise_keeps (State.wr_keeps (State.wr_keeps (State.portClear_keeps ha0)))
  try clear_value x1
  exact keepsS_ite (State.sbPorts_keeps h1) h1

theorem State.sbAnswer_keeps {r : State} {a0 : State} {a1 : Nat} {a2 : Nat} {a3 : Nat} {a4 : Nat} {a5 : Nat} (ha0 : Keeps r a0) :
    Keeps r (State.sbAnswer a0 a1 a2 a3 a4 a5) := by
  unfold State.sbAnswer
  extract_lets +onlyGivenNames x0
  try clear_value x0
  exact State.emit_keeps (State.setSite_keeps ha0)

theorem State.admit_keeps {r : State} {a0 : State} {a1 : Nat} (ha0 : Keeps r a0) :
    Keeps r (State.takeIn a0 a1) := by
  unfold State.takeIn
  split
  · exact ha0
  · exact keepsS_ite ha0 (keepsS_ite (State.complete_keeps ha0) (State.checked_keeps ha0))

theorem State.enter_keeps {r : State} {a0 : State} {a1 : Req} (ha0 : Keeps r a0) :
    Keeps r (State.enter a0 a1) := by
  unfold State.enter
  extract_lets +onlyGivenNames x0
  try clear_value x0
  extract_lets +onlyGivenNames x1
  try clear_value x1
  extract_lets +onlyGivenNames x2
  have h2 : Keeps r x2 := State.newReq_keeps ha0
  try clear_value x2
  extract_lets +onlyGivenNames x3
  have h3 : Keeps r x3 := keepsS_ite (State.count_keeps h2) h2
  try clear_value x3
  exact State.admit_keeps h3

theorem State.attachAnswer_keeps {r : State} {a0 : State} {a1 : Nat} {a2 : Msg} {a3 : Nat} {a4 : Nat} {a5 : Nat} (ha0 : Keeps r a0) :
    Keeps r (State.attachAnswer a0 a1 a2 a3 a4 a5) := by
  unfold State.attachAnswer
  extract_lets +onlyGivenNames x0
  try clear_value x0
  exact State.rsp_keeps (State.setPort_keeps ha0)

theorem State.attachRun_keeps {r : State} {a0 : State} {a1 : Nat} {a2 : Msg} {a3 : Nat} {a4 : State → State} (ha0 : Keeps r a0) (ha4 : ∀ t , Keeps r t → Keeps r (a4 t )) :
    Keeps r (State.attachRun a0 a1 a2 a3 a4) := by
  unfold State.attachRun
  extract_lets +onlyGivenNames x0
  try clear_value x0
  extract_lets +onlyGivenNames x1
  try clear_value x1
  exact keepsS_ite (State.portNotify_keeps (State.count_keeps (State.setPort_keeps ha0))) (keepsS_ite (State.attachAnswer_keeps (State.count_keeps ha0)) (ha4 _  ha0))

theorem State.attachTake_keeps {r : State} {a0 : State} {a1 : Nat} {a2 : Msg} {a3 : Nat} {a4 : State → State} (ha0 : Keeps r a0) (ha4 : ∀ t , Keeps r t → Keeps r (a4 t )) :
    Keeps r (State.attachTake a0 a1 a2 a3 a4) := by
  unfold State.attachTake
  exact keepsS_ite ha0 (by
  extract_lets +onlyGivenNames x0
  try clear_value x0
  extract_lets +onlyGivenNames x1
  try clear_value x1
  exact keepsS_ite (State.portDown_keeps ha0) (by
  extract_lets +onlyGivenNames x2
  have h2 : Keeps r x2 := State.setPort_keeps ha0
  try clear_value x2
  exact keepsS_ite (State.setPort_keeps h2) (State.attachRun_keeps h2 (fun _ h3 => ha4 _  h3))))

theorem State.hostCmd_keeps {r : State} {a0 : State} {a1 : Nat} {a2 : Nat} {a3 : Nat} {a4 : Nat} {a5 : Nat} {a6 : State → State} (ha0 : Keeps r a0) (ha6 : ∀ t , Keeps r t → Keeps r (a6 t )) :
    Keeps r (State.hostCmd a0 a1 a2 a3 a4 a5 a6) := by
  unfold State.hostCmd
  exact keepsS_ite ha0 (by
  extract_lets +onlyGivenNames x0
  try clear_value x0
  extract_lets +onlyGivenNames x1
  try clear_value x1
  exact keepsS_ite (State.count_keeps ha0) (by
  extract_lets +onlyGivenNames x2
  try clear_value x2
  extract_lets +onlyGivenNames x3
  have h3 : Keeps r x3 := State.setFn_keeps ha0
  try clear_value x3
  exact keepsS_ite h3 (by
  split
  · exact ha6 _  h3
  · exact State.hostCmdDone_keeps h3)))

theorem State.attachData_keeps {r : State} {a0 : State} {a1 : Nat} {a2 : Msg} {a3 : Nat} (ha0 : Keeps r a0) :
    Keeps r (State.attachData a0 a1 a2 a3) := by
  unfold State.attachData
  extract_lets +onlyGivenNames x0
  try clear_value x0
  split
  · exact State.enter_keeps ha0
  · exact State.enter_keeps ha0
  · exact State.enter_keeps ha0
  · exact State.enter_keeps ha0
  · exact State.enter_keeps ha0
  · split
    · exact State.enter_keeps ha0
    · exact State.attachAnswer_keeps ha0
  · split
    · exact State.enter_keeps ha0
    · exact State.attachAnswer_keeps ha0
  · exact State.enter_keeps ha0
  · exact State.enter_keeps ha0

theorem State.attachOp_keeps {r : State} {a0 : State} {a1 : Nat} {a2 : Msg} {a3 : Nat} (ha0 : Keeps r a0) :
    Keeps r (State.attachOp a0 a1 a2 a3) := by
  unfold State.attachOp
  exact State.attachTake_keeps ha0 (fun _ h0 => State.attachData_keeps h0)

theorem State.installFmt_keeps {r : State} {a0 : State} {a1 : Nat} {a2 : Nat} (ha0 : Keeps r a0) :
    Keeps r (State.installFmt a0 a1 a2).2 := by
  unfold State.installFmt
  split
  · exact State.wr_keeps ha0
  · exact ha0

theorem State.ownFormat_keeps {r : State} {a0 : State} {a1 : Nat} {a2 : OdWrite} (ha0 : Keeps r a0) :
    Keeps r (State.ownFormat a0 a1 a2) := by
  unfold State.ownFormat
  split
  · rename_i p0_0 e0
    have h0 := keeps_snd (State.installFmt_keeps ha0) e0
    exact State.odDone_keeps h0
  · rename_i p1_0 p1_1 e1
    have h1 := keeps_snd (State.installFmt_keeps ha0) e1
    exact State.odFail_keeps h1

theorem State.ownSrSeed_keeps {r : State} {a0 : State} {a1 : OdWrite} (ha0 : Keeps r a0) :
    Keeps r (State.ownSrSeed a0 a1) := by
  unfold State.ownSrSeed
  exact State.odSet_keeps (keeps_mk ha0)

theorem State.ownFlowSnapshot_keeps {r : State} {a0 : State} {a1 : OdWrite} (ha0 : Keeps r a0) :
    Keeps r (State.ownFlowSnapshot a0 a1) := by
  unfold State.ownFlowSnapshot
  exact keepsS_ite (State.odFail_keeps ha0) (State.odDone_keeps (State.wr_keeps (State.wr_keeps ha0)))

theorem State.ownFlowClear_keeps {r : State} {a0 : State} {a1 : OdWrite} (ha0 : Keeps r a0) :
    Keeps r (State.ownFlowClear a0 a1) := by
  unfold State.ownFlowClear
  exact State.odDone_keeps (keeps_mk ha0)

theorem State.attachFormat_keeps {r : State} {a0 : State} {a1 : Nat} {a2 : Msg} (ha0 : Keeps r a0) :
    Keeps r (State.attachFormat a0 a1 a2) := by
  unfold State.attachFormat
  extract_lets +onlyGivenNames x0
  have h0 : Keeps r x0.2 := State.installFmt_keeps ha0
  try clear_value x0
  exact State.attachAnswer_keeps h0

theorem execFlowSnapDone_keeps {r : State} {a0 : State} (ha0 : Keeps r a0) :
    KeepsX r (execFlowSnapDone a0) := by
  unfold execFlowSnapDone
  exact keepsX_ite (keepsX_next ha0) (by
  extract_lets +onlyGivenNames x0
  try clear_value x0
  extract_lets +onlyGivenNames x1
  have h1 : Keeps r x1 := State.wr_keeps ha0
  try clear_value x1
  extract_lets +onlyGivenNames x2
  have h2 : Keeps r x2 := State.wr_keeps h1
  try clear_value x2
  extract_lets +onlyGivenNames x3
  have h3 : Keeps r x3 := State.wr_keeps h2
  try clear_value x3
  extract_lets +onlyGivenNames x4
  have h4 : Keeps r x4 := State.wr_keeps h3
  try clear_value x4
  extract_lets +onlyGivenNames x5
  have h5 : Keeps r x5 := State.wr_keeps h4
  try clear_value x5
  extract_lets +onlyGivenNames x6
  have h6 : Keeps r x6 := State.wr_keeps h5
  try clear_value x6
  extract_lets +onlyGivenNames x7
  have h7 : Keeps r x7 := State.wr_keeps h6
  try clear_value x7
  extract_lets +onlyGivenNames x8
  have h8 : Keeps r x8 := State.wr_keeps h7
  try clear_value x8
  extract_lets +onlyGivenNames x9
  have h9 : Keeps r x9 := State.wr_keeps h8
  try clear_value x9
  extract_lets +onlyGivenNames x10
  have h10 : Keeps r x10 := State.wr_keeps h9
  try clear_value x10
  exact keepsX_next (State.wr_keeps (State.wr_keeps h10)))

theorem execFlowClear_keeps {r : State} {a0 : OdWrite} {a1 : State} (ha1 : Keeps r a1) :
    KeepsX r (execFlowClear a0 a1) := by
  unfold execFlowClear
  exact State.odCmd_keeps ha1 (fun _ h0 => State.odWrite_keeps h0 (fun _ h1 => State.ownFlowClear_keeps h1))

theorem execSrSeed_keeps {r : State} {a0 : OdWrite} {a1 : State} (ha1 : Keeps r a1) :
    KeepsX r (execSrSeed a0 a1) := by
  unfold execSrSeed
  exact State.odCmd_keeps ha1 (fun _ h0 => State.odWrite_keeps h0 (fun _ h1 => State.ownSrSeed_keeps h1))

theorem execFlowSnapshot_keeps {r : State} {a0 : OdWrite} {a1 : State} (ha1 : Keeps r a1) :
    KeepsX r (execFlowSnapshot a0 a1) := by
  unfold execFlowSnapshot
  exact State.odCmd_keeps ha1 (fun _ h0 => State.odWrite_keeps h0 (fun _ h1 => State.ownFlowSnapshot_keeps h1))

theorem execFormatSet_keeps {r : State} {a0 : CmdSrc} {a1 : State} (ha1 : Keeps r a1) :
    KeepsX r (execFormatSet a0 a1) := by
  unfold execFormatSet
  split
  · exact keepsX_next (State.attachTake_keeps ha1 (fun _ h0 => State.attachFormat_keeps h0))
  · extract_lets +onlyGivenNames x1
    try clear_value x1
    exact keepsX_next (State.hostCmd_keeps ha1 (fun _ h2 => by
    extract_lets +onlyGivenNames x3
    have h3 : Keeps r x3.2 := State.installFmt_keeps h2
    try clear_value x3
    exact State.hostCmdDone_keeps h3))
  · exact State.odCmd_keeps ha1 (fun _ h4 => State.odWrite_keeps h4 (fun _ h5 => State.ownFormat_keeps h5))
  · exact keepsX_next ha1

end Sys2Proof.Machine
end

