-- ==== Sys2Proof/Laws/KeepsUnits.lean ====
section
/-! SUPPORT. What every operation keeps (Laws/Keeps.lean), one lemma each: operations of channels, regulation, links, slices and the placement. -/

namespace Sys2Proof.Machine

theorem State.demand_keeps {r : State} {a0 : State} {a1 : PowerUnit} (ha0 : Keeps r a0) :
    Keeps r (State.demand a0 a1) := by
  unfold State.demand
  exact keepsS_ite ha0 (keeps_mk ha0)

theorem State.wakeChan_keeps {r : State} {a0 : State} {a1 : Nat} (ha0 : Keeps r a0) :
    Keeps r (State.wakeChan a0 a1) := by
  unfold State.wakeChan
  extract_lets +onlyGivenNames x0
  try clear_value x0
  exact keepsS_ite (State.wr_keeps ha0) (keepsS_ite (State.demand_keeps ha0) ha0)

theorem State.setPc_keeps {r : State} {a0 : State} {a1 : Nat} {a2 : Pc} (ha0 : Keeps r a0) :
    Keeps r (State.setPc a0 a1 a2) := by
  unfold State.setPc
  exact keeps_mk ha0

theorem State.feed_keeps {r : State} {a0 : State} {a1 : Nat} {a2 : Nat} {a3 : MissReg} (ha0 : Keeps r a0) :
    Keeps r (State.feed a0 a1 a2 a3) := by
  unfold State.feed
  extract_lets +onlyGivenNames x0
  try clear_value x0
  extract_lets +onlyGivenNames x1
  try clear_value x1
  exact keepsS_ite ha0 (by
  split
  · exact State.setCache_keeps ha0
  · extract_lets +onlyGivenNames x2
    try clear_value x2
    exact keepsS_ite (by
    extract_lets +onlyGivenNames x3
    try clear_value x3
    extract_lets +onlyGivenNames x4
    have h4 : Keeps r x4 := State.setPc_keeps ha0
    try clear_value x4
    exact State.wakeChan_keeps (State.setCache_keeps h4)) ha0)

theorem State.issueWrite_keeps {r : State} {a0 : State} {a1 : Loc} {a2 : Line} (ha0 : Keeps r a0) :
    Keeps r (State.issueWrite a0 a1 a2) := by
  unfold State.issueWrite
  split
  · exact ha0
  · extract_lets +onlyGivenNames x0
    have h0 : Keeps r x0 := State.writeLine_keeps ha0
    try clear_value x0
    extract_lets +onlyGivenNames x1
    try clear_value x1
    exact State.wakeChan_keeps (State.setPc_keeps h0)

theorem State.fieldUp_keeps {r : State} {a0 : State} {a1 : Nat} (ha0 : Keeps r a0) :
    Keeps r (State.fieldUp a0 a1).1 := by
  unfold State.fieldUp
  split
  · exact ha0
  · exact State.wr_keeps ha0
  · exact State.demand_keeps ha0

theorem State.sliceUp_keeps {r : State} {a0 : State} {a1 : Nat} (ha0 : Keeps r a0) :
    Keeps r (State.sliceUp a0 a1).1 := by
  unfold State.sliceUp
  exact keepsP1_ite ha0 (by
  split
  · exact ha0
  · exact State.wr_keeps ha0
  · exact State.demand_keeps (State.fieldUp_keeps ha0))

theorem State.feedAll_keeps {r : State} {a0 : State} (ha0 : Keeps r a0) :
    Keeps r (State.feedAll a0) := by
  unfold State.feedAll
  exact keeps_foldl (fun _ _ h0 => keepsS_ite (by
  extract_lets +onlyGivenNames x1
  try clear_value x1
  exact keeps_foldl (fun _ _ h2 => State.feed_keeps h2) h0) h0) ha0

theorem State.scaleEvent_keeps {r : State} {a0 : State} {a1 : Nat} {a2 : Nat} {a3 : Nat} {a4 : Nat} (ha0 : Keeps r a0) :
    Keeps r (State.scaleEvent a0 a1 a2 a3 a4) := by
  unfold State.scaleEvent
  exact keepsS_ite ha0 (keepsS_ite (State.raise_keeps ha0) (State.raise_keeps ha0))

theorem State.refreshLink_keeps {r : State} {a0 : State} {a1 : Nat} (ha0 : Keeps r a0) :
    Keeps r (State.refreshLink a0 a1) := by
  unfold State.refreshLink
  exact keepsS_ite (by
  extract_lets +onlyGivenNames x0
  try clear_value x0
  extract_lets +onlyGivenNames x1
  try clear_value x1
  extract_lets +onlyGivenNames x2
  try clear_value x2
  exact State.scaleEvent_keeps (State.wr_keeps (State.wr_keeps ha0))) ha0

theorem State.refreshLinks_keeps {r : State} {a0 : State} (ha0 : Keeps r a0) :
    Keeps r (State.refreshLinks a0) := by
  unfold State.refreshLinks
  exact keeps_foldl (fun _ _ h0 => State.refreshLink_keeps h0) ha0

theorem State.refreshGroup_keeps {r : State} {a0 : State} {a1 : Nat} (ha0 : Keeps r a0) :
    Keeps r (State.refreshGroup a0 a1) := by
  unfold State.refreshGroup
  exact keepsS_ite (by
  extract_lets +onlyGivenNames x0
  try clear_value x0
  extract_lets +onlyGivenNames x1
  try clear_value x1
  extract_lets +onlyGivenNames x2
  try clear_value x2
  exact State.scaleEvent_keeps (State.wr_keeps (State.wr_keeps ha0))) ha0

theorem State.noteServed_keeps {r : State} {a0 : State} {a1 : Nat} {a2 : Nat} (ha0 : Keeps r a0) :
    Keeps r (State.noteServed a0 a1 a2) := by
  unfold State.noteServed
  exact keeps_mk ha0

theorem State.spend_keeps {r : State} {a0 : State} {a1 : Nat} {a2 : Nat} {a3 : Nat} {a4 : Nat} (ha0 : Keeps r a0) :
    Keeps r (State.spend a0 a1 a2 a3 a4) := by
  unfold State.spend
  exact keeps_mk ha0

theorem State.missed_keeps {r : State} {a0 : State} {a1 : Obj} {a2 : Nat} {a3 : Nat} {a4 : Option Nat} (ha0 : Keeps r a0) :
    Keeps r (State.missed a0 a1 a2 a3 a4) := by
  unfold State.missed
  split
  · exact ha0
  · exact keepsS_ite (by
    extract_lets +onlyGivenNames x0
    have h0 : Keeps r x0 := State.count_keeps ha0
    try clear_value x0
    split
    · exact keepsS_ite h0 (State.raise_keeps (keeps_mk h0))
    · exact State.raise_keeps (keeps_mk h0)) ha0

theorem State.refreshGroups_keeps {r : State} {a0 : State} (ha0 : Keeps r a0) :
    Keeps r (State.refreshGroups a0) := by
  unfold State.refreshGroups
  exact keeps_foldl (fun _ _ h0 => State.refreshGroup_keeps h0) ha0

theorem State.resetGroupEst_keeps {r : State} {a0 : State} {a1 : Nat} (ha0 : Keeps r a0) :
    Keeps r (State.resetGroupEst a0 a1) := by
  unfold State.resetGroupEst
  exact keeps_foldl (fun _ _ h0 => State.wr_keeps h0) ha0

theorem State.resetLinkEst_keeps {r : State} {a0 : State} {a1 : Nat} (ha0 : Keeps r a0) :
    Keeps r (State.resetLinkEst a0 a1) := by
  unfold State.resetLinkEst
  exact keeps_foldl (fun _ _ h0 => State.wr_keeps h0) ha0

theorem State.setLnk_keeps {r : State} {a0 : State} {a1 : Nat} {a2 : Lnk} (ha0 : Keeps r a0) :
    Keeps r (State.setLnk a0 a1 a2) := by
  unfold State.setLnk
  exact keeps_mk ha0

theorem State.forwardEnd_keeps {r : State} {a0 : State} {a1 : Forward} {a2 : Nat} {a3 : Nat} {a4 : Nat} (ha0 : Keeps r a0) :
    Keeps r (State.forwardEnd a0 a1 a2 a3 a4) := by
  unfold State.forwardEnd
  exact keepsS_ite (by
  extract_lets +onlyGivenNames x0
  try clear_value x0
  extract_lets +onlyGivenNames x1
  have h1 : Keeps r x1 := keepsS_ite (keeps_mk ha0) ha0
  try clear_value x1
  exact State.answer_keeps h1) (by
  extract_lets +onlyGivenNames x2
  have h2 : Keeps r x2 := State.launchRecord_keeps ha0
  try clear_value x2
  extract_lets +onlyGivenNames x3
  have h3 : Keeps r x3 := keepsS_ite (keeps_mk h2) h2
  try clear_value x3
  exact State.answer_keeps h3)

theorem State.linkLose_keeps {r : State} {a0 : State} {a1 : Nat} (ha0 : Keeps r a0) :
    Keeps r (State.linkLose a0 a1) := by
  unfold State.linkLose
  extract_lets +onlyGivenNames x0
  try clear_value x0
  extract_lets +onlyGivenNames x1
  try clear_value x1
  extract_lets +onlyGivenNames x2
  have h2 : Keeps r x2 := keeps_mk ha0
  try clear_value x2
  extract_lets +onlyGivenNames x3
  have h3 : Keeps r x3 := keeps_foldl (fun _ _ h4 => State.complete_keeps h4) h2
  try clear_value x3
  exact keeps_foldl (fun _ _ h5 => State.forwardEnd_keeps h5) h3

theorem State.linkOrphan_keeps {r : State} {a0 : State} {a1 : Nat} (ha0 : Keeps r a0) :
    Keeps r (State.linkOrphan a0 a1) := by
  unfold State.linkOrphan
  exact keeps_foldl (fun _ _ h1 => by
    split
    · exact keepsS_ite (State.setReq_keeps h1) h1
    · exact h1) ha0

theorem State.linkStop_keeps {r : State} {a0 : State} {a1 : Nat} {a2 : Nat} (ha0 : Keeps r a0) :
    Keeps r (State.linkStop a0 a1 a2) := by
  unfold State.linkStop
  extract_lets +onlyGivenNames x0
  have h0 : Keeps r x0 := State.linkOrphan_keeps (State.linkLose_keeps ha0)
  try clear_value x0
  extract_lets +onlyGivenNames x1
  try clear_value x1
  extract_lets +onlyGivenNames x2
  try clear_value x2
  extract_lets +onlyGivenNames x3
  try clear_value x3
  extract_lets +onlyGivenNames x4
  have h4 : Keeps r x4 := State.setLnk_keeps h0
  try clear_value x4
  extract_lets +onlyGivenNames x5
  have h5 : Keeps r x5 := State.wr_keeps (State.wr_keeps (State.wr_keeps h4))
  try clear_value x5
  exact State.refreshLink_keeps (State.wr_keeps (State.wr_keeps h5))

theorem State.linkFail_keeps {r : State} {a0 : State} {a1 : Nat} {a2 : Nat} (ha0 : Keeps r a0) :
    Keeps r (State.linkFail a0 a1 a2) := by
  unfold State.linkFail
  exact keepsS_ite ha0 (by
  extract_lets +onlyGivenNames x0
  try clear_value x0
  extract_lets +onlyGivenNames x1
  have h1 : Keeps r x1 := State.raise_keeps (State.wr_keeps ha0)
  try clear_value x1
  extract_lets +onlyGivenNames x2
  have h2 : Keeps r x2 := keepsS_ite (State.wr_keeps h1) h1
  try clear_value x2
  exact State.recordTo_keeps (State.linkStop_keeps h2))

theorem State.routeJoin_keeps {r : State} {a0 : State} {a1 : Nat} (ha0 : Keeps r a0) :
    Keeps r (State.routeJoin a0 a1) := by
  unfold State.routeJoin
  exact keepsS_ite (keeps_mk ha0) ha0

theorem State.linkTake_keeps {r : State} {a0 : State} {a1 : Nat} {a2 : Nat} (ha0 : Keeps r a0) :
    KeepsO1 r (State.linkTake a0 a1 a2) := by
  unfold State.linkTake
  split
  · extract_lets +onlyGivenNames x0
    try clear_value x0
    exact keepsO1_some (State.setReq_keeps (keeps_mk ha0))
  · exact keepsO1_none

theorem State.linkQueue_keeps {r s : State} {n : Nat} {l : List Nat} (h : Keeps r s) : KeepsO r (s.linkQueue n l) := by
  unfold State.linkQueue
  refine keepsO_foldl (fun t _ ht => ?_) (keepsO_some h)
  split
  · exact keepsO_none
  · have hs := keeps_optO ht rfl
    exact keepsO_ite (keepsO_some hs) (keepsMapO1O (fun _ hy => State.sendLink_keeps hy) (State.linkTake_keeps hs))

theorem State.linkSched_keeps {r s : State} {n : Nat} {l : List Nat} (h : Keeps r s) : KeepsO r (s.linkSched n l) := by
  unfold State.linkSched
  extract_lets x
  have hx : KeepsO1 r x := by
    refine keepsO1_foldl (fun t _ ht => ?_) (keepsO1_some h)
    split
    · exact keepsO1_none
    · have hs := keeps_optO1 ht rfl
      exact keepsO1_ite (keepsO1_some hs) (keepsMapO1O1 (fun _ hy => hy) (State.linkTake_keeps hs))
  clear_value x
  split
  · exact keepsO_none
  · have hs := keeps_optO1 hx rfl
    extract_lets b
    exact keepsO_some (State.sendLink_keeps hs)

theorem State.setRng_keeps {r : State} {a0 : State} {a1 : Nat} {a2 : Rng} (ha0 : Keeps r a0) :
    Keeps r (State.setRng a0 a1 a2) := by
  unfold State.setRng
  exact State.setCache_keeps ha0

theorem State.eff_keeps {r : State} {a0 : State} {a1 : Nat} {a2 : Nat} {a3 : Req} {a4 : Plan} {a5 : Nat} {a6 : Nat} (ha0 : Keeps r a0) :
    Keeps r (State.eff a0 a1 a2 a3 a4 a5 a6).2 := by
  unfold State.eff
  extract_lets +onlyGivenNames x0
  try clear_value x0
  split
  · exact keepsP2_ite ha0 ha0
  · split
    · split
      · exact ha0
  · exact keepsP2_ite ha0 (by
    extract_lets +onlyGivenNames x1
    try clear_value x1
    exact State.count_keeps ha0)
  · exact keepsP2_ite ha0 (by
    extract_lets +onlyGivenNames x2
    try clear_value x2
    split
    · exact State.flowEvents_keeps (State.setRng_keeps ha0))
  · extract_lets +onlyGivenNames x3
    try clear_value x3
    split
    · split
      · extract_lets +onlyGivenNames x4
        try clear_value x4
        split
        · exact State.flowEvents_keeps (State.setRng_keeps ha0)
  · exact keepsP2_ite ha0 (by
    extract_lets +onlyGivenNames x5
    try clear_value x5
    split
    · exact State.flowEvents_keeps (State.setRng_keeps ha0))
  · exact ha0

theorem State.effGroup_keeps {r : State} {a0 : State} {a1 : Nat} {a2 : Nat} {a3 : List Req} {a4 : Req} {a5 : Nat} {a6 : Nat} (ha0 : Keeps r a0) :
    Keeps r (State.effGroup a0 a1 a2 a3 a4 a5 a6).2 := by
  unfold State.effGroup
  extract_lets +onlyGivenNames x0
  try clear_value x0
  exact keepsP2_ite (by
  extract_lets +onlyGivenNames x1
  try clear_value x1
  exact keepsP2_ite ha0 (State.count_keeps ha0)) (keepsP2_ite ha0 (by
  extract_lets +onlyGivenNames x2
  try clear_value x2
  split
  · extract_lets +onlyGivenNames x3
    try clear_value x3
    exact State.flowEvents_keeps (State.setRng_keeps ha0)))

theorem State.effEntry_keeps {r : State} {a0 : State} {a1 : Nat} {a2 : Nat} {a3 : List Nat} {a4 : Req} {a5 : Plan} {a6 : Nat} {a7 : Nat} (ha0 : Keeps r a0) :
    Keeps r (State.effEntry a0 a1 a2 a3 a4 a5 a6 a7).2 := by
  unfold State.effEntry
  split
  · exact State.eff_keeps ha0
  · exact State.effGroup_keeps (State.count_keeps ha0)

theorem State.useLine_keeps {r : State} {a0 : State} {a1 : Loc} (ha0 : Keeps r a0) :
    Keeps r (State.useLine a0 a1) := by
  unfold State.useLine
  extract_lets +onlyGivenNames x0
  try clear_value x0
  split
  · exact ha0
  · extract_lets +onlyGivenNames x1
    have h1 : Keeps r x1 := State.setCache_keeps ha0
    try clear_value x1
    exact keepsS_ite (State.count_keeps h1) h1

theorem State.putLine_keeps {r : State} {a0 : State} {a1 : Loc} {a2 : Line} (ha0 : Keeps r a0) :
    Keeps r (State.putLine a0 a1 a2) := by
  unfold State.putLine
  extract_lets +onlyGivenNames x0
  try clear_value x0
  split
  · exact State.setCache_keeps ha0
  · split
    · exact State.setCache_keeps ha0
    · exact ha0

theorem State.scatterLines_keeps {r : State} {a0 : State} {a1 : Loc} {a2 : Plan} {a3 : Bool} {a4 : Eff} (ha0 : Keeps r a0) :
    Keeps r (State.scatterLines a0 a1 a2 a3 a4) := by
  unfold State.scatterLines
  exact keeps_foldl (fun _ _ h0 => by
  split
  · exact h0
  · extract_lets +onlyGivenNames x1
    try clear_value x1
    exact State.putLine_keeps h0) ha0

theorem State.completeAll_keeps {r : State} {a0 : State} {a1 : List Nat} {a2 : Eff} (ha0 : Keeps r a0) :
    Keeps r (State.completeAll a0 a1 a2) := by
  unfold State.completeAll
  exact keeps_foldl (fun _ _ h0 => State.complete_keeps h0) ha0

theorem State.perform_keeps {r : State} {a0 : State} {a1 : Loc} {a2 : List Nat} {a3 : Req} {a4 : Plan} (ha0 : Keeps r a0) :
    Keeps r (State.perform a0 a1 a2 a3 a4) := by
  unfold State.perform
  split
  · split
    · rename_i p0_0 p0_1 e0
      have h0 := keeps_snd (State.effEntry_keeps ha0) e0
      extract_lets +onlyGivenNames x1
      have h1 : Keeps r x1 := keeps_foldl (fun _ _ h2 => keepsS_ite h2 (State.useLine_keeps h2)) h0
      try clear_value x1
      extract_lets +onlyGivenNames x3
      have h3 : Keeps r x3 := keepsS_ite (State.scatterLines_keeps h1) h1
      try clear_value x3
      exact State.completeAll_keeps h3

theorem State.applyHot_keeps {r : State} {a0 : State} {a1 : Loc} (ha0 : Keeps r a0) :
    Keeps r (State.applyHot a0 a1) := by
  unfold State.applyHot
  extract_lets +onlyGivenNames x0
  try clear_value x0
  split
  · exact ha0
  · extract_lets +onlyGivenNames x1
    have h1 : Keeps r x1 := State.setCache_keeps ha0
    try clear_value x1
    split
    · exact h1
    · split
      · exact h1
      · split
        · exact h1
        · exact State.perform_keeps h1

theorem State.setStage_keeps {r : State} {a0 : State} {a1 : List Nat} {a2 : Stage} (ha0 : Keeps r a0) :
    Keeps r (State.setStage a0 a1 a2) := by
  unfold State.setStage
  exact keeps_foldl (fun _ _ h0 => by
  split
  · exact State.setReq_keeps h0
  · exact h0) ha0

theorem State.waitVictim_keeps {r : State} {a0 : State} {a1 : Loc} {a2 : List Nat} (ha0 : Keeps r a0) :
    Keeps r (State.waitVictim a0 a1 a2) := by
  unfold State.waitVictim
  extract_lets +onlyGivenNames x0
  try clear_value x0
  split
  · exact ha0
  · exact State.setStage_keeps (State.setCache_keeps ha0)

theorem State.makeRoom_keeps {r : State} {a0 : State} {a1 : Loc} {a2 : Nat} (ha0 : Keeps r a0) :
    KeepsO2 r (State.makeRoom a0 a1 a2) := by
  unfold State.makeRoom
  extract_lets +onlyGivenNames x0
  try clear_value x0
  split
  · exact keepsO2_none
  · split
    · exact keepsO2_some ha0
    · exact keepsO2_ite (keepsO2_some (State.setCache_keeps ha0)) (keepsO2_ite keepsO2_none (keepsO2_some (State.setCache_keeps ha0)))

theorem State.remerge_keeps {r : State} {a0 : State} {a1 : Loc} (ha0 : Keeps r a0) :
    KeepsO r (State.remerge a0 a1) := by
  unfold State.remerge
  extract_lets +onlyGivenNames x0
  try clear_value x0
  split
  · exact keepsO_none
  · split
    · exact keepsO_none
    · rename_i p1_0 p1_1 e1
      have h1 := keeps_optO2 (State.makeRoom_keeps (State.setCache_keeps ha0)) e1
      exact keepsO_some (State.setCache_keeps h1)

theorem State.toReplay_keeps {r : State} {a0 : State} {a1 : Loc} {a2 : List Nat} (ha0 : Keeps r a0) :
    Keeps r (State.toReplay a0 a1 a2) := by
  unfold State.toReplay
  extract_lets +onlyGivenNames x0
  try clear_value x0
  exact keepsS_ite (State.setStage_keeps (State.setCache_keeps ha0)) (State.setStage_keeps (State.count_keeps ha0))

theorem State.fmtVictims_keeps {r s : State} {p : Loc} {g : List Nat} {pl : Plan} (h : Keeps r s) :
    KeepsO r (s.fmtVictims p g pl).1 ∧ Keeps r (s.fmtVictims p g pl).2 := by
  unfold State.fmtVictims
  extract_lets vs
  split
  · exact ⟨keepsO_none, State.waitVictim_keeps h⟩
  · have hu : Keeps r (if vs.isEmpty = true then s else s.count D.VICTIM_HIT_COUNT p.n 1) := keepsS_ite h (State.count_keeps h)
    split
    · exact ⟨keepsO_some hu, hu⟩
    · split
      · rename_i e
        have ht := keeps_optO (keepsO_foldl (fun t _ ht => by
          split
          · exact State.remerge_keeps (keeps_optO ht rfl)
          · exact keepsO_none) (keepsO_some hu)) e
        exact ⟨keepsO_some ht, ht⟩
      · exact ⟨keepsO_none, State.toReplay_keeps h⟩

theorem State.failAll_keeps {r : State} {a0 : State} {a1 : List Nat} {a2 : Nat} (ha0 : Keeps r a0) :
    Keeps r (State.failAll a0 a1 a2) := by
  unfold State.failAll
  exact keeps_foldl (fun _ _ h0 => State.complete_keeps h0) ha0

theorem State.pull_keeps {r : State} {a0 : State} {a1 : Loc} {a2 : Loc} (ha0 : Keeps r a0) :
    Keeps r (State.pull a0 a1 a2) := by
  unfold State.pull
  extract_lets +onlyGivenNames x0
  try clear_value x0
  split
  · exact ha0
  · exact keepsS_ite ha0 (by
    extract_lets +onlyGivenNames x1
    have h1 : Keeps r x1 := State.applyHot_keeps ha0
    try clear_value x1
    split
    · exact h1
    · exact keepsS_ite h1 (by
      split
      · exact h1
      · rename_i p2_0 p2_1 e2
        have h2 := keeps_optO2 (State.makeRoom_keeps h1) e2
        extract_lets +onlyGivenNames x3
        have h3 : Keeps r x3 := State.setCache_keeps h2
        try clear_value x3
        exact State.setCache_keeps h3))

theorem State.pullLines_keeps {r : State} {a0 : State} {a1 : Plan} (ha0 : Keeps r a0) :
    Keeps r (State.pullLines a0 a1) := by
  unfold State.pullLines
  exact keepsS_ite ha0 (keeps_foldl (fun _ _ h0 => by
  split
  · exact keepsS_ite h0 (State.pull_keeps h0)
  · exact h0) ha0)

theorem State.arrive_keeps {r : State} {a0 : State} {a1 : List Nat} {a2 : State → Loc → Req → Plan → State} (ha0 : Keeps r a0) (ha2 : ∀ t b0 b1 b2, Keeps r t → Keeps r (a2 t b0 b1 b2)) :
    Keeps r (State.arrive a0 a1 a2) := by
  unfold State.arrive
  split
  · exact ha0
  · split
    · exact ha0
    · split
      · exact State.failAll_keeps ha0
      · exact keepsS_ite (State.failAll_keeps ha0) (by
        extract_lets +onlyGivenNames x0
        have h0 : Keeps r x0 := State.pullLines_keeps ha0
        try clear_value x0
        split
        · exact State.failAll_keeps h0
        · exact keepsS_ite (State.failAll_keeps h0) (ha2 _ _ _ _ h0))

theorem State.toBusyQ_keeps {r : State} {a0 : State} {a1 : Loc} {a2 : List Nat} {a3 : Nat} {a4 : Req} (ha0 : Keeps r a0) :
    Keeps r (State.toBusyQ a0 a1 a2 a3 a4) := by
  unfold State.toBusyQ
  extract_lets +onlyGivenNames x0
  try clear_value x0
  split
  · exact State.setStage_keeps (State.setCache_keeps ha0)
  · exact keepsS_ite (State.setStage_keeps (State.setCache_keeps ha0)) (State.toReplay_keeps ha0)

theorem State.updMiss_keeps {r : State} {a0 : State} {a1 : Loc} {a2 : MissReg → MissReg} (ha0 : Keeps r a0) :
    Keeps r (State.updMiss a0 a1 a2) := by
  unfold State.updMiss
  split
  · exact ha0
  · exact State.feed_keeps (State.setCache_keeps ha0)

theorem State.joinMiss_keeps {r : State} {a0 : State} {a1 : Loc} {a2 : MissReg} {a3 : List Nat} {a4 : Nat} {a5 : Req} {a6 : Plan} (ha0 : Keeps r a0) :
    Keeps r (State.joinMiss a0 a1 a2 a3 a4 a5 a6) := by
  unfold State.joinMiss
  exact keepsS_ite (State.completeAll_keeps ha0) (by
  extract_lets +onlyGivenNames x0
  have h0 : Keeps r x0 := keepsS_ite (State.count_keeps (State.updMiss_keeps ha0)) ha0
  try clear_value x0
  exact keepsS_ite (State.setStage_keeps (State.updMiss_keeps h0)) (by
  extract_lets +onlyGivenNames x1
  try clear_value x1
  split
  · exact State.setStage_keeps (State.updMiss_keeps h0)
  · exact keepsS_ite (State.setStage_keeps (State.updMiss_keeps h0)) (keepsS_ite (State.setStage_keeps (State.updMiss_keeps h0)) (State.toReplay_keeps h0))))

theorem State.collect_keeps {r : State} {a0 : State} {a1 : Loc} {a2 : Nat} {a3 : Req} (ha0 : Keeps r a0) :
    Keeps r (State.collect a0 a1 a2 a3) := by
  unfold State.collect
  extract_lets +onlyGivenNames x0
  try clear_value x0
  extract_lets +onlyGivenNames x1
  try clear_value x1
  split
  · exact State.setStage_keeps (State.setCache_keeps ha0)
  · extract_lets +onlyGivenNames x2
    have h2 : Keeps r x2 := State.applyHot_keeps ha0
    try clear_value x2
    extract_lets +onlyGivenNames x3
    have h3 : Keeps r x3 := by
      unfold x3
      split
      · exact keepsS_ite (State.applyHot_keeps h2) h2
      · exact h2
    try clear_value x3
    split
    · exact keepsS_ite (by
      extract_lets +onlyGivenNames x4
      try clear_value x4
      exact State.setStage_keeps (State.setCache_keeps h3)) (by
      extract_lets +onlyGivenNames x5
      try clear_value x5
      exact State.setStage_keeps (State.setCache_keeps h3))
    · exact h3

theorem State.afterDead_keeps {r : State} {a0 : State} {a1 : Loc} {a2 : Req} (ha0 : Keeps r a0) :
    Keeps r (State.afterDead a0 a1 a2) := by
  unfold State.afterDead
  extract_lets +onlyGivenNames x0
  try clear_value x0
  extract_lets +onlyGivenNames x1
  try clear_value x1
  exact keepsS_ite (State.count_keeps (State.setCache_keeps ha0)) ha0

theorem State.newMiss_keeps {r : State} {a0 : State} {a1 : Loc} {a2 : Req} {a3 : Nat} {a4 : Bool} {a5 : Option Nat} (ha0 : Keeps r a0) :
    Keeps r (State.newMiss a0 a1 a2 a3 a4 a5) := by
  unfold State.newMiss
  extract_lets +onlyGivenNames x0
  try clear_value x0
  extract_lets +onlyGivenNames x1
  try clear_value x1
  exact State.feed_keeps (State.setCache_keeps ha0)

theorem State.nextLine_keeps {r : State} {a0 : State} {a1 : Loc} {a2 : Req} (ha0 : Keeps r a0) :
    Keeps r (State.nextLine a0 a1 a2) := by
  unfold State.nextLine
  extract_lets +onlyGivenNames x0
  try clear_value x0
  extract_lets +onlyGivenNames x1
  try clear_value x1
  exact keepsS_ite (State.count_keeps (State.newMiss_keeps ha0)) ha0

theorem State.missOne_keeps {r : State} {a0 : State} {a1 : Loc} {a2 : List Nat} {a3 : Nat} {a4 : Req} {a5 : Plan} (ha0 : Keeps r a0) :
    Keeps r (State.missOne a0 a1 a2 a3 a4 a5) := by
  unfold State.missOne
  exact keepsS_ite (keeps_foldl (fun _ _ h0 => State.complete_keeps h0) ha0) (keepsS_ite (State.toReplay_keeps ha0) (by
  extract_lets +onlyGivenNames x1
  have h1 : Keeps r x1 := State.afterDead_keeps ha0
  try clear_value x1
  extract_lets +onlyGivenNames x2
  have h2 : Keeps r x2 := State.newMiss_keeps h1
  try clear_value x2
  extract_lets +onlyGivenNames x3
  have h3 : Keeps r x3 := by
    unfold x3
    split
    · exact State.setStage_keeps (State.updMiss_keeps h2)
    · exact keeps_foldl (fun _ _ h4 => State.complete_keeps h4) h2
    · exact State.setStage_keeps (State.updMiss_keeps h2)
  try clear_value x3
  exact State.nextLine_keeps h3))

theorem State.hitVictim_keeps {r : State} {a0 : State} {a1 : Loc} {a2 : Victim} {a3 : List Nat} {a4 : Nat} {a5 : Req} {a6 : Plan} (ha0 : Keeps r a0) :
    Keeps r (State.hitVictim a0 a1 a2 a3 a4 a5 a6) := by
  unfold State.hitVictim
  exact keepsS_ite (keeps_foldl (fun _ _ h0 => State.complete_keeps h0) ha0) (keepsS_ite (State.waitVictim_keeps ha0) (keepsS_ite (keepsS_ite (State.perform_keeps (State.count_keeps ha0)) (State.waitVictim_keeps ha0)) (keepsS_ite (State.waitVictim_keeps ha0) (by
  split
  · exact State.toReplay_keeps ha0
  · rename_i p1_0 e1
    have h1 := keeps_optO (State.remerge_keeps ha0) e1
    extract_lets +onlyGivenNames x2
    have h2 : Keeps r x2 := State.count_keeps h1
    try clear_value x2
    exact keepsS_ite (State.perform_keeps h2) (State.missOne_keeps h2)))))

theorem State.missFmt_keeps {r : State} {a0 : State} {a1 : Loc} {a2 : List Nat} {a3 : Req} {a4 : Plan} (ha0 : Keeps r a0) :
    Keeps r (State.missFmt a0 a1 a2 a3 a4) := by
  unfold State.missFmt
  extract_lets +onlyGivenNames x0
  try clear_value x0
  extract_lets +onlyGivenNames x1
  try clear_value x1
  extract_lets +onlyGivenNames x2
  try clear_value x2
  extract_lets +onlyGivenNames x3
  try clear_value x3
  exact keepsS_ite (keeps_foldl (fun _ _ h4 => State.complete_keeps h4) ha0) (keepsS_ite (State.toReplay_keeps ha0) (by
  extract_lets +onlyGivenNames x5
  have h5 : Keeps r x5 := keeps_foldl (fun _ _ h6 => State.newMiss_keeps (State.afterDead_keeps h6)) ha0
  try clear_value x5
  extract_lets +onlyGivenNames x7
  have h7 : Keeps r x7 := keeps_foldl (fun _ _ h8 => State.updMiss_keeps h8) h5
  try clear_value x7
  exact State.setStage_keeps h7))

theorem State.order_keeps {r s : State} {p : Loc} {g : List Nat} {i : Nat} {q : Req} {pl : Plan} (h : Keeps r s) :
    Keeps r (s.order p g i q pl) := by
  unfold State.order
  refine keepsS_ite (State.toReplay_keeps h) ?_
  extract_lets +onlyGivenNames s1
  have h1 : Keeps r s1 := keepsS_ite h (keeps_foldl (fun _ _ ht => State.applyHot_keeps ht) h)
  clear_value s1
  refine keepsS_ite (State.toBusyQ_keeps h1) (keepsS_ite ?_ ?_)
  · extract_lets +onlyGivenNames x
    split
    · exact State.joinMiss_keeps h1
    · split
      · exact keepsS_ite (State.failAll_keeps h1)
          (keepsS_ite (keepsS_ite (State.collect_keeps h1) (State.perform_keeps h1)) (State.missOne_keeps h1))
      · split
        · exact State.hitVictim_keeps h1
        · exact State.missOne_keeps h1
  · have hv := State.fmtVictims_keeps (p := p) (g := g) (pl := pl) h1
    split
    · rename_i e; rw [e] at hv; exact hv.2
    · rename_i e; rw [e] at hv
      have ht := keeps_optO hv.1 rfl
      exact keepsS_ite (keepsS_ite (State.collect_keeps ht) (State.perform_keeps ht)) (State.missFmt_keeps ht)

theorem State.again_keeps {r : State} {a0 : State} {a1 : List Nat} (ha0 : Keeps r a0) :
    Keeps r (State.again a0 a1) := by
  unfold State.again
  exact State.arrive_keeps ha0 (fun _ _ _ _ h0 => by
  split
  · exact State.order_keeps h0
  · exact h0)

theorem State.againAll_keeps {r : State} {a0 : State} {a1 : List (List Nat)} (ha0 : Keeps r a0) :
    Keeps r (State.againAll a0 a1) := by
  unfold State.againAll
  exact keeps_foldl (fun _ _ h0 => State.again_keeps h0) ha0

theorem State.poisonSet_keeps {r : State} {a0 : State} {a1 : Loc} {a2 : Nat} (ha0 : Keeps r a0) :
    Keeps r (State.poisonSet a0 a1 a2) := by
  unfold State.poisonSet
  extract_lets +onlyGivenNames x0
  try clear_value x0
  extract_lets +onlyGivenNames x1
  try clear_value x1
  extract_lets +onlyGivenNames x2
  have h2 : Keeps r x2 := keeps_foldl (fun _ _ h3 => State.poisonLine_keeps h3) ha0
  try clear_value x2
  exact keeps_foldl (fun _ _ h4 => keeps_foldl (fun _ _ h5 => by
  split
  · exact keepsS_ite (State.poisonLine_keeps h5) h5
  · exact h5) h4) h2

theorem State.hotCount_keeps {r : State} {a0 : State} {a1 : Loc} {a2 : Req} (ha0 : Keeps r a0) :
    Keeps r (State.hotCount a0 a1 a2) := by
  unfold State.hotCount
  exact keepsS_ite ha0 (by
  extract_lets +onlyGivenNames x0
  try clear_value x0
  split
  · extract_lets +onlyGivenNames x1
    have h1 : Keeps r x1 := State.setCache_keeps ha0
    try clear_value x1
    exact keepsS_ite h1 (by
    extract_lets +onlyGivenNames x2
    try clear_value x2
    extract_lets +onlyGivenNames x3
    try clear_value x3
    extract_lets +onlyGivenNames x4
    have h4 : Keeps r x4 := State.setCache_keeps h1
    try clear_value x4
    extract_lets +onlyGivenNames x5
    have h5 : Keeps r x5 := State.wr_keeps (State.count_keeps h4)
    try clear_value x5
    exact keepsS_ite (State.raise_keeps h5) h5))

theorem State.flushHotSet_keeps {r : State} {a0 : State} {a1 : Loc} (ha0 : Keeps r a0) :
    Keeps r (State.flushHotSet a0 a1) := by
  unfold State.flushHotSet
  exact keeps_foldl (fun _ _ h0 => keepsS_ite (State.applyHot_keeps h0) h0) ha0

theorem State.addDefect_keeps {r : State} {a0 : State} {a1 : Nat} {a2 : Nat} {a3 : Nat} {a4 : Nat} (ha0 : Keeps r a0) :
    Keeps r (State.addDefect a0 a1 a2 a3 a4) := by
  unfold State.addDefect
  extract_lets +onlyGivenNames x0
  try clear_value x0
  extract_lets +onlyGivenNames x1
  try clear_value x1
  exact keepsS_ite ha0 (keepsS_ite (State.raise_keeps ha0) (by
  extract_lets +onlyGivenNames x2
  try clear_value x2
  exact State.raise_keeps (State.wr_keeps (State.wr_keeps ha0))))

theorem State.poisonDirty_keeps {r : State} {a0 : State} {a1 : Nat} {a2 : Slice} (ha0 : Keeps r a0) :
    Keeps r (State.poisonDirty a0 a1 a2).1 := by
  unfold State.poisonDirty
  extract_lets +onlyGivenNames x0
  try clear_value x0
  exact keepsP1_foldl (fun _ _ h1 => State.poisonSectors_keeps h1) ha0

theorem State.suspendLap_keeps {r : State} {a0 : State} {a1 : Nat} (ha0 : Keeps r a0) :
    Keeps r (State.suspendLap a0 a1) := by
  unfold State.suspendLap
  exact keepsS_ite (keeps_mk ha0) ha0

theorem State.topoChange_keeps {r : State} {a0 : State} {a1 : Nat} (ha0 : Keeps r a0) :
    Keeps r (State.topoChange a0 a1) := by
  unfold State.topoChange
  split
  · exact ha0
  · exact keepsS_ite (by
    extract_lets +onlyGivenNames x0
    have h0 : Keeps r x0 := State.suspendLap_keeps ha0
    try clear_value x0
    exact keeps_mk h0) ha0

theorem State.adopt_keeps {r : State} {a0 : State} {a1 : Nat} {a2 : Nat} (ha0 : Keeps r a0) :
    Keeps r (State.adopt a0 a1 a2) := by
  unfold State.adopt
  exact State.raise_keeps (State.wr_keeps (State.wr_keeps (State.topoChange_keeps ha0)))

theorem State.makeHole_keeps {r : State} {a0 : State} {a1 : Nat} (ha0 : Keeps r a0) :
    Keeps r (State.makeHole a0 a1) := by
  unfold State.makeHole
  exact State.raise_keeps (State.wr_keeps (State.topoChange_keeps ha0))

theorem State.failSlice_keeps {r : State} {a0 : State} {a1 : Nat} (ha0 : Keeps r a0) :
    Keeps r (State.failSlice a0 a1) := by
  unfold State.failSlice
  extract_lets +onlyGivenNames x0
  try clear_value x0
  extract_lets +onlyGivenNames x1
  try clear_value x1
  exact keepsS_ite ha0 (by
  extract_lets +onlyGivenNames x2
  try clear_value x2
  split
  · rename_i p3_0 p3_1 e3
    have h3 := keeps_fst (State.poisonDirty_keeps ha0) e3
    extract_lets +onlyGivenNames x4
    try clear_value x4
    extract_lets +onlyGivenNames x5
    have h5 : Keeps r x5 := State.setCache_keeps h3
    try clear_value x5
    extract_lets +onlyGivenNames x6
    have h6 : Keeps r x6 := State.failAll_keeps h5
    try clear_value x6
    extract_lets +onlyGivenNames x7
    have h7 : Keeps r x7 := State.chanRecord_keeps h6
    try clear_value x7
    extract_lets +onlyGivenNames x8
    have h8 : Keeps r x8 := State.addDefect_keeps h7
    try clear_value x8
    extract_lets +onlyGivenNames x9
    have h9 : Keeps r x9 := State.sweepSliceEnd_keeps h8
    try clear_value x9
    extract_lets +onlyGivenNames x10
    have h10 : Keeps r x10 := keepsS_ite (State.wr_keeps h9) h9
    try clear_value x10
    split
    · extract_lets +onlyGivenNames x11
      have h11 : Keeps r x11 := State.wr_keeps (keeps_mk h10)
      try clear_value x11
      split
      · exact State.adopt_keeps h11
      · exact State.makeHole_keeps h11
    · split
      · exact keeps_mk h10
      · exact State.makeHole_keeps h10)

theorem State.loseSet_keeps {r : State} {a0 : State} {a1 : Loc} {a2 : Nat} (ha0 : Keeps r a0) :
    Keeps r (State.loseSet a0 a1 a2) := by
  unfold State.loseSet
  extract_lets +onlyGivenNames x0
  try clear_value x0
  exact keepsS_ite ha0 (by
  extract_lets +onlyGivenNames x1
  try clear_value x1
  extract_lets +onlyGivenNames x2
  try clear_value x2
  extract_lets +onlyGivenNames x3
  try clear_value x3
  extract_lets +onlyGivenNames x4
  try clear_value x4
  extract_lets +onlyGivenNames x5
  try clear_value x5
  extract_lets +onlyGivenNames x6
  have h6 : Keeps r x6 := State.count_keeps (State.setCache_keeps ha0)
  try clear_value x6
  extract_lets +onlyGivenNames x7
  have h7 : Keeps r x7 := State.raise_keeps (State.poisonSet_keeps h6)
  try clear_value x7
  extract_lets +onlyGivenNames x8
  have h8 : Keeps r x8 := State.chanRecord_keeps h7
  try clear_value x8
  extract_lets +onlyGivenNames x9
  have h9 : Keeps r x9 := keeps_foldl (fun _ _ h10 => keepsS_ite (by
    extract_lets +onlyGivenNames x11
    try clear_value x11
    exact keepsS_ite h10 (State.chanRecord_keeps h10)) h10) h8
  try clear_value x9
  extract_lets +onlyGivenNames x12
  have h12 : Keeps r x12 := keepsS_ite (State.failSlice_keeps h9) h9
  try clear_value x12
  exact State.againAll_keeps h12)

theorem State.noteFail_keeps {r : State} {a0 : State} {a1 : Nat} {a2 : Nat} (ha0 : Keeps r a0) :
    Keeps r (State.noteFail a0 a1 a2) := by
  unfold State.noteFail
  extract_lets +onlyGivenNames x0
  try clear_value x0
  extract_lets +onlyGivenNames x1
  try clear_value x1
  extract_lets +onlyGivenNames x2
  have h2 : Keeps r x2 := keeps_mk ha0
  try clear_value x2
  exact keepsS_ite h2 (State.raise_keeps h2)

end Sys2Proof.Machine
end

