-- ==== Sys2Proof/Laws/KeepsSlices.lean ====
section
/-! SUPPORT. What every operation keeps (Laws/Keeps.lean), one lemma each: slices, routers, clocks and gate time (chapters 03, 07, 08 and 14). -/

namespace Sys2Proof.Machine

theorem State.ownTagPeek_keeps {r : State} {a0 : State} {a1 : Nat} {a2 : OdWrite} (ha0 : Keeps r a0) :
    Keeps r (State.ownTagPeek a0 a1 a2) := by
  unfold State.ownTagPeek
  exact keepsS_ite (State.odFail_keeps ha0) (by
  extract_lets +onlyGivenNames x0
  try clear_value x0
  extract_lets +onlyGivenNames x1
  try clear_value x1
  extract_lets +onlyGivenNames x2
  have h2 : Keeps r x2 := State.setObj_keeps ha0
  try clear_value x2
  exact keepsS_ite (State.odDone_keeps (State.drew_keeps (State.wr_keeps h2))) (by
  extract_lets +onlyGivenNames x3
  try clear_value x3
  exact State.odDone_keeps (State.wr_keeps h2)))

theorem execTagPeekSelect_keeps {r : State} {a0 : Fin 1024} {a1 : OdWrite} {a2 : State} (ha2 : Keeps r a2) :
    KeepsX r (execTagPeekSelect a0 a1 a2) := by
  unfold execTagPeekSelect
  exact State.odCmd_keeps ha2 (fun _ h0 => State.odWrite_keeps h0 (fun _ h1 => State.ownTagPeek_keeps h1))

theorem State.pushLine_keeps {r : State} {a0 : State} {a1 : Loc} (ha0 : Keeps r a0) :
    Keeps r (State.pushLine a0 a1) := by
  unfold State.pushLine
  split
  · exact ha0
  · extract_lets +onlyGivenNames x0
    have h0 : Keeps r x0 := State.pull_keeps ha0
    try clear_value x0
    split
    · exact h0
    · extract_lets +onlyGivenNames x1
      have h1 : Keeps r x1 := State.setCache_keeps h0
      try clear_value x1
      exact keepsS_ite h1 (State.issueWrite_keeps h1)

theorem execRetireWalkEnd_keeps {r : State} {a0 : Fin 1024} {a1 : State} (ha1 : Keeps r a1) :
    KeepsX r (execRetireWalkEnd a0 a1) := by
  unfold execRetireWalkEnd
  split
  · exact keepsX_next ha1
  · extract_lets +onlyGivenNames x0
    try clear_value x0
    extract_lets +onlyGivenNames x1
    try clear_value x1
    extract_lets +onlyGivenNames x2
    try clear_value x2
    exact keepsX_ite (keepsX_next ha1) (by
    extract_lets +onlyGivenNames x3
    have h3 : Keeps r x3 := keeps_foldl (fun _ _ h4 => State.applyHot_keeps h4) ha1
    try clear_value x3
    extract_lets +onlyGivenNames x5
    have h5 : Keeps r x5 := keeps_foldl (fun _ _ h6 => by
      split
      · exact keepsS_ite h6 (State.pushLine_keeps h6)
      · exact h6) h3
    try clear_value x5
    extract_lets +onlyGivenNames x7
    have h7 : Keeps r x7 := State.setCache_keeps (State.topoChange_keeps h5)
    try clear_value x7
    extract_lets +onlyGivenNames x8
    have h8 : Keeps r x8 := keeps_mk h7
    try clear_value x8
    extract_lets +onlyGivenNames x9
    have h9 : Keeps r x9 := keepsS_ite (State.wr_keeps h8) h8
    try clear_value x9
    extract_lets +onlyGivenNames x10
    have h10 : Keeps r x10 := by
      unfold x10
      split
      · exact State.wr_keeps (State.wr_keeps h9)
      · exact State.wr_keeps h9
    try clear_value x10
    exact keepsX_next (State.raise_keeps (State.wr_keeps h10)))

theorem State.tagCheck_keeps {r : State} {a0 : State} {a1 : Loc} {a2 : TagChk} (ha0 : Keeps r a0) :
    Keeps r (State.tagCheck a0 a1 a2) := by
  unfold State.tagCheck
  exact keepsS_ite ha0 (by
  split
  · exact ha0
  · exact State.loseSet_keeps ha0
  · exact State.count_keeps ha0)

theorem State.dataCheck_keeps {r : State} {a0 : State} {a1 : Loc} {a2 : DataChk} (ha0 : Keeps r a0) :
    Keeps r (State.dataCheck a0 a1 a2) := by
  unfold State.dataCheck
  split
  · exact ha0
  · exact ha0
  · exact State.count_keeps ha0
  · exact keepsS_ite ha0 (by
    extract_lets +onlyGivenNames x0
    have h0 : Keeps r x0 := State.count_keeps ha0
    try clear_value x0
    exact keepsS_ite (by
    extract_lets +onlyGivenNames x1
    have h1 : Keeps r x1 := State.setCache_keeps h0
    try clear_value x1
    exact State.dataRecord_keeps (State.raise_keeps h1)) (State.setCache_keeps h0))

theorem State.pass_keeps {r : State} {a0 : State} {a1 : Nat} {a2 : ReqKind → Bool} {a3 : TagChk} {a4 : DataChk} (ha0 : Keeps r a0) :
    Keeps r (State.pass a0 a1 a2 a3 a4) := by
  unfold State.pass
  split
  · exact ha0
  · exact keepsS_ite (State.arrive_keeps ha0 (fun _ _ _ _ h0 => by
    extract_lets +onlyGivenNames x1
    have h1 : Keeps r x1.1 := State.sliceUp_keeps h0
    try clear_value x1
    exact keepsS_ite h1 (by
    extract_lets +onlyGivenNames x2
    have h2 : Keeps r x2 := State.tagCheck_keeps h1
    try clear_value x2
    exact keepsS_ite h2 (State.order_keeps (State.hotCount_keeps (State.dataCheck_keeps h2)))))) ha0

theorem execFormatOnWrite_keeps {r : State} {a0 : Nat} {a1 : State} (ha1 : Keeps r a1) :
    KeepsX r (execFormatOnWrite a0 a1) := by
  unfold execFormatOnWrite
  exact keepsX_next (State.pass_keeps ha1)

theorem State.ownSliceRetire_keeps {r : State} {a0 : State} {a1 : Nat} (ha0 : Keeps r a0) :
    Keeps r (State.ownSliceRetire a0 a1) := by
  unfold State.ownSliceRetire
  exact keepsS_ite (State.odFail_keeps ha0) (keepsS_ite (State.odFail_keeps ha0) (keepsS_ite (State.odFail_keeps ha0) (State.odDone_keeps (State.wr_keeps (keeps_mk ha0)))))

theorem execWritebackIssued_keeps {r : State} {a0 : Fin 1024} {a1 : Nat} {a2 : State} (ha2 : Keeps r a2) :
    KeepsX r (execWritebackIssued a0 a1 a2) := by
  unfold execWritebackIssued
  exact keepsX_next (keeps_foldl (fun _ _ h0 => by
  split
  · exact h0
  · extract_lets +onlyGivenNames x1
    try clear_value x1
    exact keepsS_ite (State.issueWrite_keeps (State.setCache_keeps h0)) h0) ha2)

theorem execSpareAdoptionSwitch_keeps {r : State} {a0 : Fin 1024} {a1 : State} (ha1 : Keeps r a1) :
    KeepsX r (execSpareAdoptionSwitch a0 a1) := by
  unfold execSpareAdoptionSwitch
  split
  · exact keepsX_next (State.adopt_keeps (keeps_mk ha1))
  · exact keepsX_next ha1

theorem State.bump_keeps {r : State} {a0 : State} {a1 : Nat} {a2 : Nat} (ha0 : Keeps r a0) :
    Keeps r (State.bump a0 a1 a2) := by
  unfold State.bump
  split
  · exact State.setReq_keeps ha0
  · exact ha0

theorem State.acted_keeps {r : State} {a0 : State} {a1 : Nat} {a2 : Nat} {a3 : Nat} (ha0 : Keeps r a0) :
    Keeps r (State.acted a0 a1 a2 a3) := by
  unfold State.acted
  extract_lets +onlyGivenNames x0
  have h0 : Keeps r x0 := State.bump_keeps ha0
  try clear_value x0
  exact keepsS_ite (State.bump_keeps h0) h0

theorem State.forceOut_keeps {r : State} {a0 : State} {a1 : Loc} {a2 : Nat} {a3 : Line} (ha0 : Keeps r a0) :
    KeepsO1 r (State.forceOut a0 a1 a2 a3) := by
  unfold State.forceOut
  extract_lets +onlyGivenNames x0
  try clear_value x0
  exact keepsO1_ite (keepsO1_some (State.setCache_keeps ha0)) (keepsO1_ite (keepsO1_ite (keepsO1_some (State.setCache_keeps ha0)) keepsO1_none) (keepsO1_ite (keepsO1_some (State.issueWrite_keeps (State.setCache_keeps ha0))) keepsO1_none))

theorem State.deadNote_keeps {r : State} {a0 : State} {a1 : Loc} (ha0 : Keeps r a0) :
    Keeps r (State.deadNote a0 a1) := by
  unfold State.deadNote
  extract_lets +onlyGivenNames x0
  try clear_value x0
  extract_lets +onlyGivenNames x1
  try clear_value x1
  extract_lets +onlyGivenNames x2
  try clear_value x2
  exact State.setCache_keeps ha0

theorem State.deadMark_keeps {r : State} {a0 : State} {a1 : Loc} {a2 : Nat} (ha0 : Keeps r a0) :
    Keeps r (State.deadMark a0 a1 a2) := by
  unfold State.deadMark
  extract_lets +onlyGivenNames x0
  have h0 : Keeps r x0 := State.deadNote_keeps ha0
  try clear_value x0
  exact keepsS_ite (State.poisonLine_keeps h0) h0

theorem State.rangeLine_keeps {r : State} {a0 : State} {a1 : Nat} {a2 : Req} {a3 : Loc} (ha0 : Keeps r a0) :
    KeepsO1 r (State.rangeLine a0 a1 a2 a3) := by
  unfold State.rangeLine
  extract_lets +onlyGivenNames x0
  try clear_value x0
  extract_lets +onlyGivenNames x1
  have h1 : Keeps r x1 := State.applyHot_keeps ha0
  try clear_value x1
  extract_lets +onlyGivenNames x2
  try clear_value x2
  refine keepsO1_ite keepsO1_none ?_
  split
  · exact keepsO1_ite (keepsO1_some (State.bump_keeps h1)) (keepsO1_ite (keepsO1_ite (keepsO1_some (State.bump_keeps h1)) (keepsO1_ite (keepsO1_some (State.bump_keeps (State.updMiss_keeps h1))) (keepsO1_some (State.bump_keeps h1)))) keepsO1_none)
  · split
    · split
      · exact keepsO1_ite (keepsO1_some (State.acted_keeps h1)) (keepsO1_ite (keepsO1_some (State.acted_keeps (State.putLine_keeps (State.issueWrite_keeps h1)))) keepsO1_none)
      · exact keepsO1_ite (keepsO1_some (State.bump_keeps h1)) (keepsMapO1O1 (fun _ h3 => State.acted_keeps h3) (State.forceOut_keeps h1))
      · exact keepsO1_ite (keepsO1_some (State.bump_keeps h1)) (keepsO1_some (State.acted_keeps (State.deadMark_keeps (State.setCache_keeps h1))))
      · exact keepsO1_ite (keepsO1_some (State.bump_keeps h1)) (keepsO1_ite (keepsO1_some (State.bump_keeps (State.putLine_keeps h1))) (keepsO1_some (State.bump_keeps h1)))
      · exact keepsO1_some (State.acted_keeps (keepsS_ite (State.putLine_keeps h1) h1))
      · exact keepsO1_some (State.acted_keeps h1)
    · split
      · split
        · exact keepsO1_some (State.acted_keeps h1)
        · exact keepsO1_some (State.acted_keeps h1)
        · exact keepsO1_ite (keepsO1_some (State.acted_keeps (State.deadMark_keeps h1))) (keepsO1_some (State.acted_keeps (State.againAll_keeps (State.deadMark_keeps (State.setCache_keeps h1)))))
        · exact keepsO1_ite keepsO1_none (keepsO1_ite (keepsO1_some (State.bump_keeps h1)) (keepsMapOO1 (fun _ h4 => by
          split
          · exact State.bump_keeps (State.putLine_keeps h4)
          · exact h4) (State.remerge_keeps h1)))
        · exact keepsO1_some (State.acted_keeps h1)
      · split
        · exact keepsO1_ite (keepsO1_some (State.bump_keeps (State.newMiss_keeps h1))) keepsO1_none
        · exact keepsO1_ite (keepsO1_some (State.bump_keeps h1)) (keepsO1_ite (keepsO1_some (State.bump_keeps (State.newMiss_keeps h1))) keepsO1_none)
        · exact keepsO1_some (State.bump_keeps h1)

theorem execReductionUnitApply_keeps {r : State} {a0 : Fin 1024} {a1 : State} (ha1 : Keeps r a1) :
    KeepsX r (execReductionUnitApply a0 a1) := by
  unfold execReductionUnitApply
  extract_lets +onlyGivenNames x0
  try clear_value x0
  extract_lets +onlyGivenNames x1
  have h1 : Keeps r x1.1 := keepsP1_ite ha1 (State.sliceUp_keeps ha1)
  try clear_value x1
  extract_lets +onlyGivenNames x2
  have h2 : Keeps r x2 := h1
  try clear_value x2
  exact keepsX_ite (keepsX_next h2) (by
  split
  · exact keepsX_next h2
  · extract_lets +onlyGivenNames x3
    try clear_value x3
    split
    · exact keepsX_next (State.setCache_keeps h2)
    · split
      · exact keepsX_next (State.failAll_keeps (State.setCache_keeps h2))
      · exact keepsX_ite (keepsX_next (State.failAll_keeps (State.setCache_keeps h2))) (by
        extract_lets +onlyGivenNames x4
        try clear_value x4
        extract_lets +onlyGivenNames x5
        try clear_value x5
        extract_lets +onlyGivenNames x6
        have h6 : Keeps r x6 := keeps_foldl (fun _ _ h7 => State.applyHot_keeps h7) h2
        try clear_value x6
        extract_lets +onlyGivenNames x8
        try clear_value x8
        extract_lets +onlyGivenNames x9
        try clear_value x9
        exact keepsX_ite (keepsX_next h6) (keepsX_ite (keepsX_next (keeps_foldl (fun _ _ h10 => keepsS_ite h10 (State.newMiss_keeps h10)) h6)) (by
        extract_lets +onlyGivenNames x11
        try clear_value x11
        extract_lets +onlyGivenNames x12
        try clear_value x12
        extract_lets +onlyGivenNames x13
        try clear_value x13
        extract_lets +onlyGivenNames x14
        try clear_value x14
        extract_lets +onlyGivenNames x15
        have h15 : Keeps r x15 := keeps_foldl (fun _ _ h16 => by
          split
          · exact h16
          · exact keepsS_ite h16 (by
            extract_lets +onlyGivenNames x17
            try clear_value x17
            extract_lets +onlyGivenNames x18
            have h18 : Keeps r x18 := keepsS_ite (State.count_keeps h16) h16
            try clear_value x18
            extract_lets +onlyGivenNames x19
            have h19 : Keeps r x19 := State.useLine_keeps h18
            try clear_value x19
            exact State.putLine_keeps h19)) h6
        try clear_value x15
        extract_lets +onlyGivenNames x20
        have h20 : Keeps r x20 := keeps_foldl (fun _ _ h21 => by
          extract_lets +onlyGivenNames x22
          try clear_value x22
          exact State.complete_keeps h21) h15
        try clear_value x20
        extract_lets +onlyGivenNames x23
        try clear_value x23
        extract_lets +onlyGivenNames x24
        have h24 : Keeps r x24 := State.setCache_keeps h20
        try clear_value x24
        exact keepsX_next (State.count_keeps h24)))))

theorem execSliceRetire_keeps {r : State} {a0 : Fin 1024} {a1 : OdWrite} {a2 : State} (ha2 : Keeps r a2) :
    KeepsX r (execSliceRetire a0 a1 a2) := by
  unfold execSliceRetire
  exact State.odCmd_keeps ha2 (fun _ h0 => State.odWrite_keeps h0 (fun _ h1 => State.ownSliceRetire_keeps h1))

theorem State.serve_keeps {r : State} {a0 : State} {a1 : List Nat} (ha0 : Keeps r a0) :
    Keeps r (State.serve a0 a1) := by
  unfold State.serve
  exact State.arrive_keeps ha0 (fun _ _ _ _ h0 => keepsS_ite (State.perform_keeps h0) (keepsS_ite h0 (by
  split
  · exact State.order_keeps h0
  · exact h0)))

theorem State.serveAll_keeps {r : State} {a0 : State} {a1 : Loc} {a2 : MissReg} {a3 : List (Nat × Nat)} (ha0 : Keeps r a0) :
    Keeps r (State.serveAll a0 a1 a2 a3) := by
  unfold State.serveAll
  extract_lets +onlyGivenNames x0
  have h0 : Keeps r x0 := keeps_foldl (fun _ _ h1 => State.complete_keeps h1) ha0
  try clear_value x0
  extract_lets +onlyGivenNames x2
  have h2 : Keeps r x2 := keeps_foldl (fun _ _ h3 => State.serve_keeps h3) h0
  try clear_value x2
  exact keepsS_ite h2 (State.count_keeps (keeps_foldl (fun _ _ h4 => State.serve_keeps h4) h2))

theorem State.fill_keeps {r : State} {a0 : State} {a1 : Loc} {a2 : MissReg} (ha0 : Keeps r a0) :
    Keeps r (State.fill a0 a1 a2) := by
  unfold State.fill
  exact keepsS_ite (by
  split
  · exact keepsS_ite (by
    extract_lets +onlyGivenNames x0
    have h0 : Keeps r x0 := State.setCache_keeps ha0
    try clear_value x0
    extract_lets +onlyGivenNames x1
    try clear_value x1
    extract_lets +onlyGivenNames x2
    have h2 : Keeps r x2 := State.setCache_keeps h0
    try clear_value x2
    extract_lets +onlyGivenNames x3
    have h3 : Keeps r x3 := State.serveAll_keeps h2
    try clear_value x3
    split
    · exact h3
    · extract_lets +onlyGivenNames x4
      have h4 : Keeps r x4 := State.setCache_keeps h3
      try clear_value x4
      extract_lets +onlyGivenNames x5
      have h5 : Keeps r x5 := keepsS_ite h4 (State.issueWrite_keeps h4)
      try clear_value x5
      exact State.againAll_keeps h5) ha0) (by
  split
  · split
    · extract_lets +onlyGivenNames x6
      try clear_value x6
      exact State.serveAll_keeps (State.setCache_keeps ha0)
  · extract_lets +onlyGivenNames x7
    have h7 : Keeps r x7 := State.flushHotSet_keeps ha0
    try clear_value x7
    split
    · exact ha0
    · rename_i p8_0 p8_1 e8
      have h8 := keeps_optO2 (State.makeRoom_keeps h7) e8
      split
      · extract_lets +onlyGivenNames x9
        try clear_value x9
        exact State.serveAll_keeps (State.setCache_keeps h8))

theorem execLineFill_keeps {r : State} {a0 : Fin 1024} {a1 : Nat} {a2 : State} (ha2 : Keeps r a2) :
    KeepsX r (execLineFill a0 a1 a2) := by
  unfold execLineFill
  exact keepsX_next (keeps_foldl (fun _ _ h0 => by
  split
  · exact State.fill_keeps h0
  · exact h0) ha2)

theorem execScaledAccumulate_keeps {r : State} {a0 : Nat} {a1 : State} (ha1 : Keeps r a1) :
    KeepsX r (execScaledAccumulate a0 a1) := by
  unfold execScaledAccumulate
  exact keepsX_next (State.pass_keeps ha1)

theorem execHotLineInterval_keeps {r : State} {a0 : Fin 1024} {a1 : State} (ha1 : Keeps r a1) :
    KeepsX r (execHotLineInterval a0 a1) := by
  unfold execHotLineInterval
  exact keepsX_next (State.enforce_keeps (keeps_foldl (fun _ _ h0 => by
  extract_lets +onlyGivenNames x1
  try clear_value x1
  exact State.setCache_keeps h0) ha1))

theorem execSliceWrite_keeps {r : State} {a0 : Nat} {a1 : TagChk} {a2 : State} (ha2 : Keeps r a2) :
    KeepsX r (execSliceWrite a0 a1 a2) := by
  unfold execSliceWrite
  exact keepsX_next (State.pass_keeps ha2)

theorem execSliceFail_keeps {r : State} {a0 : Fin 1024} {a1 : State} (ha1 : Keeps r a1) :
    KeepsX r (execSliceFail a0 a1) := by
  unfold execSliceFail
  exact keepsX_next (State.failSlice_keeps ha1)

theorem execReplayRetry_keeps {r : State} {a0 : Fin 1024} {a1 : State} (ha1 : Keeps r a1) :
    KeepsX r (execReplayRetry a0 a1) := by
  unfold execReplayRetry
  exact keepsX_next (keeps_foldl (fun _ _ h0 => by
  extract_lets +onlyGivenNames x1
  try clear_value x1
  exact State.againAll_keeps (State.setCache_keeps h0)) ha1)

theorem State.walkRun_keeps {r : State} {n : Nat} {s : State} {w : Walk} {q : Req} (h : Keeps r s) : Keeps r (State.walkRun n s w q).1 := by
  induction n generalizing s w with
  | zero => exact h
  | succ n ih =>
    unfold State.walkRun
    split
    · exact h
    · extract_lets on
      have hon : ∀ t v, Keeps r t → Keeps r (on t v).1 := fun _ _ ht => ih ht
      clear_value on
      split
      · exact hon _ _ h
      · refine keepsP1_ite (hon _ _ h) (keepsP1_ite (hon _ _ h) ?_)
        extract_lets x
        have hx : Keeps r x := State.pullLines_keeps h
        clear_value x
        split
        · exact hon _ _ hx
        · refine keepsP1_ite hx (keepsP1_ite (State.sliceUp_keeps hx) ?_)
          split
          · exact hx
          · rename_i e
            exact hon _ _ (keeps_optO1 (State.rangeLine_keeps (State.sliceUp_keeps hx)) e)

theorem execWritebackAck_keeps {r : State} {a0 : Fin 1024} {a1 : Nat} {a2 : State} (ha2 : Keeps r a2) :
    KeepsX r (execWritebackAck a0 a1 a2) := by
  unfold execWritebackAck
  exact keepsX_next (keeps_foldl (fun _ _ h0 => by
  split
  · exact h0
  · exact State.againAll_keeps (State.setCache_keeps h0)) ha2)

theorem State.startWalks_keeps {r : State} {a0 : State} {a1 : Nat} {a2 : Req} (ha0 : Keeps r a0) :
    Keeps r (State.startWalks a0 a1 a2) := by
  unfold State.startWalks
  extract_lets +onlyGivenNames x0
  try clear_value x0
  exact State.setReq_keeps (keeps_mk ha0)

theorem execHotBufferApply_keeps {r : State} {a0 : Fin 1024} {a1 : Nat} {a2 : State} (ha2 : Keeps r a2) :
    KeepsX r (execHotBufferApply a0 a1 a2) := by
  unfold execHotBufferApply
  exact keepsX_next (keeps_foldl (fun _ _ h0 => by
  split
  · exact State.applyHot_keeps h0
  · exact h0) ha2)

theorem execRangePartDone_keeps {r : State} {a0 : Nat} {a1 : State} (ha1 : Keeps r a1) :
    KeepsX r (execRangePartDone a0 a1) := by
  unfold execRangePartDone
  split
  · exact keepsX_next ha1
  · exact keepsX_ite (keepsX_next ha1) (by
    extract_lets +onlyGivenNames x0
    try clear_value x0
    extract_lets +onlyGivenNames x1
    try clear_value x1
    extract_lets +onlyGivenNames x2
    have h2 : Keeps r x2 := keeps_mk ha1
    try clear_value x2
    exact keepsX_ite (keepsX_next (State.complete_keeps (State.setReq_keeps h2))) (keepsX_next (State.setReq_keeps h2)))

theorem execRangePart_keeps {r : State} {a0 : Nat} {a1 : State} (ha1 : Keeps r a1) :
    KeepsX r (execRangePart a0 a1) := by
  unfold execRangePart
  split
  · exact keepsX_next ha1
  · exact keepsX_ite (keepsX_next ha1) (by
    extract_lets +onlyGivenNames x0
    have h0 : Keeps r x0 := keepsS_ite (State.startWalks_keeps ha1) ha1
    try clear_value x0
    exact keepsX_next (keeps_foldl (fun _ _ h1 => by
    split
    · rename_i p2_0 p2_1 e2
      have h2 := keeps_fst (State.walkRun_keeps h1) e2
      exact keeps_mk h2) h0))

theorem execSliceAtomic_keeps {r : State} {a0 : Nat} {a1 : TagChk} {a2 : DataChk} {a3 : State} (ha3 : Keeps r a3) :
    KeepsX r (execSliceAtomic a0 a1 a2 a3) := by
  unfold execSliceAtomic
  exact keepsX_next (State.pass_keeps ha3)

theorem execAtomicBusyClear_keeps {r : State} {a0 : Fin 1024} {a1 : Nat} {a2 : State} (ha2 : Keeps r a2) :
    KeepsX r (execAtomicBusyClear a0 a1 a2) := by
  unfold execAtomicBusyClear
  exact keepsX_next (keeps_foldl (fun _ _ h0 => by
  extract_lets +onlyGivenNames x1
  try clear_value x1
  extract_lets +onlyGivenNames x2
  try clear_value x2
  split
  · extract_lets +onlyGivenNames x3
    try clear_value x3
    extract_lets +onlyGivenNames x4
    try clear_value x4
    extract_lets +onlyGivenNames x5
    have h5 : Keeps r x5 := State.putLine_keeps h0
    try clear_value x5
    extract_lets +onlyGivenNames x6
    try clear_value x6
    exact State.againAll_keeps (State.setCache_keeps h5)
  · exact State.againAll_keeps (State.setCache_keeps h0)
  · exact h0) ha2)

theorem execSlicePrefetch_keeps {r : State} {a0 : Nat} {a1 : TagChk} {a2 : State} (ha2 : Keeps r a2) :
    KeepsX r (execSlicePrefetch a0 a1 a2) := by
  unfold execSlicePrefetch
  exact keepsX_next (State.pass_keeps ha2)

theorem execSliceRead_keeps {r : State} {a0 : Nat} {a1 : TagChk} {a2 : DataChk} {a3 : State} (ha3 : Keeps r a3) :
    KeepsX r (execSliceRead a0 a1 a2 a3) := by
  unfold execSliceRead
  exact keepsX_next (State.pass_keeps ha3)

theorem execFormatOnRead_keeps {r : State} {a0 : Nat} {a1 : State} (ha1 : Keeps r a1) :
    KeepsX r (execFormatOnRead a0 a1) := by
  unfold execFormatOnRead
  exact keepsX_next (State.pass_keeps ha1)

theorem State.mergeUnits_keeps {r : State} {a0 : State} {a1 : Nat} {a2 : MUnit} {a3 : MUnit} (ha0 : Keeps r a0) :
    Keeps r (State.mergeUnits a0 a1 a2 a3).2 := by
  unfold State.mergeUnits
  extract_lets +onlyGivenNames x0
  try clear_value x0
  extract_lets +onlyGivenNames x1
  try clear_value x1
  exact State.count_keeps (State.wr_keeps ha0)

theorem State.setFsq_keeps {r : State} {a0 : State} {a1 : Nat} {a2 : List MUnit} (ha0 : Keeps r a0) :
    Keeps r (State.setFsq a0 a1 a2) := by
  unfold State.setFsq
  exact keeps_mk ha0

theorem State.slip_keeps {r : State} {a0 : State} {a1 : Nat} {a2 : Nat} {a3 : MUnit} (ha0 : Keeps r a0) :
    Keeps r (State.slip a0 a1 a2 a3) := by
  unfold State.slip
  exact State.count_keeps (State.setFsq_keeps ha0)

theorem State.setInj_keeps {r : State} {a0 : State} {a1 : Nat} {a2 : List MUnit} (ha0 : Keeps r a0) :
    Keeps r (State.setInj a0 a1 a2) := by
  unfold State.setInj
  exact keeps_mk ha0

theorem State.skateIn_keeps {r : State} {a0 : State} (ha0 : Keeps r a0) :
    Keeps r (State.skateIn a0) := by
  unfold State.skateIn
  exact keeps_foldl (fun _ _ h0 => by
  split
  · exact h0
  · extract_lets +onlyGivenNames x1
    try clear_value x1
    extract_lets +onlyGivenNames x2
    try clear_value x2
    extract_lets +onlyGivenNames x3
    have h3 : Keeps r x3.1 := State.fieldUp_keeps h0
    try clear_value x3
    extract_lets +onlyGivenNames x4
    have h4 : Keeps r x4 := h3
    try clear_value x4
    exact keepsS_ite h4 (keepsS_ite (by
    extract_lets +onlyGivenNames x5
    have h5 : Keeps r x5 := State.setFsq_keeps (State.setInj_keeps h4)
    try clear_value x5
    exact keepsS_ite (State.count_keeps h5) h5) h4)) ha0

theorem State.relink_keeps {r : State} {a0 : State} {a1 : List Nat} (ha0 : Keeps r a0) :
    Keeps r (State.relink a0 a1) := by
  unfold State.relink
  exact keeps_foldl (fun _ _ h0 => by
  split
  · exact State.sendOne_keeps h0
  · exact h0) ha0

theorem State.landed_keeps {r : State} {a0 : State} {a1 : MUnit} {a2 : Stage} (ha0 : Keeps r a0) :
    Keeps r (State.landed a0 a1 a2) := by
  unfold State.landed
  exact keeps_foldl (fun _ _ h0 => by
  split
  · exact State.setReq_keeps h0
  · exact h0) ha0

theorem State.deliverUnit_keeps {r : State} {a0 : State} {a1 : MUnit} (ha0 : Keeps r a0) :
    KeepsO r (State.deliverUnit a0 a1) := by
  unfold State.deliverUnit
  exact keepsO_ite (by
  extract_lets +onlyGivenNames x0
  try clear_value x0
  exact keepsO_ite (State.linkQueue_keeps ha0) (keepsO_some (State.relink_keeps ha0))) (keepsO_ite (keepsO_some (State.landed_keeps ha0)) (by
  extract_lets +onlyGivenNames x1
  try clear_value x1
  extract_lets +onlyGivenNames x2
  have h2 : Keeps r x2 := State.landed_keeps ha0
  try clear_value x2
  exact keepsO_some (State.setCache_keeps h2)))

theorem State.setLand_keeps {r : State} {a0 : State} {a1 : Nat} {a2 : List MUnit} (ha0 : Keeps r a0) :
    Keeps r (State.setLand a0 a1 a2) := by
  unfold State.setLand
  exact keeps_mk ha0

theorem State.drainLanding_keeps {r : State} {a0 : State} (ha0 : Keeps r a0) :
    Keeps r (State.drainLanding a0) := by
  unfold State.drainLanding
  exact keeps_foldl (fun _ _ h0 => by
  split
  · exact h0
  · exact keepsS_ite (by
    split
    · rename_i p1_0 e1
      have h1 := keeps_optO (State.deliverUnit_keeps h0) e1
      exact State.setLand_keeps h1
    · exact h0) h0) ha0

theorem State.setSeam_keeps {r : State} {a0 : State} {a1 : Nat} {a2 : List MUnit} (ha0 : Keeps r a0) :
    Keeps r (State.setSeam a0 a1 a2) := by
  unfold State.setSeam
  exact keeps_mk ha0

theorem State.skateOut_keeps {r : State} {a0 : State} {a1 : Nat} (ha0 : Keeps r a0) :
    Keeps r (State.skateOut a0 a1) := by
  unfold State.skateOut
  extract_lets +onlyGivenNames x0
  try clear_value x0
  extract_lets +onlyGivenNames x1
  try clear_value x1
  split
  · exact ha0
  · exact keepsS_ite ha0 (by
    split
    · exact keepsS_ite ha0 (keepsS_ite (State.fieldUp_keeps ha0) (keepsS_ite (by
      extract_lets +onlyGivenNames x2
      try clear_value x2
      exact keepsS_ite (State.setFsq_keeps (State.setFsq_keeps ha0)) ha0) (keepsS_ite (State.setSeam_keeps (State.setFsq_keeps ha0)) (State.count_keeps ha0))))
    · exact keepsS_ite (State.setLand_keeps (State.setFsq_keeps ha0)) ha0)

theorem State.sendSched_keeps {r : State} {a0 : State} {a1 : Nat} {a2 : Nat} {a3 : MUnit} {a4 : Bool} (ha0 : Keeps r a0) :
    Keeps r (State.sendSched a0 a1 a2 a3 a4) := by
  unfold State.sendSched
  exact keepsS_ite (State.slip_keeps ha0) (keepsS_ite (by
  split
  · exact State.slip_keeps ha0
  · exact keeps_mk ha0) (keepsS_ite (by
  extract_lets +onlyGivenNames x0
  try clear_value x0
  exact keepsS_ite (by
  split
  · rename_i p1_0 e1
    have h1 := keeps_optO (State.linkSched_keeps ha0) e1
    exact h1
  · exact State.slip_keeps ha0) (State.slip_keeps ha0)) (keepsS_ite (State.setLand_keeps ha0) (State.slip_keeps ha0))))

theorem State.reduce_keeps {r : State} {a0 : State} {a1 : Nat} {a2 : Nat} {a3 : List MUnit} (ha0 : Keeps r a0) :
    Keeps r (State.reduce a0 a1 a2 a3).1 := by
  unfold State.reduce
  split
  · exact ha0
  · extract_lets +onlyGivenNames x0
    have h0 : Keeps r x0.1 := keepsP1_foldl (fun _ _ h1 => keepsP1_ite (by
      extract_lets +onlyGivenNames x2
      have h2 : Keeps r x2.2 := State.mergeUnits_keeps h1
      try clear_value x2
      exact h2) (State.count_keeps (State.setFsq_keeps h1))) ha0
    try clear_value x0
    exact h0

theorem State.freeAt_keeps {r : State} {a0 : State} {a1 : Nat} {a2 : Nat} {a3 : MUnit} (ha0 : Keeps r a0) :
    Keeps r (State.freeAt a0 a1 a2 a3) := by
  unfold State.freeAt
  extract_lets +onlyGivenNames x0
  try clear_value x0
  exact State.setFsq_keeps ha0

theorem State.takeFlow_keeps {r : State} {a0 : State} {a1 : LapTable} {a2 : Nat} (ha0 : Keeps r a0) :
    Keeps r (State.takeFlow a0 a1 a2).1 := by
  unfold State.takeFlow
  extract_lets +onlyGivenNames x0
  try clear_value x0
  split
  · exact ha0
  · extract_lets +onlyGivenNames x1
    have h1 : Keeps r x1 := State.setInj_keeps ha0
    try clear_value x1
    exact h1

theorem State.applyEntry_keeps {r : State} {a0 : State} {a1 : LapTable} {a2 : Bool} {a3 : List (Nat × MUnit)} {a4 : Nat} {a5 : Nat} (ha0 : Keeps r a0) :
    Keeps r (State.applyEntry a0 a1 a2 a3 a4 a5).1 := by
  unfold State.applyEntry
  extract_lets +onlyGivenNames x0
  try clear_value x0
  extract_lets +onlyGivenNames x1
  have h1 : Keeps r x1.1 := keepsP1_ite (State.takeFlow_keeps ha0) ha0
  try clear_value x1
  extract_lets +onlyGivenNames x2
  try clear_value x2
  extract_lets +onlyGivenNames x3
  try clear_value x3
  exact keepsP1_foldl (fun _ _ h4 => by
  split
  · exact h4
  · extract_lets +onlyGivenNames x5
    try clear_value x5
    extract_lets +onlyGivenNames x6
    have h6 : Keeps r x6.1 := State.reduce_keeps h4
    try clear_value x6
    split
    · exact h6
    · exact State.sendSched_keeps h6
  · split
    · exact h4
    · exact State.sendSched_keeps h4) h1

theorem State.schedMove_keeps {r : State} {a0 : State} (ha0 : Keeps r a0) :
    Keeps r (State.schedMove a0).1 := by
  unfold State.schedMove
  extract_lets +onlyGivenNames x0
  try clear_value x0
  extract_lets +onlyGivenNames x1
  have h1 : Keeps r x1 := keeps_mk ha0
  try clear_value x1
  extract_lets +onlyGivenNames x2
  try clear_value x2
  extract_lets +onlyGivenNames x3
  try clear_value x3
  extract_lets +onlyGivenNames x4
  try clear_value x4
  extract_lets +onlyGivenNames x5
  have h5 : Keeps r x5 := keeps_foldl (fun _ _ h6 => State.freeAt_keeps h6) h1
  try clear_value x5
  split
  · exact h5
  · exact keepsP1_foldl (fun _ _ h7 => by
    extract_lets +onlyGivenNames x8
    try clear_value x8
    extract_lets +onlyGivenNames x9
    have h9 : Keeps r x9.1 := State.applyEntry_keeps h7
    try clear_value x9
    exact h9) h5

theorem State.skateMove_keeps {r : State} {a0 : State} {a1 : List Nat} (ha0 : Keeps r a0) :
    Keeps r (State.skateMove a0 a1) := by
  unfold State.skateMove
  exact keeps_foldl (fun _ _ h0 => State.skateOut_keeps h0) ha0

theorem State.seamMove_keeps {r : State} {a0 : State} (ha0 : Keeps r a0) :
    Keeps r (State.seamMove a0) := by
  unfold State.seamMove
  exact keeps_foldl (fun _ _ h0 => by
  split
  · extract_lets +onlyGivenNames x1
    try clear_value x1
    exact keepsS_ite (State.setFsq_keeps (State.setSeam_keeps h0)) h0
  · exact h0) ha0

theorem State.strideMove_keeps {r : State} {a0 : State} (ha0 : Keeps r a0) :
    Keeps r (State.strideMove a0) := by
  unfold State.strideMove
  extract_lets +onlyGivenNames x0
  have h0 : Keeps r x0 := State.drainLanding_keeps ha0
  try clear_value x0
  extract_lets +onlyGivenNames x1
  have h1 : Keeps r x1.1 := State.schedMove_keeps h0
  try clear_value x1
  exact State.skateIn_keeps (State.skateMove_keeps (State.seamMove_keeps h1))

theorem State.tickGate_keeps {r : State} {a0 : State} (ha0 : Keeps r a0) :
    Keeps r (State.tickGate a0) := by
  unfold State.tickGate
  exact keepsS_ite (keeps_mk ha0) ha0

theorem State.refreshShadow_keeps {r : State} {a0 : State} (ha0 : Keeps r a0) :
    Keeps r (State.refreshShadow a0) := by
  unfold State.refreshShadow
  extract_lets +onlyGivenNames x0
  have h0 : Keeps r x0 := State.wr_keeps (State.wr_keeps ha0)
  try clear_value x0
  exact keeps_foldl (fun _ _ h1 => State.wr_keeps h1) h0

theorem State.refreshPace_keeps {r : State} {a0 : State} (ha0 : Keeps r a0) :
    Keeps r (State.refreshPace a0) := by
  unfold State.refreshPace
  exact keeps_foldl (fun _ _ h0 => State.wr_keeps h0) ha0

theorem State.lapChanged_keeps {r : State} {a0 : State} (ha0 : Keeps r a0) :
    Keeps r (State.lapChanged a0) := by
  unfold State.lapChanged
  exact State.refreshLinks_keeps (State.refreshShadow_keeps (State.refreshPace_keeps ha0))

theorem State.setClk_keeps {r : State} {a0 : State} {a1 : Nat} {a2 : Clk} (ha0 : Keeps r a0) :
    Keeps r (State.setClk a0 a1 a2) := by
  unfold State.setClk
  exact keeps_mk ha0

theorem State.fieldRuns_keeps {r : State} {a0 : State} {a1 : Nat} {a2 : Nat} (ha0 : Keeps r a0) :
    Keeps r (State.fieldRuns a0 a1 a2) := by
  unfold State.fieldRuns
  extract_lets +onlyGivenNames x0
  have h0 : Keeps r x0 := State.refreshPace_keeps (State.wr_keeps ha0)
  try clear_value x0
  split
  · exact keepsS_ite (State.suspendLap_keeps h0) h0
  · exact h0

theorem State.armLap_keeps {r : State} {a0 : State} {a1 : LapKind} {a2 : Nat} {a3 : Bool} (ha0 : Keeps r a0) :
    Keeps r (State.armLap a0 a1 a2 a3) := by
  unfold State.armLap
  exact State.wr_keeps (keeps_mk ha0)

theorem State.clockFail_keeps {r : State} {a0 : State} {a1 : Nat} (ha0 : Keeps r a0) :
    Keeps r (State.clockFail a0 a1) := by
  unfold State.clockFail
  exact keepsS_ite (State.wr_keeps (State.wr_keeps (keeps_mk ha0))) ha0

theorem State.glide_keeps {r : State} {a0 : State} {a1 : Nat} (ha0 : Keeps r a0) :
    Keeps r (State.glide a0 a1) := by
  unfold State.glide
  exact keeps_foldl (fun _ _ h0 => keepsS_ite (State.demand_keeps h0) h0) (State.wr_keeps ha0)

theorem State.clockGo_keeps {r : State} {a0 : State} (ha0 : Keeps r a0) :
    Keeps r (State.clockGo a0) := by
  unfold State.clockGo
  split
  · exact State.glide_keeps ha0
  · exact ha0

theorem State.setSync_keeps {r : State} {a0 : State} {a1 : Nat} (ha0 : Keeps r a0) :
    Keeps r (State.setSync a0 a1) := by
  unfold State.setSync
  exact keepsS_ite ha0 (by
  extract_lets +onlyGivenNames x0
  try clear_value x0
  extract_lets +onlyGivenNames x1
  try clear_value x1
  exact State.raise_keeps (State.wr_keeps (keeps_mk ha0)))

theorem State.noteHops_keeps {r : State} {a0 : State} (ha0 : Keeps r a0) :
    Keeps r (State.noteHops a0) := by
  unfold State.noteHops
  extract_lets +onlyGivenNames x0
  try clear_value x0
  exact keepsS_ite (State.wr_keeps ha0) ha0

theorem State.takeUpstream_keeps {r : State} {a0 : State} {a1 : Nat} (ha0 : Keeps r a0) :
    Keeps r (State.takeUpstream a0 a1) := by
  unfold State.takeUpstream
  exact State.count_keeps (State.wr_keeps (keeps_mk ha0))

theorem State.chooseUpstream_keeps {r : State} {a0 : State} (ha0 : Keeps r a0) :
    Keeps r (State.chooseUpstream a0) := by
  unfold State.chooseUpstream
  exact keepsS_ite ha0 (by
  extract_lets +onlyGivenNames x0
  try clear_value x0
  extract_lets +onlyGivenNames x1
  have h1 : Keeps r x1 := keepsS_ite (State.raise_keeps ha0) ha0
  try clear_value x1
  extract_lets +onlyGivenNames x2
  try clear_value x2
  extract_lets +onlyGivenNames x3
  have h3 : Keeps r x3 := keeps_mk h1
  try clear_value x3
  extract_lets +onlyGivenNames x4
  try clear_value x4
  split
  · exact keepsS_ite h3 (State.wr_keeps h3)
  · exact keepsS_ite (keepsS_ite h3 (keepsS_ite (State.takeUpstream_keeps h3) h3)) (State.takeUpstream_keeps h3))

theorem State.setTmx_keeps {r : State} {a0 : State} {a1 : Nat} {a2 : Tmx} (ha0 : Keeps r a0) :
    Keeps r (State.setTmx a0 a1 a2) := by
  unfold State.setTmx
  exact State.setLnk_keeps ha0

theorem State.sendTimex_keeps {r : State} {a0 : State} {a1 : Nat} {a2 : Nat} {a3 : Nat} (ha0 : Keeps r a0) :
    Keeps r (State.sendTimex a0 a1 a2 a3) := by
  unfold State.sendTimex
  exact State.sendLink_keeps ha0

theorem State.timexSent_keeps {r : State} {a0 : State} {a1 : Nat} {a2 : Nat} (ha0 : Keeps r a0) :
    Keeps r (State.timexSent a0 a1 a2) := by
  unfold State.timexSent
  split
  · exact keepsS_ite (State.setTmx_keeps ha0) ha0
  · exact State.sendTimex_keeps ha0
  · exact ha0

theorem State.noteLock_keeps {r : State} {a0 : State} {a1 : Bool} (ha0 : Keeps r a0) :
    Keeps r (State.noteLock a0 a1) := by
  unfold State.noteLock
  exact keeps_mk ha0

theorem State.wantStep_keeps {r : State} {a0 : State} {a1 : Int} (ha0 : Keeps r a0) :
    Keeps r (State.wantStep a0 a1) := by
  unfold State.wantStep
  exact keepsS_ite (keeps_mk ha0) (State.raise_keeps ha0)

theorem State.ptpServo_keeps {r : State} {a0 : State} {a1 : Int} {a2 : Int} (ha0 : Keeps r a0) :
    Keeps r (State.ptpServo a0 a1 a2) := by
  unfold State.ptpServo
  extract_lets +onlyGivenNames x0
  try clear_value x0
  extract_lets +onlyGivenNames x1
  try clear_value x1
  extract_lets +onlyGivenNames x2
  have h2 : Keeps r x2 := keepsS_ite (State.wr_keeps (State.setSync_keeps ha0)) ha0
  try clear_value x2
  extract_lets +onlyGivenNames x3
  have h3 : Keeps r x3 := State.noteLock_keeps h2
  try clear_value x3
  extract_lets +onlyGivenNames x4
  have h4 : Keeps r x4 := keepsS_ite (State.wantStep_keeps h3) h3
  try clear_value x4
  extract_lets +onlyGivenNames x5
  try clear_value x5
  extract_lets +onlyGivenNames x6
  have h6 : Keeps r x6 := keeps_mk h4
  try clear_value x6
  exact keepsS_ite (State.wr_keeps (State.setSync_keeps (State.wr_keeps h6))) h6

theorem State.halved_keeps {r : State} {a0 : State} {a1 : Int} (ha0 : Keeps r a0) :
    Keeps r (State.halved a0 a1).2 := by
  unfold State.halved
  exact keepsP2_ite ha0 (State.drew_keeps ha0)

theorem State.fits_keeps {r : State} {a0 : State} {a1 : Nat} {a2 : Int} (ha0 : Keeps r a0) :
    Keeps r (State.fits a0 a1 a2).2 := by
  unfold State.fits
  exact keepsP2_ite ha0 (State.drew_keeps ha0)

theorem State.servo_keeps {r : State} {a0 : State} {a1 : Int} {a2 : Int} (ha0 : Keeps r a0) :
    Keeps r (State.servo a0 a1 a2) := by
  unfold State.servo
  extract_lets +onlyGivenNames x0
  try clear_value x0
  extract_lets +onlyGivenNames x1
  have h1 : Keeps r x1 := keepsS_ite (State.setSync_keeps ha0) ha0
  try clear_value x1
  extract_lets +onlyGivenNames x2
  have h2 : Keeps r x2 := State.noteLock_keeps h1
  try clear_value x2
  exact keepsS_ite (State.wantStep_keeps h2) (keepsS_ite (State.setSync_keeps h2) h2)

theorem State.exchanged_keeps {r : State} {a0 : State} {a1 : Nat} {a2 : Nat} {a3 : Nat} {a4 : Nat} {a5 : Nat} (ha0 : Keeps r a0) :
    Keeps r (State.exchanged a0 a1 a2 a3 a4 a5) := by
  unfold State.exchanged
  extract_lets +onlyGivenNames x0
  try clear_value x0
  extract_lets +onlyGivenNames x1
  try clear_value x1
  extract_lets +onlyGivenNames x2
  try clear_value x2
  split
  · rename_i p3_0 p3_1 e3
    have h3 := keeps_snd (State.halved_keeps ha0) e3
    split
    · rename_i p4_0 p4_1 e4
      have h4 := keeps_snd (State.fits_keeps h3) e4
      split
      · rename_i p5_0 p5_1 e5
        have h5 := keeps_snd (State.halved_keeps h4) e5
        split
        · rename_i p6_0 p6_1 e6
          have h6 := keeps_snd (keepsP2_ite h5 (State.drew_keeps h5)) e6
          extract_lets +onlyGivenNames x7
          have h7 : Keeps r x7 := State.wr_keeps (State.wr_keeps h6)
          try clear_value x7
          extract_lets +onlyGivenNames x8
          try clear_value x8
          extract_lets +onlyGivenNames x9
          have h9 : Keeps r x9 := State.noteHops_keeps (State.chooseUpstream_keeps (State.setTmx_keeps h7))
          try clear_value x9
          exact keepsS_ite (State.servo_keeps h9) h9

theorem State.ptpTake_keeps {r : State} {a0 : State} {a1 : PtpMsg} (ha0 : Keeps r a0) :
    Keeps r (State.ptpTake a0 a1) := by
  unfold State.ptpTake
  split
  · exact keepsS_ite ha0 (by
    split
    · exact keepsS_ite (keeps_mk ha0) (keepsS_ite (State.wr_keeps (keeps_mk ha0)) ha0)
    · exact State.wr_keeps (keeps_mk ha0))
  · exact keepsS_ite (keeps_mk ha0) ha0
  · exact keepsS_ite (keeps_mk ha0) ha0
  · exact keepsS_ite (keeps_mk ha0) ha0
  · exact keepsS_ite (by
    split
    · extract_lets +onlyGivenNames x0
      try clear_value x0
      split
      · rename_i p1_0 p1_1 e1
        have h1 := keeps_snd (State.halved_keeps ha0) e1
        split
        · rename_i p2_0 p2_1 e2
          have h2 := keeps_snd (State.fits_keeps h1) e2
          exact State.ptpServo_keeps (State.wr_keeps (keeps_mk h2))
    · exact ha0) ha0

end Sys2Proof.Machine
end

