-- ==== Sys2Proof/Laws/KeepsRings.lean ====
section
/-! SUPPORT. What every operation keeps (Laws/Keeps.lean), one lemma each: rings and sweeps (chapter 05). -/

namespace Sys2Proof.Machine

theorem State.putDesc_keeps {r : State} {a0 : State} {a1 : Nat} {a2 : Desc} (ha0 : Keeps r a0) :
    Keeps r (State.putDesc a0 a1 a2) := by
  unfold State.putDesc
  extract_lets +onlyGivenNames x0
  try clear_value x0
  exact State.setRing_keeps ha0

theorem State.descEnd_keeps {r : State} {a0 : State} {a1 : Nat} {a2 : Desc} {a3 : Nat} (ha0 : Keeps r a0) :
    Keeps r (State.descEnd a0 a1 a2 a3) := by
  unfold State.descEnd
  extract_lets +onlyGivenNames x0
  have h0 : Keeps r x0 := State.putDesc_keeps ha0
  try clear_value x0
  extract_lets +onlyGivenNames x1
  try clear_value x1
  exact keepsS_ite h0 (State.setRing_keeps h0)

theorem execGateWaitDone_keeps {r : State} {a0 : Fin 1048576} {a1 : State} (ha1 : Keeps r a1) :
    KeepsX r (execGateWaitDone a0 a1) := by
  unfold execGateWaitDone
  split
  · exact keepsX_next ha1
  · exact keepsX_ite (keepsX_next (State.descEnd_keeps ha1)) (keepsX_next ha1)

theorem State.failEngine_keeps {r : State} {a0 : State} {a1 : Nat} {a2 : Nat} (ha0 : Keeps r a0) :
    Keeps r (State.failEngine a0 a1 a2) := by
  unfold State.failEngine
  exact keepsS_ite ha0 (by
  extract_lets +onlyGivenNames x0
  try clear_value x0
  extract_lets +onlyGivenNames x1
  try clear_value x1
  extract_lets +onlyGivenNames x2
  have h2 : Keeps r x2 := keeps_foldl (fun _ _ h3 => State.ringStop_keeps h3) ha0
  try clear_value x2
  extract_lets +onlyGivenNames x4
  have h4 : Keeps r x4 := State.wr_keeps h2
  try clear_value x4
  exact State.addDefect_keeps (State.recordTo_keeps h4))

theorem State.portFree_keeps {r : State} {a0 : State} {a1 : Nat} {a2 : Msg} (ha0 : Keeps r a0) :
    Keeps r (State.portFree a0 a1 a2) := by
  unfold State.portFree
  extract_lets +onlyGivenNames x0
  try clear_value x0
  exact State.setPort_keeps ha0

theorem execEngineFail_keeps {r : State} {a0 : Fin 512} {a1 : State} (ha1 : Keeps r a1) :
    KeepsX r (execEngineFail a0 a1) := by
  unfold execEngineFail
  exact keepsX_next (keepsS_ite (State.failEngine_keeps ha1) ha1)

theorem State.teRefresh_keeps {r : State} {a0 : State} {a1 : Nat} (ha0 : Keeps r a0) :
    Keeps r (State.teRefresh a0 a1) := by
  unfold State.teRefresh
  exact keepsS_ite ha0 (by
  extract_lets +onlyGivenNames x0
  try clear_value x0
  extract_lets +onlyGivenNames x1
  try clear_value x1
  extract_lets +onlyGivenNames x2
  try clear_value x2
  exact State.wr_keeps ha0)

theorem State.ringDrained_keeps {r : State} {a0 : State} {a1 : Nat} (ha0 : Keeps r a0) :
    Keeps r (State.ringDrained a0 a1) := by
  unfold State.ringDrained
  extract_lets +onlyGivenNames x0
  try clear_value x0
  extract_lets +onlyGivenNames x1
  have h1 : Keeps r x1 := keepsS_ite ha0 (by
    split
    · extract_lets +onlyGivenNames x2
      have h2 : Keeps r x2 := State.setRing_keeps (State.markStop_keeps ha0)
      try clear_value x2
      extract_lets +onlyGivenNames x3
      have h3 : Keeps r x3 := State.ringNotify_keeps h2
      try clear_value x3
      split
      · exact State.answer_keeps (State.setCtx_keeps h3)
      · exact h3
    · exact keepsS_ite ha0 (State.answer_keeps (State.setRing_keeps (State.setCtx_keeps ha0)))
    · exact ha0)
  try clear_value x1
  exact State.teRefresh_keeps h1

theorem State.ringDisable_keeps {r : State} {a0 : State} {a1 : Nat} {a2 : Origin} (ha0 : Keeps r a0) :
    Keeps r (State.ringDisable a0 a1 a2) := by
  unfold State.ringDisable
  extract_lets +onlyGivenNames x0
  try clear_value x0
  extract_lets +onlyGivenNames x1
  try clear_value x1
  extract_lets +onlyGivenNames x2
  have h2 : Keeps r x2 := State.setRing_keeps ha0
  try clear_value x2
  extract_lets +onlyGivenNames x3
  have h3 : Keeps r x3 := keeps_foldl (fun _ _ h4 => by
    split
    · exact keepsS_ite (State.descEnd_keeps h4) h4
    · exact State.descEnd_keeps h4
    · exact h4) h2
  try clear_value x3
  exact State.ringDrained_keeps h3

theorem State.ringWrite_keeps {r : State} {a0 : State} {a1 : Nat} {a2 : Nat} {a3 : Option Nat} {a4 : Origin} (ha0 : Keeps r a0) :
    Keeps r (State.ringWrite a0 a1 a2 a3 a4) := by
  unfold State.ringWrite
  extract_lets +onlyGivenNames x0
  try clear_value x0
  extract_lets +onlyGivenNames x1
  have h1 : ∀ t b0, Keeps r t → Keeps r (x1 t b0) := fun _ _ h2 => State.answer_keeps h2
  try clear_value x1
  exact keepsS_ite (h1 _ _ ha0) (keepsS_ite (h1 _ _ ha0) (keepsS_ite (keepsS_ite (h1 _ _ (State.setCtx_keeps ha0)) (keepsS_ite (State.ringDisable_keeps ha0) (h1 _ _ ha0))) (keepsS_ite (h1 _ _ ha0) (keepsS_ite (h1 _ _ ha0) (keepsS_ite (h1 _ _ ha0) (h1 _ _ (State.setRing_keeps (State.setCtx_keeps (State.ringOrphan_keeps ha0)))))))))

theorem State.ownRing_keeps {r : State} {a0 : State} {a1 : Nat} {a2 : OdWrite} (ha0 : Keeps r a0) :
    Keeps r (State.ownRing a0 a1 a2) := by
  unfold State.ownRing
  exact State.ringWrite_keeps (State.odHold_keeps ha0)

theorem State.fetched_keeps {r : State} {a0 : State} {a1 : Nat} {a2 : Nat} {a3 : Nat} {a4 : Nat} {a5 : Nat} (ha0 : Keeps r a0) :
    Keeps r (State.fetched a0 a1 a2 a3 a4 a5) := by
  unfold State.fetched
  extract_lets +onlyGivenNames x0
  try clear_value x0
  exact keepsS_ite (State.setRing_keeps ha0) (by
  extract_lets +onlyGivenNames x1
  try clear_value x1
  exact State.setRing_keeps (State.drew_keeps ha0))

theorem State.attachRingWrite_keeps {r : State} {a0 : State} {a1 : Nat} {a2 : Msg} (ha0 : Keeps r a0) :
    Keeps r (State.attachRingWrite a0 a1 a2) := by
  unfold State.attachRingWrite
  exact State.ringWrite_keeps (State.portFree_keeps ha0)

theorem State.attachRingRead_keeps {r : State} {a0 : State} {a1 : Nat} {a2 : Msg} (ha0 : Keeps r a0) :
    Keeps r (State.attachRingRead a0 a1 a2) := by
  unfold State.attachRingRead
  extract_lets +onlyGivenNames x0
  try clear_value x0
  exact keepsS_ite (State.attachAnswer_keeps ha0) (State.attachAnswer_keeps ha0)

theorem State.compFailed_keeps {r : State} {a0 : State} {a1 : Nat} {a2 : Nat} {a3 : Nat} (ha0 : Keeps r a0) :
    Keeps r (State.compFailed a0 a1 a2 a3) := by
  unfold State.compFailed
  extract_lets +onlyGivenNames x0 y0
  try clear_value x0 y0
  extract_lets +onlyGivenNames x1
  have h1 : Keeps r x1 := State.setRing_keeps (State.compFault_keeps ha0)
  try clear_value x1
  extract_lets +onlyGivenNames x2
  have h2 : Keeps r x2 := State.ringOrphan_keeps h1
  try clear_value x2
  extract_lets +onlyGivenNames x3
  have h3 : Keeps r x3 := by
    unfold x3
    split
    · exact State.answer_keeps (State.setCtx_keeps h2)
    · exact h2
  try clear_value x3
  exact State.teRefresh_keeps h3

theorem State.teEnter_keeps {r : State} {a0 : State} {a1 : Nat} {a2 : Nat} {a3 : Nat} {a4 : ReqKind} {a5 : Nat} {a6 : Nat} {a7 : Nat} {a8 : Nat} {a9 : Nat} {a10 : Bool} (ha0 : Keeps r a0) :
    Keeps r (State.teEnter a0 a1 a2 a3 a4 a5 a6 a7 a8 a9 a10) := by
  unfold State.teEnter
  extract_lets +onlyGivenNames x0
  try clear_value x0
  exact State.enter_keeps ha0

theorem State.descNext_keeps {r : State} {a0 : State} {a1 : Nat} {a2 : Desc} (ha0 : Keeps r a0) :
    Keeps r (State.descNext a0 a1 a2) := by
  unfold State.descNext
  extract_lets +onlyGivenNames x0
  try clear_value x0
  extract_lets +onlyGivenNames x1
  try clear_value x1
  extract_lets +onlyGivenNames x2
  have h2 : ∀ b b0 b1 b2 b3 b4 b5 b6, Keeps r (x2 b b0 b1 b2 b3 b4 b5 b6) := fun _ _ _ _ _ _ _ _ => State.teEnter_keeps (State.putDesc_keeps ha0)
  try clear_value x2
  extract_lets +onlyGivenNames x4
  try clear_value x4
  exact keepsS_ite (State.descEnd_keeps ha0) (keepsS_ite (State.descEnd_keeps ha0) (by
  split
  · exact keepsS_ite (by
    extract_lets +onlyGivenNames x5
    try clear_value x5
    exact h2 _ _ _ _ _ _ _ _) (h2 _ _ _ _ _ _ _ _)
  · extract_lets +onlyGivenNames x6
    try clear_value x6
    exact h2 _ _ _ _ _ _ _ _
  · exact keepsS_ite (State.descEnd_keeps ha0) (keepsS_ite (keepsS_ite (by
    extract_lets +onlyGivenNames x7
    try clear_value x7
    exact h2 _ _ _ _ _ _ _ _) (by
    extract_lets +onlyGivenNames x8
    try clear_value x8
    extract_lets +onlyGivenNames x9
    try clear_value x9
    exact h2 _ _ _ _ _ _ _ _)) (keepsS_ite (by
    extract_lets +onlyGivenNames x10
    try clear_value x10
    extract_lets +onlyGivenNames x11
    try clear_value x11
    extract_lets +onlyGivenNames x12
    try clear_value x12
    exact h2 _ _ _ _ _ _ _ _) (h2 _ _ _ _ _ _ _ _)))
  · exact keepsS_ite (State.descEnd_keeps ha0) (by
    extract_lets +onlyGivenNames x13
    try clear_value x13
    extract_lets +onlyGivenNames x14
    try clear_value x14
    extract_lets +onlyGivenNames x15
    try clear_value x15
    extract_lets +onlyGivenNames x16
    try clear_value x16
    exact keepsS_ite (by
    split
    · exact h2 _ _ _ _ _ _ _ _) (h2 _ _ _ _ _ _ _ _))
  · exact h2 _ _ _ _ _ _ _ _
  · exact State.putDesc_keeps ha0
  · exact State.descEnd_keeps ha0))

theorem State.descRead_keeps {r : State} {a0 : State} {a1 : Nat} {a2 : Desc} {a3 : Nat} {a4 : Nat} (ha0 : Keeps r a0) :
    Keeps r (State.descRead a0 a1 a2 a3 a4) := by
  unfold State.descRead
  extract_lets +onlyGivenNames x0
  try clear_value x0
  extract_lets +onlyGivenNames x1
  try clear_value x1
  exact keepsS_ite (State.descEnd_keeps ha0) (by
  extract_lets +onlyGivenNames x2
  try clear_value x2
  split
  · exact State.descNext_keeps ha0
  · exact State.descNext_keeps ha0
  · extract_lets +onlyGivenNames x3
    try clear_value x3
    exact State.descNext_keeps ha0)

theorem execRange_keeps {r : State} {a0 : CmdSrc} {a1 : State} (ha1 : Keeps r a1) :
    KeepsX r (execRange a0 a1) := by
  unfold execRange
  split
  · exact keepsX_next (State.attachOp_keeps ha1)
  · extract_lets +onlyGivenNames x0
    try clear_value x0
    exact keepsX_next (State.hostCmd_keeps ha1 (fun _ h1 => by
    extract_lets +onlyGivenNames x2
    try clear_value x2
    extract_lets +onlyGivenNames x3
    try clear_value x3
    exact State.enter_keeps h1))
  · exact State.odCmd_keeps ha1 (fun _ h4 => State.odFail_keeps h4)
  · split
    · exact keepsX_next (State.descNext_keeps ha1)
    · exact keepsX_next ha1

theorem State.teServe_keeps {r : State} {a0 : State} {a1 : Nat} (ha0 : Keeps r a0) :
    Keeps r (State.teServe a0 a1) := by
  unfold State.teServe
  extract_lets +onlyGivenNames x0
  try clear_value x0
  extract_lets +onlyGivenNames x1
  try clear_value x1
  extract_lets +onlyGivenNames x2
  try clear_value x2
  exact keepsS_ite (keeps_mk ha0) (State.count_keeps (keeps_mk ha0))

theorem execDescriptorStart_keeps {r : State} {a0 : Fin 1048576} {a1 : State} (ha1 : Keeps r a1) :
    KeepsX r (execDescriptorStart a0 a1) := by
  unfold execDescriptorStart
  extract_lets +onlyGivenNames x0
  try clear_value x0
  extract_lets +onlyGivenNames x1
  try clear_value x1
  split
  · exact keepsX_next ha1
  · extract_lets +onlyGivenNames x2
    try clear_value x2
    exact keepsX_ite (keepsX_next ha1) (by
    extract_lets +onlyGivenNames x3
    try clear_value x3
    extract_lets +onlyGivenNames x4
    try clear_value x4
    extract_lets +onlyGivenNames x5
    have h5 : Keeps r x5 := State.teServe_keeps (State.setCtx_keeps ha1)
    try clear_value x5
    extract_lets +onlyGivenNames x6
    have h6 : Keeps r x6 := State.setRing_keeps h5
    try clear_value x6
    extract_lets +onlyGivenNames x7
    have h7 : Keeps r x7 := keepsS_ite (State.descEnd_keeps h6) (keepsS_ite h6 (State.descNext_keeps h6))
    try clear_value x7
    exact keepsX_next (State.teRefresh_keeps h7))

theorem State.descLeave_keeps {r : State} {a0 : State} {a1 : Nat} {a2 : Desc} {a3 : Nat} (ha0 : Keeps r a0) :
    Keeps r (State.descLeave a0 a1 a2 a3) := by
  unfold State.descLeave
  extract_lets +onlyGivenNames x0
  try clear_value x0
  extract_lets +onlyGivenNames x1
  have h1 : Keeps r x1 := State.setRing_keeps ha0
  try clear_value x1
  extract_lets +onlyGivenNames x2
  have h2 : Keeps r x2 := keepsS_ite (State.ringNotify_keeps h1) h1
  try clear_value x2
  exact State.ringDrained_keeps h2

theorem State.takeDone_keeps {r : State} {a0 : State} {a1 : Nat} (ha0 : Keeps r a0) :
    KeepsO2 r (State.takeDone a0 a1) := by
  unfold State.takeDone
  split
  · exact keepsO2_some (keeps_mk ha0)
  · exact keepsO2_none

theorem execDoorbell_keeps {r : State} {a0 : Nat} {a1 : State} (ha1 : Keeps r a1) :
    KeepsX r (execDoorbell a0 a1) := by
  unfold execDoorbell
  split
  · exact keepsX_next ha1
  · exact keepsX_ite (by
    split
    · rename_i p0_0 p0_1 e0
      have h0 := keeps_snd (State.doorbell_keeps ha1) e0
      exact keepsX_next (State.complete_keeps h0)) (keepsX_next ha1)

theorem execRingWrite_keeps {r : State} {a0 : CmdSrc} {a1 : State} (ha1 : Keeps r a1) :
    KeepsX r (execRingWrite a0 a1) := by
  unfold execRingWrite
  split
  · exact keepsX_next (State.attachTake_keeps ha1 (fun _ h0 => State.attachRingWrite_keeps h0))
  · extract_lets +onlyGivenNames x1
    try clear_value x1
    exact keepsX_next (State.hostCmd_keeps ha1 (fun _ h2 => State.ringWrite_keeps h2))
  · exact State.odCmd_keeps ha1 (fun _ h3 => State.odWrite_keeps h3 (fun _ h4 => State.ownRing_keeps h4))
  · exact keepsX_next ha1

theorem State.descWrote_keeps {r : State} {a0 : State} {a1 : Nat} {a2 : Desc} {a3 : Nat} {a4 : Nat} (ha0 : Keeps r a0) :
    Keeps r (State.descWrote a0 a1 a2 a3 a4) := by
  unfold State.descWrote
  extract_lets +onlyGivenNames x0
  try clear_value x0
  exact keepsS_ite (State.descEnd_keeps ha0) (by
  split
  · extract_lets +onlyGivenNames x1
    try clear_value x1
    exact keepsS_ite (State.descNext_keeps ha0) (by
    extract_lets +onlyGivenNames x2
    try clear_value x2
    exact keepsS_ite (State.descNext_keeps ha0) (State.descNext_keeps ha0))
  · exact State.descEnd_keeps ha0
  · exact State.descNext_keeps ha0)

theorem execDescriptorComplete_keeps {r : State} {a0 : Fin 1048576} {a1 : State} (ha1 : Keeps r a1) :
    KeepsX r (execDescriptorComplete a0 a1) := by
  unfold execDescriptorComplete
  split
  · exact keepsX_next ha1
  · split
    · exact keepsX_ite (by
      extract_lets +onlyGivenNames x0
      try clear_value x0
      extract_lets +onlyGivenNames x1
      have h1 : Keeps r x1 := State.putDesc_keeps ha1
      try clear_value x1
      exact keepsX_next (State.teEnter_keeps h1)) (keepsX_next (State.descLeave_keeps ha1))
    · exact keepsX_next ha1

theorem execRingRead_keeps {r : State} {a0 : CmdSrc} {a1 : State} (ha1 : Keeps r a1) :
    KeepsX r (execRingRead a0 a1) := by
  unfold execRingRead
  split
  · exact keepsX_next (State.attachTake_keeps ha1 (fun _ h0 => State.attachRingRead_keeps h0))
  · extract_lets +onlyGivenNames x1
    try clear_value x1
    exact keepsX_next (State.hostCmd_keeps ha1 (fun _ h2 => by
    extract_lets +onlyGivenNames x3
    try clear_value x3
    exact keepsS_ite (State.hostCmdDone_keeps h2) (State.hostCmdDone_keeps h2)))
  · exact State.odCmd_keeps ha1 (fun _ h4 => by
    split
    · exact State.odAnswer_keeps h4
    · exact State.odAnswer_keeps h4)
  · exact keepsX_next ha1

theorem execDescriptorFetch_keeps {r : State} {a0 : Fin 1048576} {a1 : State} (ha1 : Keeps r a1) :
    KeepsX r (execDescriptorFetch a0 a1) := by
  unfold execDescriptorFetch
  extract_lets +onlyGivenNames x0
  try clear_value x0
  extract_lets +onlyGivenNames x1
  try clear_value x1
  extract_lets +onlyGivenNames x2
  try clear_value x2
  exact keepsX_ite (by
  extract_lets +onlyGivenNames x3
  try clear_value x3
  extract_lets +onlyGivenNames x4
  have h4 : Keeps r x4 := State.setRing_keeps (State.teServe_keeps ha1)
  try clear_value x4
  exact keepsX_next (State.teRefresh_keeps (State.teEnter_keeps h4))) (keepsX_next ha1)

theorem execTeRequestDone_keeps {r : State} {a0 : Fin 1048576} {a1 : State} (ha1 : Keeps r a1) :
    KeepsX r (execTeRequestDone a0 a1) := by
  unfold execTeRequestDone
  split
  · exact keepsX_next ha1
  · rename_i p0_0 p0_1 e0
    have h0 := keeps_optO2 (State.takeDone_keeps ha1) e0
    exact keepsX_ite (by
    split
    · exact keepsX_next h0
    · exact keepsX_ite (keepsX_next (State.compFailed_keeps h0)) (by
      split
      · exact keepsX_next (State.descLeave_keeps (State.compAdvance_keeps h0))
      · exact keepsX_next h0)) (keepsX_ite (by
    extract_lets +onlyGivenNames x1
    try clear_value x1
    exact keepsX_next (State.ringDrained_keeps (State.fetched_keeps h0))) (by
    split
    · exact keepsX_next h0
    · split
      · exact keepsX_next (State.descRead_keeps h0)
      · exact keepsX_next (State.descWrote_keeps h0)
      · exact keepsX_next h0))

theorem State.openLines_keeps {r : State} {a0 : State} {a1 : List Loc} (ha0 : Keeps r a0) :
    Keeps r (State.openLines a0 a1) := by
  unfold State.openLines
  exact keeps_foldl (fun _ _ h0 => by
  extract_lets +onlyGivenNames x1
  have h1 : Keeps r x1 := State.applyHot_keeps h0
  try clear_value x1
  exact keepsS_ite h1 (by
  split
  · exact State.wakeChan_keeps h1
  · exact h1)) ha0

theorem State.itemStats_keeps {r : State} {a0 : State} {a1 : Nat} {a2 : Nat} {a3 : Nat} {a4 : Nat} (ha0 : Keeps r a0) :
    KeepsO1 r (State.itemStats a0 a1 a2 a3 a4) := by
  unfold State.itemStats
  extract_lets +onlyGivenNames x0
  try clear_value x0
  extract_lets +onlyGivenNames x1
  try clear_value x1
  split
  · exact keepsO1_some ha0
  · exact keepsO1_ite keepsO1_none (by
    extract_lets +onlyGivenNames x2
    have h2 : Keeps r x2 := State.openLines_keeps ha0
    try clear_value x2
    extract_lets +onlyGivenNames x3
    try clear_value x3
    extract_lets +onlyGivenNames x4
    try clear_value x4
    extract_lets +onlyGivenNames x5
    try clear_value x5
    extract_lets +onlyGivenNames x6
    try clear_value x6
    extract_lets +onlyGivenNames x7
    have h7 : Keeps r x7 := State.flowEvents_keeps h2
    try clear_value x7
    extract_lets +onlyGivenNames x8
    have h8 : Keeps r x8 := by
      unfold x8
      split
      · exact State.setSweep_keeps h7
      · exact h7
    try clear_value x8
    exact keepsO1_some h8)

theorem State.sectorPut_keeps {r : State} {a0 : State} {a1 : Nat} {a2 : Nat} {a3 : Nat} {a4 : Bool} (ha0 : Keeps r a0) :
    Keeps r (State.sectorPut a0 a1 a2 a3 a4) := by
  unfold State.sectorPut
  exact keepsS_ite ha0 (keepsS_ite (State.poke_keeps ha0) (keeps_foldl (fun _ _ h0 => State.poke_keeps h0) ha0))

theorem State.sweepArm_keeps {r : State} {a0 : State} {a1 : Nat} {a2 : Nat} (ha0 : Keeps r a0) :
    Keeps r (State.sweepArm a0 a1 a2) := by
  unfold State.sweepArm
  exact State.wr_keeps (State.setSweep_keeps ha0)

theorem State.sweepSubmit_keeps {r : State} {a0 : State} {a1 : Nat} {a2 : Nat} (ha0 : Keeps r a0) :
    Keeps r (State.sweepSubmit a0 a1 a2).2 := by
  unfold State.sweepSubmit
  split
  · exact State.sweepArm_keeps ha0
  · exact ha0

theorem State.ownSweep_keeps {r : State} {a0 : State} {a1 : Nat} {a2 : OdWrite} (ha0 : Keeps r a0) :
    Keeps r (State.ownSweep a0 a1 a2) := by
  unfold State.ownSweep
  split
  · rename_i p0_0 e0
    have h0 := keeps_snd (State.sweepSubmit_keeps ha0) e0
    exact State.odDone_keeps h0
  · rename_i p1_0 p1_1 e1
    have h1 := keeps_snd (State.sweepSubmit_keeps ha0) e1
    exact State.odFail_keeps h1

theorem State.ownSweepAbort_keeps {r : State} {a0 : State} {a1 : Nat} (ha0 : Keeps r a0) :
    Keeps r (State.ownSweepAbort a0 a1) := by
  unfold State.ownSweepAbort
  exact keepsS_ite (State.odFail_keeps ha0) (State.odDone_keeps (State.sweepStop_keeps ha0))

theorem State.ownSweepGroup_keeps {r : State} {a0 : State} {a1 : Nat} {a2 : OdWrite} (ha0 : Keeps r a0) :
    Keeps r (State.ownSweepGroup a0 a1 a2) := by
  unfold State.ownSweepGroup
  exact keepsS_ite (State.odSet_keeps ha0) (State.odFail_keeps ha0)

theorem State.attachSweep_keeps {r : State} {a0 : State} {a1 : Nat} {a2 : Msg} (ha0 : Keeps r a0) :
    Keeps r (State.attachSweep a0 a1 a2) := by
  unfold State.attachSweep
  extract_lets +onlyGivenNames x0
  have h0 : Keeps r x0.2 := State.sweepSubmit_keeps ha0
  try clear_value x0
  exact State.attachAnswer_keeps h0

theorem execSweepTimeoutExpiry_keeps {r : State} {a0 : Fin 16} {a1 : State} (ha1 : Keeps r a1) :
    KeepsX r (execSweepTimeoutExpiry a0 a1) := by
  unfold execSweepTimeoutExpiry
  split
  · exact keepsX_next ha1
  · exact keepsX_ite (keepsX_next (State.sweepEnd_keeps ha1)) (keepsX_ite (keepsX_next (State.sweepEnd_keeps ha1)) (keepsX_next ha1))

theorem State.gatherCount_keeps {r : State} {a0 : State} {a1 : Nat} {a2 : Nat} {a3 : Nat} (ha0 : Keeps r a0) :
    Keeps r (State.gatherCount a0 a1 a2 a3) := by
  unfold State.gatherCount
  split
  · exact State.setSweep_keeps ha0
  · exact ha0

theorem State.gatherSend_keeps {r : State} {a0 : State} {a1 : Nat} {a2 : SweepRun} {a3 : Nat} {a4 : Nat} {a5 : Bool} (ha0 : Keeps r a0) :
    Keeps r (State.gatherSend a0 a1 a2 a3 a4 a5) := by
  unfold State.gatherSend
  extract_lets +onlyGivenNames x0
  try clear_value x0
  extract_lets +onlyGivenNames x1
  try clear_value x1
  exact keeps_foldl (fun _ _ h2 => keepsS_ite h2 (by
  extract_lets +onlyGivenNames x3
  try clear_value x3
  extract_lets +onlyGivenNames x4
  try clear_value x4
  extract_lets +onlyGivenNames x5
  try clear_value x5
  exact State.sendOne_keeps (State.newReq_keeps (keeps_mk h2)))) ha0

theorem State.itemFill_keeps {r : State} {a0 : State} {a1 : Nat} {a2 : Nat} (ha0 : Keeps r a0) :
    KeepsO1 r (State.itemFill a0 a1 a2) := by
  unfold State.itemFill
  split
  · exact keepsO1_some ha0
  · exact keepsO1_ite keepsO1_none (by
    extract_lets +onlyGivenNames x0
    try clear_value x0
    exact keepsO1_some (State.poke_keeps (State.openLines_keeps ha0)))

theorem execSweepProgressRefresh_keeps {r : State} {a0 : Fin 16} {a1 : State} (ha1 : Keeps r a1) :
    KeepsX r (execSweepProgressRefresh a0 a1) := by
  unfold execSweepProgressRefresh
  split
  · exact keepsX_next ha1
  · exact keepsX_next (State.wr_keeps ha1)

theorem State.convUse_keeps {r : State} {a0 : State} {a1 : Nat} {a2 : Nat} {a3 : Nat} {a4 : FlowCnt} {a5 : Rng} (ha0 : Keeps r a0) :
    Keeps r (State.convUse a0 a1 a2 a3 a4 a5) := by
  unfold State.convUse
  exact State.flowEvents_keeps (State.setRng_keeps ha0)

theorem State.sectorsPut_keeps {r : State} {a0 : State} {a1 : Nat} {a2 : Nat} {a3 : Nat} {a4 : Nat} {a5 : Nat} (ha0 : Keeps r a0) :
    Keeps r (State.sectorsPut a0 a1 a2 a3 a4 a5) := by
  unfold State.sectorsPut
  exact keeps_foldl (fun _ _ h0 => State.sectorPut_keeps h0) ha0

theorem State.itemReduce_keeps {r : State} {a0 : State} {a1 : Nat} {a2 : Nat} {a3 : Nat} {a4 : Nat} (ha0 : Keeps r a0) :
    KeepsO1 r (State.itemReduce a0 a1 a2 a3 a4) := by
  unfold State.itemReduce
  extract_lets +onlyGivenNames x0
  try clear_value x0
  extract_lets +onlyGivenNames x1
  try clear_value x1
  extract_lets +onlyGivenNames x2
  try clear_value x2
  extract_lets +onlyGivenNames x3
  try clear_value x3
  extract_lets +onlyGivenNames x4
  try clear_value x4
  split
  · exact keepsO1_some ha0
  · exact keepsO1_ite (by
    extract_lets +onlyGivenNames x5
    try clear_value x5
    exact keepsO1_ite keepsO1_none (by
    extract_lets +onlyGivenNames x6
    have h6 : Keeps r x6 := State.openLines_keeps ha0
    try clear_value x6
    extract_lets +onlyGivenNames x7
    try clear_value x7
    extract_lets +onlyGivenNames x8
    try clear_value x8
    exact keepsO1_ite (keepsO1_some (State.sectorsPut_keeps h6)) (by
    extract_lets +onlyGivenNames x9
    try clear_value x9
    split
    · extract_lets +onlyGivenNames x10
      try clear_value x10
      exact keepsO1_some (State.poke_keeps (State.convUse_keeps h6))))) (keepsO1_some ha0)

theorem execSweepComplete_keeps {r : State} {a0 : Fin 16} {a1 : State} (ha1 : Keeps r a1) :
    KeepsX r (execSweepComplete a0 a1) := by
  unfold execSweepComplete
  split
  · exact keepsX_next ha1
  · exact keepsX_ite (keepsX_next (State.sweepEnd_keeps ha1)) (keepsX_ite (keepsX_next ha1) (keepsX_ite (keepsX_next (State.sweepEnd_keeps ha1)) (keepsX_ite (keepsX_next ha1) (keepsX_next (State.sweepEnd_keeps ha1)))))

theorem State.itemQuant_keeps {r : State} {a0 : State} {a1 : Nat} {a2 : Nat} {a3 : Nat} {a4 : Nat} (ha0 : Keeps r a0) :
    KeepsO1 r (State.itemQuant a0 a1 a2 a3 a4) := by
  unfold State.itemQuant
  extract_lets +onlyGivenNames x0
  try clear_value x0
  extract_lets +onlyGivenNames x1
  try clear_value x1
  extract_lets +onlyGivenNames x2
  try clear_value x2
  extract_lets +onlyGivenNames x3
  try clear_value x3
  extract_lets +onlyGivenNames x4
  try clear_value x4
  extract_lets +onlyGivenNames x5
  try clear_value x5
  extract_lets +onlyGivenNames x6
  try clear_value x6
  split
  · exact keepsO1_ite keepsO1_none (by
    extract_lets +onlyGivenNames x7
    have h7 : Keeps r x7 := State.openLines_keeps ha0
    try clear_value x7
    extract_lets +onlyGivenNames x8
    try clear_value x8
    extract_lets +onlyGivenNames x9
    try clear_value x9
    extract_lets +onlyGivenNames x10
    try clear_value x10
    extract_lets +onlyGivenNames x11
    try clear_value x11
    extract_lets +onlyGivenNames x12
    try clear_value x12
    extract_lets +onlyGivenNames x13
    try clear_value x13
    extract_lets +onlyGivenNames x14
    try clear_value x14
    extract_lets +onlyGivenNames x15
    try clear_value x15
    split
    · exact keepsO1_some (State.sectorsPut_keeps (State.convUse_keeps h7)))
  · exact keepsO1_some ha0

theorem execSweep_keeps {r : State} {a0 : CmdSrc} {a1 : State} (ha1 : Keeps r a1) :
    KeepsX r (execSweep a0 a1) := by
  unfold execSweep
  split
  · exact keepsX_next (State.attachTake_keeps ha1 (fun _ h0 => State.attachSweep_keeps h0))
  · extract_lets +onlyGivenNames x1
    try clear_value x1
    exact keepsX_next (State.hostCmd_keeps ha1 (fun _ h2 => by
    extract_lets +onlyGivenNames x3
    have h3 : Keeps r x3.2 := State.sweepSubmit_keeps h2
    try clear_value x3
    exact State.hostCmdDone_keeps h3))
  · exact State.odCmd_keeps ha1 (fun _ h4 => State.odWrite_keeps h4 (fun _ h5 => State.ownSweep_keeps h5))
  · exact keepsX_next ha1

theorem State.itemCopy_keeps {r : State} {a0 : State} {a1 : Nat} {a2 : Nat} (ha0 : Keeps r a0) :
    KeepsO1 r (State.itemCopy a0 a1 a2) := by
  unfold State.itemCopy
  split
  · exact keepsO1_ite keepsO1_none (by
    extract_lets +onlyGivenNames x0
    have h0 : Keeps r x0 := State.openLines_keeps ha0
    try clear_value x0
    extract_lets +onlyGivenNames x1
    try clear_value x1
    exact keepsO1_some (State.sectorsPut_keeps h0))
  · exact keepsO1_some ha0

theorem State.itemExpand_keeps {r : State} {a0 : State} {a1 : Nat} {a2 : Nat} {a3 : Nat} {a4 : Nat} (ha0 : Keeps r a0) :
    KeepsO1 r (State.itemExpand a0 a1 a2 a3 a4) := by
  unfold State.itemExpand
  extract_lets +onlyGivenNames x0
  try clear_value x0
  extract_lets +onlyGivenNames x1
  try clear_value x1
  extract_lets +onlyGivenNames x2
  try clear_value x2
  extract_lets +onlyGivenNames x3
  try clear_value x3
  extract_lets +onlyGivenNames x4
  try clear_value x4
  extract_lets +onlyGivenNames x5
  try clear_value x5
  split
  · exact keepsO1_some ha0
  · exact keepsO1_ite (by
    extract_lets +onlyGivenNames x6
    try clear_value x6
    exact keepsO1_ite keepsO1_none (by
    extract_lets +onlyGivenNames x7
    have h7 : Keeps r x7 := State.openLines_keeps ha0
    try clear_value x7
    extract_lets +onlyGivenNames x8
    try clear_value x8
    extract_lets +onlyGivenNames x9
    try clear_value x9
    exact keepsO1_some (State.sectorsPut_keeps (State.convUse_keeps h7)))) (keepsO1_some ha0)

theorem State.sweepItem_keeps {r : State} {a0 : State} {a1 : Nat} {a2 : SweepRun} {a3 : Nat} {a4 : Nat} (ha0 : Keeps r a0) :
    KeepsO1 r (State.sweepItem a0 a1 a2 a3 a4) := by
  unfold State.sweepItem
  extract_lets +onlyGivenNames x0
  try clear_value x0
  split
  · exact State.itemFill_keeps ha0
  · exact State.itemCopy_keeps ha0
  · exact keepsO1_ite (State.itemQuant_keeps ha0) (State.itemExpand_keeps ha0)
  · exact State.itemReduce_keeps ha0
  · extract_lets +onlyGivenNames x1
    try clear_value x1
    extract_lets +onlyGivenNames x2
    try clear_value x2
    split
    · exact keepsO1_none
    · rename_i p3_0 p3_1 e3
      have h3 := keeps_optO1 (State.itemCopy_keeps ha0) e3
      extract_lets +onlyGivenNames x4
      try clear_value x4
      exact keepsO1_some (State.gatherCount_keeps (State.gatherSend_keeps h3))
  · exact State.itemStats_keeps ha0

theorem execSweepSliceLine_keeps {r : State} {a0 : Fin 16} {a1 : Fin 1024} {a2 : State} (ha2 : Keeps r a2) :
    KeepsX r (execSweepSliceLine a0 a1 a2) := by
  unfold execSweepSliceLine
  split
  · exact keepsX_next ha2
  · split
    · exact keepsX_next ha2
    · exact keepsX_ite (keepsX_next (State.setSweep_keeps ha2)) (keepsX_ite (keepsX_next ha2) (keepsX_ite (keepsX_next (State.sliceUp_keeps ha2)) (keepsX_ite (keepsX_next (State.setSweep_keeps ha2)) (by
      split
      · exact keepsX_next (State.setSweep_keeps ha2)
      · extract_lets +onlyGivenNames x0
        try clear_value x0
        extract_lets +onlyGivenNames x1
        try clear_value x1
        exact keepsX_ite (keepsX_next (State.setSweep_keeps ha2)) (by
        split
        · exact keepsX_next ha2
        · rename_i p2_0 p2_1 e2
          have h2 := keeps_optO1 (State.sweepItem_keeps ha2) e2
          split
          · exact keepsX_next h2
          · exact keepsX_next (State.setSweep_keeps h2))))))

theorem execSweepAbort_keeps {r : State} {a0 : Fin 16} {a1 : OdWrite} {a2 : State} (ha2 : Keeps r a2) :
    KeepsX r (execSweepAbort a0 a1 a2) := by
  unfold execSweepAbort
  exact State.odCmd_keeps ha2 (fun _ h0 => State.odWrite_keeps h0 (fun _ h1 => State.ownSweepAbort_keeps h1))

theorem execSweepLaunch_keeps {r : State} {a0 : Fin 16} {a1 : State} (ha1 : Keeps r a1) :
    KeepsX r (execSweepLaunch a0 a1) := by
  unfold execSweepLaunch
  split
  · exact keepsX_next ha1
  · exact keepsX_ite (keepsX_next ha1) (by
    extract_lets +onlyGivenNames x0
    try clear_value x0
    extract_lets +onlyGivenNames x1
    try clear_value x1
    extract_lets +onlyGivenNames x2
    try clear_value x2
    extract_lets +onlyGivenNames x3
    try clear_value x3
    extract_lets +onlyGivenNames x4
    try clear_value x4
    exact keepsX_next (State.wr_keeps (State.setSweep_keeps ha1)))

theorem execSweepGroup_keeps {r : State} {a0 : Fin 16} {a1 : OdWrite} {a2 : State} (ha2 : Keeps r a2) :
    KeepsX r (execSweepGroup a0 a1 a2) := by
  unfold execSweepGroup
  exact State.odCmd_keeps ha2 (fun _ h0 => State.odWrite_keeps h0 (fun _ h1 => State.ownSweepGroup_keeps h1))

end Sys2Proof.Machine
end

