-- ==== Sys2Proof/Laws/KeepsPorts.lean ====
section
/-! SUPPORT. What every operation keeps (Laws/Keeps.lean), one lemma each: ports, launches and gate time (chapters 08, 10 and 12). -/

namespace Sys2Proof.Machine

theorem State.linkFreeReq_keeps {r : State} {a0 : State} {a1 : Nat} {a2 : Nat} (ha0 : Keeps r a0) :
    Keeps r (State.linkFreeReq a0 a1 a2) := by
  unfold State.linkFreeReq
  exact State.setLnk_keeps ha0

theorem State.linkResetting_keeps {r : State} {a0 : State} {a1 : Nat} {a2 : Msg} {a3 : Nat} (ha0 : Keeps r a0) :
    Keeps r (State.linkResetting a0 a1 a2 a3) := by
  unfold State.linkResetting
  exact State.sendLink_keeps (State.linkFreeReq_keeps ha0)

theorem State.linkDeny_keeps {r : State} {a0 : State} {a1 : Nat} {a2 : Nat} {a3 : Nat} {a4 : Nat} (ha0 : Keeps r a0) :
    Keeps r (State.linkDeny a0 a1 a2 a3 a4) := by
  unfold State.linkDeny
  exact State.linkRespond_keeps (State.linkFreeReq_keeps (State.denialRecord_keeps ha0))

theorem State.relayOn_keeps {r : State} {a0 : State} {a1 : Nat} {a2 : Msg} (ha0 : Keeps r a0) :
    Keeps r (State.relayOn a0 a1 a2) := by
  unfold State.relayOn
  extract_lets +onlyGivenNames x0
  try clear_value x0
  exact State.sendLink_keeps ha0

theorem State.relayReq_keeps {r : State} {a0 : State} {a1 : Nat} {a2 : Msg} {a3 : Nat} (ha0 : Keeps r a0) :
    Keeps r (State.relayReq a0 a1 a2 a3) := by
  unfold State.relayReq
  extract_lets +onlyGivenNames x0
  try clear_value x0
  exact keepsS_ite (State.linkDeny_keeps ha0) (by
  extract_lets +onlyGivenNames x1
  have h1 : Keeps r x1 := State.linkFreeReq_keeps ha0
  try clear_value x1
  extract_lets +onlyGivenNames x2
  have h2 : Keeps r x2 := State.linkRespond_keeps h1
  try clear_value x2
  exact keepsS_ite h2 (by
  split
  · exact State.relayOn_keeps h1
  · exact h2))

theorem State.serveReq_keeps {r : State} {a0 : State} {a1 : Nat} {a2 : Msg} {a3 : Nat} (ha0 : Keeps r a0) :
    Keeps r (State.serveReq a0 a1 a2 a3) := by
  unfold State.serveReq
  extract_lets +onlyGivenNames x0
  try clear_value x0
  exact keepsS_ite (State.linkDeny_keeps ha0) (by
  split
  · split
    · exact State.enter_keeps ha0
    · exact ha0
  · exact State.linkRespond_keeps (State.linkFreeReq_keeps ha0))

theorem State.linkRequest_keeps {r : State} {a0 : State} {a1 : Nat} {a2 : Msg} {a3 : Nat} (ha0 : Keeps r a0) :
    Keeps r (State.linkRequest a0 a1 a2 a3) := by
  unfold State.linkRequest
  exact keepsS_ite (State.linkResetting_keeps ha0) (keepsS_ite (State.relayReq_keeps ha0) (State.serveReq_keeps ha0))

theorem State.gatherTake_keeps {r : State} {a0 : State} {a1 : Nat} {a2 : Msg} {a3 : Nat} (ha0 : Keeps r a0) :
    Keeps r (State.gatherTake a0 a1 a2 a3) := by
  unfold State.gatherTake
  extract_lets +onlyGivenNames x0
  try clear_value x0
  exact keepsS_ite (State.linkResetting_keeps ha0) (keepsS_ite (State.relayReq_keeps ha0) (by
  extract_lets +onlyGivenNames x1
  try clear_value x1
  extract_lets +onlyGivenNames x2
  have h2 : Keeps r x2 := State.serveReq_keeps ha0
  try clear_value x2
  exact keepsS_ite h2 (by
  extract_lets +onlyGivenNames x3
  try clear_value x3
  extract_lets +onlyGivenNames x4
  try clear_value x4
  exact keepsS_ite (State.gatherCount_keeps h2) (State.count_keeps h2))))

theorem State.linkFreeRsp_keeps {r : State} {a0 : State} {a1 : Nat} {a2 : Nat} (ha0 : Keeps r a0) :
    Keeps r (State.linkFreeRsp a0 a1 a2) := by
  unfold State.linkFreeRsp
  exact State.setLnk_keeps ha0

theorem State.relayRsp_keeps {r : State} {a0 : State} {a1 : Nat} {a2 : Msg} {a3 : Nat} (ha0 : Keeps r a0) :
    Keeps r (State.relayRsp a0 a1 a2 a3) := by
  unfold State.relayRsp
  extract_lets +onlyGivenNames x0
  try clear_value x0
  extract_lets +onlyGivenNames x1
  have h1 : Keeps r x1 := State.linkFreeRsp_keeps ha0
  try clear_value x1
  exact keepsS_ite h1 (by
  split
  · exact State.relayOn_keeps h1
  · exact h1)

theorem State.linkRsp_keeps {r : State} {a0 : State} {a1 : Nat} {a2 : Msg} {a3 : Nat} (ha0 : Keeps r a0) :
    Keeps r (State.linkRsp a0 a1 a2 a3) := by
  unfold State.linkRsp
  extract_lets +onlyGivenNames x0
  try clear_value x0
  exact keepsS_ite (State.relayRsp_keeps ha0) (by
  extract_lets +onlyGivenNames x1
  have h1 : Keeps r x1 := State.linkFreeRsp_keeps ha0
  try clear_value x1
  extract_lets +onlyGivenNames x2
  try clear_value x2
  extract_lets +onlyGivenNames x3
  try clear_value x3
  split
  · extract_lets +onlyGivenNames x4
    have h4 : Keeps r x4 := keeps_mk h1
    try clear_value x4
    split
    · exact State.complete_keeps h4
    · exact h4
  · exact State.forwardEnd_keeps (keeps_mk h1)
  · exact State.count_keeps h1)

theorem State.linkIdle_keeps {r : State} {a0 : State} {a1 : Nat} (ha0 : Keeps r a0) :
    Keeps r (State.linkIdle a0 a1) := by
  unfold State.linkIdle
  exact State.wr_keeps (State.setLnk_keeps ha0)

theorem State.cancelHere_keeps {r : State} {a0 : State} {a1 : Nat} {a2 : Nat} {a3 : Bool} (ha0 : Keeps r a0) :
    Keeps r (State.cancelHere a0 a1 a2 a3).2 := by
  unfold State.cancelHere
  split
  · exact ha0
  · exact keepsP2_ite ha0 (keepsP2_ite ha0 (State.launchEnd_keeps ha0))

theorem State.forward_keeps {r : State} {a0 : State} {a1 : Forward} (ha0 : Keeps r a0) :
    Keeps r (State.forward a0 a1) := by
  unfold State.forward
  exact keepsS_ite (keeps_mk ha0) (by
  split
  · exact State.forwardEnd_keeps ha0
  · split
    · exact keeps_mk ha0
    · exact State.sendLink_keeps (keeps_mk ha0))

theorem State.keepAsker_keeps {r : State} {a0 : State} {a1 : Origin} (ha0 : Keeps r a0) :
    Keeps r (State.keepAsker a0 a1) := by
  unfold State.keepAsker
  split
  · exact State.odHold_keeps ha0
  · exact ha0

theorem State.cancelSubmit_keeps {r : State} {a0 : State} {a1 : Asker} {a2 : Nat} (ha0 : Keeps r a0) :
    Keeps r (State.cancelSubmit a0 a1 a2) := by
  unfold State.cancelSubmit
  split
  · rename_i p0_0 e0
    have h0 := keeps_snd (State.cancelHere_keeps ha0) e0
    split
    · exact State.answer_keeps h0
    · exact keepsS_ite (State.answer_keeps (keeps_mk h0)) (keepsS_ite (State.answer_keeps h0) (State.forward_keeps (State.keepAsker_keeps h0)))
  · rename_i p1_0 p1_1 e1
    have h1 := keeps_snd (State.cancelHere_keeps ha0) e1
    exact State.answer_keeps h1

theorem State.ownCancel_keeps {r : State} {a0 : State} {a1 : OdWrite} (ha0 : Keeps r a0) :
    Keeps r (State.ownCancel a0 a1) := by
  unfold State.ownCancel
  exact State.cancelSubmit_keeps ha0

theorem State.launchDemand_keeps {r : State} {a0 : State} {a1 : PowerUnit} (ha0 : Keeps r a0) :
    Keeps r (State.launchDemand a0 a1) := by
  unfold State.launchDemand
  extract_lets +onlyGivenNames x0
  have h0 : Keeps r x0 := State.demand_keeps ha0
  try clear_value x0
  exact keepsS_ite (keeps_mk h0) h0

theorem State.linkWake_keeps {r : State} {a0 : State} {a1 : Nat} (ha0 : Keeps r a0) :
    Keeps r (State.linkWake a0 a1) := by
  unfold State.linkWake
  extract_lets +onlyGivenNames x0
  try clear_value x0
  extract_lets +onlyGivenNames x1
  have h1 : Keeps r x1 := State.setLnk_keeps (keeps_mk ha0)
  try clear_value x1
  exact keepsS_ite (State.emit_keeps (State.wr_keeps h1)) h1

theorem State.linkIdleAsk_keeps {r : State} {a0 : State} {a1 : Nat} (ha0 : Keeps r a0) :
    Keeps r (State.linkIdleAsk a0 a1) := by
  unfold State.linkIdleAsk
  exact keepsS_ite ha0 (keepsS_ite (State.linkIdle_keeps ha0) (State.setLnk_keeps ha0))

theorem State.launchTarget_keeps {r : State} {a0 : State} {a1 : Nat} {a2 : Launch} {a3 : Nat} (ha0 : Keeps r a0) :
    Keeps r (State.launchTarget a0 a1 a2 a3).2 := by
  unfold State.launchTarget
  split
  · exact State.doorbell_keeps ha0
  · exact State.portNotify_keeps ha0
  · exact State.linkWake_keeps ha0
  · exact State.linkIdleAsk_keeps ha0

theorem State.launchQueue_keeps {r : State} {a0 : State} {a1 : Nat} {a2 : Nat} {a3 : Nat} {a4 : Bool} (ha0 : Keeps r a0) :
    Keeps r (State.launchQueue a0 a1 a2 a3 a4).1 := by
  unfold State.launchQueue
  extract_lets +onlyGivenNames x0
  try clear_value x0
  exact State.setLaunch_keeps (State.wr_keeps ha0)

theorem State.launchSubmit_keeps {r : State} {a0 : State} {a1 : Asker} {a2 : Nat} (ha0 : Keeps r a0) :
    Keeps r (State.launchSubmit a0 a1 a2) := by
  unfold State.launchSubmit
  extract_lets +onlyGivenNames x0
  try clear_value x0
  split
  · exact keepsS_ite (State.forward_keeps (State.keepAsker_keeps ha0)) (by
    split
    · rename_i p1_0 p1_1 e1
      have h1 := keeps_fst (State.launchQueue_keeps ha0) e1
      exact State.answer_keeps h1)
  · exact State.answer_keeps ha0

theorem State.ownLaunch_keeps {r : State} {a0 : State} {a1 : OdWrite} (ha0 : Keeps r a0) :
    Keeps r (State.ownLaunch a0 a1) := by
  unfold State.ownLaunch
  exact State.launchSubmit_keeps ha0

theorem State.launchFrame_keeps {r : State} {a0 : State} {a1 : Nat} {a2 : Msg} {a3 : Nat} (ha0 : Keeps r a0) :
    Keeps r (State.launchFrame a0 a1 a2 a3) := by
  unfold State.launchFrame
  extract_lets +onlyGivenNames x0
  try clear_value x0
  exact keepsS_ite (State.linkResetting_keeps ha0) (keepsS_ite (State.relayReq_keeps ha0) (keepsS_ite (State.linkDeny_keeps ha0) (by
  extract_lets +onlyGivenNames x1
  have h1 : Keeps r x1 := State.linkFreeReq_keeps ha0
  try clear_value x1
  extract_lets +onlyGivenNames x2
  try clear_value x2
  split
  · split
    · rename_i p3_0 p3_1 e3
      have h3 := keeps_fst (State.launchQueue_keeps h1) e3
      exact State.linkRespond_keeps h3
  · exact State.linkRespond_keeps h1)))

theorem State.cancelFrame_keeps {r : State} {a0 : State} {a1 : Nat} {a2 : Msg} {a3 : Nat} (ha0 : Keeps r a0) :
    Keeps r (State.cancelFrame a0 a1 a2 a3) := by
  unfold State.cancelFrame
  extract_lets +onlyGivenNames x0
  try clear_value x0
  exact keepsS_ite (State.linkResetting_keeps ha0) (keepsS_ite (State.relayReq_keeps ha0) (keepsS_ite (State.linkDeny_keeps ha0) (by
  split
  · rename_i p1_0 p1_1 e1
    have h1 := keeps_snd (State.cancelHere_keeps (State.linkFreeReq_keeps ha0)) e1
    exact State.linkRespond_keeps h1)))

theorem State.noteMissed_keeps {r : State} {a0 : State} {a1 : Nat} (ha0 : Keeps r a0) :
    Keeps r (State.noteMissed a0 a1) := by
  unfold State.noteMissed
  extract_lets +onlyGivenNames x0
  have h0 : Keeps r x0 := State.wr_keeps (State.count_keeps ha0)
  try clear_value x0
  exact keepsS_ite (State.raise_keeps (keeps_mk h0)) h0

theorem State.launchRun_keeps {r : State} {a0 : State} {a1 : Nat} {a2 : Launch} {a3 : Nat} (ha0 : Keeps r a0) :
    Keeps r (State.launchRun a0 a1 a2 a3) := by
  unfold State.launchRun
  split
  · rename_i p0_0 p0_1 e0
    have h0 := keeps_snd (keepsP2_foldl (fun _ _ h1 => by
      split
      · rename_i p2_0 p2_1 e2
        have h2 := keeps_snd (State.launchTarget_keeps h1) e2
        exact h2) ha0) e0
    extract_lets +onlyGivenNames x3
    have h3 : Keeps r x3 := keepsS_ite h0 (State.noteMissed_keeps h0)
    try clear_value x3
    exact State.launchEnd_keeps h3

theorem State.forwardAgain_keeps {r : State} {a0 : State} (ha0 : Keeps r a0) :
    Keeps r (State.forwardAgain a0) := by
  unfold State.forwardAgain
  extract_lets +onlyGivenNames x0
  try clear_value x0
  exact keeps_foldl (fun _ _ h1 => State.forward_keeps h1) (keeps_mk ha0)

theorem State.attachCancel_keeps {r : State} {a0 : State} {a1 : Nat} {a2 : Msg} (ha0 : Keeps r a0) :
    Keeps r (State.attachCancel a0 a1 a2) := by
  unfold State.attachCancel
  exact State.cancelSubmit_keeps (State.portFree_keeps ha0)

theorem State.hostCancel_keeps {r : State} {a0 : State} {a1 : Nat} {a2 : Nat} {a3 : Nat} (ha0 : Keeps r a0) :
    Keeps r (State.hostCancel a0 a1 a2 a3) := by
  unfold State.hostCancel
  exact State.cancelSubmit_keeps ha0

theorem execLaunchCancel_keeps {r : State} {a0 : CmdSrc} {a1 : State} (ha1 : Keeps r a1) :
    KeepsX r (execLaunchCancel a0 a1) := by
  unfold execLaunchCancel
  split
  · exact keepsX_next (State.attachTake_keeps ha1 (fun _ h0 => State.attachCancel_keeps h0))
  · exact keepsX_next (State.hostCmd_keeps ha1 (fun _ h1 => State.hostCancel_keeps h1))
  · exact State.odCmd_keeps ha1 (fun _ h2 => State.odWrite_keeps h2 (fun _ h3 => State.ownCancel_keeps h3))
  · exact keepsX_next ha1

theorem execLaunchWake_keeps {r : State} {a0 : Nat} {a1 : State} (ha1 : Keeps r a1) :
    KeepsX r (execLaunchWake a0 a1) := by
  unfold execLaunchWake
  split
  · exact keepsX_next ha1
  · exact keepsX_ite (keepsX_next ha1) (by
    extract_lets +onlyGivenNames x0
    have h0 : Keeps r x0 := State.setLaunch_keeps ha1
    try clear_value x0
    exact keepsX_next (keeps_foldl (fun _ _ h1 => State.launchDemand_keeps h1) h0))

theorem State.attachLaunch_keeps {r : State} {a0 : State} {a1 : Nat} {a2 : Msg} (ha0 : Keeps r a0) :
    Keeps r (State.attachLaunch a0 a1 a2) := by
  unfold State.attachLaunch
  exact State.launchSubmit_keeps (State.portFree_keeps ha0)

theorem execLaunchCancelFrame_keeps {r : State} {a0 : Fin 64} {a1 : Msg} {a2 : State} (ha2 : Keeps r a2) :
    KeepsX r (execLaunchCancelFrame a0 a1 a2) := by
  unfold execLaunchCancelFrame
  exact keepsX_ite (keepsX_next (State.cancelFrame_keeps ha2)) (keepsX_next ha2)

theorem execGatherWrite_keeps {r : State} {a0 : Fin 64} {a1 : Msg} {a2 : State} (ha2 : Keeps r a2) :
    KeepsX r (execGatherWrite a0 a1 a2) := by
  unfold execGatherWrite
  exact keepsX_ite (keepsX_next (State.gatherTake_keeps ha2)) (keepsX_next ha2)

theorem execLaunchResponse_keeps {r : State} {a0 : Fin 64} {a1 : Msg} {a2 : State} (ha2 : Keeps r a2) :
    KeepsX r (execLaunchResponse a0 a1 a2) := by
  unfold execLaunchResponse
  exact keepsX_ite (keepsX_next (State.linkRsp_keeps ha2)) (keepsX_next ha2)

theorem execGateRead_keeps {r : State} {a0 : CmdSrc} {a1 : State} (ha1 : Keeps r a1) :
    KeepsX r (execGateRead a0 a1) := by
  unfold execGateRead
  split
  · exact keepsX_next (State.attachTake_keeps ha1 (fun _ h0 => State.attachAnswer_keeps h0))
  · exact keepsX_next (State.hostCmd_keeps ha1 (fun _ h1 => State.hostCmdDone_keeps h1))
  · exact State.odCmd_keeps ha1 (fun _ h2 => by
    split
    · exact State.odAnswer_keeps h2
    · exact State.odAnswer_keeps h2)
  · exact keepsX_next ha1

theorem State.hostLaunch_keeps {r : State} {a0 : State} {a1 : Nat} {a2 : Nat} {a3 : Nat} {a4 : Nat} (ha0 : Keeps r a0) :
    Keeps r (State.hostLaunch a0 a1 a2 a3 a4) := by
  unfold State.hostLaunch
  exact State.launchSubmit_keeps ha0

theorem execLaunchAct_keeps {r : State} {a0 : Nat} {a1 : Nat} {a2 : State} (ha2 : Keeps r a2) :
    KeepsX r (execLaunchAct a0 a1 a2) := by
  unfold execLaunchAct
  split
  · exact keepsX_next ha2
  · exact keepsX_ite (keepsX_next (State.launchRun_keeps ha2)) (keepsX_next ha2)

theorem execLaunchCancelAnswer_keeps {r : State} {a0 : Fin 64} {a1 : Msg} {a2 : State} (ha2 : Keeps r a2) :
    KeepsX r (execLaunchCancelAnswer a0 a1 a2) := by
  unfold execLaunchCancelAnswer
  exact keepsX_ite (keepsX_next (State.linkRsp_keeps ha2)) (keepsX_next ha2)

theorem execLaunch_keeps {r : State} {a0 : CmdSrc} {a1 : State} (ha1 : Keeps r a1) :
    KeepsX r (execLaunch a0 a1) := by
  unfold execLaunch
  split
  · exact keepsX_next (State.attachTake_keeps ha1 (fun _ h0 => State.attachLaunch_keeps h0))
  · exact keepsX_next (State.hostCmd_keeps ha1 (fun _ h1 => State.hostLaunch_keeps h1))
  · exact State.odCmd_keeps ha1 (fun _ h2 => State.odWrite_keeps h2 (fun _ h3 => State.ownLaunch_keeps h3))
  · exact keepsX_next ha1

theorem execLaunchFrame_keeps {r : State} {a0 : Fin 64} {a1 : Msg} {a2 : State} (ha2 : Keeps r a2) :
    KeepsX r (execLaunchFrame a0 a1 a2) := by
  unfold execLaunchFrame
  exact keepsX_ite (keepsX_next (State.launchFrame_keeps ha2)) (keepsX_next ha2)

theorem State.portReset_keeps {r : State} {a0 : State} {a1 : Nat} (ha0 : Keeps r a0) :
    Keeps r (State.portReset a0 a1) := by
  unfold State.portReset
  exact State.wr_keeps (State.setPort_keeps ha0)

theorem State.portCounters_keeps {r : State} {a0 : State} {a1 : Nat} (ha0 : Keeps r a0) :
    Keeps r (State.portCounters a0 a1) := by
  unfold State.portCounters
  exact State.wr_keeps (State.wr_keeps (State.wr_keeps ha0))

theorem State.attachDo_keeps {r : State} {a0 : State} {a1 : Nat} {a2 : Msg} {a3 : Nat} (ha0 : Keeps r a0) :
    Keeps r (State.attachDo a0 a1 a2 a3) := by
  unfold State.attachDo
  split
  · exact State.attachFormat_keeps ha0
  · exact State.attachRingWrite_keeps ha0
  · exact State.attachRingRead_keeps ha0
  · exact State.attachSweep_keeps ha0
  · exact State.attachLaunch_keeps ha0
  · exact State.attachCancel_keeps ha0
  · exact State.attachAnswer_keeps ha0
  · exact State.attachData_keeps ha0

theorem State.portRun_keeps {r : State} {n : Nat} {s : State} {i : Nat} (h : Keeps r s) : Keeps r (State.portRun n s i) := by
  induction n generalizing s with
  | zero => exact h
  | succ n ih =>
    unfold State.portRun
    split
    · exact h
    · exact keepsS_ite h (ih (State.attachRun_keeps (State.setPort_keeps h) (fun _ ht => State.attachDo_keeps ht)))

theorem State.sendNull_keeps {r : State} {a0 : State} {a1 : Nat} {a2 : Bool} (ha0 : Keeps r a0) :
    Keeps r (State.sendNull a0 a1 a2) := by
  unfold State.sendNull
  extract_lets +onlyGivenNames x0
  try clear_value x0
  exact State.emit_keeps ha0

theorem State.flitDiscard_keeps {r : State} {a0 : State} {a1 : Nat} (ha0 : Keeps r a0) :
    Keeps r (State.flitDiscard a0 a1) := by
  unfold State.flitDiscard
  extract_lets +onlyGivenNames x0
  try clear_value x0
  exact keepsS_ite ha0 (State.sendNull_keeps (State.count_keeps (State.setPort_keeps ha0)))

theorem State.portNak_keeps {r : State} {a0 : State} {a1 : Nat} {a2 : Nat} (ha0 : Keeps r a0) :
    Keeps r (State.portNak a0 a1 a2) := by
  unfold State.portNak
  extract_lets +onlyGivenNames x0
  try clear_value x0
  extract_lets +onlyGivenNames x1
  try clear_value x1
  extract_lets +onlyGivenNames x2
  have h2 : Keeps r x2 := State.count_keeps (State.setPort_keeps ha0)
  try clear_value x2
  exact keepsS_ite (State.portDown_keeps h2) h2

theorem State.flitApply_keeps {r : State} {a0 : State} {a1 : Nat} {a2 : Nat} (ha0 : Keeps r a0) :
    Keeps r (State.flitApply a0 a1 a2) := by
  unfold State.flitApply
  extract_lets +onlyGivenNames x0
  try clear_value x0
  extract_lets +onlyGivenNames x1
  try clear_value x1
  extract_lets +onlyGivenNames x2
  try clear_value x2
  extract_lets +onlyGivenNames x3
  have h3 : Keeps r x3 := State.setPort_keeps ha0
  try clear_value x3
  exact keepsS_ite (by
  extract_lets +onlyGivenNames x4
  have h4 : Keeps r x4 := State.portNak_keeps h3
  try clear_value x4
  exact keepsS_ite (State.emit_keeps h4) h4) h3

theorem State.attachMsg_keeps {r : State} {a0 : State} {a1 : Nat} {a2 : Msg} (ha0 : Keeps r a0) :
    Keeps r (State.attachMsg a0 a1 a2) := by
  unfold State.attachMsg
  exact State.attachTake_keeps ha0 (fun _ h0 => State.attachDo_keeps h0)

theorem State.flitTake_keeps {r : State} {a0 : State} {a1 : Nat} {a2 : Nat} (ha0 : Keeps r a0) :
    Keeps r (State.flitTake a0 a1 a2) := by
  unfold State.flitTake
  extract_lets +onlyGivenNames x0
  try clear_value x0
  extract_lets +onlyGivenNames x1
  try clear_value x1
  extract_lets +onlyGivenNames x2
  try clear_value x2
  extract_lets +onlyGivenNames x3
  try clear_value x3
  extract_lets +onlyGivenNames x4
  have h4 : Keeps r x4 := State.setPort_keeps ha0
  try clear_value x4
  extract_lets +onlyGivenNames x5
  have h5 : Keeps r x5 := keepsS_ite (State.sendNull_keeps h4) h4
  try clear_value x5
  exact keeps_foldl (fun _ _ h6 => State.attachMsg_keeps h6) h5

theorem State.enterParam_keeps {r : State} {a0 : State} {a1 : Nat} (ha0 : Keeps r a0) :
    Keeps r (State.enterParam a0 a1) := by
  unfold State.enterParam
  extract_lets +onlyGivenNames x0
  have h0 : Keeps r x0 := State.wr_keeps (State.enforce_keeps ha0)
  try clear_value x0
  extract_lets +onlyGivenNames x1
  try clear_value x1
  exact State.emit_keeps h0

theorem execAttachTrainTimeout_keeps {r : State} {a0 : Fin 512} {a1 : State} (ha1 : Keeps r a1) :
    KeepsX r (execAttachTrainTimeout a0 a1) := by
  unfold execAttachTrainTimeout
  exact keepsX_ite (keepsX_next (State.portDown_keeps ha1)) (keepsX_next ha1)

theorem State.ownPortReset_keeps {r : State} {a0 : State} {a1 : Nat} (ha0 : Keeps r a0) :
    Keeps r (State.ownPortReset a0 a1) := by
  unfold State.ownPortReset
  exact State.odDone_keeps (by
  split
  · exact ha0
  · extract_lets +onlyGivenNames x0
    try clear_value x0
    exact keepsS_ite ha0 (State.setPort_keeps ha0)
  · exact State.portReset_keeps ha0)

theorem execAttachDataFlit_keeps {r : State} {a0 : Fin 512} {a1 : BitVec 2048} {a2 : State} (ha2 : Keeps r a2) :
    KeepsX r (execAttachDataFlit a0 a1 a2) := by
  unfold execAttachDataFlit
  extract_lets +onlyGivenNames x0
  try clear_value x0
  exact keepsX_ite (keepsX_next ha2) (keepsX_ite (keepsX_next (State.flitDiscard_keeps ha2)) (by
  extract_lets +onlyGivenNames x1
  have h1 : Keeps r x1 := State.flitApply_keeps ha2
  try clear_value x1
  exact keepsX_ite (keepsX_next h1) (keepsX_ite (keepsX_next (State.flitTake_keeps h1)) (keepsX_next (State.flitDiscard_keeps h1)))))

theorem execAttachResetTimer_keeps {r : State} {a0 : Fin 512} {a1 : State} (ha1 : Keeps r a1) :
    KeepsX r (execAttachResetTimer a0 a1) := by
  unfold execAttachResetTimer
  exact keepsX_ite (keepsX_next (State.wr_keeps ha1)) (keepsX_next ha1)

theorem execAttachResetDrainEnd_keeps {r : State} {a0 : Fin 512} {a1 : State} (ha1 : Keeps r a1) :
    KeepsX r (execAttachResetDrainEnd a0 a1) := by
  unfold execAttachResetDrainEnd
  exact keepsX_ite (keepsX_next (State.sbPorts_keeps (State.portReset_keeps (State.portClear_keeps ha1)))) (keepsX_next ha1)

theorem execNtfSend_keeps {r : State} {a0 : Fin 512} {a1 : State} (ha1 : Keeps r a1) :
    KeepsX r (execNtfSend a0 a1) := by
  unfold execNtfSend
  extract_lets +onlyGivenNames x0
  try clear_value x0
  split
  · exact keepsX_next ha1
  · extract_lets +onlyGivenNames x1
    try clear_value x1
    exact keepsX_ite (keepsX_next (State.emit_keeps (State.portSent_keeps (State.setPort_keeps ha1)))) (keepsX_next ha1)

theorem execAttachParamFlit_keeps {r : State} {a0 : Fin 512} {a1 : BitVec 2048} {a2 : State} (ha2 : Keeps r a2) :
    KeepsX r (execAttachParamFlit a0 a1 a2) := by
  unfold execAttachParamFlit
  extract_lets +onlyGivenNames x0
  try clear_value x0
  exact keepsX_ite (by
  extract_lets +onlyGivenNames x1
  try clear_value x1
  exact keepsX_ite (keepsX_next (State.portDown_keeps ha2)) (by
  extract_lets +onlyGivenNames x2
  try clear_value x2
  extract_lets +onlyGivenNames x3
  have h3 : Keeps r x3 := State.wr_keeps (State.setPort_keeps ha2)
  try clear_value x3
  exact keepsX_next (State.sbPorts_keeps (State.wr_keeps h3)))) (keepsX_next ha2)

theorem execAttachTrainDone_keeps {r : State} {a0 : Fin 512} {a1 : State} (ha1 : Keeps r a1) :
    KeepsX r (execAttachTrainDone a0 a1) := by
  unfold execAttachTrainDone
  exact keepsX_ite (keepsX_next (State.enterParam_keeps ha1)) (keepsX_next ha1)

theorem execAttachPortReset_keeps {r : State} {a0 : Fin 512} {a1 : OdWrite} {a2 : State} (ha2 : Keeps r a2) :
    KeepsX r (execAttachPortReset a0 a1 a2) := by
  unfold execAttachPortReset
  exact State.odCmd_keeps ha2 (fun _ h0 => State.odWrite_keeps h0 (fun _ h1 => State.ownPortReset_keeps h1))

theorem execAttachParamTimeout_keeps {r : State} {a0 : Fin 512} {a1 : State} (ha1 : Keeps r a1) :
    KeepsX r (execAttachParamTimeout a0 a1) := by
  unfold execAttachParamTimeout
  exact keepsX_ite (keepsX_next (State.portDown_keeps ha1)) (keepsX_next ha1)

theorem execAttachNullFlit_keeps {r : State} {a0 : Fin 512} {a1 : BitVec 2048} {a2 : State} (ha2 : Keeps r a2) :
    KeepsX r (execAttachNullFlit a0 a1 a2) := by
  unfold execAttachNullFlit
  extract_lets +onlyGivenNames x0
  try clear_value x0
  exact keepsX_ite (keepsX_next (State.flitApply_keeps ha2)) (keepsX_next ha2)

theorem State.gateNow_keeps {r : State} {a0 : State} {a1 : Nat} {a2 : GateHalf} (ha0 : Keeps r a0) :
    Keeps r (State.gateNow a0 a1 a2).2 := by
  unfold State.gateNow
  split
  · exact ha0
  · exact State.setFn_keeps ha0
  · exact ha0

theorem execGateNow_keeps {r : State} {a0 : Fin 17} {a1 : GateHalf} {a2 : State} (ha2 : Keeps r a2) :
    KeepsX r (execGateNow a0 a1 a2) := by
  unfold execGateNow
  exact keepsX_ite (by
  extract_lets +onlyGivenNames x0
  have h0 : Keeps r x0.2 := State.gateNow_keeps ha2
  try clear_value x0
  exact keepsX_next (State.emit_keeps h0)) (keepsX_next ha2)

theorem State.setFaultRing_keeps {r : State} {a0 : State} {a1 : Nat} {a2 : Nat} {a3 : FaultRing} (ha0 : Keeps r a0) :
    Keeps r (State.setFaultRing a0 a1 a2 a3) := by
  unfold State.setFaultRing
  extract_lets +onlyGivenNames x0
  try clear_value x0
  exact State.setFn_keeps ha0

theorem State.ringPut_keeps {r : State} {a0 : State} {a1 : Nat} {a2 : Nat} {a3 : Nat} (ha0 : Keeps r a0) :
    Keeps r (State.ringPut a0 a1 a2 a3) := by
  unfold State.ringPut
  extract_lets +onlyGivenNames x0
  try clear_value x0
  extract_lets +onlyGivenNames x1
  try clear_value x1
  extract_lets +onlyGivenNames x2
  have h2 : Keeps r x2 := State.setFaultRing_keeps (State.emit_keeps ha0)
  try clear_value x2
  exact State.msix_keeps (State.emit_keeps h2)

theorem State.ringCopy_keeps {r : State} {a0 : State} {a1 : Nat} {a2 : Nat} (ha0 : Keeps r a0) :
    Keeps r (State.ringCopy a0 a1 a2) := by
  unfold State.ringCopy
  extract_lets +onlyGivenNames x0
  try clear_value x0
  extract_lets +onlyGivenNames x1
  try clear_value x1
  exact keepsS_ite ha0 (keepsS_ite (State.count_keeps ha0) (State.ringPut_keeps ha0))

theorem execFaultRecordDeliver_keeps {r : State} {a0 : Fin 16} {a1 : State} (ha1 : Keeps r a1) :
    KeepsX r (execFaultRecordDeliver a0 a1) := by
  unfold execFaultRecordDeliver
  extract_lets +onlyGivenNames x0
  try clear_value x0
  split
  · exact keepsX_next ha1
  · exact keepsX_ite (keepsX_next ha1) (by
    extract_lets +onlyGivenNames x1
    have h1 : Keeps r x1 := State.setPart_keeps ha1
    try clear_value x1
    exact keepsX_next (State.ringCopy_keeps (State.ringPut_keeps h1)))

theorem State.fnOrphan_keeps {r : State} {a0 : State} {a1 : Nat} (ha0 : Keeps r a0) :
    Keeps r (State.fnOrphan a0 a1) := by
  unfold State.fnOrphan
  exact keeps_mk ha0

theorem State.fnDrop_keeps {r : State} {a0 : State} {a1 : Nat} (ha0 : Keeps r a0) :
    Keeps r (State.fnDrop a0 a1) := by
  unfold State.fnDrop
  exact keeps_foldl (fun _ _ h0 => keepsS_ite (by
  split
  · exact State.delReq_keeps h0
  · exact State.faultParked_keeps (State.setReq_keeps h0)
  · exact State.setReq_keeps h0) h0) ha0

theorem State.fnReset_keeps {r : State} {a0 : State} {a1 : Nat} (ha0 : Keeps r a0) :
    Keeps r (State.fnReset a0 a1) := by
  unfold State.fnReset
  exact State.setFn_keeps (State.fnOrphan_keeps (State.fnDrop_keeps ha0))

theorem State.setVfs_keeps {r : State} {a0 : State} {a1 : Nat} (ha0 : Keeps r a0) :
    Keeps r (State.setVfs a0 a1) := by
  unfold State.setVfs
  extract_lets +onlyGivenNames x0
  have h0 : Keeps r x0 := keeps_foldl (fun _ _ h1 => State.fnReset_keeps h1) ha0
  try clear_value x0
  exact State.wr_keeps h0

theorem execHostLinkDown_keeps {r : State} {a0 : State} (ha0 : Keeps r a0) :
    KeepsX r (execHostLinkDown a0) := by
  unfold execHostLinkDown
  exact keepsX_ite (keepsX_next ha0) (by
  extract_lets +onlyGivenNames x0
  have h0 : Keeps r x0 := State.wr_keeps (State.fnReset_keeps (State.setVfs_keeps ha0))
  try clear_value x0
  extract_lets +onlyGivenNames x1
  have h1 : Keeps r x1 := State.enforce_keeps (State.wr_keeps (State.wr_keeps h0))
  try clear_value x1
  exact keepsX_next (State.raise_keeps (State.count_keeps h1)))

theorem State.regWrite_keeps {r : State} {a0 : State} {a1 : Nat} {a2 : Nat} {a3 : Nat} {a4 : Nat} (ha0 : Keeps r a0) :
    Keeps r (State.regWrite a0 a1 a2 a3 a4) := by
  unfold State.regWrite
  extract_lets +onlyGivenNames x0
  try clear_value x0
  exact keepsS_ite (State.setFn_keeps ha0) (keepsS_ite (by
  extract_lets +onlyGivenNames x1
  try clear_value x1
  extract_lets +onlyGivenNames x2
  try clear_value x2
  exact State.setFn_keeps ha0) ha0)

theorem State.regAnswer_keeps {r : State} {a0 : State} {a1 : Nat} {a2 : HostReq} (ha0 : Keeps r a0) :
    Keeps r (State.regAnswer a0 a1 a2) := by
  unfold State.regAnswer
  extract_lets +onlyGivenNames x0
  have h0 : ∀ t b0, Keeps r t → Keeps r (x0 t b0) := fun _ _ h1 => State.emit_keeps h1
  try clear_value x0
  exact keepsS_ite (by
  extract_lets +onlyGivenNames x2
  have h2 : Keeps r x2.2 := State.gateNow_keeps ha0
  try clear_value x2
  exact h0 _ _ h2) (keepsS_ite (by
  extract_lets +onlyGivenNames x3
  have h3 : Keeps r x3.2 := State.gateNow_keeps ha0
  try clear_value x3
  exact h0 _ _ h3) (keepsS_ite (by
  extract_lets +onlyGivenNames x4
  have h4 : Keeps r x4.2 := State.gateNow_keeps ha0
  try clear_value x4
  exact h0 _ _ h4) (h0 _ _ ha0)))

theorem execHostMemoryRequest_keeps {r : State} {a0 : Fin 17} {a1 : HostReq} {a2 : State} (ha2 : Keeps r a2) :
    KeepsX r (execHostMemoryRequest a0 a1 a2) := by
  unfold execHostMemoryRequest
  exact keepsX_ite (keepsX_next ha2) (by
  split
  · exact keepsX_next (keepsS_ite (State.regWrite_keeps ha2) (State.regAnswer_keeps ha2))
  · exact keepsX_ite (by
    extract_lets +onlyGivenNames x0
    try clear_value x0
    exact keepsX_next (State.enter_keeps ha2)) (keepsX_next (State.enter_keeps ha2)))

theorem execVfEnable_keeps {r : State} {a0 : Fin 17} {a1 : State} (ha1 : Keeps r a1) :
    KeepsX r (execVfEnable a0 a1) := by
  unfold execVfEnable
  exact keepsX_next (State.setVfs_keeps ha1)

theorem execHostAtomicop_keeps {r : State} {a0 : Fin 17} {a1 : HostReq} {a2 : PcieAtomic} {a3 : State} (ha3 : Keeps r a3) :
    KeepsX r (execHostAtomicop a0 a1 a2 a3) := by
  unfold execHostAtomicop
  exact keepsX_ite (keepsX_next ha3) (by
  split
  · exact keepsX_next (State.emit_keeps ha3)
  · extract_lets +onlyGivenNames x0
    try clear_value x0
    exact keepsX_next (State.enter_keeps ha3))

theorem execVfFlr_keeps {r : State} {a0 : Fin 16} {a1 : State} (ha1 : Keeps r a1) :
    KeepsX r (execVfFlr a0 a1) := by
  unfold execVfFlr
  exact keepsX_ite (keepsX_next (State.count_keeps (State.fnReset_keeps ha1))) (keepsX_next ha1)

theorem execPfFlr_keeps {r : State} {a0 : State} (ha0 : Keeps r a0) :
    KeepsX r (execPfFlr a0) := by
  unfold execPfFlr
  exact keepsX_next (State.count_keeps (State.fnReset_keeps (State.setVfs_keeps ha0)))

theorem execFaultRingWrite_keeps {r : State} {a0 : Fin 17} {a1 : Fin 16} {a2 : FrReg} {a3 : BitVec 64} {a4 : State} (ha4 : Keeps r a4) :
    KeepsX r (execFaultRingWrite a0 a1 a2 a3 a4) := by
  unfold execFaultRingWrite
  exact keepsX_ite (keepsX_next (State.setFaultRing_keeps ha4)) (keepsX_next ha4)

theorem execHostLinkTrained_keeps {r : State} {a0 : HostTrain} {a1 : State} (ha1 : Keeps r a1) :
    KeepsX r (execHostLinkTrained a0 a1) := by
  unfold execHostLinkTrained
  exact keepsX_ite (keepsX_next ha1) (by
  split
  · exact keepsX_next (State.wr_keeps ha1)
  · exact keepsX_ite (keepsX_next (State.wr_keeps (State.wr_keeps (State.wr_keeps (State.wr_keeps ha1))))) (keepsX_next ha1))

theorem execPtpSyncTimeout_keeps {r : State} {a0 : State} (ha0 : Keeps r a0) :
    KeepsX r (execPtpSyncTimeout a0) := by
  unfold execPtpSyncTimeout
  exact keepsX_ite (keepsX_next (State.wr_keeps (State.setSync_keeps ha0))) (keepsX_next ha0)

theorem State.ownGateSource_keeps {r : State} {a0 : State} {a1 : OdWrite} (ha0 : Keeps r a0) :
    Keeps r (State.ownGateSource a0 a1) := by
  unfold State.ownGateSource
  extract_lets +onlyGivenNames x0
  have h0 : Keeps r x0 := State.setSync_keeps (State.setObj_keeps ha0)
  try clear_value x0
  extract_lets +onlyGivenNames x1
  try clear_value x1
  extract_lets +onlyGivenNames x2
  have h2 : Keeps r x2 := keeps_mk h0
  try clear_value x2
  extract_lets +onlyGivenNames x3
  have h3 : Keeps r x3 := State.wr_keeps (State.wr_keeps (State.wr_keeps h2))
  try clear_value x3
  exact State.odDone_keeps (keepsS_ite (State.setSync_keeps h3) (State.noteHops_keeps (State.chooseUpstream_keeps h3)))

theorem execGateSource_keeps {r : State} {a0 : OdWrite} {a1 : State} (ha1 : Keeps r a1) :
    KeepsX r (execGateSource a0 a1) := by
  unfold execGateSource
  exact State.odCmd_keeps ha1 (fun _ h0 => State.odWrite_keeps h0 (fun _ h1 => State.ownGateSource_keeps h1))

theorem execTimexRequest_keeps {r : State} {a0 : Fin 64} {a1 : BitVec 256} {a2 : State} (ha2 : Keeps r a2) :
    KeepsX r (execTimexRequest a0 a1 a2) := by
  unfold execTimexRequest
  exact keepsX_ite (keepsX_next (State.sendTimex_keeps ha2)) (keepsX_next ha2)

theorem execSyncWord_keeps {r : State} {a0 : List (Fin 1024)} {a1 : State} (ha1 : Keeps r a1) :
    KeepsX r (execSyncWord a0 a1) := by
  unfold execSyncWord
  exact keepsX_ite (keepsX_next ha1) (by
  extract_lets +onlyGivenNames x0
  try clear_value x0
  extract_lets +onlyGivenNames x1
  have h1 : Keeps r x1 := keeps_mk ha1
  try clear_value x1
  exact keepsX_next (keeps_foldl (fun _ _ h2 => keepsS_ite (State.count_keeps (State.raise_keeps h2)) h2) h1))

theorem execUpstreamLossTimeout_keeps {r : State} {a0 : State} (ha0 : Keeps r a0) :
    KeepsX r (execUpstreamLossTimeout a0) := by
  unfold execUpstreamLossTimeout
  exact keepsX_ite (keepsX_next (State.setSync_keeps ha0)) (keepsX_next ha0)

theorem execPtpMessage_keeps {r : State} {a0 : PtpMsg} {a1 : State} (ha1 : Keeps r a1) :
    KeepsX r (execPtpMessage a0 a1) := by
  unfold execPtpMessage
  exact keepsX_ite (keepsX_next (State.ptpTake_keeps ha1)) (keepsX_next ha1)

theorem execGateStep_keeps {r : State} {a0 : State} (ha0 : Keeps r a0) :
    KeepsX r (execGateStep a0) := by
  unfold execGateStep
  split
  · exact keepsX_next ha0
  · exact keepsX_ite (keepsX_next ha0) (by
    extract_lets +onlyGivenNames x0
    try clear_value x0
    extract_lets +onlyGivenNames x1
    have h1 : Keeps r x1 := keeps_mk ha0
    try clear_value x1
    exact keepsX_ite (keepsX_next h1) (keepsX_ite (keepsX_next (State.raise_keeps (State.count_keeps (keeps_mk h1)))) (keepsX_next (State.raise_keeps h1))))

theorem execTimexReply_keeps {r : State} {a0 : Fin 64} {a1 : BitVec 256} {a2 : State} (ha2 : Keeps r a2) :
    KeepsX r (execTimexReply a0 a1 a2) := by
  unfold execTimexReply
  extract_lets +onlyGivenNames x0
  try clear_value x0
  extract_lets +onlyGivenNames x1
  try clear_value x1
  exact keepsX_ite (by
  extract_lets +onlyGivenNames x2
  try clear_value x2
  exact keepsX_next (State.noteHops_keeps (State.chooseUpstream_keeps (State.setTmx_keeps ha2)))) (keepsX_next ha2)

theorem execTimexFollowUp_keeps {r : State} {a0 : Fin 64} {a1 : BitVec 256} {a2 : State} (ha2 : Keeps r a2) :
    KeepsX r (execTimexFollowUp a0 a1 a2) := by
  unfold execTimexFollowUp
  extract_lets +onlyGivenNames x0
  try clear_value x0
  split
  · exact keepsX_ite (keepsX_next (State.exchanged_keeps ha2)) (keepsX_next ha2)
  · exact keepsX_next ha2

theorem execHoldoverLimitExpiry_keeps {r : State} {a0 : State} (ha0 : Keeps r a0) :
    KeepsX r (execHoldoverLimitExpiry a0) := by
  unfold execHoldoverLimitExpiry
  exact keepsX_ite (keepsX_next (State.setSync_keeps ha0)) (keepsX_next ha0)

theorem execTimexDue_keeps {r : State} {a0 : Fin 64} {a1 : State} (ha1 : Keeps r a1) :
    KeepsX r (execTimexDue a0 a1) := by
  unfold execTimexDue
  exact keepsX_ite (keepsX_next ha1) (by
  extract_lets +onlyGivenNames x0
  try clear_value x0
  extract_lets +onlyGivenNames x1
  try clear_value x1
  exact keepsX_next (State.sendTimex_keeps (State.setTmx_keeps ha1)))

end Sys2Proof.Machine
end

