-- ==== Sys2Proof/Laws/KeepsLinks.lean ====
section
/-! SUPPORT. What every operation keeps (Laws/Keeps.lean), one lemma each: links (chapter 11). -/

namespace Sys2Proof.Machine

theorem State.linkPhase_keeps {r : State} {a0 : State} {a1 : Nat} {a2 : Nat} (ha0 : Keeps r a0) :
    Keeps r (State.linkPhase a0 a1 a2) := by
  unfold State.linkPhase
  exact State.setLnk_keeps ha0

theorem State.flitPad_keeps {r : State} {a0 : State} {a1 : Nat} (ha0 : Keeps r a0) :
    Keeps r (State.flitPad a0 a1) := by
  unfold State.flitPad
  extract_lets +onlyGivenNames x0
  try clear_value x0
  exact keepsS_ite ha0 (State.setLnk_keeps ha0)

theorem State.placed_keeps {r : State} {a0 : State} {a1 : Nat} {a2 : Nat} (ha0 : Keeps r a0) :
    Keeps r (State.placed a0 a1 a2) := by
  unfold State.placed
  extract_lets +onlyGivenNames x0
  try clear_value x0
  exact State.setLnk_keeps ha0

theorem State.sendAck_keeps {r : State} {a0 : State} {a1 : Nat} (ha0 : Keeps r a0) :
    Keeps r (State.sendAck a0 a1) := by
  unfold State.sendAck
  extract_lets +onlyGivenNames x0
  try clear_value x0
  extract_lets +onlyGivenNames x1
  try clear_value x1
  exact State.placed_keeps (State.emit_keeps (State.setLnk_keeps ha0))

theorem State.linkDetect_keeps {r : State} {a0 : State} {a1 : Nat} (ha0 : Keeps r a0) :
    Keeps r (State.linkDetect a0 a1) := by
  unfold State.linkDetect
  exact State.wr_keeps ha0

theorem State.linkRise_keeps {r : State} {a0 : State} {a1 : Nat} (ha0 : Keeps r a0) :
    Keeps r (State.linkRise a0 a1) := by
  unfold State.linkRise
  exact State.demand_keeps (State.fieldUp_keeps ha0)

theorem State.linkExit_keeps {r : State} {a0 : State} {a1 : Nat} (ha0 : Keeps r a0) :
    Keeps r (State.linkExit a0 a1) := by
  unfold State.linkExit
  exact keepsS_ite (State.linkWake_keeps ha0) (State.linkRise_keeps ha0)

theorem State.noteBers_keeps {r : State} {a0 : State} {a1 : Nat} {a2 : Nat} {a3 : List (BitVec 32)} (ha0 : Keeps r a0) :
    Keeps r (State.noteBers a0 a1 a2 a3) := by
  unfold State.noteBers
  exact keeps_foldl (fun _ _ h0 => by
  split
  · exact State.wr_keeps h0
  · exact h0) ha0

theorem State.eqSave_keeps {r : State} {a0 : State} {a1 : Nat} {a2 : Nat} {a3 : Nat} {a4 : OdVal} (ha0 : Keeps r a0) :
    Keeps r (State.eqSave a0 a1 a2 a3 a4) := by
  unfold State.eqSave
  extract_lets +onlyGivenNames x0
  try clear_value x0
  exact State.storeTouch_keeps (State.wrLen_keeps (State.wr_keeps ha0))

theorem State.linkResend_keeps {r : State} {a0 : State} {a1 : Nat} (ha0 : Keeps r a0) :
    Keeps r (State.linkResend a0 a1) := by
  unfold State.linkResend
  extract_lets +onlyGivenNames x0
  try clear_value x0
  exact keepsS_ite ha0 (State.emit_keeps ha0)

theorem State.noteDegraded_keeps {r : State} {a0 : State} {a1 : Nat} {a2 : Nat} (ha0 : Keeps r a0) :
    Keeps r (State.noteDegraded a0 a1 a2) := by
  unfold State.noteDegraded
  split
  · exact keepsS_ite (State.raise_keeps ha0) ha0
  · exact ha0

theorem State.noteLanes_keeps {r : State} {a0 : State} {a1 : Nat} {a2 : List Nat} {a3 : List (BitVec 32)} (ha0 : Keeps r a0) :
    Keeps r (State.noteLanes a0 a1 a2 a3) := by
  unfold State.noteLanes
  exact keeps_foldl (fun _ _ h7 => by
    extract_lets +onlyGivenNames x8
    have h8 : Keeps r x8 := State.wr_keeps h7
    try clear_value x8
    split
    · exact State.wr_keeps h8
    · exact h8) ha0

theorem State.retrained_keeps {r : State} {a0 : State} {a1 : Nat} {a2 : RetrainOutcome} (ha0 : Keeps r a0) :
    Keeps r (State.retrained a0 a1 a2) := by
  unfold State.retrained
  extract_lets +onlyGivenNames x0
  try clear_value x0
  exact keepsS_ite (State.linkDetect_keeps (State.linkFail_keeps (State.raise_keeps ha0))) (by
  extract_lets +onlyGivenNames x1
  try clear_value x1
  extract_lets +onlyGivenNames x2
  try clear_value x2
  extract_lets +onlyGivenNames x3
  try clear_value x3
  exact keepsS_ite (State.linkFail_keeps ha0) (by
  extract_lets +onlyGivenNames x4
  try clear_value x4
  extract_lets +onlyGivenNames x5
  try clear_value x5
  extract_lets +onlyGivenNames x6
  have h6 : Keeps r x6 := State.noteLanes_keeps (State.noteBers_keeps (State.setLnk_keeps ha0))
  try clear_value x6
  extract_lets +onlyGivenNames x7
  have h7 : Keeps r x7 := State.eqSave_keeps h6
  try clear_value x7
  extract_lets +onlyGivenNames x8
  have h8 : Keeps r x8 := State.wr_keeps (State.wr_keeps (State.wr_keeps (State.wr_keeps h7)))
  try clear_value x8
  extract_lets +onlyGivenNames x9
  have h9 : Keeps r x9 := State.raise_keeps (State.refreshLink_keeps (State.count_keeps h8))
  try clear_value x9
  extract_lets +onlyGivenNames x10
  have h10 : Keeps r x10 := keepsS_ite (State.raise_keeps h9) h9
  try clear_value x10
  exact State.linkResend_keeps (State.noteDegraded_keeps h10)))

theorem State.linkCaps_keeps {r : State} {a0 : State} {a1 : Nat} {a2 : Nat} (ha0 : Keeps r a0) :
    Keeps r (State.linkCaps a0 a1 a2) := by
  unfold State.linkCaps
  exact keepsS_ite (State.linkFail_keeps ha0) (by
  extract_lets +onlyGivenNames x0
  try clear_value x0
  extract_lets +onlyGivenNames x1
  have h1 : Keeps r x1 := State.wr_keeps (State.wr_keeps (State.wr_keeps ha0))
  try clear_value x1
  exact keepsS_ite (State.linkFail_keeps h1) (State.linkPhase_keeps (State.wr_keeps h1)))

theorem State.sendMsg_keeps {r : State} {a0 : State} {a1 : Nat} {a2 : TxMsg} (ha0 : Keeps r a0) :
    Keeps r (State.sendMsg a0 a1 a2) := by
  unfold State.sendMsg
  extract_lets +onlyGivenNames x0
  have h0 : Keeps r x0 := keeps_mk ha0
  try clear_value x0
  exact State.placed_keeps (State.emit_keeps h0)

theorem State.toLane0_keeps {r : State} {a0 : State} {a1 : Nat} (ha0 : Keeps r a0) :
    Keeps r (State.toLane0 a0 a1) := by
  unfold State.toLane0
  extract_lets +onlyGivenNames x0
  have h0 : Keeps r x0 := State.flitPad_keeps ha0
  try clear_value x0
  extract_lets +onlyGivenNames x1
  try clear_value x1
  extract_lets +onlyGivenNames x2
  try clear_value x2
  exact State.setLnk_keeps h0

theorem State.takeCredit_keeps {r : State} {a0 : State} {a1 : Nat} {a2 : TxMsg} (ha0 : Keeps r a0) :
    Keeps r (State.takeCredit a0 a1 a2) := by
  unfold State.takeCredit
  extract_lets +onlyGivenNames x0
  try clear_value x0
  extract_lets +onlyGivenNames x1
  try clear_value x1
  exact keepsS_ite (State.setLnk_keeps ha0) (State.setLnk_keeps ha0)

theorem State.txRegulated_keeps {r : State} {a0 : State} {a1 : Nat} {a2 : TxMsg} (ha0 : Keeps r a0) :
    Keeps r (State.txRegulated a0 a1 a2) := by
  unfold State.txRegulated
  extract_lets +onlyGivenNames x0
  try clear_value x0
  extract_lets +onlyGivenNames x1
  have h1 : Keeps r x1 := State.noteServed_keeps (State.spend_keeps (State.takeCredit_keeps ha0))
  try clear_value x1
  exact State.sendMsg_keeps (State.missed_keeps h1)

theorem State.transmit_keeps {r : State} {a0 : State} {a1 : Nat} (ha0 : Keeps r a0) :
    Keeps r (State.transmit a0 a1) := by
  unfold State.transmit
  extract_lets +onlyGivenNames x0
  try clear_value x0
  extract_lets +onlyGivenNames x1
  try clear_value x1
  exact keepsS_ite ha0 (keepsS_ite (State.sendAck_keeps ha0) (by
  split
  · exact State.timexSent_keeps (State.sendMsg_keeps (State.toLane0_keeps ha0))
  · split
    · exact State.sendMsg_keeps (State.setLnk_keeps ha0)
    · split
      · exact State.sendMsg_keeps (State.takeCredit_keeps ha0)
      · split
        · exact State.txRegulated_keeps ha0
        · exact State.flitPad_keeps ha0))

theorem State.linkBias_keeps {r : State} {a0 : State} {a1 : Nat} (ha0 : Keeps r a0) :
    Keeps r (State.linkBias a0 a1) := by
  unfold State.linkBias
  exact keeps_foldl (fun _ _ h0 => State.enforce_keeps h0) ha0

theorem State.linkRetrainStart_keeps {r : State} {a0 : State} {a1 : Nat} (ha0 : Keeps r a0) :
    Keeps r (State.linkRetrainStart a0 a1) := by
  unfold State.linkRetrainStart
  exact keepsS_ite ha0 (State.wr_keeps (State.wr_keeps (State.linkBias_keeps (State.setLnk_keeps ha0))))

theorem State.linkActive_keeps {r : State} {a0 : State} {a1 : Nat} (ha0 : Keeps r a0) :
    Keeps r (State.linkActive a0 a1) := by
  unfold State.linkActive
  extract_lets +onlyGivenNames x0
  try clear_value x0
  extract_lets +onlyGivenNames x1
  try clear_value x1
  extract_lets +onlyGivenNames x2
  try clear_value x2
  extract_lets +onlyGivenNames x3
  try clear_value x3
  extract_lets +onlyGivenNames x4
  have h4 : Keeps r x4 := by
    unfold x4
    split
    · exact State.eqSave_keeps ha0
    · exact ha0
  try clear_value x4
  extract_lets +onlyGivenNames x5
  try clear_value x5
  extract_lets +onlyGivenNames x6
  have h6 : Keeps r x6 := State.setLnk_keeps h4
  try clear_value x6
  extract_lets +onlyGivenNames x7
  have h7 : Keeps r x7 := State.wr_keeps (State.wr_keeps (State.wr_keeps h6))
  try clear_value x7
  extract_lets +onlyGivenNames x8
  have h8 : Keeps r x8 := State.raise_keeps (State.refreshLink_keeps h7)
  try clear_value x8
  extract_lets +onlyGivenNames x9
  have h9 : Keeps r x9 := keepsS_ite (State.raise_keeps h8) h8
  try clear_value x9
  extract_lets +onlyGivenNames x10
  have h10 : Keeps r x10 := State.noteDegraded_keeps h9
  try clear_value x10
  exact keeps_foldl (fun _ _ h11 => State.routeJoin_keeps h11) h10

theorem State.measureFail_keeps {r : State} {a0 : State} {a1 : Nat} {a2 : Nat} (ha0 : Keeps r a0) :
    Keeps r (State.measureFail a0 a1 a2) := by
  unfold State.measureFail
  extract_lets +onlyGivenNames x0
  try clear_value x0
  exact keepsS_ite (State.linkFail_keeps ha0) (State.setLnk_keeps ha0)

theorem State.linkCounters_keeps {r : State} {a0 : State} {a1 : Nat} (ha0 : Keeps r a0) :
    Keeps r (State.linkCounters a0 a1) := by
  unfold State.linkCounters
  exact State.wr_keeps (State.wr_keeps (State.wr_keeps (State.wr_keeps (State.wr_keeps ha0))))

theorem State.linkTrain_keeps {r : State} {a0 : State} {a1 : Nat} (ha0 : Keeps r a0) :
    Keeps r (State.linkTrain a0 a1) := by
  unfold State.linkTrain
  extract_lets +onlyGivenNames x0
  try clear_value x0
  extract_lets +onlyGivenNames x1
  try clear_value x1
  extract_lets +onlyGivenNames x2
  have h2 : Keeps r x2 := State.setLnk_keeps ha0
  try clear_value x2
  exact State.wr_keeps (State.linkBias_keeps (State.linkCounters_keeps h2))

theorem State.measured_keeps {r : State} {a0 : State} {a1 : Nat} {a2 : MeasureOutcome} (ha0 : Keeps r a0) :
    Keeps r (State.measured a0 a1 a2) := by
  unfold State.measured
  extract_lets +onlyGivenNames x0
  try clear_value x0
  extract_lets +onlyGivenNames x1
  have h1 : Keeps r x1 := State.wr_keeps (State.noteBers_keeps ha0)
  try clear_value x1
  split
  · exact keepsS_ite (State.linkActive_keeps h1) (State.measureFail_keeps h1)
  · exact State.measureFail_keeps h1

theorem State.eqDone_keeps {r : State} {a0 : State} {a1 : Nat} {a2 : EqOutcome} (ha0 : Keeps r a0) :
    Keeps r (State.eqDone a0 a1 a2) := by
  unfold State.eqDone
  extract_lets +onlyGivenNames x0
  try clear_value x0
  extract_lets +onlyGivenNames x1
  try clear_value x1
  extract_lets +onlyGivenNames x2
  try clear_value x2
  extract_lets +onlyGivenNames x3
  try clear_value x3
  extract_lets +onlyGivenNames x4
  try clear_value x4
  extract_lets +onlyGivenNames x5
  try clear_value x5
  extract_lets +onlyGivenNames x6
  have h6 : Keeps r x6 := State.noteLanes_keeps ha0
  try clear_value x6
  exact State.setLnk_keeps h6

theorem State.flitLost_keeps {r : State} {a0 : State} {a1 : Nat} (ha0 : Keeps r a0) :
    Keeps r (State.flitLost a0 a1) := by
  unfold State.flitLost
  extract_lets +onlyGivenNames x0
  try clear_value x0
  exact keepsS_ite ha0 (State.count_keeps (State.setLnk_keeps ha0))

theorem State.ackTake_keeps {r : State} {a0 : State} {a1 : Nat} {a2 : Nat} (ha0 : Keeps r a0) :
    Keeps r (State.ackTake a0 a1 a2) := by
  unfold State.ackTake
  extract_lets +onlyGivenNames x0
  try clear_value x0
  extract_lets +onlyGivenNames x1
  try clear_value x1
  extract_lets +onlyGivenNames x2
  try clear_value x2
  exact keepsS_ite (State.setLnk_keeps ha0) (by
  extract_lets +onlyGivenNames x3
  try clear_value x3
  extract_lets +onlyGivenNames x4
  have h4 : Keeps r x4 := State.linkResend_keeps (State.count_keeps (State.setLnk_keeps ha0))
  try clear_value x4
  exact keepsS_ite (State.linkRetrainStart_keeps h4) h4)

theorem State.linkMessage_keeps {r : State} {a0 : State} {a1 : Nat} {a2 : Msg} {a3 : Nat} (ha0 : Keeps r a0) :
    Keeps r (State.linkMessage a0 a1 a2 a3) := by
  unfold State.linkMessage
  extract_lets +onlyGivenNames x0
  try clear_value x0
  exact keepsS_ite (State.linkRequest_keeps ha0) (keepsS_ite (State.gatherTake_keeps ha0) (keepsS_ite (State.launchFrame_keeps ha0) (keepsS_ite (State.cancelFrame_keeps ha0) (keepsS_ite (State.linkRsp_keeps ha0) (State.linkRetrainStart_keeps (State.count_keeps ha0))))))

theorem State.schedTake_keeps {r : State} {a0 : State} {a1 : Nat} {a2 : Nat} {a3 : List Msg} (ha0 : Keeps r a0) :
    Keeps r (State.schedTake a0 a1 a2 a3) := by
  unfold State.schedTake
  exact keepsS_ite (State.setLnk_keeps (State.count_keeps ha0)) (by
  extract_lets +onlyGivenNames x0
  try clear_value x0
  extract_lets +onlyGivenNames x1
  try clear_value x1
  extract_lets +onlyGivenNames x2
  have h2 : Keeps r x2 := keepsS_ite (State.count_keeps ha0) ha0
  try clear_value x2
  extract_lets +onlyGivenNames x3
  have h3 : Keeps r x3 := keeps_foldl (fun _ _ h4 => State.linkMessage_keeps h4) h2
  try clear_value x3
  exact State.setLnk_keeps h3)

theorem State.linkItem_keeps {r : State} {a0 : State} {a1 : Nat} {a2 : List Nat} {a3 : State → Nat → BitVec 256 → State} (ha0 : Keeps r a0) (ha3 : ∀ t b0 b1, Keeps r t → Keeps r (a3 t b0 b1)) :
    Keeps r (State.linkItem a0 a1 a2 a3) := by
  unfold State.linkItem
  split
  · exact ha0
  · exact keepsS_ite (State.ackTake_keeps ha0) (keepsS_ite (ha3 _ _ _ ha0) (keepsS_ite (State.schedTake_keeps ha0) (State.linkMessage_keeps ha0)))

theorem State.flitIn_keeps {r : State} {a0 : State} {a1 : Nat} {a2 : Nat} {a3 : State → Nat → BitVec 256 → State} (ha0 : Keeps r a0) (ha3 : ∀ t b0 b1, Keeps r t → Keeps r (a3 t b0 b1)) :
    Keeps r (State.flitIn a0 a1 a2 a3) := by
  unfold State.flitIn
  extract_lets +onlyGivenNames x0
  try clear_value x0
  extract_lets +onlyGivenNames x1
  try clear_value x1
  extract_lets +onlyGivenNames x2
  try clear_value x2
  extract_lets +onlyGivenNames x3
  have h3 : Keeps r x3 := State.setLnk_keeps ha0
  try clear_value x3
  exact keeps_foldl (fun _ _ h4 => State.linkItem_keeps h4 (fun _ _ _ h5 => ha3 _ _ _ h5)) h3

theorem State.countWord_keeps {r : State} {a0 : State} {a1 : Nat} {a2 : Nat} {a3 : Bool} (ha0 : Keeps r a0) :
    Keeps r (State.countWord a0 a1 a2 a3) := by
  unfold State.countWord
  extract_lets +onlyGivenNames x0
  try clear_value x0
  extract_lets +onlyGivenNames x1
  try clear_value x1
  exact State.setLnk_keeps ha0

theorem execLinkLockDone_keeps {r : State} {a0 : Fin 64} {a1 : BitVec 8} {a2 : State} (ha2 : Keeps r a2) :
    KeepsX r (execLinkLockDone a0 a1 a2) := by
  unfold execLinkLockDone
  exact keepsX_ite (keepsX_next ha2) (by
  extract_lets +onlyGivenNames x0
  try clear_value x0
  exact keepsX_ite (keepsX_next (State.linkFail_keeps ha2)) (keepsX_next (State.linkPhase_keeps (State.setLnk_keeps ha2))))

theorem execLinkRequest_keeps {r : State} {a0 : Fin 64} {a1 : Msg} {a2 : State} (ha2 : Keeps r a2) :
    KeepsX r (execLinkRequest a0 a1 a2) := by
  unfold execLinkRequest
  extract_lets +onlyGivenNames x0
  try clear_value x0
  exact keepsX_ite (keepsX_next (State.linkRequest_keeps ha2)) (keepsX_next ha2)

theorem execLinkIdleEntry_keeps {r : State} {a0 : Fin 64} {a1 : State} (ha1 : Keeps r a1) :
    KeepsX r (execLinkIdleEntry a0 a1) := by
  unfold execLinkIdleEntry
  extract_lets +onlyGivenNames x0
  try clear_value x0
  exact keepsX_ite (keepsX_next (State.linkIdle_keeps (State.flitPad_keeps (State.sendAck_keeps ha1)))) (keepsX_next ha1)

theorem execLinkTransmit_keeps {r : State} {a0 : Fin 64} {a1 : State} (ha1 : Keeps r a1) :
    KeepsX r (execLinkTransmit a0 a1) := by
  unfold execLinkTransmit
  exact keepsX_ite (keepsX_next ha1) (keepsX_ite (keepsX_ite (keepsX_ite (keepsX_next (State.transmit_keeps (State.linkWake_keeps ha1))) (keepsX_next (State.linkRise_keeps ha1))) (keepsX_next ha1)) (keepsX_next (State.transmit_keeps ha1)))

theorem State.ownLinkPower_keeps {r : State} {a0 : State} {a1 : Nat} {a2 : OdWrite} (ha0 : Keeps r a0) :
    Keeps r (State.ownLinkPower a0 a1 a2) := by
  unfold State.ownLinkPower
  extract_lets +onlyGivenNames x0
  have h0 : Keeps r x0 := State.setObj_keeps ha0
  try clear_value x0
  extract_lets +onlyGivenNames x1
  try clear_value x1
  exact State.odDone_keeps (keepsS_ite (keepsS_ite (State.setLnk_keeps h0) (keepsS_ite h0 (State.linkStop_keeps h0))) (keepsS_ite (keepsS_ite (State.linkRise_keeps h0) h0) (keepsS_ite (keeps_foldl (fun _ _ h2 => State.routeJoin_keeps h2) (State.setLnk_keeps h0)) h0)))

theorem State.ownBitslip_keeps {r : State} {a0 : State} {a1 : Nat} {a2 : OdWrite} (ha0 : Keeps r a0) :
    Keeps r (State.ownBitslip a0 a1 a2) := by
  unfold State.ownBitslip
  extract_lets +onlyGivenNames x0
  try clear_value x0
  exact keepsS_ite (State.odDone_keeps ha0) (by
  extract_lets +onlyGivenNames x1
  try clear_value x1
  extract_lets +onlyGivenNames x2
  try clear_value x2
  extract_lets +onlyGivenNames x3
  have h3 : Keeps r x3 := State.setLnk_keeps ha0
  try clear_value x3
  exact State.odDone_keeps (State.drew_keeps (State.wr_keeps h3)))

theorem State.ownRetrain_keeps {r : State} {a0 : State} {a1 : Nat} (ha0 : Keeps r a0) :
    Keeps r (State.ownRetrain a0 a1) := by
  unfold State.ownRetrain
  exact keepsS_ite (State.odFail_keeps ha0) (State.odDone_keeps (State.linkRetrainStart_keeps ha0))

theorem State.ownLinkRoute_keeps {r : State} {a0 : State} {a1 : Nat} {a2 : OdWrite} (ha0 : Keeps r a0) :
    Keeps r (State.ownLinkRoute a0 a1 a2) := by
  unfold State.ownLinkRoute
  extract_lets +onlyGivenNames x0
  try clear_value x0
  extract_lets +onlyGivenNames x1
  try clear_value x1
  exact keepsS_ite (State.odFail_keeps ha0) (by
  extract_lets +onlyGivenNames x2
  have h2 : Keeps r x2 := State.setObj_keeps ha0
  try clear_value x2
  exact State.odDone_keeps (keepsS_ite (State.routeJoin_keeps h2) h2))

theorem State.ownSnapshot_keeps {r : State} {a0 : State} {a1 : OdWrite} (ha0 : Keeps r a0) :
    Keeps r (State.ownSnapshot a0 a1) := by
  unfold State.ownSnapshot
  exact keepsS_ite (State.odFail_keeps ha0) (State.odDone_keeps (State.wr_keeps (keeps_mk ha0)))

theorem execLinkSnapshot_keeps {r : State} {a0 : OdWrite} {a1 : State} (ha1 : Keeps r a1) :
    KeepsX r (execLinkSnapshot a0 a1) := by
  unfold execLinkSnapshot
  exact State.odCmd_keeps ha1 (fun _ h0 => State.odWrite_keeps h0 (fun _ h1 => State.ownSnapshot_keeps h1))

theorem execLinkOffDrainEnd_keeps {r : State} {a0 : Fin 64} {a1 : State} (ha1 : Keeps r a1) :
    KeepsX r (execLinkOffDrainEnd a0 a1) := by
  unfold execLinkOffDrainEnd
  exact keepsX_ite (keepsX_next (State.linkStop_keeps ha1)) (keepsX_next ha1)

theorem execLinkCaps_keeps {r : State} {a0 : Fin 64} {a1 : BitVec 256} {a2 : State} (ha2 : Keeps r a2) :
    KeepsX r (execLinkCaps a0 a1 a2) := by
  unfold execLinkCaps
  exact keepsX_ite (keepsX_next (State.linkCaps_keeps ha2)) (keepsX_next ha2)

theorem execLinkQuarantineEnd_keeps {r : State} {a0 : Fin 64} {a1 : State} (ha1 : Keeps r a1) :
    KeepsX r (execLinkQuarantineEnd a0 a1) := by
  unfold execLinkQuarantineEnd
  exact keepsX_next (keeps_mk ha1)

theorem execLinkRoute_keeps {r : State} {a0 : Fin 4096} {a1 : OdWrite} {a2 : State} (ha2 : Keeps r a2) :
    KeepsX r (execLinkRoute a0 a1 a2) := by
  unfold execLinkRoute
  exact State.odCmd_keeps ha2 (fun _ h0 => State.odWrite_keeps h0 (fun _ h1 => State.ownLinkRoute_keeps h1))

theorem execPartnerRetraining_keeps {r : State} {a0 : Fin 64} {a1 : State} (ha1 : Keeps r a1) :
    KeepsX r (execPartnerRetraining a0 a1) := by
  unfold execPartnerRetraining
  exact keepsX_next (State.linkRetrainStart_keeps ha1)

theorem execLinkRouteHoldExpiry_keeps {r : State} {a0 : Fin 4096} {a1 : State} (ha1 : Keeps r a1) :
    KeepsX r (execLinkRouteHoldExpiry a0 a1) := by
  unfold execLinkRouteHoldExpiry
  exact keepsX_ite (by
  extract_lets +onlyGivenNames x0
  have h0 : Keeps r x0 := keeps_mk ha1
  try clear_value x0
  exact keepsX_next (keepsS_ite (State.count_keeps h0) h0)) (keepsX_next ha1)

theorem execLinkRetryExpiry_keeps {r : State} {a0 : Fin 64} {a1 : State} (ha1 : Keeps r a1) :
    KeepsX r (execLinkRetryExpiry a0 a1) := by
  unfold execLinkRetryExpiry
  exact keepsX_ite (keepsX_next (State.linkDetect_keeps ha1)) (keepsX_next ha1)

theorem execLaneBitslip_keeps {r : State} {a0 : Fin 512} {a1 : OdWrite} {a2 : State} (ha2 : Keeps r a2) :
    KeepsX r (execLaneBitslip a0 a1 a2) := by
  unfold execLaneBitslip
  exact State.odCmd_keeps ha2 (fun _ h0 => State.odWrite_keeps h0 (fun _ h1 => State.ownBitslip_keeps h1))

theorem execLinkRsp_keeps {r : State} {a0 : Fin 64} {a1 : Msg} {a2 : State} (ha2 : Keeps r a2) :
    KeepsX r (execLinkRsp a0 a1 a2) := by
  unfold execLinkRsp
  exact keepsX_ite (keepsX_next (State.linkRsp_keeps ha2)) (keepsX_next ha2)

theorem execLaserLowDetect_keeps {r : State} {a0 : Fin 8} {a1 : BitVec 32} {a2 : State} (ha2 : Keeps r a2) :
    KeepsX r (execLaserLowDetect a0 a1 a2) := by
  unfold execLaserLowDetect
  exact keepsX_ite (keepsX_next ha2) (by
  extract_lets +onlyGivenNames x0
  have h0 : Keeps r x0 := State.wr_keeps ha2
  try clear_value x0
  exact keepsX_ite (by
  extract_lets +onlyGivenNames x1
  have h1 : Keeps r x1 := State.raise_keeps h0
  try clear_value x1
  exact keepsX_next (keeps_foldl (fun _ _ h2 => by
  extract_lets +onlyGivenNames x3
  try clear_value x3
  exact keepsS_ite (State.linkFail_keeps h2) h2) h1)) (keepsX_next h0))

theorem execLinkIdleExit_keeps {r : State} {a0 : Fin 64} {a1 : State} (ha1 : Keeps r a1) :
    KeepsX r (execLinkIdleExit a0 a1) := by
  unfold execLinkIdleExit
  exact keepsX_ite (keepsX_next (State.linkExit_keeps ha1)) (keepsX_next ha1)

theorem execLinkSnapDone_keeps {r : State} {a0 : State} (ha0 : Keeps r a0) :
    KeepsX r (execLinkSnapDone a0) := by
  unfold execLinkSnapDone
  split
  · exact keepsX_next ha0
  · extract_lets +onlyGivenNames x0
    have h0 : Keeps r x0 := keeps_foldl (fun _ _ h1 => by
      extract_lets +onlyGivenNames x2
      try clear_value x2
      exact State.drew_keeps (State.wr_keeps (State.wr_keeps (State.wr_keeps h1)))) ha0
    try clear_value x0
    exact keepsX_next (State.wr_keeps (keeps_mk h0))

theorem execLinkPhaseTimeout_keeps {r : State} {a0 : Fin 64} {a1 : State} (ha1 : Keeps r a1) :
    KeepsX r (execLinkPhaseTimeout a0 a1) := by
  unfold execLinkPhaseTimeout
  exact keepsX_ite (keepsX_next (State.linkFail_keeps ha1)) (keepsX_ite (keepsX_next ha1) (by
  split
  · exact keepsX_next (State.linkFail_keeps ha1)
  · exact keepsX_next (State.linkFail_keeps ha1)
  · exact keepsX_next (State.measureFail_keeps ha1)
  · exact keepsX_next (State.linkFail_keeps ha1)))

theorem execLinkRetrainDone_keeps {r : State} {a0 : Fin 64} {a1 : RetrainOutcome} {a2 : State} (ha2 : Keeps r a2) :
    KeepsX r (execLinkRetrainDone a0 a1 a2) := by
  unfold execLinkRetrainDone
  exact keepsX_ite (keepsX_next (State.retrained_keeps ha2)) (keepsX_next ha2)

theorem execLinkMeasureDone_keeps {r : State} {a0 : Fin 64} {a1 : MeasureOutcome} {a2 : State} (ha2 : Keeps r a2) :
    KeepsX r (execLinkMeasureDone a0 a1 a2) := by
  unfold execLinkMeasureDone
  exact keepsX_ite (keepsX_next (State.measured_keeps ha2)) (keepsX_next ha2)

theorem execLinkBeacon_keeps {r : State} {a0 : Fin 64} {a1 : BitVec 128} {a2 : BitVec 16} {a3 : State} (ha3 : Keeps r a3) :
    KeepsX r (execLinkBeacon a0 a1 a2 a3) := by
  unfold execLinkBeacon
  extract_lets +onlyGivenNames x0
  try clear_value x0
  exact keepsX_ite (keepsX_next ha3) (by
  extract_lets +onlyGivenNames x1
  try clear_value x1
  extract_lets +onlyGivenNames x2
  try clear_value x2
  extract_lets +onlyGivenNames x3
  have h3 : Keeps r x3 := State.wr_keeps ha3
  try clear_value x3
  exact keepsX_ite (keepsX_next (State.linkTrain_keeps h3)) (keepsX_ite (keepsX_next (keepsS_ite (State.linkDetect_keeps h3) h3)) (keepsX_next ha3)))

theorem execLinkAck_keeps {r : State} {a0 : Fin 64} {a1 : BitVec 128} {a2 : State} (ha2 : Keeps r a2) :
    KeepsX r (execLinkAck a0 a1 a2) := by
  unfold execLinkAck
  exact keepsX_ite (keepsX_next (State.ackTake_keeps ha2)) (keepsX_next ha2)

theorem execLinkBerInterval_keeps {r : State} {a0 : Fin 64} {a1 : List LaneStat} {a2 : State} (ha2 : Keeps r a2) :
    KeepsX r (execLinkBerInterval a0 a1 a2) := by
  unfold execLinkBerInterval
  exact keepsX_ite (keepsX_next ha2) (by
  extract_lets +onlyGivenNames x0
  try clear_value x0
  extract_lets +onlyGivenNames x1
  try clear_value x1
  extract_lets +onlyGivenNames x2
  have h2 : Keeps r x2 := State.noteBers_keeps ha2
  try clear_value x2
  extract_lets +onlyGivenNames x3
  try clear_value x3
  exact keepsX_ite (keepsX_next (State.linkRetrainStart_keeps h2)) (keepsX_next h2))

theorem execLinkPower_keeps {r : State} {a0 : Fin 64} {a1 : OdWrite} {a2 : State} (ha2 : Keeps r a2) :
    KeepsX r (execLinkPower a0 a1 a2) := by
  unfold execLinkPower
  exact State.odCmd_keeps ha2 (fun _ h0 => State.odWrite_keeps h0 (fun _ h1 => State.ownLinkPower_keeps h1))

theorem State.timexIn_keeps {r s : State} {n : Nat} {m : BitVec 256} (h : Keeps r s) : Keeps r (s.timexIn n m) := by
  unfold State.timexIn
  extract_lets out
  have ho : ∀ o, KeepsX r o → Keeps r (out o) := by
    intro o ho
    unfold out
    split
    · exact ho _ rfl
    · exact h
  clear_value out
  split
  · split
    · exact ho _ (execTimexRequest_keeps h)
    · exact ho _ (execTimexReply_keeps h)
    · exact ho _ (execTimexFollowUp_keeps h)
    · exact h
  · exact h

theorem execLinkRetrain_keeps {r : State} {a0 : Fin 64} {a1 : OdWrite} {a2 : State} (ha2 : Keeps r a2) :
    KeepsX r (execLinkRetrain a0 a1 a2) := by
  unfold execLinkRetrain
  exact State.odCmd_keeps ha2 (fun _ h0 => State.odWrite_keeps h0 (fun _ h1 => State.ownRetrain_keeps h1))

theorem execLinkEqDone_keeps {r : State} {a0 : Fin 64} {a1 : EqOutcome} {a2 : State} (ha2 : Keeps r a2) :
    KeepsX r (execLinkEqDone a0 a1 a2) := by
  unfold execLinkEqDone
  exact keepsX_ite (keepsX_next (State.eqDone_keeps ha2)) (keepsX_next ha2)

theorem execLinkLightLoss_keeps {r : State} {a0 : Fin 64} {a1 : State} (ha1 : Keeps r a1) :
    KeepsX r (execLinkLightLoss a0 a1) := by
  unfold execLinkLightLoss
  exact keepsX_ite (keepsX_next (State.linkFail_keeps ha1)) (keepsX_next ha1)

theorem execSchedStart_keeps {r : State} {a0 : Fin 64} {a1 : BitVec 128} {a2 : SchedUnit} {a3 : State} (ha3 : Keeps r a3) :
    KeepsX r (execSchedStart a0 a1 a2 a3) := by
  unfold execSchedStart
  exact keepsX_ite (keepsX_next (State.schedTake_keeps ha3)) (keepsX_next ha3)

theorem execLinkPatternDone_keeps {r : State} {a0 : Fin 64} {a1 : State} (ha1 : Keeps r a1) :
    KeepsX r (execLinkPatternDone a0 a1) := by
  unfold execLinkPatternDone
  exact keepsX_ite (keepsX_next (State.linkPhase_keeps ha1)) (keepsX_next ha1)

theorem execLinkFlit_keeps {r : State} {a0 : Fin 64} {a1 : Fin 8} {a2 : Bool} {a3 : BitVec 20} {a4 : BitVec 5120} {a5 : State} (ha5 : Keeps r a5) :
    KeepsX r (execLinkFlit a0 a1 a2 a3 a4 a5) := by
  unfold execLinkFlit
  extract_lets +onlyGivenNames x0
  try clear_value x0
  exact keepsX_ite (keepsX_next ha5) (by
  extract_lets +onlyGivenNames x1
  have h1 : Keeps r x1 := State.countWord_keeps ha5
  try clear_value x1
  exact keepsX_ite (keepsX_ite (keepsX_next h1) (by
  extract_lets +onlyGivenNames x2
  try clear_value x2
  exact keepsX_ite (keepsX_next (State.flitIn_keeps h1 (fun _ _ _ h3 => State.timexIn_keeps h3))) (keepsX_next (State.flitLost_keeps h1)))) (keepsX_next (State.flitLost_keeps h1)))

end Sys2Proof.Machine
end

