-- ==== Sys2Proof/Laws/KeepsMesh.lean ====
section
/-! SUPPORT. What every operation keeps (Laws/Keeps.lean), one lemma each: the mesh and the channels (chapters 06 and 07). -/

namespace Sys2Proof.Machine

theorem State.ownRedClear_keeps {r : State} {a0 : State} {a1 : Nat} (ha0 : Keeps r a0) :
    Keeps r (State.ownRedClear a0 a1) := by
  unfold State.ownRedClear
  exact State.odDone_keeps (State.wr_keeps ha0)

theorem execRedFlagsClear_keeps {r : State} {a0 : Fin 64} {a1 : OdWrite} {a2 : State} (ha2 : Keeps r a2) :
    KeepsX r (execRedFlagsClear a0 a1 a2) := by
  unfold execRedFlagsClear
  exact State.odCmd_keeps ha2 (fun _ h0 => State.odWrite_keeps h0 (fun _ h1 => State.ownRedClear_keeps h1))

theorem State.lapDone_keeps {r : State} {a0 : State} (ha0 : Keeps r a0) :
    Keeps r (State.lapDone a0) := by
  unfold State.lapDone
  exact State.lapChanged_keeps (State.wr_keeps (keeps_mk ha0))

theorem State.routerLost_keeps {r : State} {a0 : State} {a1 : Nat} (ha0 : Keeps r a0) :
    Keeps r (State.routerLost a0 a1) := by
  unfold State.routerLost
  split
  · exact ha0
  · exact keepsS_ite (State.complete_keeps (State.drew_keeps ha0)) (by
    extract_lets +onlyGivenNames x0
    have h0 : Keeps r x0 := State.freeChunks_keeps (State.drew_keeps ha0)
    try clear_value x0
    split
    · exact State.pieceDone_keeps (State.setReq_keeps h0)
    · exact State.answer_keeps (State.setReq_keeps h0))

theorem State.failRouterAs_keeps {r : State} {a0 : State} {a1 : Nat} {a2 : Nat} {a3 : Nat} (ha0 : Keeps r a0) :
    Keeps r (State.failRouterAs a0 a1 a2 a3) := by
  unfold State.failRouterAs
  exact keepsS_ite ha0 (by
  extract_lets +onlyGivenNames x0
  try clear_value x0
  extract_lets +onlyGivenNames x1
  have h1 : Keeps r x1 := State.raise_keeps (State.wr_keeps ha0)
  try clear_value x1
  extract_lets +onlyGivenNames x2
  have h2 : Keeps r x2 := keeps_foldl (fun _ _ h3 => State.routerLost_keeps h3) h1
  try clear_value x2
  extract_lets +onlyGivenNames x4
  have h4 : Keeps r x4 := State.recordTo_keeps h2
  try clear_value x4
  extract_lets +onlyGivenNames x5
  have h5 : Keeps r x5 := State.addDefect_keeps h4
  try clear_value x5
  extract_lets +onlyGivenNames x6
  have h6 : Keeps r x6 := keeps_foldl (fun _ _ h7 => keepsS_ite (State.failSlice_keeps h7) h7) h5
  try clear_value x6
  extract_lets +onlyGivenNames x8
  have h8 : Keeps r x8 := keeps_foldl (fun _ _ h9 => keepsS_ite (State.linkFail_keeps h9) h9) h6
  try clear_value x8
  extract_lets +onlyGivenNames x10
  have h10 : Keeps r x10 := keeps_foldl (fun _ _ h11 => keepsS_ite (State.failEngine_keeps h11) h11) h8
  try clear_value x10
  extract_lets +onlyGivenNames x12
  have h12 : Keeps r x12 := keeps_foldl (fun _ _ h13 => keepsS_ite (State.portDown_keeps h13) h13) h10
  try clear_value x12
  extract_lets +onlyGivenNames x14
  have h14 : Keeps r x14 := keeps_foldl (fun _ _ h15 => keepsS_ite (State.wr_keeps h15) h15) h12
  try clear_value x14
  split
  · exact keepsS_ite (State.suspendLap_keeps h14) h14
  · exact h14)

theorem State.failRouter_keeps {r : State} {a0 : State} {a1 : Nat} (ha0 : Keeps r a0) :
    Keeps r (State.failRouter a0 a1) := by
  unfold State.failRouter
  exact State.failRouterAs_keeps ha0

theorem State.avoidFailed_keeps {r : State} {a0 : State} (ha0 : Keeps r a0) :
    Keeps r (State.avoidFailed a0) := by
  unfold State.avoidFailed
  exact keeps_mk ha0

theorem State.settleRoutes_keeps {r : State} {n : Nat} {s : State} (h : Keeps r s) : Keeps r (State.settleRoutes n s) := by
  induction n generalizing s with
  | zero => exact h
  | succ n ih =>
    rw [State.settleRoutes]
    have hx : Keeps r s.avoidFailed := State.avoidFailed_keeps h
    cases s.avoidFailed.stranded with
    | none => exact hx
    | some r => exact ih (State.failRouter_keeps hx)

theorem execRouteTableSwitch_keeps {r : State} {a0 : State} (ha0 : Keeps r a0) :
    KeepsX r (execRouteTableSwitch a0) := by
  unfold execRouteTableSwitch
  exact keepsX_ite (keepsX_next ha0) (by
  extract_lets +onlyGivenNames x0
  have h0 : Keeps r x0 := State.settleRoutes_keeps ha0
  try clear_value x0
  exact keepsX_next (State.wr_keeps h0))

theorem State.lapAbandon_keeps {r : State} {a0 : State} {a1 : LapOp} {a2 : Nat} (ha0 : Keeps r a0) :
    Keeps r (State.lapAbandon a0 a1 a2) := by
  unfold State.lapAbandon
  extract_lets +onlyGivenNames x0
  have h0 : Keeps r x0 := State.wr_keeps (State.wr_keeps (keeps_mk ha0))
  try clear_value x0
  exact keepsS_ite (State.clockFail_keeps h0) h0

theorem State.clearRed_keeps {r : State} {a0 : State} (ha0 : Keeps r a0) :
    Keeps r (State.clearRed a0) := by
  unfold State.clearRed
  exact State.clearObj_keeps ha0

theorem execLapSwitchAtT_keeps {r : State} {a0 : State} (ha0 : Keeps r a0) :
    KeepsX r (execLapSwitchAtT a0) := by
  unfold execLapSwitchAtT
  split
  · split
    · exact keepsX_next (State.lapAbandon_keeps ha0)
    · extract_lets +onlyGivenNames x0
      have h0 : Keeps r x0 := State.clearRed_keeps (State.wr_keeps (keeps_mk ha0))
      try clear_value x0
      extract_lets +onlyGivenNames x1
      have h1 : Keeps r x1 := State.raise_keeps (State.lapDone_keeps h0)
      try clear_value x1
      exact keepsX_next (keepsS_ite (State.clockGo_keeps h1) h1)
  · exact keepsX_next (State.lapAbandon_keeps ha0)
  · exact keepsX_next ha0

theorem State.ownLapLoad_keeps {r : State} {a0 : State} {a1 : OdWrite} (ha0 : Keeps r a0) :
    Keeps r (State.ownLapLoad a0 a1) := by
  unfold State.ownLapLoad
  extract_lets +onlyGivenNames x0
  try clear_value x0
  exact keepsS_ite (State.odFail_keeps ha0) (keepsS_ite (State.odFail_keeps ha0) (by
  extract_lets +onlyGivenNames x1
  have h1 : Keeps r x1 := keeps_mk ha0
  try clear_value x1
  exact State.odDone_keeps (State.refreshShadow_keeps (State.wr_keeps (State.wr_keeps h1)))))

theorem State.switchRefused_keeps {r : State} {a0 : State} {a1 : Nat} (ha0 : Keeps r a0) :
    Keeps r (State.switchRefused a0 a1) := by
  unfold State.switchRefused
  exact State.odFail_keeps (State.wr_keeps ha0)

theorem State.ownLapSwitch_keeps {r : State} {a0 : State} {a1 : OdWrite} (ha0 : Keeps r a0) :
    Keeps r (State.ownLapSwitch a0 a1) := by
  unfold State.ownLapSwitch
  split
  · exact State.odDone_keeps (State.armLap_keeps ha0)
  · exact State.switchRefused_keeps ha0

theorem State.ownLapUnload_keeps {r : State} {a0 : State} {a1 : OdWrite} (ha0 : Keeps r a0) :
    Keeps r (State.ownLapUnload a0 a1) := by
  unfold State.ownLapUnload
  exact keepsS_ite (State.switchRefused_keeps ha0) (keepsS_ite (State.switchRefused_keeps ha0) (State.odDone_keeps (State.armLap_keeps ha0)))

theorem State.ownLapResume_keeps {r : State} {a0 : State} {a1 : OdWrite} (ha0 : Keeps r a0) :
    Keeps r (State.ownLapResume a0 a1) := by
  unfold State.ownLapResume
  split
  · split
    · exact State.odDone_keeps (State.armLap_keeps ha0)
    · exact State.switchRefused_keeps ha0
  · exact State.switchRefused_keeps ha0

theorem execLapUnload_keeps {r : State} {a0 : OdWrite} {a1 : State} (ha1 : Keeps r a1) :
    KeepsX r (execLapUnload a0 a1) := by
  unfold execLapUnload
  exact State.odCmd_keeps ha1 (fun _ h0 => State.odWrite_keeps h0 (fun _ h1 => State.ownLapUnload_keeps h1))

theorem State.lapRefused_keeps {r : State} {a0 : State} {a1 : LapErr} (ha0 : Keeps r a0) :
    Keeps r (State.lapRefused a0 a1) := by
  unfold State.lapRefused
  exact State.wr_keeps (State.wr_keeps ha0)

theorem State.lapRead_keeps {r : State} {a0 : State} {a1 : Nat} {a2 : Nat} (ha0 : Keeps r a0) :
    Keeps r (State.lapRead a0 a1 a2) := by
  unfold State.lapRead
  exact keepsS_ite (State.lapRefused_keeps ha0) (by
  split
  · extract_lets +onlyGivenNames x0
    try clear_value x0
    exact keepsS_ite (State.lapRefused_keeps ha0) (by
    split
    · exact State.lapRefused_keeps ha0
    · exact State.refreshShadow_keeps (State.wr_keeps (keeps_mk ha0)))
  · exact State.lapRefused_keeps ha0)

theorem execLapLoadDone_keeps {r : State} {a0 : State} (ha0 : Keeps r a0) :
    KeepsX r (execLapLoadDone a0) := by
  unfold execLapLoadDone
  split
  · exact keepsX_next ha0
  · exact keepsX_next (State.lapRead_keeps (keeps_mk ha0))

theorem execLapSwitch_keeps {r : State} {a0 : OdWrite} {a1 : State} (ha1 : Keeps r a1) :
    KeepsX r (execLapSwitch a0 a1) := by
  unfold execLapSwitch
  exact State.odCmd_keeps ha1 (fun _ h0 => State.odWrite_keeps h0 (fun _ h1 => State.ownLapSwitch_keeps h1))

theorem execLapSuspend_keeps {r : State} {a0 : State} (ha0 : Keeps r a0) :
    KeepsX r (execLapSuspend a0) := by
  unfold execLapSuspend
  split
  · exact keepsX_next ha0
  · exact keepsX_ite (by
    extract_lets +onlyGivenNames x0
    try clear_value x0
    extract_lets +onlyGivenNames x1
    have h1 : Keeps r x1 := keeps_mk ha0
    try clear_value x1
    extract_lets +onlyGivenNames x2
    have h2 : Keeps r x2 := keeps_foldl (fun _ _ h3 => State.freeAt_keeps h3) h1
    try clear_value x2
    exact keepsX_next (State.raise_keeps (State.lapChanged_keeps (State.wr_keeps h2)))) (keepsX_next ha0)

theorem execRouterFail_keeps {r : State} {a0 : Fin 1024} {a1 : State} (ha1 : Keeps r a1) :
    KeepsX r (execRouterFail a0 a1) := by
  unfold execRouterFail
  exact keepsX_next (State.failRouter_keeps ha1)

theorem execStride_keeps {r : State} {a0 : State} (ha0 : Keeps r a0) :
    KeepsX r (execStride a0) := by
  unfold execStride
  exact keepsX_next (State.tickGate_keeps (State.strideMove_keeps ha0))

theorem execLapUnloadAtT_keeps {r : State} {a0 : State} (ha0 : Keeps r a0) :
    KeepsX r (execLapUnloadAtT a0) := by
  unfold execLapUnloadAtT
  split
  · exact keepsX_next ha0
  · extract_lets +onlyGivenNames x0
    have h0 : Keeps r x0 := keepsS_ite (keeps_mk ha0) ha0
    try clear_value x0
    exact keepsX_next (State.lapDone_keeps (State.wr_keeps h0))

theorem execLapLoad_keeps {r : State} {a0 : OdWrite} {a1 : State} (ha1 : Keeps r a1) :
    KeepsX r (execLapLoad a0 a1) := by
  unfold execLapLoad
  exact State.odCmd_keeps ha1 (fun _ h0 => State.odWrite_keeps h0 (fun _ h1 => State.ownLapLoad_keeps h1))

theorem execLapResume_keeps {r : State} {a0 : OdWrite} {a1 : State} (ha1 : Keeps r a1) :
    KeepsX r (execLapResume a0 a1) := by
  unfold execLapResume
  exact State.odCmd_keeps ha1 (fun _ h0 => State.odWrite_keeps h0 (fun _ h1 => State.ownLapResume_keeps h1))

theorem execLapTailStop_keeps {r : State} {a0 : State} (ha0 : Keeps r a0) :
    KeepsX r (execLapTailStop a0) := by
  unfold execLapTailStop
  split
  · exact keepsX_ite (keepsX_next (keeps_mk ha0)) (keepsX_next ha0)
  · exact keepsX_next ha0

theorem execLapResumeAtT_keeps {r : State} {a0 : State} (ha0 : Keeps r a0) :
    KeepsX r (execLapResumeAtT a0) := by
  unfold execLapResumeAtT
  split
  · split
    · exact keepsX_next (State.lapAbandon_keeps ha0)
    · exact keepsX_next (State.lapDone_keeps (State.wr_keeps ha0))
  · exact keepsX_next ha0

theorem State.dropRun_keeps {r : State} {a0 : State} {a1 : Nat} {a2 : Nat} (ha0 : Keeps r a0) :
    Keeps r (State.dropRun a0 a1 a2) := by
  unfold State.dropRun
  extract_lets +onlyGivenNames x0
  try clear_value x0
  extract_lets +onlyGivenNames x1
  try clear_value x1
  extract_lets +onlyGivenNames x2
  try clear_value x2
  extract_lets +onlyGivenNames x3
  try clear_value x3
  extract_lets +onlyGivenNames x4
  have h4 : Keeps r x4 := State.setCache_keeps ha0
  try clear_value x4
  exact keeps_foldl (fun _ _ h5 => State.againAll_keeps (State.againAll_keeps h5)) h4

theorem State.retireStart_keeps {r : State} {a0 : State} {a1 : Nat} {a2 : Nat} {a3 : Bool} (ha0 : Keeps r a0) :
    Keeps r (State.retireStart a0 a1 a2 a3) := by
  unfold State.retireStart
  extract_lets +onlyGivenNames x0
  have h0 : Keeps r x0 := keeps_foldl (fun _ _ h1 => State.dropRun_keeps h1) ha0
  try clear_value x0
  extract_lets +onlyGivenNames x2
  try clear_value x2
  extract_lets +onlyGivenNames x3
  have h3 : Keeps r x3 := State.setChan_keeps h0
  try clear_value x3
  extract_lets +onlyGivenNames x4
  try clear_value x4
  extract_lets +onlyGivenNames x5
  have h5 : Keeps r x5 := keeps_mk h3
  try clear_value x5
  extract_lets +onlyGivenNames x6
  have h6 : Keeps r x6 := State.enforce_keeps (State.wr_keeps (State.wr_keeps (State.wr_keeps h5)))
  try clear_value x6
  exact State.refreshGroup_keeps (State.storeTouch_keeps h6)

theorem State.ownChannelRetire_keeps {r : State} {a0 : State} {a1 : Nat} {a2 : OdWrite} (ha0 : Keeps r a0) :
    Keeps r (State.ownChannelRetire a0 a1 a2) := by
  unfold State.ownChannelRetire
  split
  · exact State.odDone_keeps (State.retireStart_keeps ha0)
  · exact State.odFail_keeps ha0

theorem execChannelRetire_keeps {r : State} {a0 : Fin 1024} {a1 : OdWrite} {a2 : State} (ha2 : Keeps r a2) :
    KeepsX r (execChannelRetire a0 a1 a2) := by
  unfold execChannelRetire
  exact State.odCmd_keeps ha2 (fun _ h0 => State.odWrite_keeps h0 (fun _ h1 => State.ownChannelRetire_keeps h1))

theorem State.bootRetire_keeps {r : State} {a0 : State} {a1 : Nat} {a2 : Nat} (ha0 : Keeps r a0) :
    Keeps r (State.bootRetire a0 a1 a2) := by
  unfold State.bootRetire
  extract_lets +onlyGivenNames x0
  have h0 : Keeps r x0 := State.storeTouch_keeps (State.wr_keeps (State.wr_keeps (State.wr_keeps ha0)))
  try clear_value x0
  exact State.chanRecord_keeps (State.raise_keeps (State.setChan_keeps h0))

theorem State.chanRest_keeps {r : State} {a0 : State} {a1 : Nat} (ha0 : Keeps r a0) :
    Keeps r (State.chanRest a0 a1) := by
  unfold State.chanRest
  exact keepsS_ite (State.wr_keeps ha0) ha0

theorem State.ownSelfRefresh_keeps {r : State} {a0 : State} {a1 : Nat} {a2 : OdWrite} (ha0 : Keeps r a0) :
    Keeps r (State.ownSelfRefresh a0 a1 a2) := by
  unfold State.ownSelfRefresh
  extract_lets +onlyGivenNames x0
  have h0 : Keeps r x0 := State.setObj_keeps ha0
  try clear_value x0
  extract_lets +onlyGivenNames x1
  have h1 : Keeps r x1 := keepsS_ite (keepsS_ite (State.demand_keeps h0) h0) (State.chanRest_keeps h0)
  try clear_value x1
  exact State.odDone_keeps h1

theorem State.pcDead_keeps {r : State} {a0 : State} {a1 : Nat} (ha0 : Keeps r a0) :
    Keeps r (State.pcDead a0 a1) := by
  unfold State.pcDead
  extract_lets +onlyGivenNames x0
  try clear_value x0
  extract_lets +onlyGivenNames x1
  have h1 : Keeps r x1 := State.setPc_keeps ha0
  try clear_value x1
  exact keeps_foldl (fun _ _ h2 => by
  split
  · exact State.setCache_keeps h2
  · exact h2) h1

theorem State.poolUse_keeps {r : State} {a0 : State} {a1 : Nat} (ha0 : Keeps r a0) :
    Keeps r (State.poolUse a0 a1) := by
  unfold State.poolUse
  exact State.storeTouch_keeps (State.wr_keeps ha0)

theorem State.chanFailed_keeps {r : State} {a0 : State} {a1 : Nat} (ha0 : Keeps r a0) :
    Keeps r (State.chanFailed a0 a1) := by
  unfold State.chanFailed
  extract_lets +onlyGivenNames x0
  try clear_value x0
  extract_lets +onlyGivenNames x1
  have h1 : Keeps r x1 := State.setChan_keeps ha0
  try clear_value x1
  extract_lets +onlyGivenNames x2
  have h2 : Keeps r x2 := State.raise_keeps (State.storeTouch_keeps (State.wr_keeps h1))
  try clear_value x2
  extract_lets +onlyGivenNames x3
  have h3 : Keeps r x3 := State.chanRecord_keeps h2
  try clear_value x3
  exact State.refreshGroup_keeps h3

theorem State.autoRetire_keeps {r : State} {a0 : State} {a1 : Nat} {a2 : Bool} (ha0 : Keeps r a0) :
    Keeps r (State.autoRetire a0 a1 a2) := by
  unfold State.autoRetire
  split
  · extract_lets +onlyGivenNames x0
    try clear_value x0
    extract_lets +onlyGivenNames x1
    have h1 : Keeps r x1 := State.retireStart_keeps (State.poolUse_keeps ha0)
    try clear_value x1
    exact keepsS_ite (State.chanRecord_keeps h1) h1
  · extract_lets +onlyGivenNames x2
    have h2 : Keeps r x2 := State.raise_keeps ha0
    try clear_value x2
    exact keepsS_ite (State.chanFailed_keeps h2) h2

theorem execChannelFail_keeps {r : State} {a0 : Fin 1024} {a1 : State} (ha1 : Keeps r a1) :
    KeepsX r (execChannelFail a0 a1) := by
  unfold execChannelFail
  exact keepsX_ite (keepsX_next ha1) (by
  extract_lets +onlyGivenNames x0
  try clear_value x0
  extract_lets +onlyGivenNames x1
  have h1 : Keeps r x1 := State.pcDead_keeps (State.pcDead_keeps (State.setChan_keeps ha1))
  try clear_value x1
  extract_lets +onlyGivenNames x2
  have h2 : Keeps r x2 := State.addDefect_keeps h1
  try clear_value x2
  exact keepsX_ite (keepsX_next (State.chanRecord_keeps h2)) (keepsX_ite (keepsX_next (State.autoRetire_keeps h2)) (keepsX_next (State.chanFailed_keeps h2))))

theorem State.stackSleep_keeps {r : State} {a0 : State} {a1 : Nat} (ha0 : Keeps r a0) :
    Keeps r (State.stackSleep a0 a1) := by
  unfold State.stackSleep
  exact keeps_foldl (fun _ _ h0 => keepsS_ite (State.wr_keeps h0) h0) ha0

theorem execHbmRetrainDone_keeps {r : State} {a0 : Fin 2048} {a1 : State} (ha1 : Keeps r a1) :
    KeepsX r (execHbmRetrainDone a0 a1) := by
  unfold execHbmRetrainDone
  exact keepsX_next (State.setPc_keeps ha1)

theorem State.chanOut_keeps {r : State} {a0 : State} {a1 : Nat} (ha0 : Keeps r a0) :
    Keeps r (State.chanOut a0 a1) := by
  unfold State.chanOut
  exact keepsS_ite ha0 (keepsS_ite (State.bootRetire_keeps ha0) (by
  split
  · exact State.bootRetire_keeps (State.poolUse_keeps ha0)
  · exact State.chanFailed_keeps ha0))

theorem State.bootFail_keeps {r : State} {a0 : State} {a1 : Nat} (ha0 : Keeps r a0) :
    Keeps r (State.bootFail a0 a1) := by
  unfold State.bootFail
  exact keepsS_ite ha0 (State.noteFail_keeps (State.addDefect_keeps (State.chanOut_keeps ha0)))

theorem State.copySector_keeps {r : State} {a0 : State} {a1 : Nat} {a2 : Nat} {a3 : Nat} {a4 : Bool} (ha0 : Keeps r a0) :
    Keeps r (State.copySector a0 a1 a2 a3 a4) := by
  unfold State.copySector
  extract_lets +onlyGivenNames x0
  try clear_value x0
  split
  · exact ha0
  · exact keepsS_ite (State.count_keeps (State.setPoison_keeps ha0)) (State.setPoison_keeps (State.store_keeps ha0))

theorem State.stackId_keeps {r : State} {a0 : State} {a1 : Nat} {a2 : TrainOutcome} (ha0 : Keeps r a0) :
    Keeps r (State.stackId a0 a1 a2) := by
  unfold State.stackId
  extract_lets +onlyGivenNames x0
  have h0 : Keeps r x0 := State.wr_keeps (State.wr_keeps (State.wr_keeps ha0))
  try clear_value x0
  exact keeps_mk h0

theorem State.saveTrain_keeps {r : State} {a0 : State} {a1 : Nat} {a2 : TrainOutcome} (ha0 : Keeps r a0) :
    Keeps r (State.saveTrain a0 a1 a2) := by
  unfold State.saveTrain
  extract_lets +onlyGivenNames x0
  try clear_value x0
  extract_lets +onlyGivenNames x1
  try clear_value x1
  exact State.storeTouch_keeps (State.wrLen_keeps (State.wr_keeps ha0))

theorem execStackTrain_keeps {r : State} {a0 : Fin 32} {a1 : TrainOutcome} {a2 : State} (ha2 : Keeps r a2) :
    KeepsX r (execStackTrain a0 a1 a2) := by
  unfold execStackTrain
  exact keepsX_ite (keepsX_next ha2) (keepsX_ite (keepsX_next (State.refreshGroup_keeps (keeps_foldl (fun _ _ h0 => State.bootFail_keeps h0) (State.noteFail_keeps (State.wr_keeps ha2))))) (by
  extract_lets +onlyGivenNames x1
  have h1 : Keeps r x1 := State.stackId_keeps ha2
  try clear_value x1
  exact keepsX_ite (keepsX_next (State.resetGroupEst_keeps (State.refreshGroup_keeps (State.wr_keeps h1)))) (by
  extract_lets +onlyGivenNames x2
  try clear_value x2
  extract_lets +onlyGivenNames x3
  have h3 : Keeps r x3 := State.raise_keeps (State.wr_keeps (State.saveTrain_keeps h1))
  try clear_value x3
  exact keepsX_next (State.resetGroupEst_keeps (State.refreshGroup_keeps (keeps_foldl (fun _ _ h4 => State.bootFail_keeps h4) h3))))))

theorem State.activate_keeps {r : State} {a0 : State} {a1 : Nat} {a2 : Nat} (ha0 : Keeps r a0) :
    Keeps r (State.activate a0 a1 a2) := by
  unfold State.activate
  extract_lets +onlyGivenNames x0
  try clear_value x0
  extract_lets +onlyGivenNames x1
  try clear_value x1
  extract_lets +onlyGivenNames x2
  try clear_value x2
  extract_lets +onlyGivenNames x3
  try clear_value x3
  extract_lets +onlyGivenNames x4
  try clear_value x4
  extract_lets +onlyGivenNames x5
  try clear_value x5
  extract_lets +onlyGivenNames x6
  have h6 : Keeps r x6 := State.setPc_keeps ha0
  try clear_value x6
  exact keepsS_ite (State.count_keeps h6) h6

theorem State.dayCheck_keeps {r : State} {a0 : State} {a1 : Nat} (ha0 : Keeps r a0) :
    Keeps r (State.dayCheck a0 a1) := by
  unfold State.dayCheck
  extract_lets +onlyGivenNames x0
  try clear_value x0
  exact keepsS_ite (State.autoRetire_keeps (State.setChan_keeps ha0)) ha0

theorem State.dayTurn_keeps {r : State} {a0 : State} {a1 : Nat} (ha0 : Keeps r a0) :
    Keeps r (State.dayTurn a0 a1) := by
  unfold State.dayTurn
  extract_lets +onlyGivenNames x0
  try clear_value x0
  exact keepsS_ite (State.setChan_keeps ha0) ha0

theorem State.codeword_keeps {r : State} {a0 : State} {a1 : Nat} {a2 : Nat} {a3 : Ecc} {a4 : Bool} (ha0 : Keeps r a0) :
    Keeps r (State.codeword a0 a1 a2 a3 a4) := by
  unfold State.codeword
  split
  · exact ha0
  · exact State.dayCheck_keeps (State.count_keeps (State.dayTurn_keeps ha0))
  · exact State.count_keeps ha0
  · exact State.dayCheck_keeps (State.count_keeps (State.dayTurn_keeps (State.count_keeps ha0)))
  · exact keepsS_ite ha0 (by
    extract_lets +onlyGivenNames x0
    try clear_value x0
    extract_lets +onlyGivenNames x1
    have h1 : Keeps r x1 := State.raise_keeps (State.count_keeps (State.dayTurn_keeps (State.setPoison_keeps ha0)))
    try clear_value x1
    exact State.dayCheck_keeps (State.dataRecord_keeps h1))

theorem execMigrationUnitCopy_keeps {r : State} {a0 : Fin 1024} {a1 : BitVec 8} {a2 : State} (ha2 : Keeps r a2) :
    KeepsX r (execMigrationUnitCopy a0 a1 a2) := by
  unfold execMigrationUnitCopy
  extract_lets +onlyGivenNames x0
  try clear_value x0
  extract_lets +onlyGivenNames x1
  try clear_value x1
  exact keepsX_ite (by
  extract_lets +onlyGivenNames x2
  try clear_value x2
  extract_lets +onlyGivenNames x3
  have h3 : Keeps r x3 := keeps_foldl (fun _ _ h4 => by
    extract_lets +onlyGivenNames x5
    try clear_value x5
    extract_lets +onlyGivenNames x6
    try clear_value x6
    extract_lets +onlyGivenNames x7
    have h7 : Keeps r x7 := keepsS_ite (State.codeword_keeps h4) h4
    try clear_value x7
    exact State.copySector_keeps h7) ha2
  try clear_value x3
  exact keepsX_next (State.feedAll_keeps (State.wr_keeps h3))) (keepsX_next ha2)

theorem execRefresh_keeps {r : State} {a0 : Fin 2048} {a1 : Fin 64} {a2 : State} (ha2 : Keeps r a2) :
    KeepsX r (execRefresh a0 a1 a2) := by
  unfold execRefresh
  extract_lets +onlyGivenNames x0
  try clear_value x0
  exact keepsX_ite (keepsX_next (State.setPc_keeps ha2)) (keepsX_next ha2)

theorem State.deliver_keeps {r : State} {a0 : State} {a1 : RdEnt} {a2 : Nat} {a3 : Bool} (ha0 : Keeps r a0) :
    Keeps r (State.deliver a0 a1 a2 a3) := by
  unfold State.deliver
  split
  · exact ha0
  · extract_lets +onlyGivenNames x0
    try clear_value x0
    exact State.setCache_keeps ha0

theorem execHbmReadReturn_keeps {r : State} {a0 : Fin 2048} {a1 : Ecc} {a2 : State} (ha2 : Keeps r a2) :
    KeepsX r (execHbmReadReturn a0 a1 a2) := by
  unfold execHbmReadReturn
  split
  · exact keepsX_next ha2
  · extract_lets +onlyGivenNames x0
    try clear_value x0
    extract_lets +onlyGivenNames x1
    try clear_value x1
    extract_lets +onlyGivenNames x2
    try clear_value x2
    extract_lets +onlyGivenNames x3
    have h3 : Keeps r x3 := State.setPc_keeps ha2
    try clear_value x3
    extract_lets +onlyGivenNames x4
    have h4 : Keeps r x4 := State.codeword_keeps h3
    try clear_value x4
    extract_lets +onlyGivenNames x5
    try clear_value x5
    exact keepsX_next (State.deliver_keeps h4)

theorem State.pcCharge_keeps {r : State} {a0 : State} {a1 : Nat} {a2 : Nat} {a3 : Nat} {a4 : Bool} (ha0 : Keeps r a0) :
    Keeps r (State.pcCharge a0 a1 a2 a3 a4) := by
  unfold State.pcCharge
  extract_lets +onlyGivenNames x0
  try clear_value x0
  extract_lets +onlyGivenNames x1
  try clear_value x1
  extract_lets +onlyGivenNames x2
  have h2 : Keeps r x2 := keepsS_ite (State.spend_keeps ha0) ha0
  try clear_value x2
  exact State.noteServed_keeps h2

theorem State.pcIssue_keeps {r : State} {a0 : State} {a1 : Nat} {a2 : Cand} (ha0 : Keeps r a0) :
    Keeps r (State.pcIssue a0 a1 a2) := by
  unfold State.pcIssue
  extract_lets +onlyGivenNames x0
  try clear_value x0
  exact keepsS_ite (by
  split
  · exact ha0
  · extract_lets +onlyGivenNames x1
    try clear_value x1
    extract_lets +onlyGivenNames x2
    have h2 : Keeps r x2 := State.setPc_keeps ha0
    try clear_value x2
    exact State.pcCharge_keeps h2) (by
  split
  · exact ha0
  · extract_lets +onlyGivenNames x3
    have h3 : Keeps r x3 := State.setPc_keeps ha0
    try clear_value x3
    exact State.missed_keeps (State.pcCharge_keeps h3))

theorem execRowCloseTimeout_keeps {r : State} {a0 : Fin 2048} {a1 : Fin 64} {a2 : State} (ha2 : Keeps r a2) :
    KeepsX r (execRowCloseTimeout a0 a1 a2) := by
  unfold execRowCloseTimeout
  extract_lets +onlyGivenNames x0
  try clear_value x0
  exact keepsX_next (State.setPc_keeps ha2)

theorem execPseudoChannelIssue_keeps {r : State} {a0 : Fin 2048} {a1 : State} (ha1 : Keeps r a1) :
    KeepsX r (execPseudoChannelIssue a0 a1) := by
  unfold execPseudoChannelIssue
  exact keepsX_ite (by
  split
  · exact keepsX_next ha1
  · exact keepsX_ite (keepsX_next (State.feedAll_keeps (State.pcIssue_keeps ha1))) (keepsX_ite (keepsX_next (State.count_keeps ha1)) (keepsX_next (State.feedAll_keeps (State.pcIssue_keeps (State.activate_keeps ha1)))))) (keepsX_next ha1)

theorem execSelfRefreshExitDone_keeps {r : State} {a0 : Fin 1024} {a1 : State} (ha1 : Keeps r a1) :
    KeepsX r (execSelfRefreshExitDone a0 a1) := by
  unfold execSelfRefreshExitDone
  exact keepsX_ite (keepsX_next (State.wr_keeps (keeps_mk ha1))) (keepsX_next ha1)

theorem execInitStep_keeps {r : State} {a0 : Fin 1024} {a1 : State} (ha1 : Keeps r a1) :
    KeepsX r (execInitStep a0 a1) := by
  unfold execInitStep
  extract_lets +onlyGivenNames x0
  try clear_value x0
  exact keepsX_ite (by
  extract_lets +onlyGivenNames x1
  have h1 : Keeps r x1 := State.setChan_keeps ha1
  try clear_value x1
  exact keepsX_next (keepsS_ite (State.wr_keeps h1) h1)) (keepsX_next ha1)

theorem State.stackWake_keeps {r : State} {a0 : State} {a1 : Nat} (ha0 : Keeps r a0) :
    Keeps r (State.stackWake a0 a1) := by
  unfold State.stackWake
  exact keeps_foldl (fun _ _ h0 => keepsS_ite (State.demand_keeps h0) h0) ha0

theorem execPdIdleExpiry_keeps {r : State} {a0 : Fin 1024} {a1 : State} (ha1 : Keeps r a1) :
    KeepsX r (execPdIdleExpiry a0 a1) := by
  unfold execPdIdleExpiry
  exact keepsX_next (State.chanRest_keeps ha1)

theorem execReadTimingCheck_keeps {r : State} {a0 : Fin 2048} {a1 : Bool} {a2 : State} (ha2 : Keeps r a2) :
    KeepsX r (execReadTimingCheck a0 a1 a2) := by
  unfold execReadTimingCheck
  exact keepsX_ite (keepsX_next ha2) (keepsX_next (State.count_keeps (State.setPc_keeps ha2)))

theorem execHbmSelfRefresh_keeps {r : State} {a0 : Fin 1024} {a1 : OdWrite} {a2 : State} (ha2 : Keeps r a2) :
    KeepsX r (execHbmSelfRefresh a0 a1 a2) := by
  unfold execHbmSelfRefresh
  exact State.odCmd_keeps ha2 (fun _ h0 => State.odWrite_keeps h0 (fun _ h1 => State.ownSelfRefresh_keeps h1))

theorem execStackTempSample_keeps {r : State} {a0 : Fin 32} {a1 : Int} {a2 : State} (ha2 : Keeps r a2) :
    KeepsX r (execStackTempSample a0 a1 a2) := by
  unfold execStackTempSample
  exact keepsX_ite (by
  extract_lets +onlyGivenNames x0
  try clear_value x0
  extract_lets +onlyGivenNames x1
  try clear_value x1
  extract_lets +onlyGivenNames x2
  have h2 : Keeps r x2 := State.wr_keeps (State.wr_keeps (State.wr_keeps ha2))
  try clear_value x2
  exact keepsX_ite (keepsX_next h2) (by
  extract_lets +onlyGivenNames x3
  have h3 : Keeps r x3 := keepsS_ite (State.raise_keeps h2) (keepsS_ite (State.stackSleep_keeps (State.raise_keeps h2)) h2)
  try clear_value x3
  extract_lets +onlyGivenNames x4
  have h4 : Keeps r x4 := keepsS_ite (State.stackWake_keeps h3) h3
  try clear_value x4
  exact keepsX_next (State.refreshGroup_keeps h4))) (keepsX_next ha2)

theorem execScrubStep_keeps {r : State} {a0 : Fin 1024} {a1 : Ecc} {a2 : State} (ha2 : Keeps r a2) :
    KeepsX r (execScrubStep a0 a1 a2) := by
  unfold execScrubStep
  exact keepsX_ite (by
  extract_lets +onlyGivenNames x0
  try clear_value x0
  extract_lets +onlyGivenNames x1
  try clear_value x1
  extract_lets +onlyGivenNames x2
  try clear_value x2
  extract_lets +onlyGivenNames x3
  try clear_value x3
  exact keepsX_next (State.codeword_keeps (State.setChan_keeps ha2))) (keepsX_next ha2)

theorem execMigrationEnd_keeps {r : State} {a0 : Fin 1024} {a1 : State} (ha1 : Keeps r a1) :
    KeepsX r (execMigrationEnd a0 a1) := by
  unfold execMigrationEnd
  extract_lets +onlyGivenNames x0
  try clear_value x0
  exact keepsX_ite (by
  extract_lets +onlyGivenNames x1
  have h1 : Keeps r x1 := State.wr_keeps (State.wr_keeps (State.wr_keeps ha1))
  try clear_value x1
  extract_lets +onlyGivenNames x2
  have h2 : Keeps r x2 := State.storeTouch_keeps (State.pcDead_keeps (State.pcDead_keeps (State.setChan_keeps h1)))
  try clear_value x2
  extract_lets +onlyGivenNames x3
  have h3 : Keeps r x3 := State.chanRecord_keeps (State.raise_keeps h2)
  try clear_value x3
  exact keepsX_next (State.feedAll_keeps (State.refreshGroup_keeps h3))) (keepsX_next ha1)

end Sys2Proof.Machine
end

