-- ==== Sys2Proof/Laws/KeepsPower.lean ====
section
/-! SUPPORT. What every operation keeps (Laws/Keeps.lean), one lemma each: power, sites and the object store (chapters 10, 13, 14 and 15). -/

namespace Sys2Proof.Machine

theorem State.ownCkDiv_keeps {r : State} {a0 : State} {a1 : OdWrite} (ha0 : Keeps r a0) :
    Keeps r (State.ownCkDiv a0 a1) := by
  unfold State.ownCkDiv
  exact keepsS_ite (State.odFail_keeps ha0) (State.odSet_keeps ha0)

theorem State.cleanSlice_keeps {r : State} {a0 : State} {a1 : Nat} (ha0 : Keeps r a0) :
    Keeps r (State.cleanSlice a0 a1) := by
  unfold State.cleanSlice
  extract_lets +onlyGivenNames x0
  try clear_value x0
  exact keeps_foldl (fun _ _ h1 => by
  split
  · exact h1
  · extract_lets +onlyGivenNames x2
    try clear_value x2
    exact keepsS_ite (State.putLine_keeps (State.issueWrite_keeps h1)) h1) ha0

theorem State.swNormal_keeps {r : State} {a0 : State} {a1 : Nat} (ha0 : Keeps r a0) :
    Keeps r (State.swNormal a0 a1) := by
  unfold State.swNormal
  exact State.count_keeps (State.wr_keeps ha0)

theorem State.onPll_keeps {r : State} {a0 : State} {a1 : Nat} {a2 : Nat} (ha0 : Keeps r a0) :
    Keeps r (State.onPll a0 a1 a2) := by
  unfold State.onPll
  extract_lets +onlyGivenNames x0
  have h0 : Keeps r x0 := keepsS_ite (State.wr_keeps (State.swNormal_keeps ha0)) ha0
  try clear_value x0
  exact State.fieldRuns_keeps h0

theorem State.clockTo_keeps {r : State} {a0 : State} {a1 : Nat} {a2 : Nat} (ha0 : Keeps r a0) :
    Keeps r (State.clockTo a0 a1 a2) := by
  unfold State.clockTo
  extract_lets +onlyGivenNames x0
  try clear_value x0
  extract_lets +onlyGivenNames x1
  have h1 : Keeps r x1 := State.setClk_keeps ha0
  try clear_value x1
  exact keepsS_ite h1 (State.onPll_keeps h1)

theorem execFieldClockSettled_keeps {r : State} {a0 : State} (ha0 : Keeps r a0) :
    KeepsX r (execFieldClockSettled a0) := by
  unfold execFieldClockSettled
  split
  · exact keepsX_next ha0
  · exact keepsX_ite (keepsX_next ha0) (by
    extract_lets +onlyGivenNames x0
    have h0 : Keeps r x0 := keeps_foldl (fun _ _ h1 => keepsS_ite (State.setClk_keeps h1) (State.clockTo_keeps h1)) ha0
    try clear_value x0
    exact keepsX_next (State.wr_keeps (keeps_mk h0)))

theorem State.clockReq_keeps {r : State} {a0 : State} {a1 : Nat} (ha0 : Keeps r a0) :
    Keeps r (State.clockReq a0 a1) := by
  unfold State.clockReq
  extract_lets +onlyGivenNames x0
  have h0 : Keeps r x0 := State.wr_keeps (keeps_mk ha0)
  try clear_value x0
  exact keepsS_ite (State.wr_keeps (State.armLap_keeps h0)) (State.glide_keeps h0)

theorem State.ownClockReq_keeps {r : State} {a0 : State} {a1 : OdWrite} (ha0 : Keeps r a0) :
    Keeps r (State.ownClockReq a0 a1) := by
  unfold State.ownClockReq
  split
  · exact State.odDone_keeps (State.clockReq_keeps ha0)
  · exact State.odFail_keeps ha0

theorem State.ownCkSelect_keeps {r : State} {a0 : State} {a1 : OdWrite} (ha0 : Keeps r a0) :
    Keeps r (State.ownCkSelect a0 a1) := by
  unfold State.ownCkSelect
  split
  · exact State.odFail_keeps ha0
  · exact keepsS_ite (State.odFail_keeps ha0) (by
    extract_lets +onlyGivenNames x0
    have h0 : Keeps r x0 := keepsS_ite ha0 (keepsS_ite (keepsS_ite ha0 (keeps_mk ha0)) (State.swNormal_keeps ha0))
    try clear_value x0
    exact State.odSet_keeps h0)

theorem State.ownSliceMode_keeps {r : State} {a0 : State} {a1 : Nat} {a2 : OdWrite} (ha0 : Keeps r a0) :
    Keeps r (State.ownSliceMode a0 a1 a2) := by
  unfold State.ownSliceMode
  exact keepsS_ite (State.odFail_keeps ha0) (by
  extract_lets +onlyGivenNames x0
  have h0 : Keeps r x0 := keepsS_ite (State.sliceUp_keeps ha0) ha0
  try clear_value x0
  exact State.odSet_keeps h0)

theorem State.ownFieldMode_keeps {r : State} {a0 : State} {a1 : Nat} {a2 : OdWrite} (ha0 : Keeps r a0) :
    Keeps r (State.ownFieldMode a0 a1 a2) := by
  unfold State.ownFieldMode
  exact keepsS_ite (by
  extract_lets +onlyGivenNames x0
  have h0 : Keeps r x0 := keepsS_ite (State.fieldUp_keeps ha0) ha0
  try clear_value x0
  exact State.odSet_keeps h0) (by
  split
  · exact State.odFail_keeps ha0
  · exact State.odDone_keeps (State.setObj_keeps (keepsS_ite (State.wr_keeps ha0) ha0)))

theorem execCkobsSelect_keeps {r : State} {a0 : OdWrite} {a1 : State} (ha1 : Keeps r a1) :
    KeepsX r (execCkobsSelect a0 a1) := by
  unfold execCkobsSelect
  exact State.odCmd_keeps ha1 (fun _ h0 => State.odWrite_keeps h0 (fun _ h1 => State.ownCkSelect_keeps h1))

theorem State.unitUp_keeps {r : State} {a0 : State} {a1 : PowerUnit} (ha0 : Keeps r a0) :
    Keeps r (State.unitUp a0 a1) := by
  unfold State.unitUp
  split
  · exact State.wr_keeps ha0
  · extract_lets +onlyGivenNames x0
    have h0 : Keeps r x0 := State.wr_keeps ha0
    try clear_value x0
    extract_lets +onlyGivenNames x1
    try clear_value x1
    extract_lets +onlyGivenNames x2
    have h2 : Keeps r x2 := keeps_mk h0
    try clear_value x2
    split
    · exact State.clockTo_keeps h2
    · exact h2
  · exact keeps_mk ha0
  · exact State.wr_keeps ha0
  · exact keepsS_ite (keepsS_ite (State.linkDetect_keeps ha0) ha0) (State.linkWake_keeps ha0)
  · exact ha0

theorem execPllRelockAttempt_keeps {r : State} {a0 : Fin 8} {a1 : Bool} {a2 : State} (ha2 : Keeps r a2) :
    KeepsX r (execPllRelockAttempt a0 a1 a2) := by
  unfold execPllRelockAttempt
  extract_lets +onlyGivenNames x0
  try clear_value x0
  exact keepsX_ite (keepsX_next ha2) (keepsX_ite (keepsX_next (State.setClk_keeps ha2)) (keepsX_next (State.onPll_keeps (State.setClk_keeps ha2))))

theorem execUnitWakeDone_keeps {r : State} {a0 : PowerUnit} {a1 : State} (ha1 : Keeps r a1) :
    KeepsX r (execUnitWakeDone a0 a1) := by
  unfold execUnitWakeDone
  exact keepsX_ite (keepsX_next (State.unitUp_keeps (keeps_mk ha1))) (keepsX_next ha1)

theorem State.sliceSleep_keeps {r : State} {a0 : State} {a1 : Nat} {a2 : Nat} (ha0 : Keeps r a0) :
    Keeps r (State.sliceSleep a0 a1 a2) := by
  unfold State.sliceSleep
  extract_lets +onlyGivenNames x0
  try clear_value x0
  extract_lets +onlyGivenNames x1
  try clear_value x1
  extract_lets +onlyGivenNames x2
  have h2 : Keeps r x2 := keepsS_ite (State.setCache_keeps ha0) ha0
  try clear_value x2
  exact State.chanRest_keeps (State.wr_keeps h2)

theorem State.sliceIdle_keeps {r : State} {a0 : State} {a1 : Nat} {a2 : Bool} (ha0 : Keeps r a0) :
    Keeps r (State.sliceIdle a0 a1 a2) := by
  unfold State.sliceIdle
  extract_lets +onlyGivenNames x0
  try clear_value x0
  exact keepsS_ite ha0 (keepsS_ite (State.wr_keeps ha0) (keepsS_ite (State.sliceSleep_keeps ha0) (keepsS_ite (by
  extract_lets +onlyGivenNames x1
  have h1 : Keeps r x1 := State.cleanSlice_keeps ha0
  try clear_value x1
  exact keepsS_ite h1 (State.sliceSleep_keeps h1)) ha0)))

theorem State.fieldIdle_keeps {r : State} {a0 : State} {a1 : Nat} {a2 : Bool} (ha0 : Keeps r a0) :
    Keeps r (State.fieldIdle a0 a1 a2) := by
  unfold State.fieldIdle
  extract_lets +onlyGivenNames x0
  try clear_value x0
  exact keepsS_ite ha0 (keepsS_ite (by
  split
  · exact State.wr_keeps ha0
  · exact ha0) (keepsS_ite (State.wr_keeps ha0) ha0))

theorem execIdleTimeout_keeps {r : State} {a0 : PowerUnit} {a1 : Bool} {a2 : State} (ha2 : Keeps r a2) :
    KeepsX r (execIdleTimeout a0 a1 a2) := by
  unfold execIdleTimeout
  split
  · exact keepsX_next (State.sliceIdle_keeps ha2)
  · exact keepsX_next (State.fieldIdle_keeps ha2)
  · exact keepsX_next ha2

theorem execCkobsDiv_keeps {r : State} {a0 : OdWrite} {a1 : State} (ha1 : Keeps r a1) :
    KeepsX r (execCkobsDiv a0 a1) := by
  unfold execCkobsDiv
  exact State.odCmd_keeps ha1 (fun _ h0 => State.odWrite_keeps h0 (fun _ h1 => State.ownCkDiv_keeps h1))

theorem State.powerCapped_keeps {r : State} {a0 : State} (ha0 : Keeps r a0) :
    Keeps r (State.powerCapped a0) := by
  unfold State.powerCapped
  split
  · exact keepsS_ite ha0 (State.raise_keeps (keeps_mk ha0))
  · exact State.raise_keeps (keeps_mk ha0)

theorem State.refill_keeps {r : State} {a0 : State} {a1 : Nat} (ha0 : Keeps r a0) :
    Keeps r (State.refill a0 a1) := by
  unfold State.refill
  extract_lets +onlyGivenNames x0
  try clear_value x0
  exact keeps_mk ha0

theorem State.liftWait_keeps {r : State} {a0 : State} {a1 : PowerUnit} (ha0 : Keeps r a0) :
    Keeps r (State.liftWait a0 a1) := by
  unfold State.liftWait
  exact keepsS_ite ha0 (State.count_keeps (keeps_mk ha0))

theorem State.glideStep_keeps {r : State} {a0 : State} {a1 : PowerUnit} (ha0 : Keeps r a0) :
    Keeps r (State.glideStep a0 a1) := by
  unfold State.glideStep
  exact State.drew_keeps (keeps_mk ha0)

theorem State.liftAdmit_keeps {r : State} {a0 : State} {a1 : PowerUnit} (ha0 : Keeps r a0) :
    Keeps r (State.liftAdmit a0 a1) := by
  unfold State.liftAdmit
  exact keepsS_ite (State.glideStep_keeps ha0) (keeps_mk ha0)

theorem execChairliftAdmit_keeps {r : State} {a0 : Nat} {a1 : State} (ha1 : Keeps r a1) :
    KeepsX r (execChairliftAdmit a0 a1) := by
  unfold execChairliftAdmit
  extract_lets +onlyGivenNames x0
  have h0 : Keeps r x0 := State.refill_keeps ha1
  try clear_value x0
  split
  · exact keepsX_next h0
  · extract_lets +onlyGivenNames x1
    try clear_value x1
    extract_lets +onlyGivenNames x2
    have h2 : Keeps r x2 := State.drew_keeps h0
    try clear_value x2
    exact keepsX_ite (keepsX_next (State.powerCapped_keeps (State.liftWait_keeps h2))) (keepsX_ite (keepsX_next (State.liftAdmit_keeps h2)) (keepsX_next (State.liftWait_keeps h2)))

theorem execSlicePowerMode_keeps {r : State} {a0 : Fin 1024} {a1 : OdWrite} {a2 : State} (ha2 : Keeps r a2) :
    KeepsX r (execSlicePowerMode a0 a1 a2) := by
  unfold execSlicePowerMode
  exact State.odCmd_keeps ha2 (fun _ h0 => State.odWrite_keeps h0 (fun _ h1 => State.ownSliceMode_keeps h1))

theorem execFieldPowerMode_keeps {r : State} {a0 : Fin 8} {a1 : OdWrite} {a2 : State} (ha2 : Keeps r a2) :
    KeepsX r (execFieldPowerMode a0 a1 a2) := by
  unfold execFieldPowerMode
  exact State.odCmd_keeps ha2 (fun _ h0 => State.odWrite_keeps h0 (fun _ h1 => State.ownFieldMode_keeps h1))

theorem State.swForced_keeps {r : State} {a0 : State} {a1 : Nat} (ha0 : Keeps r a0) :
    Keeps r (State.swForced a0 a1) := by
  unfold State.swForced
  exact State.raise_keeps (State.count_keeps (State.count_keeps (State.wr_keeps ha0)))

theorem State.onBypass_keeps {r : State} {a0 : State} {a1 : Nat} (ha0 : Keeps r a0) :
    Keeps r (State.onBypass a0 a1) := by
  unfold State.onBypass
  exact State.fieldRuns_keeps (State.wr_keeps ha0)

theorem execFieldClockReq_keeps {r : State} {a0 : OdWrite} {a1 : State} (ha1 : Keeps r a1) :
    KeepsX r (execFieldClockReq a0 a1) := by
  unfold execFieldClockReq
  exact State.odCmd_keeps ha1 (fun _ h0 => State.odWrite_keeps h0 (fun _ h1 => State.ownClockReq_keeps h1))

theorem execPllUnlock_keeps {r : State} {a0 : Fin 8} {a1 : Bool} {a2 : State} (ha2 : Keeps r a2) :
    KeepsX r (execPllUnlock a0 a1 a2) := by
  unfold execPllUnlock
  exact keepsX_ite (keepsX_next ha2) (by
  extract_lets +onlyGivenNames x0
  try clear_value x0
  extract_lets +onlyGivenNames x1
  have h1 : Keeps r x1 := State.setClk_keeps ha2
  try clear_value x1
  extract_lets +onlyGivenNames x2
  have h2 : Keeps r x2 := State.raise_keeps (State.count_keeps h1)
  try clear_value x2
  exact keepsX_ite (keepsX_next h2) (keepsX_ite (keepsX_next (keeps_mk h2)) (keepsX_next (State.onBypass_keeps (State.swNormal_keeps h2)))))

theorem execClkForced_keeps {r : State} {a0 : Fin 10} {a1 : State} (ha1 : Keeps r a1) :
    KeepsX r (execClkForced a0 a1) := by
  unfold execClkForced
  exact keepsX_ite (by
  extract_lets +onlyGivenNames x0
  have h0 : Keeps r x0 := State.swForced_keeps (keeps_mk ha1)
  try clear_value x0
  exact keepsX_next (keepsS_ite (State.onBypass_keeps h0) h0)) (keepsX_next ha1)

theorem State.portsDown_keeps {r : State} {a0 : State} {a1 : Nat} {a2 : Nat} (ha0 : Keeps r a0) :
    Keeps r (State.portsDown a0 a1 a2) := by
  unfold State.portsDown
  exact keeps_foldl (fun _ _ h0 => keepsS_ite h0 (State.portDown_keeps h0)) ha0

theorem State.siteUp_keeps {r : State} {a0 : State} {a1 : Nat} (ha0 : Keeps r a0) :
    Keeps r (State.siteUp a0 a1) := by
  unfold State.siteUp
  extract_lets +onlyGivenNames x0
  try clear_value x0
  extract_lets +onlyGivenNames x1
  have h1 : Keeps r x1 := State.wr_keeps (State.setSite_keeps ha0)
  try clear_value x1
  extract_lets +onlyGivenNames x2
  have h2 : Keeps r x2 := State.wr_keeps (State.wr_keeps (State.wr_keeps h1))
  try clear_value x2
  exact keeps_foldl (fun _ _ h3 => keepsS_ite (State.portReset_keeps (State.portCounters_keeps h3)) h3) h2

theorem State.setRun_keeps {r : State} {a0 : State} {a1 : Nat} {a2 : SiteRun} (ha0 : Keeps r a0) :
    Keeps r (State.setRun a0 a1 a2) := by
  unfold State.setRun
  exact State.setSite_keeps ha0

theorem State.railTo_keeps {r : State} {a0 : State} {a1 : Nat} {a2 : Nat} {a3 : Nat} (ha0 : Keeps r a0) :
    Keeps r (State.railTo a0 a1 a2 a3) := by
  unfold State.railTo
  extract_lets +onlyGivenNames x0
  try clear_value x0
  exact State.setSite_keeps ha0

theorem State.railsUp_keeps {r : State} {a0 : State} {a1 : Nat} {a2 : List Nat} (ha0 : Keeps r a0) :
    Keeps r (State.railsUp a0 a1 a2) := by
  unfold State.railsUp
  split
  · exact State.siteUp_keeps ha0
  · exact State.setRun_keeps (State.railTo_keeps ha0)

theorem State.siteStart_keeps {r : State} {a0 : State} {a1 : Nat} (ha0 : Keeps r a0) :
    Keeps r (State.siteStart a0 a1) := by
  unfold State.siteStart
  exact State.railsUp_keeps ha0

theorem State.siteOff_keeps {r : State} {a0 : State} {a1 : Nat} (ha0 : Keeps r a0) :
    Keeps r (State.siteOff a0 a1) := by
  unfold State.siteOff
  extract_lets +onlyGivenNames x0
  try clear_value x0
  extract_lets +onlyGivenNames x1
  have h1 : Keeps r x1 := State.setSite_keeps ha0
  try clear_value x1
  extract_lets +onlyGivenNames x2
  have h2 : Keeps r x2 := keeps_foldl (fun _ _ h3 => State.wr_keeps h3) h1
  try clear_value x2
  exact keepsS_ite (State.siteStart_keeps h2) h2

theorem State.railsDown_keeps {r : State} {a0 : State} {a1 : Nat} {a2 : Nat} {a3 : List Nat} (ha0 : Keeps r a0) :
    Keeps r (State.railsDown a0 a1 a2 a3) := by
  unfold State.railsDown
  split
  · exact State.siteOff_keeps ha0
  · exact State.setRun_keeps (State.railTo_keeps ha0)

theorem State.siteFault_keeps {r : State} {a0 : State} {a1 : Nat} {a2 : Nat} (ha0 : Keeps r a0) :
    Keeps r (State.siteFault a0 a1 a2) := by
  unfold State.siteFault
  extract_lets +onlyGivenNames x9
  try clear_value x9
  extract_lets +onlyGivenNames x0
  try clear_value x0
  extract_lets +onlyGivenNames x1
  have h1 : Keeps r x1 := keepsS_ite (State.emit_keeps (State.setSite_keeps ha0)) ha0
  try clear_value x1
  extract_lets +onlyGivenNames x2
  have h2 : Keeps r x2 := State.portsDown_keeps (State.wr_keeps (State.wr_keeps h1))
  try clear_value x2
  extract_lets +onlyGivenNames x3
  have h3 : Keeps r x3 := State.railsDown_keeps h2
  try clear_value x3
  exact State.recordTo_keeps (State.raise_keeps h3)

theorem State.wholeUnits_keeps {r : State} {a0 : State} {a1 : Nat} {a2 : Nat} (ha0 : Keeps r a0) :
    Keeps r (State.wholeUnits a0 a1 a2).2 := by
  unfold State.wholeUnits
  exact keepsP2_ite ha0 (State.drew_keeps ha0)

theorem State.energyNow_keeps {r : State} {a0 : State} {a1 : Nat} (ha0 : Keeps r a0) :
    Keeps r (State.energyNow a0 a1).2 := by
  unfold State.energyNow
  exact State.wholeUnits_keeps ha0

theorem State.siteStop_keeps {r : State} {a0 : State} {a1 : Nat} (ha0 : Keeps r a0) :
    Keeps r (State.siteStop a0 a1) := by
  unfold State.siteStop
  extract_lets +onlyGivenNames x0
  have h0 : Keeps r x0 := State.portsDown_keeps ha0
  try clear_value x0
  exact State.railsDown_keeps h0

theorem State.sbTake_keeps {r : State} {a0 : State} {a1 : Nat} {a2 : BitVec 64} {a3 : Nat} {a4 : State → State} (ha0 : Keeps r a0) (ha4 : ∀ t , Keeps r t → Keeps r (a4 t )) :
    Keeps r (State.sbTake a0 a1 a2 a3 a4) := by
  unfold State.sbTake
  extract_lets +onlyGivenNames x0
  try clear_value x0
  exact keepsS_ite ha0 (keepsS_ite (keepsS_ite ha0 (State.emit_keeps ha0)) (ha4 _  ha0))

theorem State.transitionEnd_keeps {r : State} {a0 : State} {a1 : Nat} {a2 : Nat} (ha0 : Keeps r a0) :
    Keeps r (State.transitionEnd a0 a1 a2) := by
  unfold State.transitionEnd
  extract_lets +onlyGivenNames x0
  have h0 : Keeps r x0 := State.setRun_keeps (State.wr_keeps ha0)
  try clear_value x0
  exact keepsS_ite (State.siteStop_keeps h0) h0

theorem State.transitionDone_keeps {r : State} {a0 : State} {a1 : Nat} {a2 : Nat} (ha0 : Keeps r a0) :
    Keeps r (State.transitionDone a0 a1 a2) := by
  unfold State.transitionDone
  extract_lets +onlyGivenNames x0
  try clear_value x0
  exact State.transitionEnd_keeps (State.setSite_keeps ha0)

theorem State.vfLower_keeps {r : State} {a0 : State} {a1 : Nat} {a2 : Nat} {a3 : Nat} (ha0 : Keeps r a0) :
    Keeps r (State.vfLower a0 a1 a2 a3) := by
  unfold State.vfLower
  extract_lets +onlyGivenNames x0
  try clear_value x0
  extract_lets +onlyGivenNames x1
  try clear_value x1
  extract_lets +onlyGivenNames x2
  have h2 : Keeps r x2 := State.sbAnswer_keeps ha0
  try clear_value x2
  extract_lets +onlyGivenNames x3
  try clear_value x3
  extract_lets +onlyGivenNames x4
  try clear_value x4
  extract_lets +onlyGivenNames x5
  have h5 : Keeps r x5 := State.setSite_keeps h2
  try clear_value x5
  exact keepsS_ite (State.transitionDone_keeps h5) (State.setRun_keeps h5)

theorem State.vfNak_keeps {r : State} {a0 : State} {a1 : Nat} {a2 : Nat} {a3 : Nat} {a4 : Nat} (ha0 : Keeps r a0) :
    Keeps r (State.vfNak a0 a1 a2 a3 a4) := by
  unfold State.vfNak
  exact State.sbAnswer_keeps ha0

theorem State.vfGrant_keeps {r : State} {a0 : State} {a1 : Nat} {a2 : Nat} {a3 : Nat} {a4 : Bool} (ha0 : Keeps r a0) :
    Keeps r (State.vfGrant a0 a1 a2 a3 a4) := by
  unfold State.vfGrant
  exact State.sbAnswer_keeps (State.setRun_keeps ha0)

theorem State.vfStart_keeps {r : State} {a0 : State} {a1 : Nat} {a2 : Nat} {a3 : Nat} (ha0 : Keeps r a0) :
    Keeps r (State.vfStart a0 a1 a2 a3) := by
  unfold State.vfStart
  extract_lets +onlyGivenNames x0
  try clear_value x0
  extract_lets +onlyGivenNames x1
  try clear_value x1
  extract_lets +onlyGivenNames x2
  try clear_value x2
  extract_lets +onlyGivenNames x3
  try clear_value x3
  extract_lets +onlyGivenNames x4
  have h4 : Keeps r x4 := State.setSite_keeps ha0
  try clear_value x4
  exact keepsS_ite (State.vfGrant_keeps h4) (State.setRun_keeps h4)

theorem State.ownSitePower_keeps {r : State} {a0 : State} {a1 : Nat} {a2 : OdWrite} (ha0 : Keeps r a0) :
    Keeps r (State.ownSitePower a0 a1 a2) := by
  unfold State.ownSitePower
  extract_lets +onlyGivenNames x0
  try clear_value x0
  exact keepsS_ite (keepsS_ite (State.odFail_keeps ha0) (keepsS_ite (State.odSet_keeps ha0) (by
  extract_lets +onlyGivenNames x1
  have h1 : Keeps r x1 := State.setObj_keeps ha0
  try clear_value x1
  exact State.odDone_keeps (by
  split
  · exact State.siteStart_keeps h1
  · exact h1)))) (by
  extract_lets +onlyGivenNames x2
  have h2 : Keeps r x2 := State.setObj_keeps ha0
  try clear_value x2
  exact keepsS_ite (State.odDone_keeps h2) (State.odDone_keeps (keepsS_ite h2 (by
  split
  · exact h2
  · exact h2
  · exact State.siteStop_keeps h2))))

theorem State.ownSiteOpp_keeps {r : State} {a0 : State} {a1 : Nat} {a2 : OdWrite} (ha0 : Keeps r a0) :
    Keeps r (State.ownSiteOpp a0 a1 a2) := by
  unfold State.ownSiteOpp
  extract_lets +onlyGivenNames x0
  try clear_value x0
  extract_lets +onlyGivenNames x1
  try clear_value x1
  exact keepsS_ite (State.odFail_keeps ha0) (keepsS_ite (State.odFail_keeps ha0) (keepsS_ite (State.odFail_keeps ha0) (keepsS_ite (State.odFail_keeps ha0) (State.odSet_keeps ha0))))

theorem State.ownSitePmax_keeps {r : State} {a0 : State} {a1 : Nat} {a2 : OdWrite} (ha0 : Keeps r a0) :
    Keeps r (State.ownSitePmax a0 a1 a2) := by
  unfold State.ownSitePmax
  exact keepsS_ite (State.odFail_keeps ha0) (State.odSet_keeps ha0)

theorem State.ownSiteRails_keeps {r : State} {a0 : State} {a1 : Nat} {a2 : OdWrite} (ha0 : Keeps r a0) :
    Keeps r (State.ownSiteRails a0 a1 a2) := by
  unfold State.ownSiteRails
  exact keepsS_ite (State.odSet_keeps ha0) (State.odFail_keeps ha0)

theorem State.ownRailVmin_keeps {r : State} {a0 : State} {a1 : Nat} {a2 : OdWrite} (ha0 : Keeps r a0) :
    Keeps r (State.ownRailVmin a0 a1 a2) := by
  unfold State.ownRailVmin
  exact keepsS_ite (State.odFail_keeps ha0) (keepsS_ite (State.odFail_keeps ha0) (State.odSet_keeps ha0))

theorem State.ownRailVmax_keeps {r : State} {a0 : State} {a1 : Nat} {a2 : OdWrite} (ha0 : Keeps r a0) :
    Keeps r (State.ownRailVmax a0 a1 a2) := by
  unfold State.ownRailVmax
  exact keepsS_ite (State.odFail_keeps ha0) (keepsS_ite (State.odFail_keeps ha0) (keepsS_ite (State.odFail_keeps ha0) (State.odSet_keeps ha0)))

theorem State.ownRailDieCap_keeps {r : State} {a0 : State} {a1 : Nat} {a2 : OdWrite} (ha0 : Keeps r a0) :
    Keeps r (State.ownRailDieCap a0 a1 a2) := by
  unfold State.ownRailDieCap
  exact keepsS_ite (State.odSet_keeps ha0) (State.odFail_keeps ha0)

theorem execRailQuery_keeps {r : State} {a0 : Fin 8} {a1 : BitVec 64} {a2 : BitVec 16} {a3 : BitVec 16} {a4 : State} (ha4 : Keeps r a4) :
    KeepsX r (execRailQuery a0 a1 a2 a3 a4) := by
  unfold execRailQuery
  extract_lets +onlyGivenNames x0
  try clear_value x0
  exact keepsX_next (State.sbTake_keeps ha4 (fun _ h1 => by
  extract_lets +onlyGivenNames x2
  try clear_value x2
  extract_lets +onlyGivenNames x3
  have h3 : Keeps r x3 := keepsS_ite (State.wr_keeps (State.wr_keeps h1)) h1
  try clear_value x3
  exact State.sbAnswer_keeps h3))

theorem execRailVmax_keeps {r : State} {a0 : Fin 64} {a1 : OdWrite} {a2 : State} (ha2 : Keeps r a2) :
    KeepsX r (execRailVmax a0 a1 a2) := by
  unfold execRailVmax
  exact State.odCmd_keeps ha2 (fun _ h0 => State.odWrite_keeps h0 (fun _ h1 => State.ownRailVmax_keeps h1))

theorem execSitePower_keeps {r : State} {a0 : Fin 8} {a1 : OdWrite} {a2 : State} (ha2 : Keeps r a2) :
    KeepsX r (execSitePower a0 a1 a2) := by
  unfold execSitePower
  exact State.odCmd_keeps ha2 (fun _ h0 => State.odWrite_keeps h0 (fun _ h1 => State.ownSitePower_keeps h1))

theorem execRailVmin_keeps {r : State} {a0 : Fin 64} {a1 : OdWrite} {a2 : State} (ha2 : Keeps r a2) :
    KeepsX r (execRailVmin a0 a1 a2) := by
  unfold execRailVmin
  exact State.odCmd_keeps ha2 (fun _ h0 => State.odWrite_keeps h0 (fun _ h1 => State.ownRailVmin_keeps h1))

theorem execSitePmax_keeps {r : State} {a0 : Fin 8} {a1 : OdWrite} {a2 : State} (ha2 : Keeps r a2) :
    KeepsX r (execSitePmax a0 a1 a2) := by
  unfold execSitePmax
  exact State.odCmd_keeps ha2 (fun _ h0 => State.odWrite_keeps h0 (fun _ h1 => State.ownSitePmax_keeps h1))

theorem execVfDone_keeps {r : State} {a0 : Fin 8} {a1 : BitVec 64} {a2 : State} (ha2 : Keeps r a2) :
    KeepsX r (execVfDone a0 a1 a2) := by
  unfold execVfDone
  extract_lets +onlyGivenNames x0
  try clear_value x0
  exact keepsX_next (State.sbTake_keeps ha2 (fun _ h1 => by
  split
  · exact keepsS_ite (State.vfLower_keeps h1) (State.vfNak_keeps h1)
  · exact State.vfNak_keeps h1))

theorem execCurrentLimitHold_keeps {r : State} {a0 : Fin 8} {a1 : Fin 8} {a2 : BitVec 32} {a3 : State} (ha3 : Keeps r a3) :
    KeepsX r (execCurrentLimitHold a0 a1 a2 a3) := by
  unfold execCurrentLimitHold
  exact keepsX_ite (keepsX_next (State.sbSend_keeps (State.count_keeps ha3))) (keepsX_next ha3)

theorem execSiteOpp_keeps {r : State} {a0 : Fin 128} {a1 : OdWrite} {a2 : State} (ha2 : Keeps r a2) :
    KeepsX r (execSiteOpp a0 a1 a2) := by
  unfold execSiteOpp
  exact State.odCmd_keeps ha2 (fun _ h0 => State.odWrite_keeps h0 (fun _ h1 => State.ownSiteOpp_keeps h1))

theorem execRailSettled_keeps {r : State} {a0 : Fin 8} {a1 : Fin 8} {a2 : State} (ha2 : Keeps r a2) :
    KeepsX r (execRailSettled a0 a1 a2) := by
  unfold execRailSettled
  split
  · exact keepsX_ite (keepsX_next ha2) (keepsX_ite (keepsX_next (State.siteUp_keeps ha2)) (keepsX_ite (keepsX_next (State.railsUp_keeps ha2)) (keepsX_next (State.setRun_keeps ha2))))
  · exact keepsX_ite (keepsX_next ha2) (keepsX_ite (keepsX_next (State.railsDown_keeps ha2)) (keepsX_next (State.setRun_keeps ha2)))
  · extract_lets +onlyGivenNames x0
    try clear_value x0
    exact keepsX_ite (keepsX_next (State.vfGrant_keeps ha2)) (keepsX_next (State.setRun_keeps ha2))
  · extract_lets +onlyGivenNames x1
    try clear_value x1
    exact keepsX_ite (keepsX_next (State.transitionDone_keeps ha2)) (keepsX_next (State.setRun_keeps ha2))
  · exact keepsX_next ha2

theorem execVfDoneTimeout_keeps {r : State} {a0 : Fin 8} {a1 : State} (ha1 : Keeps r a1) :
    KeepsX r (execVfDoneTimeout a0 a1) := by
  unfold execVfDoneTimeout
  split
  · exact keepsX_next (State.raise_keeps (State.transitionEnd_keeps ha1))
  · exact keepsX_next ha1

theorem execPortQuery_keeps {r : State} {a0 : Fin 8} {a1 : BitVec 64} {a2 : State} (ha2 : Keeps r a2) :
    KeepsX r (execPortQuery a0 a1 a2) := by
  unfold execPortQuery
  extract_lets +onlyGivenNames x0
  try clear_value x0
  exact keepsX_next (State.sbTake_keeps ha2 (fun _ h1 => State.sbAnswer_keeps h1))

theorem execSiteFault_keeps {r : State} {a0 : Fin 8} {a1 : BitVec 4} {a2 : State} (ha2 : Keeps r a2) :
    KeepsX r (execSiteFault a0 a1 a2) := by
  unfold execSiteFault
  split
  · exact keepsX_next ha2
  · exact keepsX_ite (keepsX_next (State.siteFault_keeps ha2)) (keepsX_next ha2)

theorem execSdroopRelease_keeps {r : State} {a0 : Fin 8} {a1 : List (BitVec 16)} {a2 : State} (ha2 : Keeps r a2) :
    KeepsX r (execSdroopRelease a0 a1 a2) := by
  unfold execSdroopRelease
  extract_lets +onlyGivenNames x0
  try clear_value x0
  exact keepsX_ite (by
  extract_lets +onlyGivenNames x1
  have h1 : Keeps r x1 := keeps_foldl (fun _ _ h2 => State.wr_keeps h2) ha2
  try clear_value x1
  exact keepsX_next (State.emit_keeps (State.setSite_keeps h1))) (keepsX_next ha2)

theorem execVfReq_keeps {r : State} {a0 : Fin 8} {a1 : BitVec 64} {a2 : State} (ha2 : Keeps r a2) :
    KeepsX r (execVfReq a0 a1 a2) := by
  unfold execVfReq
  extract_lets +onlyGivenNames x0
  try clear_value x0
  exact keepsX_next (State.sbTake_keeps ha2 (fun _ h1 => by
  extract_lets +onlyGivenNames x2
  try clear_value x2
  extract_lets +onlyGivenNames x3
  try clear_value x3
  exact keepsS_ite (State.vfNak_keeps h1) (keepsS_ite (State.vfNak_keeps h1) (keepsS_ite (State.vfNak_keeps h1) (State.vfStart_keeps h1)))))

theorem execSidebandResend_keeps {r : State} {a0 : Fin 8} {a1 : State} (ha1 : Keeps r a1) :
    KeepsX r (execSidebandResend a0 a1) := by
  unfold execSidebandResend
  extract_lets +onlyGivenNames x0
  try clear_value x0
  split
  · exact keepsX_next ha1
  · exact keepsX_ite (keepsX_next ha1) (keepsX_ite (keepsX_next (State.emit_keeps (State.setSite_keeps ha1))) (keepsX_next (State.count_keeps (State.setSite_keeps ha1))))

theorem execSidebandAck_keeps {r : State} {a0 : Fin 8} {a1 : BitVec 64} {a2 : State} (ha2 : Keeps r a2) :
    KeepsX r (execSidebandAck a0 a1 a2) := by
  unfold execSidebandAck
  extract_lets +onlyGivenNames x0
  try clear_value x0
  exact keepsX_ite (keepsX_next ha2) (by
  extract_lets +onlyGivenNames x1
  try clear_value x1
  exact keepsX_next (State.setSite_keeps ha2))

theorem execRailDroop_keeps {r : State} {a0 : Fin 8} {a1 : Fin 8} {a2 : BitVec 16} {a3 : State} (ha3 : Keeps r a3) :
    KeepsX r (execRailDroop a0 a1 a2 a3) := by
  unfold execRailDroop
  extract_lets +onlyGivenNames x0
  try clear_value x0
  exact keepsX_ite (by
  extract_lets +onlyGivenNames x1
  have h1 : Keeps r x1 := State.wr_keeps ha3
  try clear_value x1
  exact keepsX_ite (keepsX_next h1) (keepsX_next (State.emit_keeps (State.count_keeps (State.setSite_keeps h1))))) (keepsX_next ha3)

theorem execSiteRails_keeps {r : State} {a0 : Fin 8} {a1 : OdWrite} {a2 : State} (ha2 : Keeps r a2) :
    KeepsX r (execSiteRails a0 a1 a2) := by
  unfold execSiteRails
  exact State.odCmd_keeps ha2 (fun _ h0 => State.odWrite_keeps h0 (fun _ h1 => State.ownSiteRails_keeps h1))

theorem execRailDieCap_keeps {r : State} {a0 : Fin 64} {a1 : OdWrite} {a2 : State} (ha2 : Keeps r a2) :
    KeepsX r (execRailDieCap a0 a1 a2) := by
  unfold execRailDieCap
  exact State.odCmd_keeps ha2 (fun _ h0 => State.odWrite_keeps h0 (fun _ h1 => State.ownRailDieCap_keeps h1))

theorem execSiteSeqGapExpiry_keeps {r : State} {a0 : Fin 8} {a1 : State} (ha1 : Keeps r a1) :
    KeepsX r (execSiteSeqGapExpiry a0 a1) := by
  unfold execSiteSeqGapExpiry
  split
  · exact keepsX_next (State.railsUp_keeps ha1)
  · exact keepsX_next (State.railsDown_keeps ha1)
  · exact keepsX_next ha1

theorem State.ownStoreCommit_keeps {r : State} {a0 : State} (ha0 : Keeps r a0) :
    Keeps r (State.ownStoreCommit a0) := by
  unfold State.ownStoreCommit
  extract_lets +onlyGivenNames x0
  have h0 : Keeps r x0 := State.odHold_keeps ha0
  try clear_value x0
  exact keepsS_ite (keeps_mk h0) (State.startCommit_keeps h0)

theorem State.commitNext_keeps {r : State} {a0 : State} (ha0 : Keeps r a0) :
    Keeps r (State.commitNext a0) := by
  unfold State.commitNext
  extract_lets +onlyGivenNames x0
  try clear_value x0
  exact keepsS_ite ha0 (keepsS_ite (State.startCommit_keeps (keeps_mk ha0)) (keepsS_ite (State.startCommit_keeps ha0) (keepsS_ite (State.startCommit_keeps ha0) ha0)))

theorem State.ownStoreDefaults_keeps {r : State} {a0 : State} (ha0 : Keeps r a0) :
    Keeps r (State.ownStoreDefaults a0) := by
  unfold State.ownStoreDefaults
  extract_lets +onlyGivenNames x0
  try clear_value x0
  exact State.odDone_keeps (State.commitNext_keeps (keeps_mk ha0))

theorem State.seal_keeps {r : State} {a0 : State} {a1 : Bool} (ha0 : Keeps r a0) :
    Keeps r (State.seal a0 a1) := by
  unfold State.seal
  split
  · exact keeps_mk ha0
  · exact keepsS_ite (keeps_mk ha0) (by
    extract_lets +onlyGivenNames x0
    try clear_value x0
    extract_lets +onlyGivenNames x1
    try clear_value x1
    extract_lets +onlyGivenNames x2
    have h2 : Keeps r x2 := State.drew_keeps ha0
    try clear_value x2
    exact keeps_mk h2)

theorem State.takeCopy_keeps {r : State} {a0 : State} {a1 : Bool} (ha0 : Keeps r a0) :
    Keeps r (State.takeCopy a0 a1) := by
  unfold State.takeCopy
  extract_lets +onlyGivenNames x0
  try clear_value x0
  extract_lets +onlyGivenNames x1
  have h1 : Keeps r x1 := keeps_mk ha0
  try clear_value x1
  exact State.wr_keeps (State.wr_keeps h1)

theorem State.loadStore_keeps {r s : State} (h : Keeps r s) : Keeps r s.loadStore.1 := by
  have h2 : Keeps r (s.raise Ev.STORE_LOST 0 0) := State.raise_keeps h
  unfold State.loadStore
  cases s.mram.bootCopy with
  | some b => exact State.takeCopy_keeps h
  | none =>
    simp only
    generalize s.raise Ev.STORE_LOST 0 0 = x at h2
    exact keepsP1_ite h2 h

theorem State.storeIdle_keeps {r : State} {a0 : State} (ha0 : Keeps r a0) :
    Keeps r (State.storeIdle a0) := by
  unfold State.storeIdle
  exact keepsS_ite ha0 (State.wr_keeps ha0)

theorem State.commitFailed_keeps {r : State} {a0 : State} {a1 : Commit} (ha0 : Keeps r a0) :
    Keeps r (State.commitFailed a0 a1) := by
  unfold State.commitFailed
  extract_lets +onlyGivenNames x0
  have h0 : Keeps r x0 := keeps_mk ha0
  try clear_value x0
  extract_lets +onlyGivenNames x1
  have h1 : Keeps r x1 := State.commitNext_keeps (State.raise_keeps (State.wr_keeps h0))
  try clear_value x1
  exact keepsS_ite (State.odAnswer_keeps h1) h1

theorem State.commitDone_keeps {r : State} {a0 : State} {a1 : Commit} (ha0 : Keeps r a0) :
    Keeps r (State.commitDone a0 a1) := by
  unfold State.commitDone
  extract_lets +onlyGivenNames x0
  have h0 : Keeps r x0 := keeps_mk ha0
  try clear_value x0
  extract_lets +onlyGivenNames x1
  have h1 : Keeps r x1 := State.count_keeps (State.wr_keeps h0)
  try clear_value x1
  extract_lets +onlyGivenNames x2
  have h2 : Keeps r x2 := State.commitNext_keeps (State.storeIdle_keeps h1)
  try clear_value x2
  exact keepsS_ite (State.odAnswer_keeps h2) h2

theorem execStoreCommit_keeps {r : State} {a0 : OdWrite} {a1 : State} (ha1 : Keeps r a1) :
    KeepsX r (execStoreCommit a0 a1) := by
  unfold execStoreCommit
  exact State.odCmd_keeps ha1 (fun _ h0 => State.odWrite_keeps h0 (fun _ h1 => State.ownStoreCommit_keeps h1))

theorem execStoreDelayExpiry_keeps {r : State} {a0 : State} (ha0 : Keeps r a0) :
    KeepsX r (execStoreDelayExpiry a0) := by
  unfold execStoreDelayExpiry
  exact keepsX_ite (keepsX_next (State.startCommit_keeps ha0)) (keepsX_next ha0)

theorem execStoreDefaults_keeps {r : State} {a0 : OdWrite} {a1 : State} (ha1 : Keeps r a1) :
    KeepsX r (execStoreDefaults a0 a1) := by
  unfold execStoreDefaults
  exact State.odCmd_keeps ha1 (fun _ h0 => State.odWrite_keeps h0 (fun _ h1 => State.ownStoreDefaults_keeps h1))

theorem execCommitDone_keeps {r : State} {a0 : CommitOutcome} {a1 : State} (ha1 : Keeps r a1) :
    KeepsX r (execCommitDone a0 a1) := by
  unfold execCommitDone
  split
  · exact keepsX_next ha1
  · split
    · exact keepsX_next (State.commitDone_keeps ha1)
    · exact keepsX_next (State.commitDone_keeps ha1)
    · exact keepsX_next (State.commitFailed_keeps ha1)
    · exact keepsX_next ha1
    · exact keepsX_next ha1

theorem State.placeField_keeps {r : State} {a0 : State} {a1 : Nat} (ha0 : Keeps r a0) :
    Keeps r (State.placeField a0 a1) := by
  unfold State.placeField
  exact keeps_foldl (fun _ _ h0 => by
  split
  · exact State.wr_keeps (State.wr_keeps h0)
  · exact State.wr_keeps h0) ha0

theorem State.extend_keeps {r : State} {a0 : State} {a1 : Nat} {a2 : Nat} {a3 : Nat} (ha0 : Keeps r a0) :
    Keeps r (State.extend a0 a1 a2 a3) := by
  unfold State.extend
  exact State.wr_keeps ha0

theorem State.bankStop_keeps {r : State} {a0 : State} (ha0 : Keeps r a0) :
    Keeps r (State.bankStop a0) := by
  unfold State.bankStop
  exact keeps_foldl (fun _ _ h0 => keepsS_ite (State.wr_keeps h0) h0) ha0

theorem State.sealNow_keeps {r : State} {a0 : State} (ha0 : Keeps r a0) :
    Keeps r (State.sealNow a0) := by
  unfold State.sealNow
  exact keepsS_ite ha0 (State.seal_keeps (State.drew_keeps ha0))

theorem State.restart_keeps {r s : State} {c : Nat} (h : Keeps r s) : Keeps r (s.restart c) := by
  unfold State.restart
  extract_lets x
  have hx : Keeps r x := State.bankStop_keeps (State.sealNow_keeps h)
  clear_value x
  exact State.wr_keeps ⟨hx.variant, hx.pending, hx.out, hx.free, fun _ => rfl, fun _ => rfl, fun _ => Nat.zero_le _, fun _ => Nat.zero_le _⟩

theorem State.resettingTo_keeps {r : State} {a0 : State} {a1 : Nat} {a2 : Nat} (ha0 : Keeps r a0) :
    Keeps r (State.resettingTo a0 a1 a2) := by
  unfold State.resettingTo
  exact State.sendLink_keeps ha0

theorem State.keepLinks_keeps {r : State} {a0 : State} {a1 : State} (ha0 : Keeps r a0) (_ha1 : Keeps r a1) :
    Keeps r (State.keepLinks a0 a1) := by
  unfold State.keepLinks
  extract_lets +onlyGivenNames x0
  try clear_value x0
  exact keeps_mk ha0

theorem State.post_keeps {r : State} {a0 : State} {a1 : Nat} {a2 : Nat} (ha0 : Keeps r a0) :
    Keeps r (State.post a0 a1 a2) := by
  unfold State.post
  extract_lets +onlyGivenNames x0
  have h0 : Keeps r x0 := State.wr_keeps ha0
  try clear_value x0
  extract_lets +onlyGivenNames x1
  try clear_value x1
  extract_lets +onlyGivenNames x2
  have h2 : Keeps r x2 := keeps_mk h0
  try clear_value x2
  extract_lets +onlyGivenNames x3
  have h3 : Keeps r x3 := keepsS_ite (keeps_foldl (fun _ _ h4 => State.raise_keeps h4) h2) h2
  try clear_value x3
  exact State.raise_keeps h3

theorem State.stageReport_keeps {r : State} {a0 : State} {a1 : Nat} {a2 : Nat} {a3 : Nat} {a4 : Bool} {a5 : Bool} (ha0 : Keeps r a0) :
    Keeps r (State.stageReport a0 a1 a2 a3 a4 a5) := by
  unfold State.stageReport
  extract_lets +onlyGivenNames x0
  try clear_value x0
  extract_lets +onlyGivenNames x1
  try clear_value x1
  extract_lets +onlyGivenNames x2
  try clear_value x2
  extract_lets +onlyGivenNames x3
  try clear_value x3
  extract_lets +onlyGivenNames x4
  try clear_value x4
  extract_lets +onlyGivenNames x5
  try clear_value x5
  extract_lets +onlyGivenNames x6
  try clear_value x6
  extract_lets +onlyGivenNames x7
  have h7 : Keeps r x7 := keeps_mk ha0
  try clear_value x7
  exact keepsS_ite (keeps_mk h7) (State.post_keeps h7)

theorem State.logView_keeps {r : State} {a0 : State} (ha0 : Keeps r a0) :
    Keeps r (State.logView a0) := by
  unfold State.logView
  exact State.wr_keeps (State.wr_keeps ha0)

theorem State.stage3_keeps {r : State} {a0 : State} {a1 : Bool} (ha0 : Keeps r a0) :
    Keeps r (State.stage3 a0 a1) := by
  unfold State.stage3
  extract_lets +onlyGivenNames x0
  have h0 : Keeps r x0 := State.wr_keeps ha0
  try clear_value x0
  extract_lets +onlyGivenNames x1
  have h1 : Keeps r x1 := keeps_foldl (fun _ _ h2 => State.post_keeps h2) h0
  try clear_value x1
  extract_lets +onlyGivenNames x3
  try clear_value x3
  extract_lets +onlyGivenNames x4
  have h4 : Keeps r x4 := keeps_mk h1
  try clear_value x4
  extract_lets +onlyGivenNames x5
  have h5 : Keeps r x5.1 := State.loadStore_keeps h4
  try clear_value x5
  extract_lets +onlyGivenNames x6
  try clear_value x6
  extract_lets +onlyGivenNames x7
  have h7 : Keeps r x7 := h5
  try clear_value x7
  extract_lets +onlyGivenNames x8
  have h8 : Keeps r x8 := keepsS_ite (keeps_mk h7) h7
  try clear_value x8
  extract_lets +onlyGivenNames x9
  try clear_value x9
  extract_lets +onlyGivenNames x10
  have h10 : Keeps r x10 := keeps_mk h8
  try clear_value x10
  extract_lets +onlyGivenNames x11
  have h11 : Keeps r x11 := State.wr_keeps (State.wr_keeps (State.logView_keeps h10))
  try clear_value x11
  extract_lets +onlyGivenNames x12
  try clear_value x12
  extract_lets +onlyGivenNames x13
  have h13 : Keeps r x13 := keepsS_ite (State.raise_keeps (keeps_mk h11)) h11
  try clear_value x13
  extract_lets +onlyGivenNames x14
  have h14 : Keeps r x14 := State.wr_keeps (State.wr_keeps (State.drew_keeps h13))
  try clear_value x14
  extract_lets +onlyGivenNames x15
  have h15 : Keeps r x15 := keepsS_ite h14 (State.wr_keeps h14)
  try clear_value x15
  exact keeps_foldl (fun _ _ h16 => State.fieldRuns_keeps (State.setClk_keeps h16)) h15

theorem State.linkHold_keeps {r : State} {a0 : State} {a1 : Nat} (ha0 : Keeps r a0) :
    Keeps r (State.linkHold a0 a1) := by
  unfold State.linkHold
  extract_lets +onlyGivenNames x0
  have h0 : Keeps r x0 := keeps_foldl (fun _ _ h1 => by
    split
    · exact State.resettingTo_keeps (State.freeChunks_keeps h1)
    · exact h1) ha0
  try clear_value x0
  extract_lets +onlyGivenNames x2
  have h2 : Keeps r x2 := State.keepLinks_keeps (State.restart_keeps h0) h0
  try clear_value x2
  extract_lets +onlyGivenNames x3
  have h3 : Keeps r x3 := keeps_foldl (fun _ _ h4 => State.stageReport_keeps (State.wr_keeps h4)) h2
  try clear_value x3
  exact State.stage3_keeps h3

theorem State.fieldDead_keeps {r : State} {a0 : State} {a1 : Nat} (ha0 : Keeps r a0) :
    Keeps r (State.fieldDead a0 a1) := by
  unfold State.fieldDead
  extract_lets +onlyGivenNames x0
  try clear_value x0
  extract_lets +onlyGivenNames x1
  have h1 : Keeps r x1 := keeps_mk ha0
  try clear_value x1
  extract_lets +onlyGivenNames x2
  try clear_value x2
  extract_lets +onlyGivenNames x3
  have h3 : Keeps r x3 := keeps_foldl (fun _ _ h4 => State.setCache_keeps h4) h1
  try clear_value x3
  extract_lets +onlyGivenNames x5
  have h5 : Keeps r x5 := keeps_foldl (fun _ _ h6 => State.wr_keeps h6) h3
  try clear_value x5
  exact keeps_foldl (fun _ _ h7 => State.wr_keeps h7) h5

theorem State.otherFails_keeps {r : State} {a0 : State} {a1 : StageOutcome} {a2 : List Nat} (ha0 : Keeps r a0) :
    Keeps r (State.otherFails a0 a1 a2) := by
  unfold State.otherFails
  exact keeps_foldl (fun _ _ h0 => State.noteFail_keeps h0) ha0

theorem State.halt_keeps {r : State} {a0 : State} {a1 : Nat} {a2 : Nat} {a3 : Nat} (ha0 : Keeps r a0) :
    Keeps r (State.halt a0 a1 a2 a3) := by
  unfold State.halt
  exact State.wr_keeps (State.stageReport_keeps ha0)

theorem State.mapLost_keeps {r : State} {a0 : State} (ha0 : Keeps r a0) :
    Keeps r (State.mapLost a0) := by
  unfold State.mapLost
  extract_lets +onlyGivenNames x0
  try clear_value x0
  extract_lets +onlyGivenNames x1
  have h1 : Keeps r x1 := keeps_foldl (fun _ _ h2 => State.wr_keeps h2) ha0
  try clear_value x1
  exact State.raise_keeps (State.wr_keeps (State.wr_keeps (State.wr_keeps h1)))

theorem State.bankTake_keeps {r : State} {a0 : State} {a1 : Nat} {a2 : Bool} (ha0 : Keeps r a0) :
    Keeps r (State.bankTake a0 a1 a2) := by
  unfold State.bankTake
  extract_lets +onlyGivenNames x0
  try clear_value x0
  extract_lets +onlyGivenNames x1
  try clear_value x1
  extract_lets +onlyGivenNames x2
  have h2 : Keeps r x2 := keeps_mk ha0
  try clear_value x2
  extract_lets +onlyGivenNames x3
  have h3 : Keeps r x3 := State.wr_keeps (State.wr_keeps h2)
  try clear_value x3
  exact State.extend_keeps (State.extend_keeps h3)

theorem State.sliceOut_keeps {r : State} {a0 : State} {a1 : Nat} (ha0 : Keeps r a0) :
    Keeps r (State.sliceOut a0 a1) := by
  unfold State.sliceOut
  exact keepsS_ite (State.setCache_keeps ha0) (State.wr_keeps ha0)

theorem State.mapOut_keeps {r : State} {a0 : State} (ha0 : Keeps r a0) :
    Keeps r (State.mapOut a0) := by
  unfold State.mapOut
  exact keeps_foldl (fun _ _ h0 => by
  extract_lets +onlyGivenNames x1
  try clear_value x1
  extract_lets +onlyGivenNames x2
  try clear_value x2
  exact keepsS_ite h0 (keepsS_ite (keepsS_ite h0 (State.fieldDead_keeps h0)) (keepsS_ite (State.sliceOut_keeps h0) (keepsS_ite (State.wr_keeps h0) h0)))) ha0

theorem State.takeFails_keeps {r : State} {a0 : State} {a1 : List (Nat × Nat)} (ha0 : Keeps r a0) :
    Keeps r (State.takeFails a0 a1) := by
  unfold State.takeFails
  exact keeps_foldl (fun _ _ h0 => State.noteFail_keeps (State.addDefect_keeps h0)) ha0

theorem State.imageBad_keeps {r : State} {a0 : State} {a1 : Nat} (ha0 : Keeps r a0) :
    Keeps r (State.imageBad a0 a1) := by
  unfold State.imageBad
  exact keepsS_ite (State.halt_keeps ha0) (by
  extract_lets +onlyGivenNames x0
  have h0 : Keeps r x0 := State.stageReport_keeps ha0
  try clear_value x0
  exact State.stage3_keeps (keeps_mk h0))

theorem State.place_keeps {r : State} {a0 : State} (ha0 : Keeps r a0) :
    Keeps r (State.place a0) := by
  unfold State.place
  extract_lets +onlyGivenNames x0
  have h0 : Keeps r x0 := keeps_foldl (fun _ _ h1 => keepsS_ite (State.wr_keeps h1) h1) (State.clearObj_keeps ha0)
  try clear_value x0
  exact keeps_foldl (fun _ _ h2 => State.placeField_keeps h2) h0

theorem State.stage6_keeps {r : State} {a0 : State} (ha0 : Keeps r a0) :
    Keeps r (State.stage6 a0) := by
  unfold State.stage6
  extract_lets +onlyGivenNames x0
  have h0 : Keeps r x0 := State.wr_keeps ha0
  try clear_value x0
  extract_lets +onlyGivenNames x1
  try clear_value x1
  extract_lets +onlyGivenNames x2
  have h2 : Keeps r x2 := keepsS_ite h0 (keeps_foldl (fun _ _ h3 => keepsS_ite (State.chanOut_keeps h3) h3) h0)
  try clear_value x2
  exact keeps_foldl (fun _ _ h4 => keepsS_ite (State.wr_keeps h4) h4) h2

theorem State.migAgain_keeps {r : State} {a0 : State} (ha0 : Keeps r a0) :
    Keeps r (State.migAgain a0) := by
  unfold State.migAgain
  exact keeps_foldl (fun _ _ h0 => keepsS_ite (State.wr_keeps (State.setChan_keeps h0)) h0) ha0

theorem State.meshTest_keeps {r : State} {a0 : State} {a1 : List (Nat × Nat)} (ha0 : Keeps r a0) :
    Keeps r (State.meshTest a0 a1) := by
  unfold State.meshTest
  extract_lets +onlyGivenNames x0
  have h0 : Keeps r x0 := keeps_foldl (fun _ _ h1 => keepsS_ite (State.failRouterAs_keeps h1) h1) ha0
  try clear_value x0
  extract_lets +onlyGivenNames x2
  have h2 : Keeps r x2 := keeps_foldl (fun _ _ h3 => State.noteFail_keeps (State.failRouterAs_keeps h3)) h0
  try clear_value x2
  exact keepsS_ite h2 (by
  extract_lets +onlyGivenNames x4
  have h4 : Keeps r x4 := State.settleRoutes_keeps h2
  try clear_value x4
  exact State.wr_keeps h4)

theorem State.stage9_keeps {r : State} {a0 : State} (ha0 : Keeps r a0) :
    Keeps r (State.stage9 a0) := by
  unfold State.stage9
  exact State.enforce_keeps (State.wr_keeps (State.wr_keeps ha0))

theorem State.stage8_keeps {r : State} {a0 : State} (ha0 : Keeps r a0) :
    Keeps r (State.stage8 a0) := by
  unfold State.stage8
  exact keeps_foldl (fun _ _ h0 => keepsS_ite (State.linkRise_keeps h0) h0) (State.wr_keeps ha0)

theorem State.stage10_keeps {r : State} {a0 : State} (ha0 : Keeps r a0) :
    Keeps r (State.stage10 a0) := by
  unfold State.stage10
  extract_lets +onlyGivenNames x0
  have h0 : Keeps r x0 := State.refreshLinks_keeps (State.refreshGroups_keeps ha0)
  try clear_value x0
  extract_lets +onlyGivenNames x1
  have h1 : Keeps r x1 := keepsS_ite (State.setSync_keeps h0) h0
  try clear_value x1
  exact keeps_foldl (fun _ _ h2 => keepsS_ite (State.siteStart_keeps h2) (keepsS_ite (State.wr_keeps h2) h2)) h1

theorem State.logWrite_keeps {r : State} {a0 : State} {a1 : LogEnt} (ha0 : Keeps r a0) :
    Keeps r (State.logWrite a0 a1) := by
  unfold State.logWrite
  extract_lets +onlyGivenNames x0
  try clear_value x0
  exact State.logView_keeps (keeps_mk ha0)

theorem State.logTear_keeps {r : State} {a0 : State} (ha0 : Keeps r a0) :
    Keeps r (State.logTear a0) := by
  unfold State.logTear
  extract_lets +onlyGivenNames x0
  try clear_value x0
  exact keeps_mk ha0

end Sys2Proof.Machine
end

