-- ==== Sys2Proof/Laws/KeepsFirmware.lean ====
section
/-! SUPPORT. What every operation keeps (Laws/Keeps.lean), one lemma each: partitions, firmware, resets and start-up (chapters 02, 09, 15 and 16). -/

namespace Sys2Proof.Machine

theorem State.ownOverflowClear_keeps {r : State} {a0 : State} {a1 : Nat} (ha0 : Keeps r a0) :
    Keeps r (State.ownOverflowClear a0 a1) := by
  unfold State.ownOverflowClear
  exact State.odDone_keeps (keeps_foldl (fun _ _ h0 => State.wr_keeps h0) (State.wr_keeps ha0))

theorem State.ownLogSelect_keeps {r : State} {a0 : State} {a1 : OdWrite} (ha0 : Keeps r a0) :
    Keeps r (State.ownLogSelect a0 a1) := by
  unfold State.ownLogSelect
  extract_lets +onlyGivenNames x0
  try clear_value x0
  extract_lets +onlyGivenNames x1
  try clear_value x1
  exact State.odSet_keeps (State.wr_keeps ha0)

theorem execFaultLogWrite_keeps {r s : State} (h : Keeps r s) : KeepsX r (execFaultLogWrite s) := by
  unfold execFaultLogWrite
  split
  · exact keepsX_next h
  · rename_i e l he
    refine keepsX_next (State.logWrite_keeps ⟨h.variant, h.pending, h.out, h.free, h.mem, h.poison, h.events, fun w => ?_⟩)
    have := h.flog w; rw [he, List.length_cons] at this; exact Nat.le_of_succ_le this

theorem execFieldCtrlFail_keeps {r : State} {a0 : Fin 8} {a1 : State} (ha1 : Keeps r a1) :
    KeepsX r (execFieldCtrlFail a0 a1) := by
  unfold execFieldCtrlFail
  exact keepsX_ite (keepsX_next ha1) (by
  extract_lets +onlyGivenNames x0
  try clear_value x0
  extract_lets +onlyGivenNames x1
  try clear_value x1
  exact keepsX_next (State.recordTo_keeps (State.recordTo_keeps ha1)))

theorem execFaultLogSelect_keeps {r : State} {a0 : OdWrite} {a1 : State} (ha1 : Keeps r a1) :
    KeepsX r (execFaultLogSelect a0 a1) := by
  unfold execFaultLogSelect
  exact State.odCmd_keeps ha1 (fun _ h0 => State.odWrite_keeps h0 (fun _ h1 => State.ownLogSelect_keeps h1))

theorem execFaultOverflowClear_keeps {r : State} {a0 : Fin 16} {a1 : OdWrite} {a2 : State} (ha2 : Keeps r a2) :
    KeepsX r (execFaultOverflowClear a0 a1 a2) := by
  unfold execFaultOverflowClear
  exact State.odCmd_keeps ha2 (fun _ h0 => State.odWrite_keeps h0 (fun _ h1 => State.ownOverflowClear_keeps h1))

theorem State.ownRebind_keeps {r : State} {a0 : State} {a1 : Resource} {a2 : OdWrite} (ha0 : Keeps r a0) :
    Keeps r (State.ownRebind a0 a1 a2) := by
  unfold State.ownRebind
  extract_lets +onlyGivenNames x0
  try clear_value x0
  exact keepsS_ite (State.odFail_keeps ha0) (keepsS_ite (State.odSet_keeps ha0) (by
  extract_lets +onlyGivenNames x1
  try clear_value x1
  extract_lets +onlyGivenNames x2
  have h2 : Keeps r x2 := State.odHold_keeps ha0
  try clear_value x2
  extract_lets +onlyGivenNames x3
  have h3 : Keeps r x3 := keeps_mk h2
  try clear_value x3
  exact State.faultAll_keeps h3))

theorem execTePartition_keeps {r : State} {a0 : Fin 512} {a1 : OdWrite} {a2 : State} (ha2 : Keeps r a2) :
    KeepsX r (execTePartition a0 a1 a2) := by
  unfold execTePartition
  exact State.odCmd_keeps ha2 (fun _ h0 => State.odWrite_keeps h0 (fun _ h1 => State.ownRebind_keeps h1))

theorem State.winInstall_keeps {r : State} {a0 : State} {a1 : Nat} {a2 : Nat} {a3 : Nat} {a4 : Nat} {a5 : Nat} {a6 : Reply} (ha0 : Keeps r a0) :
    Keeps r (State.winInstall a0 a1 a2 a3 a4 a5 a6) := by
  unfold State.winInstall
  split
  · exact State.wcmd_keeps ha0
  · exact State.reply_keeps ha0

theorem State.ownWindow_keeps {r : State} {a0 : State} {a1 : Nat} {a2 : OdWrite} (ha0 : Keeps r a0) :
    Keeps r (State.ownWindow a0 a1 a2) := by
  unfold State.ownWindow
  exact State.winInstall_keeps (State.odHold_keeps ha0)

theorem State.ownPartEnable_keeps {r : State} {a0 : State} {a1 : Nat} {a2 : OdWrite} (ha0 : Keeps r a0) :
    Keeps r (State.ownPartEnable a0 a1 a2) := by
  unfold State.ownPartEnable
  exact keepsS_ite (State.odDone_keeps (State.wr_keeps ha0)) (State.wcmd_keeps (State.odHold_keeps ha0))

theorem State.ownPartDomain_keeps {r : State} {a0 : State} {a1 : Nat} {a2 : OdWrite} (ha0 : Keeps r a0) :
    Keeps r (State.ownPartDomain a0 a1 a2) := by
  unfold State.ownPartDomain
  exact keepsS_ite (State.odFail_keeps ha0) (keepsS_ite (State.odFail_keeps ha0) (State.odSet_keeps ha0))

theorem State.ownLinkMask_keeps {r : State} {a0 : State} {a1 : Nat} {a2 : OdWrite} (ha0 : Keeps r a0) :
    Keeps r (State.ownLinkMask a0 a1 a2) := by
  unfold State.ownLinkMask
  extract_lets +onlyGivenNames x0
  try clear_value x0
  extract_lets +onlyGivenNames x1
  try clear_value x1
  exact keepsS_ite (State.odSet_keeps ha0) (by
  extract_lets +onlyGivenNames x2
  have h2 : Keeps r x2 := State.storeTouch_keeps (State.wr_keeps (State.odHold_keeps ha0))
  try clear_value x2
  exact keeps_foldl (fun _ _ h3 => State.wcmd_keeps h3) h2)

theorem State.restamp_keeps {r : State} {a0 : State} {a1 : Resource} {a2 : Nat} {a3 : Nat} (ha0 : Keeps r a0) :
    Keeps r (State.restamp a0 a1 a2 a3) := by
  unfold State.restamp
  exact keeps_foldl (fun _ _ h0 => keepsS_ite (State.setReq_keeps h0) h0) ha0

theorem execPfDataPartition_keeps {r : State} {a0 : OdWrite} {a1 : State} (ha1 : Keeps r a1) :
    KeepsX r (execPfDataPartition a0 a1) := by
  unfold execPfDataPartition
  exact State.odCmd_keeps ha1 (fun _ h0 => State.odWrite_keeps h0 (fun _ h1 => State.ownRebind_keeps h1))

theorem execRebindDrainExpiry_keeps {r : State} {a0 : Resource} {a1 : State} (ha1 : Keeps r a1) :
    KeepsX r (execRebindDrainExpiry a0 a1) := by
  unfold execRebindDrainExpiry
  split
  · exact keepsX_next ha1
  · extract_lets +onlyGivenNames x0
    have h0 : Keeps r x0 := State.revoke_keeps ha1
    try clear_value x0
    exact keepsX_next (keeps_mk h0)

theorem execWinInstall_keeps {r : State} {a0 : CmdSrc} {a1 : State} (ha1 : Keeps r a1) :
    KeepsX r (execWinInstall a0 a1) := by
  unfold execWinInstall
  split
  · extract_lets +onlyGivenNames x0
    try clear_value x0
    exact keepsX_next (State.hostCmd_keeps ha1 (fun _ h1 => State.winInstall_keeps h1))
  · exact State.odCmd_keeps ha1 (fun _ h2 => State.odWrite_keeps h2 (fun _ h3 => State.ownWindow_keeps h3))
  · exact keepsX_next (State.attachTake_keeps ha1 (fun _ h4 => h4))
  · exact keepsX_next ha1

theorem execPartEnable_keeps {r : State} {a0 : Fin 16} {a1 : OdWrite} {a2 : State} (ha2 : Keeps r a2) :
    KeepsX r (execPartEnable a0 a1 a2) := by
  unfold execPartEnable
  exact State.odCmd_keeps ha2 (fun _ h0 => State.odWrite_keeps h0 (fun _ h1 => State.ownPartEnable_keeps h1))

theorem execFaultStallExpiry_keeps {r : State} {a0 : Nat} {a1 : State} (ha1 : Keeps r a1) :
    KeepsX r (execFaultStallExpiry a0 a1) := by
  unfold execFaultStallExpiry
  split
  · exact keepsX_ite (keepsX_next (State.faultParked_keeps (State.failRecord_keeps ha1))) (keepsX_next ha1)
  · exact keepsX_next ha1

theorem execPartDomain_keeps {r : State} {a0 : Fin 16} {a1 : OdWrite} {a2 : State} (ha2 : Keeps r a2) :
    KeepsX r (execPartDomain a0 a1 a2) := by
  unfold execPartDomain
  exact State.odCmd_keeps ha2 (fun _ h0 => State.odWrite_keeps h0 (fun _ h1 => State.ownPartDomain_keeps h1))

theorem execRebindStampSwitch_keeps {r : State} {a0 : Resource} {a1 : State} (ha1 : Keeps r a1) :
    KeepsX r (execRebindStampSwitch a0 a1) := by
  unfold execRebindStampSwitch
  split
  · exact keepsX_next ha1
  · exact keepsX_ite (keepsX_next ha1) (by
    extract_lets +onlyGivenNames x0
    have h0 : Keeps r x0 := by
      unfold x0
      split
      · exact State.ringStopAll_keeps ha1
      · exact ha1
    try clear_value x0
    extract_lets +onlyGivenNames x1
    have h1 : Keeps r x1 := keeps_mk h0
    try clear_value x1
    exact keepsX_next (State.odDone_keeps (State.restamp_keeps (State.storeTouch_keeps (State.wr_keeps h1)))))

theorem execLinkPartMask_keeps {r : State} {a0 : Fin 64} {a1 : OdWrite} {a2 : State} (ha2 : Keeps r a2) :
    KeepsX r (execLinkPartMask a0 a1 a2) := by
  unfold execLinkPartMask
  exact State.odCmd_keeps ha2 (fun _ h0 => State.odWrite_keeps h0 (fun _ h1 => State.ownLinkMask_keeps h1))

theorem execPortPartition_keeps {r : State} {a0 : Fin 512} {a1 : OdWrite} {a2 : State} (ha2 : Keeps r a2) :
    KeepsX r (execPortPartition a0 a1 a2) := by
  unfold execPortPartition
  exact State.odCmd_keeps ha2 (fun _ h0 => State.odWrite_keeps h0 (fun _ h1 => State.ownRebind_keeps h1))

theorem execDrainLimitExpiry_keeps {r : State} {a0 : Fin 16} {a1 : State} (ha1 : Keeps r a1) :
    KeepsX r (execDrainLimitExpiry a0 a1) := by
  unfold execDrainLimitExpiry
  split
  · exact keepsX_next (State.ackDrain_keeps (State.revoke_keeps ha1))
  · exact keepsX_next ha1

theorem execFaultDeny_keeps {r : State} {a0 : CmdSrc} {a1 : State} (ha1 : Keeps r a1) :
    KeepsX r (execFaultDeny a0 a1) := by
  unfold execFaultDeny
  split
  · extract_lets +onlyGivenNames x0
    try clear_value x0
    exact keepsX_next (State.hostCmd_keeps ha1 (fun _ h1 => State.wcmd_keeps h1))
  · exact State.odCmd_keeps ha1 (fun _ h2 => State.odFail_keeps h2)
  · exact keepsX_next (State.attachTake_keeps ha1 (fun _ h3 => h3))
  · exact keepsX_next ha1

theorem execWithdrawalAck_keeps {r : State} {a0 : Fin 16} {a1 : State} (ha1 : Keeps r a1) :
    KeepsX r (execWithdrawalAck a0 a1) := by
  unfold execWithdrawalAck
  split
  · exact keepsX_ite (keepsX_next (State.ackDrain_keeps ha1)) (keepsX_next ha1)
  · exact keepsX_next ha1

theorem execWinWithdraw_keeps {r : State} {a0 : CmdSrc} {a1 : State} (ha1 : Keeps r a1) :
    KeepsX r (execWinWithdraw a0 a1) := by
  unfold execWinWithdraw
  split
  · extract_lets +onlyGivenNames x0
    try clear_value x0
    exact keepsX_next (State.hostCmd_keeps ha1 (fun _ h1 => State.wcmd_keeps h1))
  · exact State.odCmd_keeps ha1 (fun _ h2 => State.odWrite_keeps h2 (fun _ h3 => State.ownWindow_keeps h3))
  · exact keepsX_next (State.attachTake_keeps ha1 (fun _ h4 => h4))
  · exact keepsX_next ha1

theorem State.ownAdmit_keeps {r : State} {a0 : State} {a1 : Obj} {a2 : Nat} {a3 : OdWrite} (ha0 : Keeps r a0) :
    Keeps r (State.ownAdmit a0 a1 a2 a3) := by
  unfold State.ownAdmit
  extract_lets +onlyGivenNames x0
  have h0 : Keeps r x0 := State.wr_keeps ha0
  try clear_value x0
  exact keepsS_ite (State.odFail_keeps ha0) (State.odDone_keeps (State.refreshLinks_keeps (State.refreshGroups_keeps (State.setObj_keeps ha0))))

theorem State.ownMask_keeps {r : State} {a0 : State} {a1 : Obj} {a2 : Nat} {a3 : OdWrite} {a4 : Nat} (ha0 : Keeps r a0) :
    Keeps r (State.ownMask a0 a1 a2 a3 a4) := by
  unfold State.ownMask
  exact keepsS_ite (State.ownAdmit_keeps ha0) (State.odFail_keeps ha0)

theorem State.ownMissMin_keeps {r : State} {a0 : State} {a1 : Nat} {a2 : OdWrite} (ha0 : Keeps r a0) :
    Keeps r (State.ownMissMin a0 a1 a2) := by
  unfold State.ownMissMin
  exact keepsS_ite (State.odFail_keeps ha0) (State.odSet_keeps ha0)

theorem State.ownMissMax_keeps {r : State} {a0 : State} {a1 : Nat} {a2 : OdWrite} (ha0 : Keeps r a0) :
    Keeps r (State.ownMissMax a0 a1 a2) := by
  unfold State.ownMissMax
  exact keepsS_ite (State.odFail_keeps ha0) (State.odSet_keeps ha0)

theorem execClassMissMin_keeps {r : State} {a0 : Fin 64} {a1 : OdWrite} {a2 : State} (ha2 : Keeps r a2) :
    KeepsX r (execClassMissMin a0 a1 a2) := by
  unfold execClassMissMin
  exact State.odCmd_keeps ha2 (fun _ h0 => State.odWrite_keeps h0 (fun _ h1 => State.ownMissMin_keeps h1))

theorem execBwEstimateUpdate_keeps {r : State} {a0 : State} (ha0 : Keeps r a0) :
    KeepsX r (execBwEstimateUpdate a0) := by
  unfold execBwEstimateUpdate
  extract_lets +onlyGivenNames x0
  have h0 : Keeps r x0 := keeps_foldl (fun _ _ h1 => State.wr_keeps h1) ha0
  try clear_value x0
  extract_lets +onlyGivenNames x2
  have h2 : Keeps r x2 := keeps_foldl (fun _ _ h3 => State.wr_keeps h3) h0
  try clear_value x2
  exact keepsX_next ⟨h2.variant, h2.pending, h2.out, Nat.le_add_right_of_le ha0.free, h2.mem, h2.poison, h2.events, h2.flog⟩

theorem execLinkMask_keeps {r : State} {a0 : Fin 64} {a1 : OdWrite} {a2 : State} (ha2 : Keeps r a2) :
    KeepsX r (execLinkMask a0 a1 a2) := by
  unfold execLinkMask
  exact State.odCmd_keeps ha2 (fun _ h0 => State.odWrite_keeps h0 (fun _ h1 => State.ownMask_keeps h1))

theorem execLinkGuarantee_keeps {r : State} {a0 : Fin 64} {a1 : OdWrite} {a2 : State} (ha2 : Keeps r a2) :
    KeepsX r (execLinkGuarantee a0 a1 a2) := by
  unfold execLinkGuarantee
  exact State.odCmd_keeps ha2 (fun _ h0 => State.odWrite_keeps h0 (fun _ h1 => State.ownAdmit_keeps h1))

theorem execMemGuarantee_keeps {r : State} {a0 : Fin 64} {a1 : OdWrite} {a2 : State} (ha2 : Keeps r a2) :
    KeepsX r (execMemGuarantee a0 a1 a2) := by
  unfold execMemGuarantee
  exact State.odCmd_keeps ha2 (fun _ h0 => State.odWrite_keeps h0 (fun _ h1 => State.ownAdmit_keeps h1))

theorem execClassMissMax_keeps {r : State} {a0 : Fin 64} {a1 : OdWrite} {a2 : State} (ha2 : Keeps r a2) :
    KeepsX r (execClassMissMax a0 a1 a2) := by
  unfold execClassMissMax
  exact State.odCmd_keeps ha2 (fun _ h0 => State.odWrite_keeps h0 (fun _ h1 => State.ownMissMax_keeps h1))

theorem execMemGroupMask_keeps {r : State} {a0 : Fin 64} {a1 : OdWrite} {a2 : State} (ha2 : Keeps r a2) :
    KeepsX r (execMemGroupMask a0 a1 a2) := by
  unfold execMemGroupMask
  exact State.odCmd_keeps ha2 (fun _ h0 => State.odWrite_keeps h0 (fun _ h1 => State.ownMask_keeps h1))

theorem execLinkEfficiency_keeps {r : State} {a0 : OdWrite} {a1 : State} (ha1 : Keeps r a1) :
    KeepsX r (execLinkEfficiency a0 a1) := by
  unfold execLinkEfficiency
  exact State.odCmd_keeps ha1 (fun _ h0 => State.odWrite_keeps h0 (fun _ h1 => State.ownAdmit_keeps h1))

theorem execMemEfficiency_keeps {r : State} {a0 : OdWrite} {a1 : State} (ha1 : Keeps r a1) :
    KeepsX r (execMemEfficiency a0 a1) := by
  unfold execMemEfficiency
  exact State.odCmd_keeps ha1 (fun _ h0 => State.odWrite_keeps h0 (fun _ h1 => State.ownAdmit_keeps h1))

theorem State.runningBank_keeps {r : State} {a0 : State} (ha0 : Keeps r a0) :
    Keeps r (State.runningBank a0) := by
  unfold State.runningBank
  exact State.wr_keeps ha0

theorem State.ownFwBank_keeps {r : State} {a0 : State} {a1 : Nat} {a2 : OdWrite} (ha0 : Keeps r a0) :
    Keeps r (State.ownFwBank a0 a1 a2) := by
  unfold State.ownFwBank
  exact keepsS_ite (State.odFail_keeps ha0) (State.odDone_keeps (State.wr_keeps (State.wrLen_keeps (State.wr_keeps ha0))))

theorem State.ownMinSvn_keeps {r : State} {a0 : State} {a1 : OdWrite} (ha0 : Keeps r a0) :
    Keeps r (State.ownMinSvn a0 a1) := by
  unfold State.ownMinSvn
  exact keepsS_ite (State.odFail_keeps ha0) (State.odDone_keeps (State.wr_keeps ha0))

theorem State.moultEnd_keeps {r : State} {a0 : State} {a1 : Moult} {a2 : Nat} (ha0 : Keeps r a0) :
    Keeps r (State.moultEnd a0 a1 a2) := by
  unfold State.moultEnd
  extract_lets +onlyGivenNames x0
  try clear_value x0
  extract_lets +onlyGivenNames x1
  have h1 : Keeps r x1 := State.wr_keeps (keeps_mk ha0)
  try clear_value x1
  extract_lets +onlyGivenNames x2
  have h2 : Keeps r x2 := State.runningBank_keeps (State.extend_keeps h1)
  try clear_value x2
  exact keepsS_ite (State.raise_keeps h2) h2

theorem State.moultNext_keeps {r : State} {n : Nat} {s : State} {m : Moult} (h : Keeps r s) : Keeps r (State.moultNext n s m) := by
  induction n generalizing s m with
  | zero => exact State.moultEnd_keeps h
  | succ n ih =>
    unfold State.moultNext
    split
    · exact State.moultEnd_keeps h
    · exact keepsS_ite (State.moultEnd_keeps h) (ih h)
    · exact keeps_mk h

theorem State.ownMoult_keeps {r : State} {a0 : State} {a1 : OdWrite} (ha0 : Keeps r a0) :
    Keeps r (State.ownMoult a0 a1) := by
  unfold State.ownMoult
  extract_lets +onlyGivenNames x0
  try clear_value x0
  extract_lets +onlyGivenNames x1
  try clear_value x1
  extract_lets +onlyGivenNames x2
  have h2 : Keeps r x2 := State.wr_keeps ha0
  try clear_value x2
  exact keepsS_ite (State.odFail_keeps h2) (by
  extract_lets +onlyGivenNames x3
  try clear_value x3
  exact State.moultNext_keeps (State.odDone_keeps (State.wr_keeps (State.wr_keeps h2))))

theorem State.ownNonce_keeps {r : State} {a0 : State} {a1 : OdWrite} (ha0 : Keeps r a0) :
    Keeps r (State.ownNonce a0 a1) := by
  unfold State.ownNonce
  exact State.odDone_keeps (by
  extract_lets +onlyGivenNames x0
  have h0 : Keeps r x0 := State.wr_keeps ha0
  try clear_value x0
  exact keeps_mk h0)

theorem State.moultDrop_keeps {r : State} {a0 : State} {a1 : Nat → Bool} (ha0 : Keeps r a0) :
    Keeps r (State.moultDrop a0 a1) := by
  unfold State.moultDrop
  split
  · exact ha0
  · extract_lets +onlyGivenNames x0
    try clear_value x0
    exact keepsS_ite ha0 (State.moultNext_keeps ha0)

theorem execFwMinSvn_keeps {r : State} {a0 : OdWrite} {a1 : State} (ha1 : Keeps r a1) :
    KeepsX r (execFwMinSvn a0 a1) := by
  unfold execFwMinSvn
  exact State.odCmd_keeps ha1 (fun _ h0 => State.odWrite_keeps h0 (fun _ h1 => State.ownMinSvn_keeps h1))

theorem execMoultUnitSwitch_keeps {r : State} {a0 : State} (ha0 : Keeps r a0) :
    KeepsX r (execMoultUnitSwitch a0) := by
  unfold execMoultUnitSwitch
  split
  · split
    · exact keepsX_next (keeps_mk ha0)
    · exact keepsX_next ha0
  · exact keepsX_next ha0

theorem State.moultStep_keeps {r : State} {a0 : State} {a1 : Moult} {a2 : Nat} (ha0 : Keeps r a0) :
    Keeps r (State.moultStep a0 a1 a2) := by
  unfold State.moultStep
  exact State.moultNext_keeps ha0

theorem execMoultReadyTimeout_keeps {r : State} {a0 : State} (ha0 : Keeps r a0) :
    KeepsX r (execMoultReadyTimeout a0) := by
  unfold execMoultReadyTimeout
  split
  · split
    · exact keepsX_next (State.moultStep_keeps (State.raise_keeps ha0))
    · exact keepsX_next ha0
  · exact keepsX_next ha0

theorem execAttestReportReady_keeps {r : State} {a0 : State} (ha0 : Keeps r a0) :
    KeepsX r (execAttestReportReady a0) := by
  unfold execAttestReportReady
  exact keepsX_ite (by
  extract_lets +onlyGivenNames x0
  try clear_value x0
  extract_lets +onlyGivenNames x1
  try clear_value x1
  extract_lets +onlyGivenNames x2
  have h2 : Keeps r x2 := keeps_mk ha0
  try clear_value x2
  exact keepsX_next (State.wrLen_keeps (State.wr_keeps h2))) (keepsX_next ha0)

theorem State.runFrom_keeps {r : State} {a0 : State} {a1 : Nat} {a2 : Nat} (ha0 : Keeps r a0) :
    Keeps r (State.runFrom a0 a1 a2) := by
  unfold State.runFrom
  extract_lets +onlyGivenNames x0
  try clear_value x0
  exact keeps_mk ha0

theorem execFwBankProgrammed_keeps {r : State} {a0 : Fin 2} {a1 : Bool} {a2 : BankImage} {a3 : State} (ha3 : Keeps r a3) :
    KeepsX r (execFwBankProgrammed a0 a1 a2 a3) := by
  unfold execFwBankProgrammed
  exact keepsX_ite (by
  extract_lets +onlyGivenNames x0
  try clear_value x0
  extract_lets +onlyGivenNames x1
  have h1 : Keeps r x1 := keeps_mk ha3
  try clear_value x1
  exact keepsX_next (State.wr_keeps (State.wr_keeps h1))) (keepsX_next ha3)

theorem execMoultReady_keeps {r : State} {a0 : State} (ha0 : Keeps r a0) :
    KeepsX r (execMoultReady a0) := by
  unfold execMoultReady
  split
  · split
    · extract_lets +onlyGivenNames x0
      have h0 : Keeps r x0 := State.runningBank_keeps (State.count_keeps (State.runFrom_keeps ha0))
      try clear_value x0
      extract_lets +onlyGivenNames x1
      have h1 : Keeps r x1 := keepsS_ite (State.wr_keeps h0) h0
      try clear_value x1
      exact keepsX_next (State.moultStep_keeps h1)
    · exact keepsX_next ha0
  · exact keepsX_next ha0

theorem execMoultCommand_keeps {r : State} {a0 : OdWrite} {a1 : State} (ha1 : Keeps r a1) :
    KeepsX r (execMoultCommand a0 a1) := by
  unfold execMoultCommand
  exact State.odCmd_keeps ha1 (fun _ h0 => State.odWrite_keeps h0 (fun _ h1 => State.ownMoult_keeps h1))

theorem execAttestNonce_keeps {r : State} {a0 : OdWrite} {a1 : State} (ha1 : Keeps r a1) :
    KeepsX r (execAttestNonce a0 a1) := by
  unfold execAttestNonce
  exact State.odCmd_keeps ha1 (fun _ h0 => State.odWrite_keeps h0 (fun _ h1 => State.ownNonce_keeps h1))

theorem State.sliceClear_keeps {r : State} {a0 : State} {a1 : Nat} (ha0 : Keeps r a0) :
    Keeps r (State.sliceClear a0 a1) := by
  unfold State.sliceClear
  extract_lets +onlyGivenNames x0
  try clear_value x0
  exact State.setCache_keeps (keeps_foldl (fun _ _ h1 => State.wr_keeps h1) ha0)

theorem State.sliceResetOn_keeps {r : State} {a0 : State} {a1 : Nat} (ha0 : Keeps r a0) :
    Keeps r (State.sliceResetOn a0 a1).1 := by
  unfold State.sliceResetOn
  exact keepsP1_ite ha0 (keepsP1_ite ha0 (by
  extract_lets +onlyGivenNames x0
  try clear_value x0
  extract_lets +onlyGivenNames x1
  have h1 : Keeps r x1 := keeps_foldl (fun _ _ h2 => State.applyHot_keeps h2) ha0
  try clear_value x1
  exact keepsP1_ite h1 (by
  extract_lets +onlyGivenNames x3
  have h3 : Keeps r x3 := State.cleanSlice_keeps h1
  try clear_value x3
  exact keepsP1_ite h3 (State.sliceClear_keeps h3))))

theorem State.fieldResume_keeps {r : State} {a0 : State} {a1 : Nat} {a2 : Bool} (ha0 : Keeps r a0) :
    Keeps r (State.fieldResume a0 a1 a2) := by
  unfold State.fieldResume
  extract_lets +onlyGivenNames x0
  have h0 : Keeps r x0 := keeps_foldl (fun _ _ h1 => keepsS_ite h1 (State.wr_keeps h1)) ha0
  try clear_value x0
  extract_lets +onlyGivenNames x2
  have h2 : Keeps r x2 := keeps_foldl (fun _ _ h3 => by
    extract_lets +onlyGivenNames x4
    try clear_value x4
    exact keepsS_ite (State.portReset_keeps h3) h3) h0
  try clear_value x2
  exact keepsS_ite (keeps_foldl (fun _ _ h5 => by
  extract_lets +onlyGivenNames x6
  try clear_value x6
  exact keepsS_ite (State.linkRise_keeps h5) h5) h2) h2

theorem State.resetOn_keeps {r : State} {a0 : State} {a1 : Scope} (ha0 : Keeps r a0) :
    Keeps r (State.resetOn a0 a1) := by
  unfold State.resetOn
  extract_lets +onlyGivenNames x0
  have h0 : Keeps r x0.1 := keepsP1_foldl (fun _ _ h1 => by
    extract_lets +onlyGivenNames x2
    have h2 : Keeps r x2.1 := State.sliceResetOn_keeps h1
    try clear_value x2
    exact h2) ha0
  try clear_value x0
  exact keepsS_ite h0 (by
  extract_lets +onlyGivenNames x3
  have h3 : Keeps r x3 := h0
  try clear_value x3
  extract_lets +onlyGivenNames x4
  try clear_value x4
  extract_lets +onlyGivenNames x5
  have h5 : Keeps r x5 := keeps_mk h3
  try clear_value x5
  split
  · exact State.odAnswer_keeps h5
  · exact State.odAnswer_keeps (State.fieldResume_keeps h5))

theorem State.ownDefectAdd_keeps {r : State} {a0 : State} {a1 : OdWrite} (ha0 : Keeps r a0) :
    Keeps r (State.ownDefectAdd a0 a1) := by
  unfold State.ownDefectAdd
  extract_lets +onlyGivenNames x0
  try clear_value x0
  extract_lets +onlyGivenNames x1
  try clear_value x1
  exact keepsS_ite (State.odFail_keeps ha0) (keepsS_ite (State.odFail_keeps ha0) (State.odDone_keeps (State.addDefect_keeps ha0)))

theorem State.ownResetSlice_keeps {r : State} {a0 : State} {a1 : Nat} (ha0 : Keeps r a0) :
    Keeps r (State.ownResetSlice a0 a1) := by
  unfold State.ownResetSlice
  exact keepsS_ite (State.odFail_keeps ha0) (keepsS_ite (State.odFail_keeps ha0) (by
  extract_lets +onlyGivenNames x0
  try clear_value x0
  extract_lets +onlyGivenNames x1
  have h1 : Keeps r x1 := State.odHold_keeps (keeps_mk ha0)
  try clear_value x1
  exact State.moultDrop_keeps (State.sweepSliceEnd_keeps h1)))

theorem State.fieldStop_keeps {r : State} {a0 : State} {a1 : Nat} {a2 : Bool} (ha0 : Keeps r a0) :
    Keeps r (State.fieldStop a0 a1 a2) := by
  unfold State.fieldStop
  extract_lets +onlyGivenNames x0
  have h0 : Keeps r x0 := State.portsDown_keeps ha0
  try clear_value x0
  extract_lets +onlyGivenNames x1
  have h1 : Keeps r x1 := State.ringStopAll_keeps h0
  try clear_value x1
  extract_lets +onlyGivenNames x2
  have h2 : Keeps r x2 := State.launchReset_keeps h1
  try clear_value x2
  extract_lets +onlyGivenNames x3
  have h3 : Keeps r x3 := keeps_foldl (fun _ _ h4 => State.sweepSliceEnd_keeps h4) h2
  try clear_value x3
  exact keepsS_ite (keeps_foldl (fun _ _ h5 => keepsS_ite h5 (State.linkStop_keeps h5)) h3) h3

theorem State.ownResetField_keeps {r : State} {a0 : State} {a1 : Nat} {a2 : OdWrite} (ha0 : Keeps r a0) :
    Keeps r (State.ownResetField a0 a1 a2) := by
  unfold State.ownResetField
  exact keepsS_ite (State.odFail_keeps ha0) (by
  extract_lets +onlyGivenNames x0
  try clear_value x0
  extract_lets +onlyGivenNames x1
  have h1 : Keeps r x1 := State.odHold_keeps (keeps_mk ha0)
  try clear_value x1
  exact State.moultDrop_keeps (State.fieldStop_keeps h1))

theorem State.ownResetPartition_keeps {r : State} {a0 : State} {a1 : Nat} (ha0 : Keeps r a0) :
    Keeps r (State.ownResetPartition a0 a1) := by
  unfold State.ownResetPartition
  extract_lets +onlyGivenNames x0
  try clear_value x0
  extract_lets +onlyGivenNames x1
  try clear_value x1
  exact keepsS_ite (State.odFail_keeps ha0) (State.wcmd_keeps (State.faultAll_keeps (State.odHold_keeps ha0)))

theorem execDefectAdd_keeps {r : State} {a0 : OdWrite} {a1 : State} (ha1 : Keeps r a1) :
    KeepsX r (execDefectAdd a0 a1) := by
  unfold execDefectAdd
  exact State.odCmd_keeps ha1 (fun _ h0 => State.odWrite_keeps h0 (fun _ h1 => State.ownDefectAdd_keeps h1))

theorem execResetPartition_keeps {r : State} {a0 : Fin 16} {a1 : OdWrite} {a2 : State} (ha2 : Keeps r a2) :
    KeepsX r (execResetPartition a0 a1 a2) := by
  unfold execResetPartition
  exact State.odCmd_keeps ha2 (fun _ h0 => State.odWrite_keeps h0 (fun _ h1 => State.ownResetPartition_keeps h1))

theorem execResetSlice_keeps {r : State} {a0 : Fin 1024} {a1 : OdWrite} {a2 : State} (ha2 : Keeps r a2) :
    KeepsX r (execResetSlice a0 a1 a2) := by
  unfold execResetSlice
  exact State.odCmd_keeps ha2 (fun _ h0 => State.odWrite_keeps h0 (fun _ h1 => State.ownResetSlice_keeps h1))

theorem execResetField_keeps {r : State} {a0 : Fin 8} {a1 : OdWrite} {a2 : State} (ha2 : Keeps r a2) :
    KeepsX r (execResetField a0 a1 a2) := by
  unfold execResetField
  exact State.odCmd_keeps ha2 (fun _ h0 => State.odWrite_keeps h0 (fun _ h1 => State.ownResetField_keeps h1))

theorem State.tooHot_keeps {r : State} {a0 : State} {a1 : Nat} (ha0 : Keeps r a0) :
    Keeps r (State.tooHot a0 a1) := by
  unfold State.tooHot
  extract_lets +onlyGivenNames x0
  try clear_value x0
  extract_lets +onlyGivenNames x1
  have h1 : Keeps r x1 := State.raise_keeps (State.setClk_keeps ha0)
  try clear_value x1
  extract_lets +onlyGivenNames x2
  try clear_value x2
  exact keepsS_ite (State.clockReq_keeps h1) h1

theorem State.ownResetDevice_keeps {r : State} {a0 : State} {a1 : OdWrite} (ha0 : Keeps r a0) :
    Keeps r (State.ownResetDevice a0 a1) := by
  unfold State.ownResetDevice
  exact State.odDone_keeps (keeps_mk ha0)

theorem State.deviceReset_keeps {r : State} {a0 : State} (ha0 : Keeps r a0) :
    Keeps r (State.deviceReset a0) := by
  unfold State.deviceReset
  exact State.restart_keeps (keeps_foldl (fun _ _ h0 => keepsS_ite (State.portsDown_keeps h0) h0) ha0)

theorem State.runAsk_keeps {r : State} {a0 : State} (ha0 : Keeps r a0) :
    Keeps r (State.runAsk a0) := by
  unfold State.runAsk
  exact keepsS_ite ha0 (by
  split
  · exact State.deviceReset_keeps ha0
  · exact State.linkHold_keeps ha0
  · exact ha0)

theorem State.holdLow_keeps {r : State} {a0 : State} (ha0 : Keeps r a0) :
    Keeps r (State.holdLow a0) := by
  unfold State.holdLow
  exact keeps_mk ha0

theorem execPowerOn_keeps {r : State} {a0 : BitVec 3} {a1 : State} (ha1 : Keeps r a1) :
    KeepsX r (execPowerOn a0 a1) := by
  unfold execPowerOn
  extract_lets +onlyGivenNames x0
  have h0 : Keeps r x0 := State.restart_keeps ha1
  try clear_value x0
  exact keepsX_next (State.wr_keeps (keeps_mk h0))

theorem State.end0_keeps {r : State} {a0 : State} {a1 : StageOutcome} (ha0 : Keeps r a0) :
    Keeps r (State.end0 a0 a1) := by
  unfold State.end0
  extract_lets +onlyGivenNames x0
  have h0 : Keeps r x0 := State.otherFails_keeps ha0
  try clear_value x0
  extract_lets +onlyGivenNames x1
  try clear_value x1
  exact keepsS_ite (State.wr_keeps (State.stageReport_keeps h0)) (State.halt_keeps h0)

theorem State.end1_keeps {r : State} {a0 : State} {a1 : StageOutcome} (ha0 : Keeps r a0) :
    Keeps r (State.end1 a0 a1) := by
  unfold State.end1
  exact keepsS_ite ha0 (by
  extract_lets +onlyGivenNames x0
  have h0 : Keeps r x0 := State.otherFails_keeps ha0
  try clear_value x0
  extract_lets +onlyGivenNames x1
  try clear_value x1
  extract_lets +onlyGivenNames x2
  have h2 : Keeps r x2 := State.wr_keeps (State.stageReport_keeps h0)
  try clear_value x2
  exact keeps_mk h2)

theorem State.end2_keeps {r s : State} {o : StageOutcome} (h : Keeps r s) : Keeps r (s.end2 o) := by
  have h0 : Keeps r ((s.otherFails o []).wr D.INPUT_VOLTAGE 0 o.inputMv.toNat) := State.wr_keeps (State.otherFails_keeps h)
  have h2 := State.energyNow_keeps (a1 := o.inputMv.toNat) h0
  rw [State.end2]
  generalize (((s.otherFails o []).wr D.INPUT_VOLTAGE 0 o.inputMv.toNat).energyNow o.inputMv.toNat).2 = e at *
  split
  · exact State.halt_keeps h2
  · split
    · exact State.halt_keeps h2
    · exact State.stage3_keeps (State.stageReport_keeps h2)

theorem State.end3_keeps {r : State} {a0 : State} {a1 : StageOutcome} (ha0 : Keeps r a0) :
    Keeps r (State.end3 a0 a1) := by
  unfold State.end3
  extract_lets +onlyGivenNames x0
  have h0 : Keeps r x0 := State.otherFails_keeps ha0
  try clear_value x0
  extract_lets +onlyGivenNames x1
  try clear_value x1
  extract_lets +onlyGivenNames x2
  try clear_value x2
  extract_lets +onlyGivenNames x3
  have h3 : Keeps r x3 := keepsS_ite (State.mapLost_keeps h0) h0
  try clear_value x3
  split
  · exact State.halt_keeps h3
  · extract_lets +onlyGivenNames x4
    have h4 : Keeps r x4 := State.bankTake_keeps h3
    try clear_value x4
    exact keepsS_ite (State.halt_keeps h4) (State.wr_keeps (State.stageReport_keeps (State.mapOut_keeps h4)))

theorem State.end4_keeps {r : State} {a0 : State} {a1 : StageOutcome} (ha0 : Keeps r a0) :
    Keeps r (State.end4 a0 a1) := by
  unfold State.end4
  extract_lets +onlyGivenNames x0
  try clear_value x0
  extract_lets +onlyGivenNames x1
  try clear_value x1
  extract_lets +onlyGivenNames x2
  have h2 : Keeps r x2 := State.otherFails_keeps (keeps_foldl (fun _ _ h3 => keepsS_ite h3 (State.fieldDead_keeps h3)) (State.takeFails_keeps ha0))
  try clear_value x2
  exact keepsS_ite (State.imageBad_keeps h2) (keepsS_ite (State.halt_keeps h2) (State.wr_keeps (State.stageReport_keeps h2)))

theorem State.end5_keeps {r : State} {a0 : State} {a1 : StageOutcome} (ha0 : Keeps r a0) :
    Keeps r (State.end5 a0 a1) := by
  unfold State.end5
  extract_lets +onlyGivenNames x0
  try clear_value x0
  extract_lets +onlyGivenNames x1
  try clear_value x1
  extract_lets +onlyGivenNames x2
  have h2 : Keeps r x2 := State.otherFails_keeps (State.takeFails_keeps ha0)
  try clear_value x2
  extract_lets +onlyGivenNames x3
  have h3 : Keeps r x3 := keeps_foldl (fun _ _ h4 => keepsS_ite (State.sliceOut_keeps h4) (keepsS_ite (State.wr_keeps h4) h4)) h2
  try clear_value x3
  exact keepsS_ite (State.imageBad_keeps h3) (by
  extract_lets +onlyGivenNames x5
  have h5 : Keeps r x5 := State.place_keeps h3
  try clear_value x5
  extract_lets +onlyGivenNames x6
  try clear_value x6
  extract_lets +onlyGivenNames x7
  have h7 : Keeps r x7 := keeps_foldl (fun _ _ h8 => State.extend_keeps h8) h5
  try clear_value x7
  exact State.stage6_keeps (State.stageReport_keeps h7))

theorem State.end6_keeps {r : State} {a0 : State} {a1 : StageOutcome} (ha0 : Keeps r a0) :
    Keeps r (State.end6 a0 a1) := by
  unfold State.end6
  extract_lets +onlyGivenNames x0
  try clear_value x0
  extract_lets +onlyGivenNames x1
  have h1 : Keeps r x1 := State.otherFails_keeps (keeps_foldl (fun _ _ h2 => State.bootFail_keeps h2) ha0)
  try clear_value x1
  exact State.wr_keeps (State.stageReport_keeps (State.migAgain_keeps h1))

theorem State.survey_keeps {r : State} {a0 : State} (ha0 : Keeps r a0) :
    Keeps r (State.survey a0) := by
  unfold State.survey
  exact State.stage9_keeps (State.stageReport_keeps (State.wr_keeps ha0))

theorem State.end7_keeps {r : State} {a0 : State} {a1 : StageOutcome} (ha0 : Keeps r a0) :
    Keeps r (State.end7 a0 a1) := by
  unfold State.end7
  extract_lets +onlyGivenNames x0
  try clear_value x0
  extract_lets +onlyGivenNames x1
  have h1 : Keeps r x1 := State.otherFails_keeps (State.meshTest_keeps ha0)
  try clear_value x1
  exact keepsS_ite (State.halt_keeps h1) (by
  extract_lets +onlyGivenNames x2
  have h2 : Keeps r x2 := State.stageReport_keeps h1
  try clear_value x2
  exact keepsS_ite (State.survey_keeps h2) (State.stage8_keeps h2))

theorem State.end8_keeps {r : State} {a0 : State} {a1 : StageOutcome} (ha0 : Keeps r a0) :
    Keeps r (State.end8 a0 a1) := by
  unfold State.end8
  extract_lets +onlyGivenNames x0
  have h0 : Keeps r x0 := State.otherFails_keeps ha0
  try clear_value x0
  exact State.stage9_keeps (State.stageReport_keeps h0)

theorem State.end9_keeps {r : State} {a0 : State} {a1 : StageOutcome} (ha0 : Keeps r a0) :
    Keeps r (State.end9 a0 a1) := by
  unfold State.end9
  extract_lets +onlyGivenNames x0
  have h0 : Keeps r x0 := State.otherFails_keeps ha0
  try clear_value x0
  extract_lets +onlyGivenNames x1
  try clear_value x1
  exact State.wr_keeps (State.stageReport_keeps h0)

theorem State.end10_keeps {r : State} {a0 : State} {a1 : StageOutcome} (ha0 : Keeps r a0) :
    Keeps r (State.end10 a0 a1) := by
  unfold State.end10
  extract_lets +onlyGivenNames x0
  have h0 : Keeps r x0 := State.stage10_keeps (State.otherFails_keeps ha0)
  try clear_value x0
  extract_lets +onlyGivenNames x1
  have h1 : Keeps r x1 := State.stageReport_keeps h0
  try clear_value x1
  exact keeps_mk h1

theorem execBootStageEnd_keeps {r : State} {a0 : StageOutcome} {a1 : State} (ha1 : Keeps r a1) :
    KeepsX r (execBootStageEnd a0 a1) := by
  unfold execBootStageEnd
  exact keepsX_ite (keepsX_next ha1) (by
  split
  · exact keepsX_next (State.end0_keeps ha1)
  · exact keepsX_next (State.end1_keeps ha1)
  · exact keepsX_next (State.end2_keeps ha1)
  · exact keepsX_next (State.end3_keeps ha1)
  · exact keepsX_next (State.end4_keeps ha1)
  · exact keepsX_next (State.end5_keeps ha1)
  · exact keepsX_next (State.end6_keeps ha1)
  · exact keepsX_next (State.end7_keeps ha1)
  · exact keepsX_next (State.end8_keeps ha1)
  · exact keepsX_next (State.end9_keeps ha1)
  · exact keepsX_next (State.end10_keeps ha1))

theorem execResetPin_keeps {r : State} {a0 : State} (ha0 : Keeps r a0) :
    KeepsX r (execResetPin a0) := by
  unfold execResetPin
  exact keepsX_ite (keepsX_next ha0) (by
  extract_lets +onlyGivenNames x0
  try clear_value x0
  extract_lets +onlyGivenNames x1
  have h1 : Keeps r x1 := keeps_mk ha0
  try clear_value x1
  exact keepsX_ite (keepsX_next h1) (keepsX_next (State.restart_keeps h1)))

theorem execLinkHoldReset_keeps {r : State} {a0 : OdWrite} {a1 : State} (ha1 : Keeps r a1) :
    KeepsX r (execLinkHoldReset a0 a1) := by
  unfold execLinkHoldReset
  exact State.odCmd_keeps ha1 (fun _ h0 => State.runAsk_keeps (State.odWrite_keeps h0 (fun _ h1 => State.ownResetDevice_keeps h1)))

theorem execXtalRestart_keeps {r : State} {a0 : State} (ha0 : Keeps r a0) :
    KeepsX r (execXtalRestart a0) := by
  unfold execXtalRestart
  exact keepsX_ite (keepsX_next (State.wr_keeps (keeps_mk ha0))) (keepsX_next ha0)

theorem execInputRecovered_keeps {r : State} {a0 : State} (ha0 : Keeps r a0) :
    KeepsX r (execInputRecovered a0) := by
  unfold execInputRecovered
  exact keepsX_ite (keepsX_next (State.restart_keeps (keeps_mk ha0))) (keepsX_next ha0)

theorem State.tempWhole_keeps {r : State} {a0 : State} {a1 : Int} (ha0 : Keeps r a0) :
    Keeps r (State.tempWhole a0 a1).2 := by
  unfold State.tempWhole
  exact keepsP2_ite ha0 (State.drew_keeps ha0)

theorem State.lossSeq_keeps {r : State} {a0 : State} {a1 : Nat} {a2 : Nat} {a3 : Bool} {a4 : Bool} (ha0 : Keeps r a0) :
    Keeps r (State.lossSeq a0 a1 a2 a3 a4) := by
  unfold State.lossSeq
  extract_lets +onlyGivenNames x0
  try clear_value x0
  extract_lets +onlyGivenNames x1
  have h1 : Keeps r x1 := State.raise_keeps ha0
  try clear_value x1
  extract_lets +onlyGivenNames x2
  have h2 : Keeps r x2 := keeps_foldl (fun _ _ h3 => keepsS_ite (State.siteFault_keeps h3) h3) h1
  try clear_value x2
  extract_lets +onlyGivenNames x4
  have h4 : Keeps r x4 := State.seal_keeps h2
  try clear_value x4
  extract_lets +onlyGivenNames x5
  try clear_value x5
  extract_lets +onlyGivenNames x6
  have h6 : Keeps r x6 := State.logWrite_keeps h4
  try clear_value x6
  extract_lets +onlyGivenNames x7
  have h7 : Keeps r x7 := keeps_foldl (fun _ _ h8 => State.logWrite_keeps h8) h6
  try clear_value x7
  extract_lets +onlyGivenNames x9
  have h9 : Keeps r x9 := keepsS_ite h4 (keepsS_ite (State.logWrite_keeps h7) (keepsS_ite (State.drew_keeps h7) (State.logTear_keeps (State.drew_keeps h7))))
  try clear_value x9
  exact State.restart_keeps (keeps_mk h9)

theorem execPowerLoss_keeps {r : State} {a0 : BitVec 16} {a1 : CommitOutcome} {a2 : Bool} {a3 : State} (ha3 : Keeps r a3) :
    KeepsX r (execPowerLoss a0 a1 a2 a3) := by
  unfold execPowerLoss
  exact keepsX_next (keepsS_ite (State.holdLow_keeps ha3) (State.lossSeq_keeps ha3))

theorem execXtalDelayExpiry_keeps {r : State} {a0 : BitVec 16} {a1 : State} (ha1 : Keeps r a1) :
    KeepsX r (execXtalDelayExpiry a0 a1) := by
  unfold execXtalDelayExpiry
  exact keepsX_ite (by
  extract_lets +onlyGivenNames x0
  have h0 : Keeps r x0 := State.count_keeps ha1
  try clear_value x0
  exact keepsX_ite (keepsX_next (State.swNormal_keeps (State.wr_keeps (State.wr_keeps h0)))) (keepsX_next h0)) (keepsX_next ha1)

theorem execDeviceReset_keeps {r : State} {a0 : OdWrite} {a1 : State} (ha1 : Keeps r a1) :
    KeepsX r (execDeviceReset a0 a1) := by
  unfold execDeviceReset
  exact State.odCmd_keeps ha1 (fun _ h0 => State.runAsk_keeps (State.odWrite_keeps h0 (fun _ h1 => State.ownResetDevice_keeps h1)))

theorem execUttexWatchdog_keeps {r : State} {a0 : State} (ha0 : Keeps r a0) :
    KeepsX r (execUttexWatchdog a0) := by
  unfold execUttexWatchdog
  exact keepsX_ite (keepsX_next ha0) (by
  extract_lets +onlyGivenNames x0
  try clear_value x0
  extract_lets +onlyGivenNames x1
  try clear_value x1
  extract_lets +onlyGivenNames x2
  have h2 : Keeps r x2 := keeps_mk ha0
  try clear_value x2
  exact keepsX_ite (keepsX_next (State.restart_keeps h2)) (by
  extract_lets +onlyGivenNames x3
  have h3 : Keeps r x3 := State.linkHold_keeps h2
  try clear_value x3
  exact keepsX_next (keeps_mk h3)))

theorem State.thermal_keeps {r : State} {a0 : State} {a1 : Nat} {a2 : Int} (ha0 : Keeps r a0) :
    Keeps r (State.thermal a0 a1 a2) := by
  unfold State.thermal
  extract_lets +onlyGivenNames x0
  try clear_value x0
  extract_lets +onlyGivenNames x1
  try clear_value x1
  extract_lets +onlyGivenNames x2
  have h2 : Keeps r x2 := keepsS_ite (State.tooHot_keeps ha0) (keepsS_ite (State.setClk_keeps ha0) ha0)
  try clear_value x2
  extract_lets +onlyGivenNames x3
  have h3 : Keeps r x3 := keepsS_ite (State.onBypass_keeps (State.swNormal_keeps h2)) h2
  try clear_value x3
  exact keepsS_ite (by
  extract_lets +onlyGivenNames x4
  have h4 : Keeps r x4 := State.raise_keeps h3
  try clear_value x4
  exact State.lossSeq_keeps (State.drew_keeps h4)) h3

theorem execFieldTempSample_keeps {r : State} {a0 : Fin 8} {a1 : Int} {a2 : State} (ha2 : Keeps r a2) :
    KeepsX r (execFieldTempSample a0 a1 a2) := by
  unfold execFieldTempSample
  exact keepsX_ite (keepsX_next ha2) (by
  extract_lets +onlyGivenNames x0
  try clear_value x0
  extract_lets +onlyGivenNames x1
  have h1 : Keeps r x1.2 := State.tempWhole_keeps ha2
  try clear_value x1
  extract_lets +onlyGivenNames x2
  have h2 : Keeps r x2 := State.wr_keeps (State.wr_keeps h1)
  try clear_value x2
  split
  · exact keepsX_ite (keepsX_next (State.restart_keeps (keeps_mk h2))) (keepsX_next h2)
  · exact keepsX_next (State.thermal_keeps h2))

theorem execResetPinRelease_keeps {r : State} {a0 : State} (ha0 : Keeps r a0) :
    KeepsX r (execResetPinRelease a0) := by
  unfold execResetPinRelease
  exact keepsX_next (keeps_mk ha0)

end Sys2Proof.Machine
end

