-- ==== Sys2Proof/Laws/KeepsRequests.lean ====
section
/-! SUPPORT. What every operation keeps (Laws/Keeps.lean), one lemma each: the object dictionary, its routes, and what goes on by itself (chapter 13). -/

namespace Sys2Proof.Machine

theorem State.objDescribe_keeps {r : State} {a0 : State} {a1 : ObjAddr} {a2 : Route} (ha0 : Keeps r a0) :
    Keeps r (State.objDescribe a0 a1 a2) := by
  unfold State.objDescribe
  split
  · exact State.odFail_keeps ha0
  · exact keepsS_ite (State.odFail_keeps ha0) (keepsS_ite (State.odFail_keeps ha0) (State.odAnswer_keeps ha0))

theorem execDescribe_keeps {r : State} {a0 : Route} {a1 : ObjAddr} {a2 : State} (ha2 : Keeps r a2) :
    KeepsX r (execDescribe a0 a1 a2) := by
  unfold execDescribe
  exact State.odCmd_keeps ha2 (fun _ h0 => State.objDescribe_keeps h0)

theorem State.tally_keeps {r : State} {a0 : State} {a1 : Obj} {a2 : Nat} {a3 : Nat} (ha0 : Keeps r a0) :
    Keeps r (State.tally a0 a1 a2 a3) := by
  unfold State.tally
  exact State.drew_keeps (State.count_keeps ha0)

theorem State.liveView_keeps {r : State} {a0 : State} {a1 : Nat} {a2 : Nat} (ha0 : Keeps r a0) :
    KeepsO2 r (State.liveView a0 a1 a2) := by
  unfold State.liveView
  exact keepsO2_ite (keepsO2_some ha0) (keepsO2_ite (keepsO2_some ha0) (keepsO2_ite (by
  extract_lets +onlyGivenNames x0
  have h0 : Keeps r x0 := State.tally_keeps ha0
  try clear_value x0
  exact keepsO2_some h0) (keepsO2_ite (keepsO2_some ha0) (keepsO2_ite (keepsO2_some ha0) (keepsO2_ite (keepsO2_some ha0) (keepsO2_ite (keepsO2_some ha0) (keepsO2_ite (keepsO2_some ha0) (keepsO2_ite (keepsO2_some ha0) (keepsO2_ite (keepsO2_some ha0) (keepsO2_ite (keepsO2_ite (keepsO2_some ha0) (keepsO2_some (State.wholeUnits_keeps ha0))) (keepsO2_ite (keepsO2_some (State.drew_keeps ha0)) (keepsO2_ite (keepsO2_some (State.energyNow_keeps ha0)) (keepsO2_ite (by
  extract_lets +onlyGivenNames x1
  have h1 : Keeps r x1 := State.drew_keeps (State.wr_keeps ha0)
  try clear_value x1
  exact keepsO2_some h1) (keepsO2_ite (keepsO2_some ha0) (keepsO2_ite (keepsO2_some ha0) keepsO2_none)))))))))))))))

theorem State.objView_keeps {r s : State} {o : Obj} {i : Nat} {q : Route} (h : Keeps r s) : Keeps r (s.objView o i q).2.2 := by
  unfold State.objView
  extract_lets n
  split
  · rename_i e
    exact keeps_optO2 (State.liveView_keeps h) e
  · exact h

theorem State.objRead_keeps {r s : State} {a : ObjAddr} {q : Route} (h : Keeps r s) : Keeps r (s.objRead a q) := by
  unfold State.objRead
  split
  · exact State.odFail_keeps h
  · split
    · extract_lets v
      have hv : Keeps r v.2.2 := State.objView_keeps h
      exact keepsS_ite (State.odFail_keeps h) (State.odAnswer_keeps hv)
    · exact State.odFail_keeps h

theorem ownPartition_keeps {r : State} {a0 : Nat} {a1 : Nat} {a2 : OdWrite} :
    KeepsOF r (ownPartition a0 a1 a2) := by
  unfold ownPartition
  exact keepsOF_ite (keepsOF_some (fun _ h0 => State.ownWindow_keeps h0)) (keepsOF_ite (keepsOF_some (fun _ h1 => State.ownPartEnable_keeps h1)) (keepsOF_ite (keepsOF_some (fun _ h2 => State.ownPartDomain_keeps h2)) (keepsOF_ite (keepsOF_some (fun _ h3 => keepsS_dite (fun _ => State.ownRebind_keeps h3) (fun _ => State.odFail_keeps h3))) (keepsOF_ite (keepsOF_some (fun _ h4 => keepsS_dite (fun _ => State.ownRebind_keeps h4) (fun _ => State.odFail_keeps h4))) (keepsOF_ite (keepsOF_some (fun _ h5 => State.ownRebind_keeps h5)) (keepsOF_ite (keepsOF_some (fun _ h6 => State.ownLinkMask_keeps h6)) (keepsOF_ite (keepsOF_some (fun _ h7 => State.ownAdmit_keeps h7)) (keepsOF_ite (keepsOF_some (fun _ h8 => State.ownMask_keeps h8)) (keepsOF_ite (keepsOF_some (fun _ h9 => State.ownAdmit_keeps h9)) (keepsOF_ite (keepsOF_some (fun _ h10 => State.ownMask_keeps h10)) (keepsOF_ite (keepsOF_some (fun _ h11 => State.ownAdmit_keeps h11)) (keepsOF_ite (keepsOF_some (fun _ h12 => State.ownAdmit_keeps h12)) (keepsOF_ite (keepsOF_some (fun _ h13 => State.ownMissMin_keeps h13)) (keepsOF_ite (keepsOF_some (fun _ h14 => State.ownMissMax_keeps h14)) keepsOF_none))))))))))))))

theorem State.ownVref_keeps {r : State} {a0 : State} {a1 : Nat} {a2 : OdWrite} (ha0 : Keeps r a0) :
    Keeps r (State.ownVref a0 a1 a2) := by
  unfold State.ownVref
  exact keepsS_ite (State.odFail_keeps ha0) (State.odSet_keeps ha0)

theorem ownSliceSide_keeps {r : State} {a0 : Obj} {a1 : Nat} {a2 : OdWrite} :
    KeepsOF r (ownSliceSide a0 a1 a2) := by
  unfold ownSliceSide
  extract_lets +onlyGivenNames x0
  try clear_value x0
  exact keepsOF_ite (keepsOF_some (fun _ h1 => State.ownSliceRetire_keeps h1)) (keepsOF_ite (keepsOF_some (fun _ h2 => State.ownTagPeek_keeps h2)) (keepsOF_ite (keepsOF_some (fun _ h3 => State.ownFormat_keeps h3)) (keepsOF_ite (keepsOF_some (fun _ h4 => State.ownSrSeed_keeps h4)) (keepsOF_ite (keepsOF_some (fun _ h5 => State.ownFlowSnapshot_keeps h5)) (keepsOF_ite (keepsOF_some (fun _ h6 => State.ownFlowClear_keeps h6)) (keepsOF_ite (keepsOF_some (fun _ h7 => State.ownRing_keeps h7)) (keepsOF_ite (keepsOF_some (fun _ h8 => State.ownSweep_keeps h8)) (keepsOF_ite (keepsOF_some (fun _ h9 => State.ownSweepAbort_keeps h9)) (keepsOF_ite (keepsOF_some (fun _ h10 => State.ownSweepGroup_keeps h10)) (keepsOF_ite (keepsOF_some (fun _ h11 => State.ownSelfRefresh_keeps h11)) (keepsOF_ite (keepsOF_some (fun _ h12 => State.ownChannelRetire_keeps h12)) (keepsOF_ite (keepsOF_some (fun _ h13 => State.ownVref_keeps h13)) keepsOF_none))))))))))))

theorem State.ownUpstreamMask_keeps {r : State} {a0 : State} {a1 : OdWrite} (ha0 : Keeps r a0) :
    Keeps r (State.ownUpstreamMask a0 a1) := by
  unfold State.ownUpstreamMask
  exact State.odDone_keeps (State.noteHops_keeps (State.chooseUpstream_keeps (State.setObj_keeps ha0)))

theorem ownMeshSide_keeps {r : State} {a0 : Nat} {a1 : Nat} {a2 : OdWrite} :
    KeepsOF r (ownMeshSide a0 a1 a2) := by
  unfold ownMeshSide
  exact keepsOF_ite (keepsOF_some (fun _ h0 => State.ownLapLoad_keeps h0)) (keepsOF_ite (keepsOF_some (fun _ h1 => State.ownLapSwitch_keeps h1)) (keepsOF_ite (keepsOF_some (fun _ h2 => State.ownLapUnload_keeps h2)) (keepsOF_ite (keepsOF_some (fun _ h3 => State.ownLapResume_keeps h3)) (keepsOF_ite (keepsOF_some (fun _ h4 => State.ownRedClear_keeps h4)) (keepsOF_ite (keepsOF_some (fun _ h5 => State.ownGateSource_keeps h5)) (keepsOF_ite (keepsOF_some (fun _ h6 => State.ownUpstreamMask_keeps h6)) (keepsOF_ite (keepsOF_some (fun _ h7 => State.ownLaunch_keeps h7)) (keepsOF_ite (keepsOF_some (fun _ h8 => State.ownCancel_keeps h8)) (keepsOF_ite (keepsOF_some (fun _ h9 => State.ownLinkPower_keeps h9)) (keepsOF_ite (keepsOF_some (fun _ h10 => State.ownBitslip_keeps h10)) (keepsOF_ite (keepsOF_some (fun _ h11 => State.ownRetrain_keeps h11)) (keepsOF_ite (keepsOF_some (fun _ h12 => State.ownLinkRoute_keeps h12)) (keepsOF_ite (keepsOF_some (fun _ h13 => State.ownSnapshot_keeps h13)) keepsOF_none)))))))))))))

theorem ownSiteSide_keeps {r : State} {a0 : Nat} {a1 : Nat} {a2 : OdWrite} :
    KeepsOF r (ownSiteSide a0 a1 a2) := by
  unfold ownSiteSide
  exact keepsOF_ite (keepsOF_some (fun _ h0 => State.ownPortReset_keeps h0)) (keepsOF_ite (keepsOF_some (fun _ h1 => State.ownSitePower_keeps h1)) (keepsOF_ite (keepsOF_some (fun _ h2 => State.ownSiteOpp_keeps h2)) (keepsOF_ite (keepsOF_some (fun _ h3 => State.ownSitePmax_keeps h3)) (keepsOF_ite (keepsOF_some (fun _ h4 => State.ownSiteRails_keeps h4)) (keepsOF_ite (keepsOF_some (fun _ h5 => State.ownRailVmin_keeps h5)) (keepsOF_ite (keepsOF_some (fun _ h6 => State.ownRailVmax_keeps h6)) (keepsOF_ite (keepsOF_some (fun _ h7 => State.ownRailDieCap_keeps h7)) (keepsOF_ite (keepsOF_some (fun _ h8 => State.ownClockReq_keeps h8)) (keepsOF_ite (keepsOF_some (fun _ h9 => State.ownCkSelect_keeps h9)) (keepsOF_ite (keepsOF_some (fun _ h10 => State.ownCkDiv_keeps h10)) (keepsOF_ite (keepsOF_some (fun _ h11 => State.ownSliceMode_keeps h11)) (keepsOF_ite (keepsOF_some (fun _ h12 => State.ownFieldMode_keeps h12)) keepsOF_none))))))))))))

theorem State.ownConfigLock_keeps {r : State} {a0 : State} {a1 : OdWrite} (ha0 : Keeps r a0) :
    Keeps r (State.ownConfigLock a0 a1) := by
  unfold State.ownConfigLock
  exact keepsS_ite (State.odFail_keeps ha0) (State.odSet_keeps ha0)

theorem State.ownPubkey_keeps {r : State} {a0 : State} {a1 : Nat} {a2 : OdWrite} (ha0 : Keeps r a0) :
    Keeps r (State.ownPubkey a0 a1 a2) := by
  unfold State.ownPubkey
  exact State.odSet_keeps ha0

theorem ownDevice_keeps {r : State} {a0 : Nat} {a1 : Nat} {a2 : OdWrite} :
    KeepsOF r (ownDevice a0 a1 a2) := by
  unfold ownDevice
  exact keepsOF_ite (keepsOF_some (fun _ h0 => State.ownStoreCommit_keeps h0)) (keepsOF_ite (keepsOF_some (fun _ h1 => State.ownStoreDefaults_keeps h1)) (keepsOF_ite (keepsOF_some (fun _ h2 => State.ownConfigLock_keeps h2)) (keepsOF_ite (keepsOF_some (fun _ h3 => State.ownPubkey_keeps h3)) (keepsOF_ite (keepsOF_some (fun _ h4 => State.ownFwBank_keeps h4)) (keepsOF_ite (keepsOF_some (fun _ h5 => State.ownMinSvn_keeps h5)) (keepsOF_ite (keepsOF_some (fun _ h6 => State.ownMoult_keeps h6)) (keepsOF_ite (keepsOF_some (fun _ h7 => State.ownNonce_keeps h7)) (keepsOF_ite (keepsOF_some (fun _ h8 => State.ownDefectAdd_keeps h8)) (keepsOF_ite (keepsOF_some (fun _ h9 => State.ownResetDevice_keeps h9)) (keepsOF_ite (keepsOF_some (fun _ h10 => State.ownResetSlice_keeps h10)) (keepsOF_ite (keepsOF_some (fun _ h11 => State.ownResetField_keeps h11)) (keepsOF_ite (keepsOF_some (fun _ h12 => State.ownResetPartition_keeps h12)) (keepsOF_ite (keepsOF_some (fun _ h13 => State.ownOverflowClear_keeps h13)) (keepsOF_ite (keepsOF_some (fun _ h14 => State.ownLogSelect_keeps h14)) keepsOF_none))))))))))))))

theorem State.own_keeps {r s : State} {o : Obj} {i : Nat} {w : OdWrite} (h : Keeps r s) : Keeps r (s.own o i w) := by
  unfold State.own
  extract_lets k
  clear_value k
  split
  · rename_i e1; exact ownPartition_keeps _ e1 _ h
  · rename_i e1; exact ownSliceSide_keeps _ e1 _ h
  · rename_i e1; exact ownMeshSide_keeps _ e1 _ h
  · rename_i e1; exact ownSiteSide_keeps _ e1 _ h
  · rename_i e1; exact ownDevice_keeps _ e1 _ h
  · exact State.odSet_keeps h

theorem State.objWrite_keeps {r : State} {a0 : State} {a1 : ObjAddr} {a2 : OdWrite} {a3 : Bool} (ha0 : Keeps r a0) :
    Keeps r (State.objWrite a0 a1 a2 a3) := by
  unfold State.objWrite
  split
  · exact State.odFail_keeps ha0
  · exact State.odWriteAs_keeps ha0 (fun _ h0 => State.own_keeps h0)

theorem State.objReadSeg_keeps {r s : State} {a : ObjAddr} {q : Route} {f n : Nat} (h : Keeps r s) : Keeps r (s.objReadSeg a q f n) := by
  unfold State.objReadSeg
  split
  · exact State.odFail_keeps h
  · split
    · extract_lets v n
      have hv : Keeps r v.2.2 := State.objView_keeps h
      exact State.odAnswer_keeps hv
    · exact State.odFail_keeps h

theorem State.unstage_keeps {r : State} {a0 : State} {a1 : ObjAddr} (ha0 : Keeps r a0) :
    Keeps r (State.unstage a0 a1) := by
  unfold State.unstage
  exact keeps_mk ha0

theorem State.stage_keeps {r : State} {a0 : State} {a1 : SegSrc} {a2 : ObjAddr} {a3 : OdVal} {a4 : Bool} (ha0 : Keeps r a0) :
    Keeps r (State.stage a0 a1 a2 a3 a4) := by
  unfold State.stage
  extract_lets +onlyGivenNames x0
  have h0 : Keeps r x0 := State.unstage_keeps ha0
  try clear_value x0
  exact keepsS_ite (State.objWrite_keeps h0) (State.odDone_keeps (keeps_mk h0))

theorem State.segment_keeps {r : State} {a0 : State} {a1 : SegSrc} {a2 : ObjAddr} {a3 : Nat} {a4 : Bool} {a5 : OdVal} (ha0 : Keeps r a0) :
    Keeps r (State.segment a0 a1 a2 a3 a4 a5) := by
  unfold State.segment
  extract_lets +onlyGivenNames x0
  try clear_value x0
  split
  · exact keepsS_ite (State.odFail_keeps (State.unstage_keeps ha0)) (keepsS_ite (State.stage_keeps ha0) (keepsS_ite (State.stage_keeps ha0) (State.odFail_keeps (State.unstage_keeps ha0))))
  · exact keepsS_ite (State.stage_keeps ha0) (State.odFail_keeps ha0)

theorem State.objWriteSeg_keeps {r : State} {a0 : State} {a1 : SegSrc} {a2 : ObjAddr} {a3 : Nat} {a4 : Bool} {a5 : OdVal} (ha0 : Keeps r a0) :
    Keeps r (State.objWriteSeg a0 a1 a2 a3 a4 a5) := by
  unfold State.objWriteSeg
  split
  · exact State.odFail_keeps ha0
  · split
    · exact State.segment_keeps ha0
    · exact State.odFail_keeps ha0

theorem State.afterOd_keeps {r : State} {a0 : State} (ha0 : Keeps r a0) :
    Keeps r (State.afterOd a0) := by
  unfold State.afterOd
  exact keepsS_ite ha0 (State.runAsk_keeps (State.enforce_keeps ha0))

theorem execObjectWrite_keeps {r : State} {a0 : ObjAddr} {a1 : OdWrite} {a2 : State} (ha2 : Keeps r a2) :
    KeepsX r (execObjectWrite a0 a1 a2) := by
  unfold execObjectWrite
  exact State.odCmd_keeps ha2 (fun _ h0 => State.afterOd_keeps (State.objWrite_keeps h0))

theorem execReadSeg_keeps {r : State} {a0 : Route} {a1 : ObjAddr} {a2 : Nat} {a3 : Nat} {a4 : State} (ha4 : Keeps r a4) :
    KeepsX r (execReadSeg a0 a1 a2 a3 a4) := by
  unfold execReadSeg
  exact State.odCmd_keeps ha4 (fun _ h0 => State.objReadSeg_keeps h0)

theorem execWriteSeg_keeps {r : State} {a0 : SegSrc} {a1 : ObjAddr} {a2 : Nat} {a3 : Bool} {a4 : OdVal} {a5 : State} (ha5 : Keeps r a5) :
    KeepsX r (execWriteSeg a0 a1 a2 a3 a4 a5) := by
  unfold execWriteSeg
  exact State.odCmd_keeps ha5 (fun _ h0 => State.afterOd_keeps (State.objWriteSeg_keeps h0))

theorem execObjectRead_keeps {r : State} {a0 : Route} {a1 : ObjAddr} {a2 : State} (ha2 : Keeps r a2) :
    KeepsX r (execObjectRead a0 a1 a2) := by
  unfold execObjectRead
  exact State.odCmd_keeps ha2 (fun _ h0 => State.objRead_keeps h0)

theorem execConfigLock_keeps {r : State} {a0 : OdWrite} {a1 : State} (ha1 : Keeps r a1) :
    KeepsX r (execConfigLock a0 a1) := by
  unfold execConfigLock
  exact State.odCmd_keeps ha1 (fun _ h0 => State.odWrite_keeps h0 (fun _ h1 => State.ownConfigLock_keeps h1))

theorem execMgmtPubkey_keeps {r : State} {a0 : Fin 4} {a1 : OdWrite} {a2 : State} (ha2 : Keeps r a2) :
    KeepsX r (execMgmtPubkey a0 a1 a2) := by
  unfold execMgmtPubkey
  exact State.odCmd_keeps ha2 (fun _ h0 => State.odWrite_keeps h0 (fun _ h1 => State.ownPubkey_keeps h1))

theorem State.odOp_keeps {r : State} {a0 : State} {a1 : OdRun} {a2 : OdOp} (ha0 : Keeps r a0) :
    Keeps r (State.odOp a0 a1 a2) := by
  unfold State.odOp
  extract_lets +onlyGivenNames x0
  try clear_value x0
  extract_lets +onlyGivenNames x1
  try clear_value x1
  extract_lets +onlyGivenNames x2
  try clear_value x2
  exact keepsS_ite (State.odFail_keeps ha0) (by
  split
  · exact State.objRead_keeps ha0
  · exact State.objWrite_keeps ha0
  · exact State.objReadSeg_keeps ha0
  · exact State.objWriteSeg_keeps ha0
  · exact State.objDescribe_keeps ha0)

theorem State.keepAs_keeps {r : State} {a0 : State} {a1 : Nat} {a2 : List (Nat × Nat × Nat)} (ha0 : Keeps r a0) :
    Keeps r (State.keepAs a0 a1 a2) := by
  unfold State.keepAs
  exact keeps_mk ha0

theorem State.philRespond_keeps {r : State} {a0 : State} {a1 : Nat} {a2 : Nat} {a3 : Nat} {a4 : List (OdOp × Nat × Nat × Nat)} (ha0 : Keeps r a0) :
    Keeps r (State.philRespond a0 a1 a2 a3 a4) := by
  unfold State.philRespond
  extract_lets +onlyGivenNames x0
  try clear_value x0
  extract_lets +onlyGivenNames x1
  try clear_value x1
  exact State.philOut_keeps (State.keepAs_keeps ha0)

theorem State.mailboxDone_keeps {r : State} {a0 : State} {a1 : Nat} {a2 : Nat} {a3 : Nat} {a4 : List (OdOp × Nat × Nat × Nat)} (ha0 : Keeps r a0) :
    Keeps r (State.mailboxDone a0 a1 a2 a3 a4) := by
  unfold State.mailboxDone
  extract_lets +onlyGivenNames x0
  try clear_value x0
  exact State.msix_keeps (State.setFn_keeps ha0)

theorem State.odEnd_keeps {r : State} {a0 : State} {a1 : OdRun} (ha0 : Keeps r a0) :
    Keeps r (State.odEnd a0 a1) := by
  unfold State.odEnd
  extract_lets +onlyGivenNames x0
  try clear_value x0
  extract_lets +onlyGivenNames x1
  have h1 : Keeps r x1 := keeps_mk ha0
  try clear_value x1
  extract_lets +onlyGivenNames x2
  have h2 : Keeps r x2 := by
    unfold x2
    split
    · exact State.philRespond_keeps h1
    · exact State.mailboxDone_keeps h1
    · exact h1
  try clear_value x2
  exact State.afterOd_keeps h2

theorem State.odGo_keeps {r : State} {n : Nat} {s : State} (h : Keeps r s) : Keeps r (State.odGo n s) := by
  induction n generalizing s with
  | zero => exact h
  | succ n ih =>
    unfold State.odGo
    split
    · exact h
    · split
      · exact h
      · exact ih (keeps_mk h)
      · exact State.odEnd_keeps h
      · extract_lets x
        have hx : Keeps r x := keeps_mk h
        clear_value x
        exact ih (keepsS_ite (State.odFail_keeps hx) (State.odOp_keeps hx))

theorem State.odStart_keeps {r : State} {a0 : State} {a1 : OdFrom} {a2 : Nat} {a3 : List OdOp} (ha0 : Keeps r a0) :
    Keeps r (State.odStart a0 a1 a2 a3) := by
  unfold State.odStart
  exact State.odGo_keeps (keeps_mk ha0)

theorem State.mailboxTake_keeps {r : State} {a0 : State} {a1 : Nat} {a2 : Nat} {a3 : Nat} (ha0 : Keeps r a0) :
    Keeps r (State.mailboxTake a0 a1 a2 a3) := by
  unfold State.mailboxTake
  extract_lets +onlyGivenNames x0
  try clear_value x0
  extract_lets +onlyGivenNames x1
  try clear_value x1
  split
  · exact State.mailboxDone_keeps ha0
  · exact keepsS_ite (State.mailboxDone_keeps ha0) (State.odStart_keeps ha0)

theorem State.eventsAck_keeps {r s : State} {x e : Nat} (h : Keeps r s) : Keeps r (s.eventsAck x e) := by
  unfold State.eventsAck
  exact keepsS_ite h (keeps_events h (fun hw => Nat.le_trans (List.length_filter_le _ _) hw))

theorem State.frameTake_keeps {r : State} {a0 : State} {a1 : EthFrame} (ha0 : Keeps r a0) :
    Keeps r (State.frameTake a0 a1) := by
  unfold State.frameTake
  extract_lets +onlyGivenNames x0
  try clear_value x0
  extract_lets +onlyGivenNames x1
  try clear_value x1
  extract_lets +onlyGivenNames x2
  try clear_value x2
  split
  · exact State.philRespond_keeps ha0
  · exact keepsS_ite (State.philRespond_keeps ha0) (keepsS_ite (State.eventsAck_keeps ha0) (by
    split
    · exact State.philOut_keeps (State.keepAs_keeps ha0)
    · exact keepsS_ite (State.philRespond_keeps (State.count_keeps ha0)) (State.odStart_keeps (keepsS_ite (State.wr_keeps ha0) ha0))))

theorem execMailboxRequest_keeps {r : State} {a0 : Fin 17} {a1 : Nat} {a2 : Nat} {a3 : State} (ha3 : Keeps r a3) :
    KeepsX r (execMailboxRequest a0 a1 a2 a3) := by
  unfold execMailboxRequest
  exact keepsX_ite (keepsX_next ha3) (by
  extract_lets +onlyGivenNames x0
  try clear_value x0
  extract_lets +onlyGivenNames x1
  have h1 : Keeps r x1 := State.setFn_keeps ha3
  try clear_value x1
  exact keepsX_ite (keepsX_next (keeps_mk h1)) (keepsX_next (State.mailboxTake_keeps h1)))

theorem execMgmtLinkChange_keeps {r : State} {a0 : MgmtLink} {a1 : State} (ha1 : Keeps r a1) :
    KeepsX r (execMgmtLinkChange a0 a1) := by
  unfold execMgmtLinkChange
  exact keepsX_next (keepsS_ite ha1 (State.wr_keeps ha1))

theorem State.frameIn_keeps {r : State} {a0 : State} {a1 : Instr} {a2 : EthFrame} (ha0 : Keeps r a0) :
    Keeps r (State.frameIn a0 a1 a2) := by
  unfold State.frameIn
  exact keepsS_ite ha0 (keepsS_ite (keepsS_ite (State.count_keeps ha0) (keeps_mk ha0)) (State.frameTake_keeps ha0))

theorem execPhilEventResend_keeps {r s : State} (h : Keeps r s) : KeepsX r (execPhilEventResend s) := by
  unfold execPhilEventResend
  split
  · exact keepsX_next h
  · rename_i e l he
    refine keepsX_ite (keepsX_next h) (keepsX_ite (keepsX_next (State.count_keeps (keeps_events h ?_)))
      (keepsX_next (State.sendEvent_keeps (keeps_events h ?_))))
    · intro w; rw [he, List.length_cons] at w; exact Nat.le_of_succ_le w
    · intro w; rw [he, List.length_cons] at w; simpa using w

theorem execPhildofelRequest_keeps {r : State} {a0 : EthFrame} {a1 : State} (ha1 : Keeps r a1) :
    KeepsX r (execPhildofelRequest a0 a1) := by
  unfold execPhildofelRequest
  exact keepsX_next (State.frameIn_keeps ha1)

theorem execEventAck_keeps {r : State} {a0 : EthFrame} {a1 : State} (ha1 : Keeps r a1) :
    KeepsX r (execEventAck a0 a1) := by
  unfold execEventAck
  exact keepsX_next (State.frameIn_keeps ha1)

theorem execWrite_keeps {r : State} {a0 : Fin 512} {a1 : Msg} {a2 : State} (ha2 : Keeps r a2) :
    KeepsX r (execWrite a0 a1 a2) := by
  unfold execWrite
  exact keepsX_next (State.attachOp_keeps ha2)

theorem execFmtRead_keeps {r : State} {a0 : Fin 512} {a1 : Msg} {a2 : State} (ha2 : Keeps r a2) :
    KeepsX r (execFmtRead a0 a1 a2) := by
  unfold execFmtRead
  exact keepsX_next (State.attachOp_keeps ha2)

theorem execAtomic_keeps {r : State} {a0 : Fin 512} {a1 : Msg} {a2 : State} (ha2 : Keeps r a2) :
    KeepsX r (execAtomic a0 a1 a2) := by
  unfold execAtomic
  exact keepsX_next (State.attachOp_keeps ha2)

theorem execFence_keeps {r : State} {a0 : Fin 512} {a1 : Msg} {a2 : State} (ha2 : Keeps r a2) :
    KeepsX r (execFence a0 a1 a2) := by
  unfold execFence
  exact keepsX_next (State.attachOp_keeps ha2)

theorem execScaledAcc_keeps {r : State} {a0 : Fin 512} {a1 : Msg} {a2 : State} (ha2 : Keeps r a2) :
    KeepsX r (execScaledAcc a0 a1 a2) := by
  unfold execScaledAcc
  exact keepsX_next (State.attachOp_keeps ha2)

theorem execPrefetch_keeps {r : State} {a0 : Fin 512} {a1 : Msg} {a2 : State} (ha2 : Keeps r a2) :
    KeepsX r (execPrefetch a0 a1 a2) := by
  unfold execPrefetch
  exact keepsX_next (State.attachOp_keeps ha2)

theorem execRead_keeps {r : State} {a0 : Fin 512} {a1 : Msg} {a2 : State} (ha2 : Keeps r a2) :
    KeepsX r (execRead a0 a1 a2) := by
  unfold execRead
  exact keepsX_next (State.attachOp_keeps ha2)

theorem execFmtWrite_keeps {r : State} {a0 : Fin 512} {a1 : Msg} {a2 : State} (ha2 : Keeps r a2) :
    KeepsX r (execFmtWrite a0 a1 a2) := by
  unfold execFmtWrite
  exact keepsX_next (State.attachOp_keeps ha2)

theorem State.portsRun_keeps {r : State} {a0 : State} (ha0 : Keeps r a0) :
    Keeps r (State.portsRun a0) := by
  unfold State.portsRun
  exact keeps_foldl (fun _ _ h0 => State.portRun_keeps h0) ha0

theorem State.liveRun_keeps {r : State} {a0 : State} (ha0 : Keeps r a0) :
    Keeps r (State.liveRun a0) := by
  unfold State.liveRun
  split
  · exact ha0
  · split
    · exact ha0
    · exact keepsS_ite ha0 (State.own_keeps (keeps_mk ha0))

theorem State.eventsOut_keeps {r s : State} (h : Keeps r s) : Keeps r s.eventsOut := by
  unfold State.eventsOut
  exact keepsS_ite h (keeps_foldl (fun _ _ ht => State.sendEvent_keeps ht) (keeps_events h (fun hw => by rw [List.length_map]; exact hw)))

theorem State.resetsOn_keeps {r : State} {a0 : State} (ha0 : Keeps r a0) :
    Keeps r (State.resetsOn a0) := by
  unfold State.resetsOn
  exact keeps_foldl (fun _ _ h0 => State.resetOn_keeps h0) ha0

theorem State.admitAll_keeps {r : State} {a0 : State} (ha0 : Keeps r a0) :
    Keeps r (State.admitAll a0) := by
  unfold State.admitAll
  exact keeps_foldl (fun _ _ h0 => State.admit_keeps h0) ha0

theorem State.routesFree_keeps {r : State} {a0 : State} (ha0 : Keeps r a0) :
    Keeps r (State.routesFree a0) := by
  unfold State.routesFree
  exact keeps_mk ha0

theorem exec_keeps {r s : State} {c : Instr} (h : Keeps r s) : KeepsX r (exec c s) := by
  cases c with
  | read => exact execRead_keeps h
  | write => exact execWrite_keeps h
  | atomic => exact execAtomic_keeps h
  | prefetch => exact execPrefetch_keeps h
  | fmtRead => exact execFmtRead_keeps h
  | fmtWrite => exact execFmtWrite_keeps h
  | scaledAcc => exact execScaledAcc_keeps h
  | range => exact execRange_keeps h
  | fence => exact execFence_keeps h
  | formatSet => exact execFormatSet_keeps h
  | ringWrite => exact execRingWrite_keeps h
  | ringRead => exact execRingRead_keeps h
  | sweep => exact execSweep_keeps h
  | launch => exact execLaunch_keeps h
  | launchCancel => exact execLaunchCancel_keeps h
  | gateRead => exact execGateRead_keeps h
  | attachDataFlit => exact execAttachDataFlit_keeps h
  | attachParamFlit => exact execAttachParamFlit_keeps h
  | attachNullFlit => exact execAttachNullFlit_keeps h
  | attachResetTimer => exact execAttachResetTimer_keeps h
  | attachTrainDone => exact execAttachTrainDone_keeps h
  | attachTrainTimeout => exact execAttachTrainTimeout_keeps h
  | attachParamTimeout => exact execAttachParamTimeout_keeps h
  | attachPortReset => exact execAttachPortReset_keeps h
  | attachResetDrainEnd => exact execAttachResetDrainEnd_keeps h
  | ntfSend => exact execNtfSend_keeps h
  | vfReq => exact execVfReq_keeps h
  | vfDone => exact execVfDone_keeps h
  | vfDoneTimeout => exact execVfDoneTimeout_keeps h
  | railQuery => exact execRailQuery_keeps h
  | portQuery => exact execPortQuery_keeps h
  | sidebandAck => exact execSidebandAck_keeps h
  | sidebandResend => exact execSidebandResend_keeps h
  | railSettled => exact execRailSettled_keeps h
  | siteSeqGapExpiry => exact execSiteSeqGapExpiry_keeps h
  | railDroop => exact execRailDroop_keeps h
  | sdroopRelease => exact execSdroopRelease_keeps h
  | currentLimitHold => exact execCurrentLimitHold_keeps h
  | siteFault => exact execSiteFault_keeps h
  | sitePower => exact execSitePower_keeps h
  | siteOpp => exact execSiteOpp_keeps h
  | sitePmax => exact execSitePmax_keeps h
  | siteRails => exact execSiteRails_keeps h
  | railVmin => exact execRailVmin_keeps h
  | railVmax => exact execRailVmax_keeps h
  | railDieCap => exact execRailDieCap_keeps h
  | sliceRead => exact execSliceRead_keeps h
  | sliceWrite => exact execSliceWrite_keeps h
  | sliceAtomic => exact execSliceAtomic_keeps h
  | slicePrefetch => exact execSlicePrefetch_keeps h
  | formatOnRead => exact execFormatOnRead_keeps h
  | formatOnWrite => exact execFormatOnWrite_keeps h
  | scaledAccumulate => exact execScaledAccumulate_keeps h
  | rangePart => exact execRangePart_keeps h
  | rangePartDone => exact execRangePartDone_keeps h
  | lineFill => exact execLineFill_keeps h
  | replayRetry => exact execReplayRetry_keeps h
  | writebackIssued => exact execWritebackIssued_keeps h
  | writebackAck => exact execWritebackAck_keeps h
  | atomicBusyClear => exact execAtomicBusyClear_keeps h
  | hotLineInterval => exact execHotLineInterval_keeps h
  | hotBufferApply => exact execHotBufferApply_keeps h
  | sliceFail => exact execSliceFail_keeps h
  | spareAdoptionSwitch => exact execSpareAdoptionSwitch_keeps h
  | sliceRetire => exact execSliceRetire_keeps h
  | retireWalkEnd => exact execRetireWalkEnd_keeps h
  | tagPeekSelect => exact execTagPeekSelect_keeps h
  | reductionUnitApply => exact execReductionUnitApply_keeps h
  | winInstall => exact execWinInstall_keeps h
  | winWithdraw => exact execWinWithdraw_keeps h
  | faultDeny => exact execFaultDeny_keeps h
  | faultStallExpiry => exact execFaultStallExpiry_keeps h
  | withdrawalAck => exact execWithdrawalAck_keeps h
  | drainLimitExpiry => exact execDrainLimitExpiry_keeps h
  | partEnable => exact execPartEnable_keeps h
  | partDomain => exact execPartDomain_keeps h
  | portPartition => exact execPortPartition_keeps h
  | tePartition => exact execTePartition_keeps h
  | pfDataPartition => exact execPfDataPartition_keeps h
  | rebindDrainExpiry => exact execRebindDrainExpiry_keeps h
  | rebindStampSwitch => exact execRebindStampSwitch_keeps h
  | linkPartMask => exact execLinkPartMask_keeps h
  | srSeed => exact execSrSeed_keeps h
  | flowSnapshot => exact execFlowSnapshot_keeps h
  | flowSnapDone => exact execFlowSnapDone_keeps h
  | flowClear => exact execFlowClear_keeps h
  | doorbell => exact execDoorbell_keeps h
  | descriptorFetch => exact execDescriptorFetch_keeps h
  | descriptorStart => exact execDescriptorStart_keeps h
  | teRequestDone => exact execTeRequestDone_keeps h
  | descriptorComplete => exact execDescriptorComplete_keeps h
  | gateWaitDone => exact execGateWaitDone_keeps h
  | engineFail => exact execEngineFail_keeps h
  | sweepLaunch => exact execSweepLaunch_keeps h
  | sweepSliceLine => exact execSweepSliceLine_keeps h
  | sweepComplete => exact execSweepComplete_keeps h
  | sweepAbort => exact execSweepAbort_keeps h
  | sweepTimeoutExpiry => exact execSweepTimeoutExpiry_keeps h
  | sweepProgressRefresh => exact execSweepProgressRefresh_keeps h
  | sweepGroup => exact execSweepGroup_keeps h
  | gatherWrite => exact execGatherWrite_keeps h
  | pseudoChannelIssue => exact execPseudoChannelIssue_keeps h
  | hbmReadReturn => exact execHbmReadReturn_keeps h
  | rowCloseTimeout => exact execRowCloseTimeout_keeps h
  | stackTempSample => exact execStackTempSample_keeps h
  | scrubStep => exact execScrubStep_keeps h
  | initStep => exact execInitStep_keeps h
  | stackTrain => exact execStackTrain_keeps h
  | readTimingCheck => exact execReadTimingCheck_keeps h
  | pdIdleExpiry => exact execPdIdleExpiry_keeps h
  | selfRefreshExitDone => exact execSelfRefreshExitDone_keeps h
  | hbmSelfRefresh => exact execHbmSelfRefresh_keeps h
  | channelRetire => exact execChannelRetire_keeps h
  | migrationUnitCopy => exact execMigrationUnitCopy_keeps h
  | migrationEnd => exact execMigrationEnd_keeps h
  | channelFail => exact execChannelFail_keeps h
  | lapLoad => exact execLapLoad_keeps h
  | lapLoadDone => exact execLapLoadDone_keeps h
  | lapSwitch => exact execLapSwitch_keeps h
  | lapTailStop => exact execLapTailStop_keeps h
  | lapSwitchAtT => exact execLapSwitchAtT_keeps h
  | lapUnload => exact execLapUnload_keeps h
  | lapUnloadAtT => exact execLapUnloadAtT_keeps h
  | lapResume => exact execLapResume_keeps h
  | lapResumeAtT => exact execLapResumeAtT_keeps h
  | lapSuspend => exact execLapSuspend_keeps h
  | routerFail => exact execRouterFail_keeps h
  | routeTableSwitch => exact execRouteTableSwitch_keeps h
  | redFlagsClear => exact execRedFlagsClear_keeps h
  | syncWord => exact execSyncWord_keeps h
  | gateSource => exact execGateSource_keeps h
  | timexDue => exact execTimexDue_keeps h
  | timexRequest => exact execTimexRequest_keeps h
  | timexReply => exact execTimexReply_keeps h
  | timexFollowUp => exact execTimexFollowUp_keeps h
  | gateStep => exact execGateStep_keeps h
  | upstreamLossTimeout => exact execUpstreamLossTimeout_keeps h
  | ptpSyncTimeout => exact execPtpSyncTimeout_keeps h
  | holdoverLimitExpiry => exact execHoldoverLimitExpiry_keeps h
  | ptpMessage => exact execPtpMessage_keeps h
  | launchWake => exact execLaunchWake_keeps h
  | launchAct => exact execLaunchAct_keeps h
  | launchFrame => exact execLaunchFrame_keeps h
  | launchResponse => exact execLaunchResponse_keeps h
  | launchCancelFrame => exact execLaunchCancelFrame_keeps h
  | launchCancelAnswer => exact execLaunchCancelAnswer_keeps h
  | memGuarantee => exact execMemGuarantee_keeps h
  | memGroupMask => exact execMemGroupMask_keeps h
  | linkGuarantee => exact execLinkGuarantee_keeps h
  | linkMask => exact execLinkMask_keeps h
  | memEfficiency => exact execMemEfficiency_keeps h
  | linkEfficiency => exact execLinkEfficiency_keeps h
  | classMissMin => exact execClassMissMin_keeps h
  | classMissMax => exact execClassMissMax_keeps h
  | bwEstimateUpdate => exact execBwEstimateUpdate_keeps h
  | linkPower => exact execLinkPower_keeps h
  | linkOffDrainEnd => exact execLinkOffDrainEnd_keeps h
  | linkBeacon => exact execLinkBeacon_keeps h
  | linkPatternDone => exact execLinkPatternDone_keeps h
  | linkLockDone => exact execLinkLockDone_keeps h
  | laneBitslip => exact execLaneBitslip_keeps h
  | linkEqDone => exact execLinkEqDone_keeps h
  | linkCaps => exact execLinkCaps_keeps h
  | linkMeasureDone => exact execLinkMeasureDone_keeps h
  | linkPhaseTimeout => exact execLinkPhaseTimeout_keeps h
  | linkLightLoss => exact execLinkLightLoss_keeps h
  | laserLowDetect => exact execLaserLowDetect_keeps h
  | linkRetryExpiry => exact execLinkRetryExpiry_keeps h
  | linkIdleEntry => exact execLinkIdleEntry_keeps h
  | linkIdleExit => exact execLinkIdleExit_keeps h
  | linkRetrain => exact execLinkRetrain_keeps h
  | linkBerInterval => exact execLinkBerInterval_keeps h
  | linkRetrainDone => exact execLinkRetrainDone_keeps h
  | linkFlit => exact execLinkFlit_keeps h
  | linkAck => exact execLinkAck_keeps h
  | schedStart => exact execSchedStart_keeps h
  | linkRequest => exact execLinkRequest_keeps h
  | linkRsp => exact execLinkRsp_keeps h
  | linkRoute => exact execLinkRoute_keeps h
  | linkRouteHoldExpiry => exact execLinkRouteHoldExpiry_keeps h
  | linkQuarantineEnd => exact execLinkQuarantineEnd_keeps h
  | linkSnapshot => exact execLinkSnapshot_keeps h
  | hostMemoryRequest => exact execHostMemoryRequest_keeps h
  | hostAtomicop => exact execHostAtomicop_keeps h
  | faultRingWrite => exact execFaultRingWrite_keeps h
  | faultRecordDeliver => exact execFaultRecordDeliver_keeps h
  | mailboxRequest => exact execMailboxRequest_keeps h
  | gateNow => exact execGateNow_keeps h
  | vfEnable => exact execVfEnable_keeps h
  | hostLinkTrained => exact execHostLinkTrained_keeps h
  | hostLinkDown => exact execHostLinkDown_keeps h
  | vfFlr => exact execVfFlr_keeps h
  | pfFlr => exact execPfFlr_keeps h
  | phildofelRequest => exact execPhildofelRequest_keeps h
  | eventAck => exact execEventAck_keeps h
  | philEventResend => exact execPhilEventResend_keeps h
  | objectRead => exact execObjectRead_keeps h
  | objectWrite => exact execObjectWrite_keeps h
  | readSeg => exact execReadSeg_keeps h
  | writeSeg => exact execWriteSeg_keeps h
  | describe => exact execDescribe_keeps h
  | storeCommit => exact execStoreCommit_keeps h
  | storeDelayExpiry => exact execStoreDelayExpiry_keeps h
  | commitDone => exact execCommitDone_keeps h
  | storeDefaults => exact execStoreDefaults_keeps h
  | configLock => exact execConfigLock_keeps h
  | mgmtPubkey => exact execMgmtPubkey_keeps h
  | powerOn => exact execPowerOn_keeps h
  | xtalDelayExpiry => exact execXtalDelayExpiry_keeps h
  | xtalRestart => exact execXtalRestart_keeps h
  | fieldClockReq => exact execFieldClockReq_keeps h
  | fieldClockSettled => exact execFieldClockSettled_keeps h
  | pllUnlock => exact execPllUnlock_keeps h
  | pllRelockAttempt => exact execPllRelockAttempt_keeps h
  | clkForced => exact execClkForced_keeps h
  | ckobsSelect => exact execCkobsSelect_keeps h
  | ckobsDiv => exact execCkobsDiv_keeps h
  | idleTimeout => exact execIdleTimeout_keeps h
  | slicePowerMode => exact execSlicePowerMode_keeps h
  | fieldPowerMode => exact execFieldPowerMode_keeps h
  | chairliftAdmit => exact execChairliftAdmit_keeps h
  | unitWakeDone => exact execUnitWakeDone_keeps h
  | fieldTempSample => exact execFieldTempSample_keeps h
  | powerLoss => exact execPowerLoss_keeps h
  | inputRecovered => exact execInputRecovered_keeps h
  | bootStageEnd => exact execBootStageEnd_keeps h
  | fwBankProgrammed => exact execFwBankProgrammed_keeps h
  | fwMinSvn => exact execFwMinSvn_keeps h
  | moultCommand => exact execMoultCommand_keeps h
  | moultUnitSwitch => exact execMoultUnitSwitch_keeps h
  | moultReadyTimeout => exact execMoultReadyTimeout_keeps h
  | defectAdd => exact execDefectAdd_keeps h
  | resetSlice => exact execResetSlice_keeps h
  | resetField => exact execResetField_keeps h
  | resetPartition => exact execResetPartition_keeps h
  | deviceReset => exact execDeviceReset_keeps h
  | linkHoldReset => exact execLinkHoldReset_keeps h
  | resetPin => exact execResetPin_keeps h
  | uttexWatchdog => exact execUttexWatchdog_keeps h
  | attestNonce => exact execAttestNonce_keeps h
  | attestReportReady => exact execAttestReportReady_keeps h
  | fieldCtrlFail => exact execFieldCtrlFail_keeps h
  | faultOverflowClear => exact execFaultOverflowClear_keeps h
  | faultLogWrite => exact execFaultLogWrite_keeps h
  | faultLogSelect => exact execFaultLogSelect_keeps h
  | stride => exact execStride_keeps h
  | refresh => exact execRefresh_keeps h
  | hbmRetrainDone => exact execHbmRetrainDone_keeps h
  | linkTransmit => exact execLinkTransmit_keeps h
  | partnerRetraining => exact execPartnerRetraining_keeps h
  | mgmtLinkChange => exact execMgmtLinkChange_keeps h
  | moultReady => exact execMoultReady_keeps h
  | resetPinRelease => exact execResetPinRelease_keeps h
  | linkSnapDone => exact execLinkSnapDone_keeps h
theorem State.rerun_keeps {r s : State} {c : Instr} (h : Keeps r s) : Keeps r (s.rerun c) := by
  unfold State.rerun
  split
  · exact State.mailboxTake_keeps h
  · exact State.frameTake_keeps h
  · exact State.frameTake_keeps h
  · split
    · rename_i e; exact exec_keeps h _ e
    · exact h

theorem State.drainBacklog_keeps {r : State} {n : Nat} {s : State} (h : Keeps r s) : Keeps r (State.drainBacklog n s) := by
  induction n generalizing s with
  | zero => exact h
  | succ n ih =>
    unfold State.drainBacklog
    split
    · exact h
    · split
      · exact h
      · exact ih (keeps_mk (State.rerun_keeps (keeps_mk h)))

theorem State.odSettle_keeps {r : State} {a0 : State} (ha0 : Keeps r a0) :
    Keeps r (State.odSettle a0) := by
  unfold State.odSettle
  extract_lets +onlyGivenNames x0
  have h0 : Keeps r x0 := State.odGo_keeps (State.liveRun_keeps ha0)
  try clear_value x0
  extract_lets +onlyGivenNames x1
  have h1 : Keeps r x1 := State.commitNext_keeps (State.afterOd_keeps h0)
  try clear_value x1
  exact State.drainBacklog_keeps h1

theorem State.settle_keeps {r : State} {a0 : State} (ha0 : Keeps r a0) :
    Keeps r (State.settle a0) := by
  unfold State.settle
  exact State.odSettle_keeps (State.eventsOut_keeps (State.resetsOn_keeps (State.forwardAgain_keeps (State.portsRun_keeps (State.admitAll_keeps (State.routesFree_keeps ha0))))))

end Sys2Proof.Machine
end

