-- ==== Sys2Proof/Laws/KeepsStep.lean ====
section
/-! SUPPORT. What the block keeps while it goes on by itself. -/

namespace Sys2Proof.Machine

theorem idle_keeps {r s : State} (h : Keeps r s) : Keeps r s.idle := by
  unfold State.idle
  exact State.tickGate_keeps (State.strideMove_keeps (State.settle_keeps h))

/-- What a step keeps, from the state with the command taken from the queue. -/
theorem step_keeps (s : State) : KeepsX { s with pending := s.pending.tail } (step s) := by
  unfold step
  split
  · rename_i hp
    have e : ({ s with pending := s.pending.tail } : State) = s := by
      rw [hp]; show ({ s with pending := [] } : State) = s; rw [← hp]
    rw [e]
    exact keepsX_next (idle_keeps (Keeps.refl s))
  · rename_i c rest hp
    rw [hp]
    exact exec_keeps (Keeps.refl _)

end Sys2Proof.Machine
end

