-- ==== Sys2Proof/Laws/Laps.lean ====
section
/-! SUPPORT. What follows when the lap tables change: the paces, the identities and the links' capacity, and nothing else. -/

namespace Sys2Proof.Machine

/-- What follows when the lap tables have changed is in the paces, the identities and the capacity of the links. -/
def lapKeys : List Nat := [objKey D.FIELD_PACE, objKey D.LAP_ACTIVE_ID, objKey D.LAP_SHADOW_ID, objKey D.FIELD_PACE_SHADOW, objKey D.LINK_CAPACITY,
  objKey D.LINK_SCALE] ++ raiseKeys

theorem State.refreshShadow_tells (s : State) : Tells lapKeys s s.refreshShadow := by
  unfold State.refreshShadow
  exact (((Tells.refl _ s).wr (by decide) _ _).wr (by decide) _ _).trans (Tells.foldl (fun t a => (Tells.refl _ t).wr (by decide) _ _) _ _)
theorem State.refreshPace_tells (s : State) : Tells lapKeys s s.refreshPace := by
  unfold State.refreshPace
  exact Tells.foldl (fun t a => (Tells.refl _ t).wr (by decide) _ _) _ _
theorem raiseKeys_lapKeys : ∀ k, k ∈ raiseKeys → k ∈ lapKeys := fun _ h => List.mem_append_right _ h
theorem State.scaleEvent_tells (s : State) (a b c d : Nat) : Tells lapKeys s (s.scaleEvent a b c d) := by
  unfold State.scaleEvent
  split
  · exact Tells.refl _ _
  · split
    · exact (Tells.refl _ _).raise raiseKeys_lapKeys _ _ _
    · exact (Tells.refl _ _).raise raiseKeys_lapKeys _ _ _
theorem State.refreshLink_tells (s : State) (n : Nat) : Tells lapKeys s (s.refreshLink n) := by
  unfold State.refreshLink
  split
  · exact (((Tells.refl _ s).wr (by decide) _ _).wr (by decide) _ _).trans (State.scaleEvent_tells _ _ _ _ _)
  · exact Tells.refl _ _
theorem State.lapChanged_tells (s : State) : Tells lapKeys s s.lapChanged := by
  unfold State.lapChanged
  refine ((State.refreshPace_tells s).trans (State.refreshShadow_tells _)).trans ?_
  exact Tells.foldl (fun t a => State.refreshLink_tells t a) _ _
theorem State.lapChanged_laps (s : State) : s.lapChanged.lapA = s.lapA ∧ s.lapChanged.lapS = s.lapS ∧ s.lapChanged.lapOp = s.lapOp ∧
    s.lapChanged.lapCause = s.lapCause ∧ s.lapChanged.flying = s.flying := by
  rw [(State.lapChanged_tells s).rest]; exact ⟨rfl, rfl, rfl, rfl, rfl⟩

theorem State.suspendLap_spec (s : State) (c : Nat) : ∃ x, s.suspendLap c = { s with lapCause := x } := by
  unfold State.suspendLap; split
  · exact ⟨_, rfl⟩
  · exact ⟨s.lapCause, rfl⟩

/-- A field runs at `mhz`: its frequency, the paces, and at most the lap's suspension. -/
theorem State.fieldRuns_spec (s : State) (f mhz : Nat) :
    (s.fieldRuns f mhz).rd D.FIELD_FREQ f = mhz ∧ KeysBut s (s.fieldRuns f mhz) (objKey D.FIELD_FREQ :: lapKeys) ∧
    ∃ t, s.fieldRuns f mhz = t ∧
      t = { s with objs := t.objs, events := t.events, eventSeq := t.eventSeq, flogWait := t.flogWait, out := t.out, lapCause := t.lapCause } := by
  have r := State.refreshPace_tells (s.wr D.FIELD_FREQ f mhz)
  obtain ⟨u, hu⟩ : ∃ u, u = (s.wr D.FIELD_FREQ f mhz).refreshPace := ⟨_, rfl⟩
  rw [← hu] at r
  have k : KeysBut s u (objKey D.FIELD_FREQ :: lapKeys) :=
    ((KeysBut.refl s _).wr (List.mem_cons_self ..) f mhz).trans (r.keys.mono (fun _ h => List.mem_cons_of_mem _ h))
  have e : ∃ x, s.fieldRuns f mhz = { u with lapCause := x } := by
    unfold State.fieldRuns; simp only [← hu]
    split
    · split
      · exact State.suspendLap_spec _ _
      · exact ⟨u.lapCause, rfl⟩
    · exact ⟨u.lapCause, rfl⟩
  obtain ⟨x, e⟩ := e
  rw [e]
  refine ⟨?_, k.trans (KeysBut.congr rfl rfl _), _, rfl, ?_⟩
  · refine (State.rd_congr rfl rfl _ _).trans ((r.rd (by decide) f).trans (State.rd_wr_same _ _ _ _))
  · rw [r.rest]; rfl

end Sys2Proof.Machine
end

