-- ==== Sys2Proof/Laws/Ports.lean ====
section
/-! SUPPORT. What taking an attach port down, clearing it and sending over a sideband leave as they were. -/

namespace Sys2Proof.Machine

/-- Forgetting a miss touches the partition alone. -/
theorem State.dropMiss_shape (s : State) (p f : Nat) : s.dropMiss p f = { s with parts := (s.dropMiss p f).parts } := by
  unfold State.dropMiss; split <;> rfl

theorem State.portDrop_shape (s : State) (i : Nat) : s.portDrop i = { s with reqs := (s.portDrop i).reqs, parts := (s.portDrop i).parts } := by
  unfold State.portDrop
  generalize s.reqList = l
  induction l generalizing s with
  | nil => rfl
  | cons x l ih =>
    simp only [List.foldl_cons]
    rw [ih]
    split
    · split
      · rfl
      · rw [State.dropMiss_shape]; rfl
      · rfl
    · rfl

theorem State.portClear_shape (s : State) (i : Nat) : s.portClear i =
    { s with objs := (s.portClear i).objs, reqs := (s.portClear i).reqs, parts := (s.portClear i).parts, forwards := (s.portClear i).forwards,
               rings := (s.portClear i).rings, ports := (s.portClear i).ports } := by
  unfold State.portClear
  simp only []
  rw [State.portDrop_shape]; rfl

theorem State.portClear_port (s : State) (i : Nat) : (s.portClear i).port i = Port.init := by unfold State.portClear; simp

theorem State.portClear_keys (s : State) (i : Nat) : KeysBut s (s.portClear i) [objKey D.ATTACH_NTF_DROPPED] := by
  have h : (s.portClear i).objs = (s.count D.ATTACH_NTF_DROPPED i (s.port i).ntfs.length).objs := by
    unfold State.portClear
    simp only []
    rw [State.portDrop_shape]; rfl
  have hv : (s.portClear i).variant = s.variant := by rw [State.portClear_shape]
  exact ((KeysBut.refl s _).count (by simp) i _).trans (.congr (s := s.count D.ATTACH_NTF_DROPPED i (s.port i).ntfs.length) h hv _)

theorem State.sbSend_shape (s : State) (n ty a d : Nat) : s.sbSend n ty a d = { s with sites := (s.sbSend n ty a d).sites, out := (s.sbSend n ty a d).out } := by
  unfold State.sbSend; split <;> rfl

theorem State.sbPorts_shape (s : State) (n : Nat) : s.sbPorts n = { s with sites := (s.sbPorts n).sites, out := (s.sbPorts n).out } := by
  unfold State.sbPorts; exact State.sbSend_shape _ _ _ _ _

@[simp] theorem State.sbPorts_rd (s : State) (n : Nat) (o : Obj) (j : Nat) : (s.sbPorts n).rd o j = s.rd o j := by rw [State.sbPorts_shape]; rfl

@[simp] theorem State.sbPorts_port (s : State) (n j : Nat) : (s.sbPorts n).port j = s.port j := by rw [State.sbPorts_shape]; rfl

@[simp] theorem State.sbPorts_mem (s : State) (n : Nat) : (s.sbPorts n).mem = s.mem := by rw [State.sbPorts_shape]

@[simp] theorem State.sbPorts_events (s : State) (n : Nat) : (s.sbPorts n).events = s.events := by rw [State.sbPorts_shape]

@[simp] theorem State.sbPorts_eventSeq (s : State) (n : Nat) : (s.sbPorts n).eventSeq = s.eventSeq := by rw [State.sbPorts_shape]

/-- A port DOWN with its cause and event. -/
def State.downed (s : State) (i c : Nat) : State := (((s.portClear i).wr D.ATTACH_STATE i 5).wr D.ATTACH_DOWN_CAUSE i c).raise Ev.ATTACH_PORT_DOWN 0 (evWords [i, c])

theorem State.portDown_eq (s : State) (i c : Nat) : s.portDown i c = if (s.rd D.ATTACH_STATE i == 4) = true then (State.downed s i c).sbPorts i else State.downed s i c := rfl

theorem State.portDown_spec (s : State) (i c : Nat) : (s.portDown i c).rd D.ATTACH_STATE i = 5 ∧ (s.portDown i c).rd D.ATTACH_DOWN_CAUSE i = c ∧
    (s.portDown i c).port i = Port.init ∧ (s.portDown i c).eventSeq = s.eventSeq + 1 ∧ (s.portDown i c).mem = s.mem := by
  have h := State.portDown_eq s i c
  obtain ⟨u, hu⟩ : ∃ u, u = State.downed s i c := ⟨_, rfl⟩
  rw [← hu] at h
  unfold State.downed at hu
  have k1 : u.rd D.ATTACH_STATE i = 5 := by
    rw [hu, State.rd_raise _ _ _ _ (by decide), State.rd_wr_key _ (by decide), State.rd_wr_same]
  have k2 : u.rd D.ATTACH_DOWN_CAUSE i = c := by rw [hu, State.rd_raise _ _ _ _ (by decide), State.rd_wr_same]
  have k3 : u.port i = Port.init := by rw [hu, State.raise_port]; exact State.portClear_port s i
  have k4 : u.eventSeq = s.eventSeq + 1 := by rw [hu, State.raise_eventSeq]; show (s.portClear i).eventSeq + 1 = _; rw [State.portClear_shape]
  have k5 : u.mem = s.mem := by rw [hu, State.raise_mem]; show (s.portClear i).mem = _; rw [State.portClear_shape]
  rw [h]; split <;> simp [k1, k2, k3, k4, k5]

theorem State.attachTake_runs (s : State) (i : Nat) (m : Msg) (op : Nat) (k : State → State) (h : messageRuns s i m op = true) :
    s.attachTake i m op k = k (received s i m) := by
  simp only [messageRuns, messageComes, Bool.and_eq_true, beq_iff_eq, decide_eq_true_eq, Bool.not_eq_true'] at h
  obtain ⟨⟨⟨⟨h1, h2⟩, h3⟩, h4⟩, h5⟩ := h
  have hw : (received s i m).portWaits i = s.portWaits i := by
    unfold received State.portWaits State.reqList State.resHeld; simp; rfl
  simp only [State.attachTake, h1, bne_self_eq_false, Bool.false_eq_true, if_false]
  rw [if_neg (Nat.not_lt.mpr h2)]
  show (if (received s i m).portWaits i = true then _ else (received s i m).attachRun i m op k) = _
  rw [hw, h3]
  simp only [Bool.false_eq_true, if_false, State.attachRun]
  have ht : (received s i m).portTags i = s.portTags i := rfl
  rw [ht, h4, h5]; simp


end Sys2Proof.Machine
end

