-- ==== Sys2Proof/WellFormed.lean ====
section
/-! DEFINITION. Which operands of a command can arrive: values fit their lengths, lists have an entry for each lane, rail, kind or bank, and sizes
stay within the limits of the rule that names them. The meanings run on every operand, well-formed or not. -/

namespace Sys2Proof

/-- The bytes fit the length, which is at most that of the largest object (FW_BANK, Table 15.13). -/
def OdVal.wf (v : OdVal) : Bool := decide (v.len ≤ 67108864 ∧ v.val < 2 ^ (8 * v.len))

def OdWrite.wf (w : OdWrite) : Bool := w.val.wf

/-- A message has at most 63 payload chunks, the most PCH can count (Table 10.5, Table 11.4). -/
def Msg.wf (m : Msg) : Bool := decide (m.payload < 2 ^ (128 * 63))

/-- A command slot holds 80 bytes of payload (R319). -/
def CmdSrc.wf : CmdSrc → Bool
  | .attach _ m => m.wf
  | .host _ _ _ p => decide (p < 2 ^ 640)
  | .object i w => decide (i < 2 ^ 20) && w.wf
  | .descriptor _ => true

/-- A training record has at most 4,096 bytes with its 17-byte head (R161). -/
def TrainOutcome.wf (o : TrainOutcome) : Bool := o.record.wf && decide (o.record.len ≤ 4079 ∧ -55 ≤ o.celsius ∧ o.celsius ≤ 150)

/-- Clock identities have 64 bits (R221). -/
def PtpMsg.wf : PtpMsg → Bool
  | .announce _ _ i => decide (i < 2 ^ 64)
  | .syncOneStep _ i _ _ => decide (i < 2 ^ 64)
  | .syncTwoStep _ i _ => decide (i < 2 ^ 64)
  | .followUp _ i _ => decide (i < 2 ^ 64)
  | .delayResp _ i _ _ => decide (i < 2 ^ 64)

/-- Eight lanes (R288). -/
def EqOutcome.wf (o : EqOutcome) : Bool :=
  o.record.wf && decide (o.fastFoms.length = 8 ∧ o.fullFoms.length = 8 ∧ o.coefs.length = 8 ∧ o.record.len ≤ 4079)

def MeasureOutcome.wf (o : MeasureOutcome) : Bool := decide (o.bers.length = 8)

def RetrainOutcome.wf (o : RetrainOutcome) : Bool := o.record.wf && decide (o.bers.length = 8 ∧ o.foms.length = 8 ∧ o.coefs.length = 8 ∧ o.record.len ≤ 4079)

/-- A scheduled unit carries at least one message (R305). -/
def SchedUnit.wf (u : SchedUnit) : Bool := decide (1 ≤ u.msgs.length) && u.msgs.all Msg.wf

/-- Bytes of a BAR (Table 12.2). -/
def barBytes : HostBar → Nat
  | .bar0 => 2 ^ 16
  | .bar2 => 2 ^ 26
  | .bar4 => 2 ^ 44

/-- A request has at least one byte, stays within its BAR and does not cross 4 KiB, and its data fit its length (R313). -/
def HostReq.wf (q : HostReq) : Bool :=
  decide (1 ≤ q.len ∧ q.offset + q.len ≤ barBytes q.bar ∧ q.offset % 4096 + q.len ≤ 4096 ∧ q.data < 2 ^ (8 * q.len))

/-- An Ethernet payload (Table 13.7: larger frames are dropped on arrival). -/
def EthFrame.wf (f : EthFrame) : Bool := f.payload.wf && decide (f.payload.len ≤ 9216)

/-- Four kinds of firmware (Table 15.5). -/
def BankImage.wf (i : BankImage) : Bool :=
  decide (i.digests.length = 4 ∧ i.handover.length = 4 ∧ i.handoverMin.length = 4 ∧ i.manifestDigest < 2 ^ 512) &&
    i.digests.all (fun d => decide (d < 2 ^ 512))

/-- Two banks; unit and cause codes of 16 bits (Table 15.2). -/
def StageOutcome.wf (o : StageOutcome) : Bool :=
  decide (o.bankOk.length = 2) && o.fails.all (fun x => decide (x.1 < 2 ^ 16 ∧ x.2 < 2 ^ 16))

/-- The operands of a command can arrive. -/
def Instr.wf : Instr → Bool
  | .read _ m => m.wf
  | .write _ m => m.wf
  | .atomic _ m => m.wf
  | .prefetch _ m => m.wf
  | .fmtRead _ m => m.wf
  | .fmtWrite _ m => m.wf
  | .scaledAcc _ m => m.wf
  | .range src => src.wf
  | .fence _ m => m.wf
  | .formatSet src => src.wf
  | .ringWrite src => src.wf
  | .ringRead src => src.wf
  | .sweep src => src.wf
  | .launch src => src.wf
  | .launchCancel src => src.wf
  | .gateRead src => src.wf
  | .attachDataFlit _ _ => true
  | .attachParamFlit _ _ => true
  | .attachNullFlit _ _ => true
  | .attachResetTimer _ => true
  | .attachTrainDone _ => true
  | .attachTrainTimeout _ => true
  | .attachParamTimeout _ => true
  | .attachPortReset _ w => w.wf
  | .attachResetDrainEnd _ => true
  | .ntfSend _ => true
  | .vfReq _ _ => true
  | .vfDone _ _ => true
  | .vfDoneTimeout _ => true
  | .railQuery _ _ _ _ => true
  | .portQuery _ _ => true
  | .sidebandAck _ _ => true
  | .sidebandResend _ => true
  | .railSettled _ _ => true
  | .siteSeqGapExpiry _ => true
  | .railDroop _ _ _ => true
  | .sdroopRelease _ mvs => decide (mvs.length = 8)
  | .currentLimitHold _ _ _ => true
  | .siteFault _ _ => true
  | .sitePower _ w => w.wf
  | .siteOpp _ w => w.wf
  | .sitePmax _ w => w.wf
  | .siteRails _ w => w.wf
  | .railVmin _ w => w.wf
  | .railVmax _ w => w.wf
  | .railDieCap _ w => w.wf
  | .sliceRead _ _ _ => true
  | .sliceWrite _ _ => true
  | .sliceAtomic _ _ _ => true
  | .slicePrefetch _ _ => true
  | .formatOnRead _ => true
  | .formatOnWrite _ => true
  | .scaledAccumulate _ => true
  | .rangePart _ => true
  | .rangePartDone _ => true
  | .lineFill _ _ => true
  | .replayRetry _ => true
  | .writebackIssued _ _ => true
  | .writebackAck _ _ => true
  | .atomicBusyClear _ _ => true
  | .hotLineInterval _ => true
  | .hotBufferApply _ _ => true
  | .sliceFail _ => true
  | .spareAdoptionSwitch _ => true
  | .sliceRetire _ w => w.wf
  | .retireWalkEnd _ => true
  | .tagPeekSelect _ w => w.wf
  | .reductionUnitApply _ => true
  | .winInstall src => src.wf
  | .winWithdraw src => src.wf
  | .faultDeny src => src.wf
  | .faultStallExpiry _ => true
  | .withdrawalAck _ => true
  | .drainLimitExpiry _ => true
  | .partEnable _ w => w.wf
  | .partDomain _ w => w.wf
  | .portPartition _ w => w.wf
  | .tePartition _ w => w.wf
  | .pfDataPartition w => w.wf
  | .rebindDrainExpiry _ => true
  | .rebindStampSwitch _ => true
  | .linkPartMask _ w => w.wf
  | .srSeed w => w.wf
  | .flowSnapshot w => w.wf
  | .flowClear w => w.wf
  | .doorbell _ => true
  | .descriptorFetch _ => true
  | .descriptorStart _ => true
  | .teRequestDone _ => true
  | .descriptorComplete _ => true
  | .gateWaitDone _ => true
  | .engineFail _ => true
  | .sweepLaunch _ => true
  | .sweepSliceLine _ _ => true
  | .sweepComplete _ => true
  | .sweepAbort _ w => w.wf
  | .sweepTimeoutExpiry _ => true
  | .sweepProgressRefresh _ => true
  | .sweepGroup _ w => w.wf
  | .gatherWrite _ m => m.wf
  | .pseudoChannelIssue _ => true
  | .hbmReadReturn _ _ => true
  | .rowCloseTimeout _ _ => true
  | .stackTempSample _ celsius => decide (-55 ≤ celsius ∧ celsius ≤ 150)
  | .scrubStep _ _ => true
  | .initStep _ => true
  | .stackTrain _ o => o.wf
  | .readTimingCheck _ _ => true
  | .pdIdleExpiry _ => true
  | .selfRefreshExitDone _ => true
  | .hbmSelfRefresh _ w => w.wf
  | .channelRetire _ w => w.wf
  | .migrationUnitCopy _ _ => true
  | .migrationEnd _ => true
  | .channelFail _ => true
  | .lapLoad w => w.wf
  | .lapSwitch w => w.wf
  | .lapUnload w => w.wf
  | .lapResume w => w.wf
  | .routerFail _ => true
  | .redFlagsClear _ w => w.wf
  | .syncWord _ => true
  | .gateSource w => w.wf
  | .timexDue _ => true
  | .timexRequest _ _ => true
  | .timexReply _ _ => true
  | .timexFollowUp _ _ => true
  | .ptpMessage m => m.wf
  | .launchWake _ => true
  | .launchAct _ lateNs => decide (lateNs < 2 ^ 32)
  | .launchFrame _ m => m.wf
  | .launchResponse _ m => m.wf
  | .launchCancelFrame _ m => m.wf
  | .launchCancelAnswer _ m => m.wf
  | .memGuarantee _ w => w.wf
  | .memGroupMask _ w => w.wf
  | .linkGuarantee _ w => w.wf
  | .linkMask _ w => w.wf
  | .memEfficiency w => w.wf
  | .linkEfficiency w => w.wf
  | .classMissMin _ w => w.wf
  | .classMissMax _ w => w.wf
  | .linkPower _ w => w.wf
  | .linkOffDrainEnd _ => true
  | .linkBeacon _ _ _ => true
  | .linkPatternDone _ => true
  | .linkLockDone _ _ => true
  | .laneBitslip _ w => w.wf
  | .linkEqDone _ o => o.wf
  | .linkCaps _ _ => true
  | .linkMeasureDone _ o => o.wf
  | .linkPhaseTimeout _ => true
  | .linkLightLoss _ => true
  | .laserLowDetect _ _ => true
  | .linkRetryExpiry _ => true
  | .linkIdleEntry _ => true
  | .linkIdleExit _ => true
  | .linkRetrain _ w => w.wf
  | .linkBerInterval _ lanes => decide (lanes.length = 8)
  | .linkRetrainDone _ o => o.wf
  | .linkFlit _ _ _ _ _ => true
  | .linkAck _ _ => true
  | .schedStart _ _ u => u.wf
  | .linkRequest _ m => m.wf
  | .linkRsp _ m => m.wf
  | .linkRoute _ w => w.wf
  | .linkRouteHoldExpiry _ => true
  | .linkQuarantineEnd _ => true
  | .linkSnapshot w => w.wf
  | .hostMemoryRequest _ q => q.wf
  | .hostAtomicop _ q _ => q.wf
  | .faultRingWrite _ _ _ _ => true
  | .faultRecordDeliver _ => true
  | .mailboxRequest _ len request => decide (len ≤ 4096 ∧ request < 2 ^ (8 * len))
  | .gateNow _ _ => true
  | .vfEnable _ => true
  | .hostLinkTrained _ => true
  | .vfFlr _ => true
  | .phildofelRequest fr => fr.wf
  | .eventAck fr => fr.wf
  | .objectRead _ _ => true
  | .objectWrite _ w => w.wf
  | .readSeg _ _ offset len => decide (offset < 2 ^ 32) && decide (len < 2 ^ 16)
  | .writeSeg _ _ offset _ v => decide (offset < 2 ^ 32) && v.wf
  | .describe _ _ => true
  | .storeCommit w => w.wf
  | .commitDone _ => true
  | .storeDefaults w => w.wf
  | .configLock w => w.wf
  | .mgmtPubkey _ w => w.wf
  | .powerOn _ => true
  | .xtalDelayExpiry _ => true
  | .fieldClockReq w => w.wf
  | .pllUnlock _ _ => true
  | .pllRelockAttempt _ _ => true
  | .clkForced _ => true
  | .ckobsSelect w => w.wf
  | .ckobsDiv w => w.wf
  | .idleTimeout _ _ => true
  | .slicePowerMode _ w => w.wf
  | .fieldPowerMode _ w => w.wf
  | .chairliftAdmit _ => true
  | .unitWakeDone _ => true
  | .fieldTempSample _ deciCelsius => decide (-550 ≤ deciCelsius ∧ deciCelsius ≤ 1500)
  | .powerLoss _ _ _ => true
  | .bootStageEnd o => o.wf
  | .fwBankProgrammed _ _ img => img.wf
  | .fwMinSvn w => w.wf
  | .moultCommand w => w.wf
  | .defectAdd w => w.wf
  | .resetSlice _ w => w.wf
  | .resetField _ w => w.wf
  | .resetPartition _ w => w.wf
  | .deviceReset w => w.wf
  | .linkHoldReset w => w.wf
  | .attestNonce w => w.wf
  | .fieldCtrlFail _ => true
  | .faultOverflowClear _ w => w.wf
  | .faultLogSelect w => w.wf
  | .refresh _ _ => true
  | .hbmRetrainDone _ => true
  | .linkTransmit _ => true
  | .partnerRetraining _ => true
  | .mgmtLinkChange _ => true
  | .flowSnapDone => true
  | .lapLoadDone => true
  | .lapTailStop => true
  | .lapSwitchAtT => true
  | .lapUnloadAtT => true
  | .lapResumeAtT => true
  | .lapSuspend => true
  | .routeTableSwitch => true
  | .gateStep => true
  | .upstreamLossTimeout => true
  | .ptpSyncTimeout => true
  | .holdoverLimitExpiry => true
  | .bwEstimateUpdate => true
  | .hostLinkDown => true
  | .pfFlr => true
  | .philEventResend => true
  | .storeDelayExpiry => true
  | .xtalRestart => true
  | .fieldClockSettled => true
  | .inputRecovered => true
  | .moultUnitSwitch => true
  | .moultReadyTimeout => true
  | .resetPin => true
  | .uttexWatchdog => true
  | .attestReportReady => true
  | .faultLogWrite => true
  | .stride => true
  | .moultReady => true
  | .resetPinRelease => true
  | .linkSnapDone => true

end Sys2Proof
end

