-- ==== Sys2Proof/Tests/Slice0.lean ====
section
/-! SUPPORT. Tests: what WellFormed refuses, a state and operands that meet the hypotheses of each statement, and small checks of commands whose
expected results stand in the spec's text and tables. -/

namespace Sys2Proof.Tests
set_option Elab.async false
open Sys2Proof Sys2Proof.Machine

/-- A started device: start-up has passed stage 10. -/
def up : State := State.reset.wr D.BOOT_STAGE 0 10
/-- A started device whose controller runs a command. -/
def held : State := up.odHold
/-- A write over the internal route, and over that of the host's PF. -/
def wi (n v : Nat) : OdWrite := { route := .internal, val := { len := n, val := v } }
def wp (n v : Nat) : OdWrite := { route := .hostPf, val := { len := n, val := v } }
/-- A write of the whole of an object. -/
def wo (o : Obj) (v : Nat) : OdWrite := wi o.len v
/-- A started HN4-S of the west half. -/
def west : State := { up with variant := .hn4sWest }
/-- The state a command leaves, and the state a step leaves; on any other outcome the state given. -/
def after (c : Instr) (s : State) : State := match exec c s with | .next t => t | _ => s
def stepped (s : State) : State := match step s with | .next t => t | _ => s

/-! ### Hypotheses that can be met: the block, its queue and its objects -/

theorem witness_StepRunsTheFrontCommand : ({ up with pending := [.xtalRestart, .pfFlr] } : State).pending = .xtalRestart :: [.pfFlr] := rfl
theorem witness_EmptyQueueLetsTimePass :
    up.pending = [] ∧ ({ up with gateRun := true } : State).settle.strideMove.gateRun = true ∧ up.settle.strideMove.gateRun = false := by decide +kernel
def queued : State := { up with pending := [.pllUnlock 0 true, .pfFlr] }
theorem witness_EveryStepKeepsTheInvariant : Formed queued = true ∧ ∃ t, step queued = .next t ∧ t.pending = [.pfFlr] :=
  ⟨by decide +kernel, _, rfl, by decide +kernel⟩
theorem witness_EveryStepKeepsFusesQueueAndHistory : ∃ t, step queued = .next t ∧ t.clkPend = [1] := ⟨_, rfl, by decide +kernel⟩
theorem witness_ObjectCommandsWaitForTheController : objectCommand (.storeCommit (wi 4 1)) = true ∧ State.reset.odUp = false ∧
    held.odUp = true ∧ (held.odBusy || !held.backlog.isEmpty) = true := by decide +kernel

/-- The address of an object, and one that names none. -/
def oa (o : Obj) (i : Nat) : ObjAddr := { index := BitVec.ofNat 16 o.idx, inst := BitVec.ofNat 16 i, sub := BitVec.ofNat 8 o.sub }
def oaNone : ObjAddr := { index := 0xFFFF, inst := 0, sub := 0 }
/-- The address finds the object. -/
def finds (o : Obj) : Prop := findObj (oa o 0).index.toNat (oa o 0).sub.toNat = some o

set_option maxRecDepth 100000 in
theorem finds_some : finds D.BOOT_STAGE ∧ finds D.SLICE_POWER_MODE ∧ finds D.STORE_DELAY ∧ finds D.CONFIG_LOCK := ⟨rfl, rfl, rfl, rfl⟩
theorem witness_ObjectWriteRefusals :
    up.odFree = true ∧ up.boot.ask = none ∧ (findObj oaNone.index.toNat oaNone.sub.toNat).isNone = true ∧
    up.odCheck D.BOOT_STAGE (oa D.BOOT_STAGE 0).inst.toNat (wi 1 0) false = St.OD_READ_ONLY ∧ St.OD_READ_ONLY ≠ 0 ∧ St.OD_READ_ONLY ≠ St.UNIT_ABSENT ∧
    west.odFree = true ∧ west.boot.ask = none ∧
    west.odCheck D.SLICE_POWER_MODE (oa D.SLICE_POWER_MODE 1023).inst.toNat (wi 1 0) false = St.UNIT_ABSENT := by decide +kernel

def lockedUp : State := up.wr D.CONFIG_LOCK 0 1
theorem witness_ObjectWriteChecksInOrder :
    (if D.BOOT_STAGE.insts = 0 then 1 != 0 else decide (D.BOOT_STAGE.insts ≤ 1)) = true ∧
    (if D.SLICE_POWER_MODE.insts = 0 then 1024 != 0 else decide (D.SLICE_POWER_MODE.insts ≤ 1024)) = true ∧
    (if D.SLICE_POWER_MODE.insts = 0 then 1023 != 0 else decide (D.SLICE_POWER_MODE.insts ≤ 1023)) = false ∧
    unitPresent .hn4sWest D.SLICE_POWER_MODE.unit 1023 = false ∧
    up.odPresent D.BOOT_STAGE 0 = 0 ∧ accessWrite D.BOOT_STAGE.acc ≠ 0 ∧
    up.odPresent D.DEFECT_ADD 0 = 0 ∧ accessWrite D.DEFECT_ADD.acc = 0 ∧ bit D.DEFECT_ADD.wmask (routeBit (.hostVf 0)) = false ∧
    up.odPresent D.PORT_PARTITION 511 = 0 ∧
    lockedUp.odPresent D.CONFIG_LOCK 0 = 0 ∧ lockedUp.rdB D.CONFIG_LOCK 0 = true := by decide +kernel

/-- A mailbox as the source of a segment. -/
def mboxSrc : SegSrc := { route := .hostPf, mac := 0 }
set_option maxRecDepth 100000 in
theorem finds_more : finds D.GATE_TIME ∧ finds D.MGMT_PUBKEY := ⟨rfl, rfl⟩
set_option maxRecDepth 100000 in
theorem witness_DictionaryOperations_own : ∀ t : State, t.own D.STORE_DELAY (oa D.STORE_DELAY 0).inst.toNat (wi 4 5) =
    t.odSet D.STORE_DELAY (oa D.STORE_DELAY 0).inst.toNat (wi 4 5) := fun _ => rfl
def stagedKey : State := after (.writeSeg mboxSrc (oa D.MGMT_PUBKEY 3) 0 false { len := 8, val := 7 }) up
theorem witness_DictionaryOperations :
    up.odFree = true ∧ up.boot.ask = none ∧ up.readStatus D.BOOT_STAGE (oa D.BOOT_STAGE 0).inst.toNat .hostPf false = 0 ∧
    roundUp (up.objView D.BOOT_STAGE (oa D.BOOT_STAGE 0).inst.toNat .hostPf).1 4 ≤ up.room .hostPf ∧
    up.liveView (objKey D.BOOT_STAGE) (oa D.BOOT_STAGE 0).inst.toNat = none ∧ objKey D.BOOT_STAGE ≠ objKey D.FAULT_LOG_ENTRY ∧
    up.readStatus D.GATE_TIME (oa D.GATE_TIME 0).inst.toNat .hostPf false = 0 ∧
    roundUp (up.objView D.GATE_TIME (oa D.GATE_TIME 0).inst.toNat .hostPf).1 4 ≤ up.room .hostPf ∧
    (up.liveView (objKey D.GATE_TIME) (oa D.GATE_TIME 0).inst.toNat).isSome = true ∧
    up.takes D.STORE_DELAY (oa D.STORE_DELAY 0).inst.toNat (wi D.STORE_DELAY.len 5) = true ∧ objKey D.STORE_DELAY ≠ objKey D.STORE_STATE ∧
    up.readStatus D.SLICE_POWER_MODE (oa D.SLICE_POWER_MODE 1023).inst.toNat .internal true = 0 ∧
    up.liveView (objKey D.SLICE_POWER_MODE) (oa D.SLICE_POWER_MODE 1023).inst.toNat = none ∧
    up.segStatus D.MGMT_PUBKEY (oa D.MGMT_PUBKEY 3).inst.toNat mboxSrc.route = 0 ∧ up.stagedOf (oa D.MGMT_PUBKEY 3) = none ∧
    stagedKey.odFree = true ∧ stagedKey.boot.ask = none ∧ stagedKey.segStatus D.MGMT_PUBKEY (oa D.MGMT_PUBKEY 3).inst.toNat mboxSrc.route = 0 ∧
    (stagedKey.stagedOf (oa D.MGMT_PUBKEY 3)).isSome = true ∧
    (if D.SLICE_POWER_MODE.insts = 0 then (oa D.SLICE_POWER_MODE 1023).inst.toNat = 0 else (oa D.SLICE_POWER_MODE 1023).inst.toNat < D.SLICE_POWER_MODE.insts) ∧
    up.takes D.CONFIG_LOCK 0 (wo D.CONFIG_LOCK 1) = true ∧ (odNum (wo D.CONFIG_LOCK 1) = 0 → up.rdB D.CONFIG_LOCK 0 = false) ∧
    lockedUp.takes D.CONFIG_LOCK 0 (wo D.CONFIG_LOCK 0) = true ∧ odNum (wo D.CONFIG_LOCK 0) = 0 ∧ lockedUp.rdB D.CONFIG_LOCK 0 = true ∧
    up.takes D.MGMT_PUBKEY 3 (wi 57 9) = true := by decide +kernel

/-! ### Events, attach ports and the check of windows -/

def full : State := { up with events := List.replicate 256 { seq := 0, word := 0, sends := 1 } }
theorem witness_RaisingAnEvent : up.events.length < 256 ∧ up.uttexPause = false ∧ full.events.length = 256 ∧ loggedEvent Ev.STORE_FAULT = true ∧
    up.flogWait.length < 256 ∧ loggedEvent Ev.PLL_UNLOCK = false := by decide +kernel

/-- Port 511 in a state of Table 10.4. -/
def portIn (n : Nat) : State := up.wr D.ATTACH_STATE 511 n
/-- A flit with its CRC (Table 10.2). -/
def sealFlit (x : Nat) : BitVec 2048 := BitVec.ofNat 2048 (x + flitCrc x * 2 ^ 96)
def paramFlit (version credit : Nat) : BitVec 2048 := sealFlit (2 ^ 12 + version * 2 ^ 128 + credit * 2 ^ 144 + 0x1234 * 2 ^ 192)
set_option maxRecDepth 100000 in
theorem witness_AttachPortTraining : (portIn 1).rd D.ATTACH_STATE 511 = 1 ∧ (portIn 2).rd D.ATTACH_STATE 511 = 2 ∧ (portIn 3).rd D.ATTACH_STATE 511 = 3 ∧
    fhType (paramFlit 1 64).toNat = 1 ∧ flitGood (paramFlit 1 64).toNat = true ∧ bits (bytesOf (paramFlit 1 64).toNat 16 16) 15 0 = 1 ∧
    64 ≤ bits (bytesOf (paramFlit 1 64).toNat 16 16) 31 16 ∧
    fhType (paramFlit 1 63).toNat = 1 ∧ flitGood (paramFlit 1 63).toNat = true ∧ bits (bytesOf (paramFlit 1 63).toNat 16 16) 31 16 < 64 ∧
    flitGood (paramFlit 2 64).toNat = true ∧ bits (bytesOf (paramFlit 2 64).toNat 16 16) 15 0 ≠ 1 := by decide +kernel

def active : State := portIn 4
def granted : State := active.setPort 511 { active.port 511 with ntfGrant := 64, ntfs := [(0, 7)], resetting := none }
def draining : State := active.setPort 511 { active.port 511 with resetting := some 0 }
set_option maxRecDepth 100000 in
theorem witness_AttachPortTraffic : active.rd D.ATTACH_STATE 511 = 4 ∧
    fhType (sealFlit 0).toNat = 0 ∧ flitGood (sealFlit 0).toNat = true ∧ (active.flitApply 511 (sealFlit 0).toNat).rd D.ATTACH_STATE 511 = 4 ∧
    fhSeq (sealFlit 0).toNat = ((active.flitApply 511 (sealFlit 0).toNat).port 511).rxSeq ∧
    fhType (sealFlit 1).toNat = 0 ∧ flitGood (sealFlit 1).toNat = true ∧
    fhSeq (sealFlit 1).toNat ≠ ((active.flitApply 511 (sealFlit 1).toNat).port 511).rxSeq ∧ flitGood 0 = false ∧
    fhType (sealFlit 0x2000).toNat = 2 ∧ flitGood (sealFlit 0x2000).toNat = true ∧ fhNak (sealFlit 0x2000).toNat = false ∧
    (granted.port 511).ntfs = (0, 7) :: [] ∧
    ((granted.port 511).ntfTx + 2 ^ 16 - (granted.port 511).ntfFreed) % 2 ^ 16 + (1 + mhPch 0) ≤ (granted.port 511).ntfGrant ∧
    (portIn 0).takes D.ATTACH_PORT_RESET 511 (wi 1 1) = true ∧ (portIn 0).rd D.ATTACH_STATE 511 = 0 ∧
    active.takes D.ATTACH_PORT_RESET 511 (wi 1 1) = true ∧ (active.port 511).resetting = none ∧
    (portIn 5).takes D.ATTACH_PORT_RESET 511 (wi 1 1) = true ∧ (portIn 5).rd D.ATTACH_STATE 511 ≠ 0 ∧ (portIn 5).rd D.ATTACH_STATE 511 ≠ 4 ∧
    draining.rd D.ATTACH_STATE 511 = 4 ∧ (draining.port 511).resetting.isSome = true := by decide +kernel

/-- A request header (Table 10.5) of tag 1 and class 0. -/
def mh (op len attr addr pch : Nat) : Msg :=
  { hdr := BitVec.ofNat 128 (op + 2 ^ 6 + len * 2 ^ 25 + attr * 2 ^ 32 + addr * 2 ^ 40 + pch * 2 ^ 96), ext := 0, payload := 0 }
theorem witness_AttachMessagesEnter :
    messageRuns active 511 (mh 1 127 0 0 0) 1 = true ∧ messageRuns active 511 (mh 2 0 0 0 1) 2 = true ∧ messageRuns active 511 (mh 3 7 3 0 1) 3 = true ∧
    messageRuns active 511 (mh 4 0 0 0 0) 4 = true ∧ messageRuns active 511 (mh 5 0 0 0 0) 5 = true ∧
    messageRuns active 511 (mh 6 0 0 (2 ^ 44) 1) 6 = true ∧ active.attachFmt 511 (mh 6 0 0 (2 ^ 44) 1) false = 0 ∧
    messageRuns active 511 (mh 7 0 0 (2 ^ 44) 1) 7 = true ∧ active.attachFmt 511 (mh 7 0 0 (2 ^ 44) 1) true = 0 ∧
    messageRuns active 511 (mh 8 0 0 0 1) 8 = true ∧ messageRuns active 511 (mh 9 0 0 0 0) 9 = true := by decide +kernel

/-- Port 511 with a request of tag 1 under way. -/
def tagged : State := after (.read 511 (mh 1 0 0 0 0)) (active.wr D.WINDOW_ENTRY (winIdx 0 0 0) (1 + 2 ^ 1))
theorem witness_AttachMessagesTurnedAway : up.rd D.ATTACH_STATE 511 ≠ 4 ∧ messageComes tagged 511 (mh 1 0 0 0 0) = true ∧
    (tagged.portTags 511).contains (mhTag (mh 1 0 0 0 0).hdr.toNat) = true ∧ messageComes active 511 (mh 1 0 1 0 0) = true ∧
    (active.portTags 511).contains (mhTag (mh 1 0 1 0 0).hdr.toNat) = false ∧ frameOk (mh 1 0 1 0 0) 1 = false := by decide +kernel

def aRead : Req := active.attachReq 511 (mh 1 0 0 0 0) .read 1 0 0
def aFence : Req := active.attachReq 511 (mh 9 0 0 0 0) .fence 1 0 0
def rebinding : State := { active with rebinds := [{ res := .port 511, old := 0, new := 1, drained := false }] }
theorem witness_EnteredRequestsAreHeldOrChecked :
    aRead.kind ≠ .fence ∧ (active.newReq { aRead with stage := .held }).classHold active.nextReq { aRead with stage := .held } = false ∧
    (active.newReq { aRead with stage := .held }).mustHold active.nextReq { aRead with stage := .held } = false ∧
    aFence.kind = .fence ∧ (active.newReq { aFence with stage := .held }).mustHold active.nextReq { aFence with stage := .held } = false ∧
    (rebinding.newReq { aRead with stage := .held }).classHold rebinding.nextReq { aRead with stage := .held } = false ∧
    (rebinding.newReq { aRead with stage := .held }).mustHold rebinding.nextReq { aRead with stage := .held } = true := by decide +kernel

/-- Window 0 of group 0 of partition 0: the device's first 2 MiB, read only. -/
def windowed : State := up.wr D.WINDOW_ENTRY (winIdx 0 0 0) (1 + 2 ^ 1)
theorem witness_WindowCheckInOrder :
    west.devNum = 0 ∧ absentView west.variant 0x30000000000 = true ∧ up.rdB D.PART_ENABLE 15 = false ∧ up.rdB D.PART_ENABLE 0 = true ∧ up.devNum = 0 ∧
    bit ((up.wr D.LINK_PART_MASK 63 0).rd D.LINK_PART_MASK 63) 0 = false ∧ (up.wr D.PART_FAULT_STATE 0 1).rd D.PART_FAULT_STATE 0 ≠ 0 ∧
    (up.wr D.PART_FAULT_STATE 0 1).rdB D.PART_ENABLE 0 = true ∧
    absentView up.variant 0xF0004000000 = false ∧ up.partStatus 0 0 0 = 0 ∧ mappedOk up.variant 0xF0004000000 0xF0004000000 false = false ∧
    up.preCheck 0 0 0 0 0 127 .read = none ∧ up.winMatch 0 0 0 0 127 = none ∧
    windowed.preCheck 0 0 0 0 0 127 .write = none ∧ windowed.winMatch 0 0 0 (2 ^ 21 - 128) (2 ^ 21 - 1) = some 3 ∧ bit 3 (accBit .write) = false ∧
    windowed.preCheck 0 0 0 0 0 127 .read = none ∧ bit 3 (accBit .read) = true := by decide +kernel
theorem witness_DoorbellAperture : up.partStatus 0 0 0 = 0 ∧
    up.preCheck 0 0 0 0 0xF0000000000 0xF0000000007 .doorbell = none ∧ up.preCheck 0 0 0 0 0xF0003FFFFC0 0xF0003FFFFC7 .doorbell = none ∧
    up.checkSpan 0 0 0 0 0xF0003FFFFC1 0xF0003FFFFC8 .doorbell = .fail St.ADDRESS_UNMAPPED 0x22 ∧
    up.checkSpan 0 0 0 0 0xEFFFFFFFFFF 0xF0000000000 .read = .fail St.ADDRESS_UNMAPPED 0x22 := by decide +kernel

/-! ### Commands of hosts and ports, windows, partitions and re-binding -/

def slotBusy : State := hostTaken up 0 15 (2 ^ 7 + 8) 0
theorem witness_HostCommandsTurnedAway : up.fnPresent 16 = false ∧ up.fnPresent 0 = true ∧ (Table.get Slot.init 15 (slotBusy.fn 0).slots).own = true ∧
    (Table.get Slot.init 15 (up.fn 0).slots).own = false ∧ bit 8 7 = false ∧ bit (2 ^ 7 + 9) 7 = true ∧ hcStatus 0 (2 ^ 7 + 9) 8 ≠ 0 ∧
    hcOp 9 ≠ 8 ∧ bit (2 ^ 6) 6 = true ∧ bits (2 ^ 25) 31 25 ≠ 0 ∧ bits (2 ^ 8) 11 8 ≠ 0 := by decide +kernel

theorem witness_HostCommandsRun :
    ([8, 0x10, 0x11, 0x12, 0x13, 0x14, 0x15, 0x16, 0x20, 0x21, 0x22].all (fun op => hostRuns up 0 15 (2 ^ 7 + op) op)) = true ∧
    rcPart (up.ringCtx 0) = hcPart 0 (2 ^ 7 + 0x12) ∧ hostRuns up 0 15 (2 ^ 7 + 2 ^ 11 + 0x12) 0x12 = true ∧
    rcPart (up.ringCtx 0) ≠ hcPart 0 (2 ^ 7 + 2 ^ 11 + 0x12) ∧
    (hostTaken up 0 15 (2 ^ 7 + 0x20) 0).weStatus (0 % 2 ^ 128) = 0 ∧
    (hostTaken up 0 15 (2 ^ 7 + 0x20) 2).weStatus (2 ^ 127 % 2 ^ 128) ≠ 0 := by decide +kernel

theorem witness_AttachCommandsRun :
    messageRuns active 511 (mh 0x10 0 63 0 1) 0x10 = true ∧ messageRuns active 511 (mh 0x11 0 0 (2 ^ 20 - 1) 4) 0x11 = true ∧
    messageRuns active 511 (mh 0x12 0 0 0 0) 0x12 = true ∧ rcPart (active.ringCtx 0) = active.rd D.PORT_PARTITION 511 ∧
    messageRuns active 511 (mh 0x13 0 0 0 4) 0x13 = true ∧ messageRuns active 511 (mh 0x14 0 0 0 2) 0x14 = true ∧
    messageRuns active 511 (mh 0x15 0 0 0 1) 0x15 = true ∧ messageRuns active 511 (mh 0x16 0 0 0 0) 0x16 = true ∧
    messageRuns (active.wr D.PORT_PARTITION 511 15) 511 (mh 0x12 0 0 0 0) 0x12 = true ∧
    rcPart ((active.wr D.PORT_PARTITION 511 15).ringCtx 0) ≠ (active.wr D.PORT_PARTITION 511 15).rd D.PORT_PARTITION 511 := by decide +kernel

/-- A request without a window has parked; partition 0 is being disabled. -/
def parked : State := after (.read 511 (mh 1 0 0 0 0)) active
def disabling : State := after (.partEnable 0 (wo D.PART_ENABLE 0)) windowed
theorem witness_WindowCommandsInOrder : (disabling.part 0).drain.isSome = true ∧ (windowed.part 0).drain = none ∧
    narrows (windowed.rd D.WINDOW_ENTRY (winIdx 0 0 0)) 7 = false ∧ narrows (windowed.rd D.WINDOW_ENTRY (winIdx 0 0 0)) 5 = true ∧
    weValid (windowed.rd D.WINDOW_ENTRY (winIdx 0 0 0)) = true ∧ weValid (windowed.rd D.WINDOW_ENTRY (winIdx 0 0 63)) = false ∧
    (windowed.part 0).misses.any (fun m => m.fid == 1 && !m.resolved) = false ∧ (parked.part 0).drain = none ∧
    (parked.part 0).misses.any (fun m => m.fid == 1 && !m.resolved) = true ∧ up.validWindows 0 = [] ∧ windowed.validWindows 0 ≠ [] := by decide +kernel

def off0 : State := up.wr D.PART_ENABLE 0 0
theorem witness_PartitionObjectWrites :
    up.takes D.WINDOW_ENTRY 4095 (wo D.WINDOW_ENTRY 0) = true ∧ up.weStatus (odNum (wo D.WINDOW_ENTRY 0)) = 0 ∧
    up.takes D.WINDOW_ENTRY 0 (wo D.WINDOW_ENTRY (2 ^ 127)) = true ∧ up.weStatus (odNum (wo D.WINDOW_ENTRY (2 ^ 127))) ≠ 0 ∧
    up.weStatus (odNum (wo D.WINDOW_ENTRY (2 ^ 127))) ≠ St.UNIT_ABSENT ∧ up.odFree = true ∧
    up.takes D.PART_ENABLE 15 (wo D.PART_ENABLE 1) = true ∧ odNum (wo D.PART_ENABLE 1) = 1 ∧ up.takes D.PART_ENABLE 0 (wo D.PART_ENABLE 0) = true ∧
    odNum (wo D.PART_ENABLE 0) = 0 ∧ (up.part 0).drain = none ∧ up.validWindows 0 = [] ∧
    off0.takes D.PART_DOMAIN 0 (wo D.PART_DOMAIN 15) = true ∧ domainPresent off0.variant 15 = true ∧ off0.rdB D.PART_ENABLE 0 = false ∧
    up.takes D.PART_DOMAIN 0 (wo D.PART_DOMAIN 1) = true ∧ domainPresent up.variant 1 = true ∧ up.rdB D.PART_ENABLE 0 = true ∧
    up.takes D.LINK_PART_MASK 63 (wo D.LINK_PART_MASK 0xFFFF) = true ∧
    maskList 16 (up.rd D.LINK_PART_MASK 63 &&& (0xFFFF ^^^ odNum (wo D.LINK_PART_MASK 0xFFFF))) = [] ∧
    maskList 16 ((up.wr D.LINK_PART_MASK 63 0x8000).rd D.LINK_PART_MASK 63 &&& (0xFFFF ^^^ odNum (wo D.LINK_PART_MASK 0))) ≠ [] ∧
    (up.wr D.LINK_PART_MASK 63 0x8000).takes D.LINK_PART_MASK 63 (wo D.LINK_PART_MASK 0) = true := by decide +kernel

def rebound (x : Resource) (d : Bool) : State := { up with rebinds := [{ res := x, old := 0, new := 15, drained := d }] }
theorem witness_RebindingAgainIsBusy :
    (rebound (.port 511) false).takes D.PORT_PARTITION 511 (wo D.PORT_PARTITION 1) = true ∧
    (rebound (.port 511) false).rebinds.any (fun b => b.res == .port 511) = true ∧
    (rebound (.te 511) false).takes D.TE_PARTITION 511 (wo D.TE_PARTITION 1) = true ∧
    (rebound (.te 511) false).rebinds.any (fun b => b.res == .te 511) = true ∧
    (rebound .pf false).takes D.PF_DATA_PARTITION 0 (wo D.PF_DATA_PARTITION 1) = true ∧
    (rebound .pf false).rebinds.any (fun b => b.res == .pf) = true := by decide +kernel

theorem witness_RebindingSteps :
    up.takes D.PORT_PARTITION 511 (wo D.PORT_PARTITION 15) = true ∧ up.rebinds.any (fun b => b.res == .port 511) = false ∧
    odNum (wo D.PORT_PARTITION 15) ≠ up.rd D.PORT_PARTITION 511 ∧ up.takes D.PORT_PARTITION 0 (wo D.PORT_PARTITION 0) = true ∧
    odNum (wo D.PORT_PARTITION 0) = up.rd D.PORT_PARTITION 0 ∧
    up.takes D.TE_PARTITION 511 (wo D.TE_PARTITION 15) = true ∧ odNum (wo D.TE_PARTITION 15) ≠ up.rd D.TE_PARTITION 511 ∧
    up.takes D.TE_PARTITION 0 (wo D.TE_PARTITION 0) = true ∧ odNum (wo D.TE_PARTITION 0) = up.rd D.TE_PARTITION 0 ∧
    up.takes D.PF_DATA_PARTITION 0 (wo D.PF_DATA_PARTITION 15) = true ∧ odNum (wo D.PF_DATA_PARTITION 15) ≠ up.rd D.PF_DATA_PARTITION 0 ∧
    odNum (wo D.PF_DATA_PARTITION 0) = up.rd D.PF_DATA_PARTITION 0 ∧
    (rebound .pf false).rebinds.find? (fun c => c.res == .pf) = some { res := .pf, old := 0, new := 15, drained := false } ∧
    (rebound .pf false).resInFlight .pf 0 = [] ∧
    (rebound (.te 511) true).rebinds.find? (fun c => c.res == .te 511) = some { res := .te 511, old := 0, new := 15, drained := true } := by decide +kernel

def drained : State := up.setPart 0 { up.part 0 with drain := some (.withdraw 0 0, .od, 0) }
theorem witness_WithdrawalsEnd : (parked.req? 0).map (fun r => (r.stage, r.origin)) = some (.parked 1, .attach 511 1) ∧
    (drained.part 0).drain = some (.withdraw 0 0, .od, 0) ∧ drained.inFlightCount 0 0 = 0 ∧ (drained.part 0).wcmds = [] := by decide +kernel

/-! ### Formats, flows, rings and sweeps -/

/-- FORMAT_DESC of an FP4 format delivered wide; its parts. -/
def fmtD (valid stored : Nat) : Nat := valid + stored * 2 ^ 1
theorem witness_FormatDescriptors :
    up.takes D.FORMAT_DESC 1023 (wo D.FORMAT_DESC 0) = true ∧ fdStatus up.variant (odNum (wo D.FORMAT_DESC 0)) = 0 ∧
    up.takes D.FORMAT_DESC 0 (wo D.FORMAT_DESC (2 ^ 30)) = true ∧ fdStatus up.variant (odNum (wo D.FORMAT_DESC (2 ^ 30))) ≠ 0 ∧
    fdStatus up.variant (odNum (wo D.FORMAT_DESC (2 ^ 30))) ≠ St.UNIT_ABSENT ∧
    ((List.range 32).any (fun k => fdValid (fmtD 1 k) && fmtSub4 (fdStored (fmtD 1 k)))) = true ∧ fullFeatures .hn4sWest = false ∧
    fdValid (2 ^ 31) = false ∧ bits (2 ^ 31) 31 30 ≠ 0 ∧ bits (2 ^ 37) 47 37 ≠ 0 ∧ bits (2 ^ 127) 127 64 ≠ 0 := by decide +kernel

def snapping : State := up.wr D.FLOW_SNAP_STATE 0 1
theorem witness_SeedsAndFlows : up.takes D.SR_SEED 0 (wo D.SR_SEED 1) = true ∧ snapping.takes D.FLOW_SNAPSHOT 0 (wo D.FLOW_SNAPSHOT 1023) = true ∧
    snapping.rd D.FLOW_SNAP_STATE 0 = 1 ∧ up.takes D.FLOW_SNAPSHOT 0 (wo D.FLOW_SNAPSHOT 1023) = true ∧ up.rd D.FLOW_SNAP_STATE 0 ≠ 1 ∧
    up.takes D.FLOW_CLEAR 0 (wo D.FLOW_CLEAR 1023) = true := by decide +kernel

/-- The last ring of partition 0 with 16 descriptors, one of them due. -/
def topRing : Fin 1048576 := 1048575
def ctx0 : Nat := 1 + 4 * 2 ^ 8 + 1 * 2 ^ 224
def ringUp : State := up.setCtx topRing ctx0
theorem witness_RingContextWrites :
    up.takes (D.RING_CONTEXT (topRing / 65536)) (topRing % 65536) (wo (D.RING_CONTEXT 15) ctx0) = true ∧ up.odFree = true ∧
    up.odCheckRead (D.RING_CONTEXT (topRing / 65536)) (topRing % 65536) .internal = 0 ∧
    rcEnable (1 + 511 * 2 ^ 16) = true ∧ west.has .te (rcEngine (1 + 511 * 2 ^ 16)) = false ∧ west.has .te (rcEngine ctx0) = true ∧
    rcPart (west.ringCtx topRing) ≠ 1 ∧ rcEnable (ringUp.ringCtx topRing) = true ∧ rcStopped (ringUp.ringCtx topRing) = false ∧
    setBits (ctx0 + 2 ^ 288) 303 288 0 = setBits (ringUp.ringCtx topRing) 303 288 0 ∧
    setBits (ctx0 - 1) 303 288 0 ≠ setBits (ringUp.ringCtx topRing) 303 288 0 ∧ (ringUp.ring topRing).disabling = none ∧
    ctx0 - 1 = setBit (ringUp.ringCtx topRing) 0 false ∧
    setBits (ctx0 + 2 ^ 4) 303 288 0 ≠ setBits (ringUp.ringCtx topRing) 303 288 0 ∧ ctx0 + 2 ^ 4 ≠ setBit (ringUp.ringCtx topRing) 0 false ∧
    rcEnable (up.ringCtx topRing) = false ∧ rcReserved (ctx0 + 2 ^ 2) = true ∧ rcReserved ctx0 = false ∧
    ¬ (4 ≤ rcSize (ctx0 - 2 ^ 8) ∧ rcSize (ctx0 - 2 ^ 8) ≤ 16) ∧ rcReserved (ctx0 - 2 ^ 8) = false ∧ 4 ≤ rcSize ctx0 ∧ rcSize ctx0 ≤ 16 ∧
    up.rd D.TE_PARTITION (rcEngine (ctx0 + 2 ^ 4)) ≠ rcPart (ctx0 + 2 ^ 4) ∧ rcReserved (ctx0 + 2 ^ 4) = false ∧
    up.rd D.TE_PARTITION (rcEngine ctx0) = rcPart ctx0 := by decide +kernel

theorem witness_DoorbellOutcomes :
    rcEnable (up.ringCtx topRing) = false ∧ rcEnable (ringUp.ringCtx topRing) = true ∧ 15 ≠ rcPart (ringUp.ringCtx topRing) ∧
    0 = rcPart (ringUp.ringCtx topRing) ∧ (16 + 2 ^ 32 - rcHead (ringUp.ringCtx topRing)) % 2 ^ 32 ≤ 2 ^ rcSize (ringUp.ringCtx topRing) ∧
    (rcTail (ringUp.ringCtx topRing) + 2 ^ 32 - rcHead (ringUp.ringCtx topRing)) % 2 ^ 32 ≤ (16 + 2 ^ 32 - rcHead (ringUp.ringCtx topRing)) % 2 ^ 32 ∧
    2 ^ rcSize (ringUp.ringCtx topRing) < (17 % 2 ^ 32 + 2 ^ 32 - rcHead (ringUp.ringCtx topRing)) % 2 ^ 32 ∧
    (0 % 2 ^ 32 + 2 ^ 32 - rcHead (ringUp.ringCtx topRing)) % 2 ^ 32 < (rcTail (ringUp.ringCtx topRing) + 2 ^ 32 - rcHead (ringUp.ringCtx topRing)) % 2 ^ 32
      := by decide +kernel

def dsc (word : Nat) (st : DescSt) : Desc :=
  { idx := 0, word := word, st := st, pos := 0, unit := 0, sub := 0, data := 0, hot := false, poisoned := false, beyond := false, detail := 0 }
/-- A GATE_WAIT, a FILL of 8 bytes, and a RANGE of a line (Table 5.5). -/
def gateWord : Nat := 6 + 2 ^ 32 + 5 * 2 ^ 192
def fillWord : Nat := 2 + 8 * 2 ^ 32
def rangeWord : Nat := 5 + 128 * 2 ^ 32
def ringHas (l : List (Nat × Nat)) (a : List Desc) : State := ringUp.setRing topRing { Ring.init with fetched := l, active := a }
def endsAt (s : State) (d st : Nat) : State := { s with teDone := [{ ring := topRing.val, desc := d, rid := 0, status := st, data := 0 }] }
theorem witness_DescriptorsRun :
    ringUp.ringRuns topRing = true ∧ (ringUp.ring topRing).fetching = false ∧ (ringUp.ring topRing).fetched.length < 8 ∧ ringUp.fetchCount topRing ≠ 0 ∧
    (ringHas [(0, 0)] []).ringRuns topRing = true ∧ ((ringHas [(0, 0)] []).ring topRing).fetched = (0, 0) :: [] ∧
    ((ringHas [(0, 0)] []).ring topRing).active = [] ∧ ringUp.descOk 0 0 = false ∧ ringUp.descOk fillWord 0 = true ∧ tdOp fillWord ≠ 5 ∧
    ringUp.descOk rangeWord 0 = true ∧ tdOp rangeWord = 5 ∧
    ((ringHas [] [dsc rangeWord .ready]).ring topRing).active.find? (fun d => d.st == .ready && tdOp d.word == 5) = some (dsc rangeWord .ready) ∧
    ((endsAt (ringHas [] [dsc fillWord .reading]) 0 0).takeDone topRing).map (fun x => (x.1.desc, (x.2.ring topRing).active)) =
      some (0, [dsc fillWord .reading]) ∧
    ((endsAt (ringHas [] [dsc fillWord .writing]) 0 0).takeDone topRing).map (fun x => (x.1.desc, (x.2.ring topRing).active)) =
      some (0, [dsc fillWord .writing]) ∧ 0 < teFetchMark ∧
    ((endsAt ringUp teFetchMark 0).takeDone topRing).map (fun x => x.1.desc) = some teFetchMark ∧ teFetchMark < teCompMark ∧
    ((endsAt (ringHas [] [dsc fillWord (.entry 0)]) teCompMark 0).takeDone topRing).map (fun x => (x.1.desc, x.1.status, (x.2.ring topRing).active)) =
      some (teCompMark, 0, [dsc fillWord (.entry 0)]) ∧
    ((endsAt (ringHas [] [dsc fillWord (.entry 0)]) teCompMark 1).takeDone topRing).map (fun x => x.1.status) = some 1 ∧
    ((ringHas [] [dsc fillWord (.done 0)]).ring topRing).active = dsc fillWord (.done 0) :: [] ∧ tdComp (dsc fillWord (.done 0)).word = false ∧
    tdComp (fillWord + 2 ^ 8) = true ∧
    ((ringHas [] [dsc gateWord .gateWait]).ring topRing).active.find? (fun d => d.st == .gateWait) = some (dsc gateWord .gateWait) ∧
    ringUp.gate < tdImm gateWord ∧ tdImm gateWord ≤ 5 ∧ up.has .te 511 = true := by decide +kernel

/-- A FILL of one line at address 0, and partition 0's window for it. -/
def fillSweep : Nat := 1 + 128 * 2 ^ 320
def sweepUp : State := up.wr D.WINDOW_ENTRY (winIdx 0 1 0) (1 + 2 ^ 1 + 2 ^ 2)
def sweepIn (n : Nat) : State := (after (.sweep (.object 0 (wo D.SWEEP_COMMAND fillSweep))) sweepUp).wr D.SWEEP_STATE 0 n
def running : State := after (.sweepLaunch 0) { sweepIn 1 with gate := 5000 }
def sweepRun (s : State) : SweepRun := (s.sweep? 0).getD
  { cmd := 0, time := 0, work := [], holes := [], linesDone := 0, unitsDone := 0, early := 0, poisoned := false, epoch := 0, amax := 0, sums := [],
    cntNan := 0, cntZero := 0, recv := [], acks := [] }
def swept : State := running.setSweep 0 (some { sweepRun running with work := [(1023, 1)] })
theorem witness_SweepLifecycle :
    sweepUp.takes D.SWEEP_COMMAND 0 (wo D.SWEEP_COMMAND fillSweep) = true ∧ sweepUp.sweepStatus 0 (odNum (wo D.SWEEP_COMMAND fillSweep)) = 0 ∧
    up.takes D.SWEEP_COMMAND 0 (wo D.SWEEP_COMMAND fillSweep) = true ∧ up.sweepStatus 0 (odNum (wo D.SWEEP_COMMAND fillSweep)) = St.SWEEP_WINDOW ∧
    St.SWEEP_WINDOW ≠ 0 ∧ St.SWEEP_WINDOW ≠ St.UNIT_ABSENT ∧
    (sweepIn 1).sweep? 0 = some (sweepRun (sweepIn 1)) ∧ (sweepIn 1).rd D.SWEEP_STATE 0 = 1 ∧ (sweepRun (sweepIn 1)).time ≤ 5000 ∧
    running.sweep? 0 = some (sweepRun running) ∧ running.rd D.SWEEP_STATE 0 = 2 ∧ (running.wr D.SWEEP_STATE 0 4).rd D.SWEEP_STATE 0 = 4 ∧
    (sweepRun running).work.find? (fun e => e.1 == 1023) = some (1023, 0) ∧ (sweepRun running).work.find? (fun e => e.1 == 0) = some (0, 0) ∧
    (running.sliceUp 0).2 = true ∧ running.rd D.WINDOW_EPOCH 0 = (sweepRun running).epoch ∧
    running.nextItem 0 (sweepRun running) 0 0 = some 0 ∧ locate running.variant (running.sweepItemAt 0 (sweepRun running).cmd 0) = some (0, 0) ∧
    running.inDonor 0 0 = false ∧ (running.sweepItem 0 (sweepRun running) 0 0).isSome = true ∧
    ((running.sweepItem 0 (sweepRun running) 0 0).map (fun x => (x.1.sweep? 0).isSome)) = some true ∧
    swept.sweep? 0 = some { sweepRun running with work := [(1023, 1)] } ∧ swept.rd D.SWEEP_STATE 0 = 2 ∧
    ([(1023, 1)].any (fun e => (swept.nextItem 0 { sweepRun running with work := [(1023, 1)] } e.1 e.2).isSome)) = false ∧
    (sweepRun running).early = 0 ∧ swOp (sweepRun running).cmd ≠ 5 ∧ swNotify (sweepRun running).cmd = false := by decide +kernel
theorem witness_SweepLifecycle_writes :
    up.takes D.SWEEP_ABORT 15 (wo D.SWEEP_ABORT 1) = true ∧ up.rd D.SWEEP_STATE 15 = 0 ∧ (sweepIn 1).takes D.SWEEP_ABORT 0 (wo D.SWEEP_ABORT 1) = true ∧
    running.takes D.SWEEP_ABORT 0 (wo D.SWEEP_ABORT 1) = true ∧ up.takes D.SWEEP_GROUP 15 (wo D.SWEEP_GROUP 0) = true ∧
    running.takes D.SWEEP_GROUP 0 (wo D.SWEEP_GROUP 0) = true ∧ running.rd D.SWEEP_STATE 0 ≠ 0 ∧ running.rd D.SWEEP_STATE 0 ≠ 3 ∧
    (up.wr D.LINK_STATE 63 3).linkHears 63 { hdr := 0x0A, ext := 0, payload := 0 } 0x0A = true := by decide +kernel

/-! ### Slices, retirement and the tag peek -/

def atSlice (s : State) (rid : Nat) (kind : ReqKind) : Bool :=
  match s.req? rid with
  | none => false
  | some r =>
    match s.plan r with
    | none => false
    | some pl =>
      match s.planLoc pl with
      | none => false
      | some p => r.stage == .slice && r.kind == kind && !crossesLine r && !s.inDonor pl.h (pl.line * 128) && s.retiring.isEmpty &&
          !(s.cache p.key).failed && decide (s.sliceUp p.n = (s, true))
theorem atSlice_sound {s : State} {rid : Nat} {k : ReqKind} (h : atSlice s rid k = true) : ∃ r pl p, AtSlice s rid r pl p k := by
  unfold atSlice at h
  split at h
  · cases h
  · split at h
    · cases h
    · split at h
      · cases h
      · simp only [Bool.and_eq_true, beq_iff_eq, Bool.not_eq_true', List.isEmpty_iff, decide_eq_true_eq] at h
        obtain ⟨⟨⟨⟨⟨⟨a, b⟩, c⟩, d⟩, e⟩, f⟩, g⟩ := h
        exact ⟨_, _, _, ‹_›, a, b, c, ‹_›, d, e, ‹_›, f, g⟩

/-- A request of 4 bytes at address 0 that stands at its slice; the state with the line it is for in the cache. -/
def sliceReq (k : ReqKind) (attr : Nat) : Req :=
  { active.attachReq 511 (mh 1 3 0 0 0) k 4 attr 0 with stage := .slice }
def atS (k : ReqKind) (attr : Nat) : State := (up.wr D.FORMAT_DESC 0 (fmtD 1 0x11)).newReq (sliceReq k attr)
def ln0 : Line :=
  { line := 0, src := 0, dist := 0, valid := 3, dirty := 0, poison := 0, lock := false, lockPart := 0, prefetched := false, abusy := false, cls := 0, data := 5 }
def cached (s : State) : State := s.setCache 0 { Slice.init with tags := [(0, some ln0)] }

/-- Request `rid` stands at its slice and meets its line there (after `f`, which atomics apply first). -/
def hits (f : State → Loc → Req → State) (s : State) (rid : Nat) (kind : ReqKind) : Bool :=
  atSlice s rid kind &&
  match s.req? rid with
  | none => false
  | some r =>
    match s.plan r with
    | none => false
    | some pl =>
      match s.planLoc pl with
      | none => false
      | some p =>
        match tagFind ((f s p r).cache p.key) p.line p.src p.dist with
        | none => false
        | some (_, ln) => pl.cnt == 1 && pl.lines == [0] && !isFmt r && !(f s p r).fmtWaiting rid pl.h pl.line pl.line && !(f s p r).busyLine p pl &&
            !isHot ((f s p r).cache p.key) p && (hotBufOf ((f s p r).cache p.key) p).isNone &&
            (missFind ((f s p r).cache p.key) p.line p.src p.dist).isNone && pl.need &&& (3 - ln.valid) == 0 && pl.need &&& ln.poison == 0
theorem hits_sound {f : State → Loc → Req → State} {s : State} {rid : Nat} {k : ReqKind} (h : hits f s rid k = true) :
    ∃ r pl p ln, AtSlice s rid r pl p k ∧ Hits (f s p r) rid r pl p ln ∧ pl.need &&& ln.poison = 0 := by
  unfold hits at h
  rw [Bool.and_eq_true] at h
  obtain ⟨h, h'⟩ := h
  obtain ⟨r, pl, p, q⟩ := atSlice_sound h
  rw [q.req] at h'; simp only [] at h'
  rw [q.plan] at h'; simp only [] at h'
  rw [q.loc] at h'; simp only [] at h'
  split at h'
  · cases h'
  · simp only [Bool.and_eq_true, beq_iff_eq, Bool.not_eq_true', Option.isNone_iff_eq_none] at h'
    obtain ⟨⟨⟨⟨⟨⟨⟨⟨⟨a, b⟩, c⟩, d⟩, e⟩, g⟩, i⟩, j⟩, k⟩, l⟩ := h'
    exact ⟨r, pl, p, _, q, ⟨a, b, c, d, e, g, i, j, ⟨_, ‹_›⟩, k⟩, l⟩

theorem witness_RequestsAtTheirSlice :
    (∃ r pl p, AtSlice (atS .write 0) 0 r pl p .write) ∧ (∃ r pl p, AtSlice (atS .atomic 3) 0 r pl p .atomic) ∧
    (∃ r pl p, AtSlice (atS .fmtRead 0) 0 r pl p .fmtRead) ∧ (∃ r pl p, AtSlice (atS .fmtWrite 0) 0 r pl p .fmtWrite) ∧
    (∃ r pl p, AtSlice (atS .scaledAcc 0) 0 r pl p .scaledAcc) ∧
    (∃ r pl p ln, AtSlice (cached (atS .read 0)) 0 r pl p .read ∧ Hits (cached (atS .read 0)) 0 r pl p ln ∧ pl.need &&& ln.poison = 0) ∧
    (∃ r pl p ln, AtSlice (cached (atS .prefetch 0)) 0 r pl p .prefetch ∧ Hits (cached (atS .prefetch 0)) 0 r pl p ln ∧ pl.need &&& ln.poison = 0) ∧
    (∃ r pl p ln, AtSlice (cached (atS .write 0)) 0 r pl p .write ∧ Hits (cached (atS .write 0)) 0 r pl p ln ∧ pl.need &&& ln.poison = 0) ∧
    (∃ r pl p ln, AtSlice (cached (atS .atomic 3)) 0 r pl p .atomic ∧ Hits ((cached (atS .atomic 3)).hotCount p r) 0 r pl p ln ∧
      pl.need &&& ln.poison = 0) :=
  ⟨atSlice_sound (by decide +kernel), atSlice_sound (by decide +kernel), atSlice_sound (by decide +kernel), atSlice_sound (by decide +kernel),
    atSlice_sound (by decide +kernel), hits_sound (f := fun s _ _ => s) (by decide +kernel), hits_sound (f := fun s _ _ => s) (by decide +kernel),
    hits_sound (f := fun s _ _ => s) (by decide +kernel), hits_sound (f := State.hotCount) (by decide +kernel)⟩

def onePlan : Plan := { h := 0, line := 0, cnt := 1, need := 1, wm := 0, off := 0 }
theorem witness_RequestEffects : (sliceReq .read 0).kind = .read ∧ 1 &&& onePlan.need ≠ 0 ∧ 0 &&& onePlan.need = 0 ∧ (sliceReq .write 0).kind = .write ∧
    (sliceReq .atomic 3).kind = .atomic ∧ (sliceReq .fmtRead 0).kind = .fmtRead ∧ (sliceReq .scaledAcc 0).kind = .scaledAcc ∧
    onePlan.off ≤ 3 ∧ 3 < onePlan.off + (sliceReq .write 0).len ∧ ¬ (4 < onePlan.off + (sliceReq .write 0).len) := by decide +kernel

def miss0 : MissReg :=
  { line := 0, src := 0, dist := 0, cls := 0, part := 0, deadline := none, prefetch := false, lockPart := none, noAlloc := false, want := 3, sent := 0,
    have_ := 3, pois := 0, data := 0, mask := 0, merged := [], waiters := [], swarm := [] }
def slice0 (x : Slice) : State := up.setCache 0 x
theorem witness_SliceQueues :
    up.keysOf 1023 = [1023] ∧ (slice0 { Slice.init with miss := [miss0] }).keysOf 0 = [0] ∧
    ((slice0 { Slice.init with miss := [miss0] }).cache 0).miss.find? (fun m => m.line == 0 && m.want &&& (3 - m.have_) == 0) = some miss0 ∧
    ((slice0 { Slice.init with victims := [{ line := ln0, issued := false, waiters := [] }] }).cache 0).victims.find?
      (fun v => v.line.line == 0 && !v.issued && !v.line.abusy) = some { line := ln0, issued := false, waiters := [] } ∧
    (slice0 { Slice.init with victims := [{ line := ln0, issued := false, waiters := [] }] }).wrRoom { key := 0, n := 0, src := 0, dist := 0, line := 0 } 0
      = true ∧
    ((slice0 { Slice.init with victims := [{ line := ln0, issued := true, waiters := [] }] }).cache 0).victims.find?
      (fun v => v.line.line == 0 && v.issued) = some { line := ln0, issued := true, waiters := [] } ∧
    (((slice0 { Slice.init with tags := [(0, some { ln0 with abusy := true })] }).cache 0).tags.filterMap (fun e => e.2)).find?
      (fun l => l.line == 0 && l.abusy) = some { ln0 with abusy := true } ∧
    ((slice0 { Slice.init with victims := [{ line := { ln0 with abusy := true }, issued := false, waiters := [] }] }).cache 0).victims.find?
      (fun v => v.line.line == 0 && v.line.abusy) = some { line := { ln0 with abusy := true }, issued := false, waiters := [] } ∧
    ((slice0 { Slice.init with hotBufs := [{ line := 0, src := 0, dist := 0, rids := [] }] }).cache 0).hotBufs.find? (fun b => b.line == 0) =
      some { line := 0, src := 0, dist := 0, rids := [] } := by decide +kernel

def rangeReq (st : Stage) (parts : List Nat) : Req := { sliceReq .range 0 with stage := st, len := 128, parts := parts }
def walk0 : Walk := { rid := 0, slice := 0, next := 1, waits := [], status := 0 }
def ranged (st : Stage) (parts : List Nat) (l : List Walk) : State := { up.newReq (rangeReq st parts) with walks := l }
def unit0 : MUnit := { src := 0, dst := 0, cls := 0, part := 0, rids := [0], bitmap := 0, merged := [] }
def unitAt (s : State) : State := s.setCache 0 { Slice.init with units := [unit0] }
/-- Every slice is a hole. -/
def holes (s : State) : State := { s with objs := Table.set [] (objKey D.SLICE_HOME) ((List.range 1024).map (fun n => (n, homeOfHole))) s.objs }
theorem witness_RangesAndUnits :
    (ranged .slice [] []).req? 0 = some (rangeReq .slice []) ∧ (rangeReq .slice []).kind = .range ∧ (rangeReq .slice []).dev = up.devNum ∧
    (ranged .waiting [] []).req? 0 = some (rangeReq .waiting []) ∧
    (ranged .waiting [] []).walks.filter (fun w => w.rid == 0 && (ranged .waiting [] []).walkDone (rangeReq .waiting []) w) = [] ∧
    (ranged .waiting [0] [walk0]).req? 0 = some (rangeReq .waiting [0]) ∧
    (ranged .waiting [0] [walk0]).walks.filter (fun w => w.rid == 0 && (ranged .waiting [0] [walk0]).walkDone (rangeReq .waiting [0]) w) = [walk0] ∧
    (unitAt up).sliceUp 0 = (unitAt up, true) ∧ ((unitAt up).cache ((unitAt up).sliceKey 0)).units = unit0 :: [] ∧ (unitAt up).unitPlans unit0.rids = [] ∧
    (holes (unitAt (atS .atomic 3))).sliceUp 0 = (holes (unitAt (atS .atomic 3)), true) ∧ (holes (unitAt (atS .atomic 3))).sliceKey 0 = 0 ∧
    ((holes (unitAt (atS .atomic 3))).unitPlans unit0.rids).map (fun x => ((holes (unitAt (atS .atomic 3))).planLoc x.2.2).isNone) = [true] := by decide +kernel
def failed0 : State := up.setCache 1023 { Slice.init with failed := true }
def retiring (l : List (Nat × Option Nat)) : State := { up with retiring := l }
theorem witness_SliceLifecycle :
    (failed0.cache (failed0.homeKey 1023)).failed = true ∧ (up.wr D.SLICE_HOME 1023 homeOfHole).isHole 1023 = true ∧
    ({ up with adopting := [(1023, 63, true)] } : State).adopting.find? (fun a => a.1 == 1023) = some (1023, 63, true) ∧
    failed0.takes D.SLICE_RETIRE 1023 (wo D.SLICE_RETIRE 1) = true ∧ failed0.sliceStatus 1023 ≠ 0 ∧
    (retiring [(0, none)]).takes D.SLICE_RETIRE 1 (wo D.SLICE_RETIRE 1) = true ∧ (retiring [(0, none)]).sliceStatus 1 = 0 ∧
    (retiring [(0, none)]).retiring.any (fun r => sliceField r.1 == sliceField 1) = true ∧
    up.takes D.SLICE_RETIRE 127 (wo D.SLICE_RETIRE 1) = true ∧ up.sliceStatus 127 = 0 ∧
    (retiring [(0, none)]).retiring.any (fun r => sliceField r.1 == sliceField 127) = false ∧ up.sliceMigrates 127 = false ∧
    (retiring [(1023, none)]).retireTo 1023 = some none ∧ (retiring [(1023, none)]).cache ((retiring [(1023, none)]).homeKey 1023) = Slice.init ∧
    (retiring [(1023, none)]).homeKey 1023 = 1023 ∧ (retiring [(1023, none)]).lapA = none ∧
    failed0.takes D.TAG_PEEK_SELECT 1023 (wo D.TAG_PEEK_SELECT 0) = true ∧
    up.takes D.TAG_PEEK_SELECT 1023 (wo D.TAG_PEEK_SELECT (1023 + 15 * 2 ^ 10)) = true ∧ up.sliceStatus 1023 = 0 ∧
    (up.cache (up.sliceKey 1023)).lost.contains (bits (odNum (wo D.TAG_PEEK_SELECT 1023)) 9 0) = false ∧
    (up.setCache 0 { Slice.init with lost := [1023] }).takes D.TAG_PEEK_SELECT 0 (wo D.TAG_PEEK_SELECT 1023) = true ∧
    ((up.setCache 0 { Slice.init with lost := [1023] }).cache 0).lost.contains (bits (odNum (wo D.TAG_PEEK_SELECT 1023)) 9 0) = true := by decide +kernel

/-! ### Compute sites -/

/-- An operating point of rail 0 alone: volts and amperes (Table 10.9). -/
def oppOf (mv a : Nat) : Nat := 2 ^ 288 + mv + a * 2 ^ 128
/-- Site 7 is powered: rail 0 between 500 and 1,000 mV, points 0 and 1 in order, point 2 above the power limit, and point 3 not valid. -/
def sited : State :=
  (((((((up.wr D.SITE_RAILS 7 1).wr D.RAIL_VABS 56 (500 + 1000 * 2 ^ 16)).wr D.RAIL_VMIN 56 500).wr D.RAIL_VMAX 56 1000).wr D.SITE_OPP 112 (oppOf 700 10)).wr
    D.SITE_OPP 113 (oppOf 600 10)).wr D.SITE_OPP 114 (oppOf 1000 1200)).wr D.SITE_POWER 7 1
def siteRun (r : SiteRun) : State := sited.setSite 7 { sited.site 7 with run := r }
/-- A sideband frame with its CRC (Table 10.8). -/
def sbOf (ty seq arg : Nat) : BitVec 64 := let x := ty + seq * 2 ^ 8 + arg * 2 ^ 16; BitVec.ofNat 64 (x + sbCrc x * 2 ^ 56)
def inUnacked (c : Nat) : State := sited.setSite 7 { sited.site 7 with unacked := [(0x44, c)] }
theorem witness_SidebandFrames :
    frameNew sited 7 (sbOf 1 9 16) 1 = true ∧ 16 ≤ sbArg (sbOf 1 9 16).toNat ∧ frameNew sited 7 (sbOf 1 9 15) 1 = true ∧
    opValid (sited.opp 7 (sbArg (sbOf 1 9 15).toNat)) = false ∧ sbArg (sbOf 1 9 1).toNat = 1 ∧ opValid (sited.opp 7 1) = true ∧
    frameNew (siteRun (.granted 1 false)) 7 (sbOf 1 9 1) 1 = true ∧ (siteRun (.granted 1 false)).inTransition 7 = true ∧
    frameNew sited 7 (sbOf 1 9 2) 1 = true ∧ sbArg (sbOf 1 9 2).toNat = 2 ∧ opValid (sited.opp 7 2) = true ∧ sited.inTransition 7 = false ∧
    1000 * sited.rd D.SITE_PMAX 7 < opSum (sited.opp 7 2) ∧ frameNew sited 7 (sbOf 1 9 1) 1 = true ∧
    opSum (sited.opp 7 1) ≤ 1000 * sited.rd D.SITE_PMAX 7 ∧
    (sited.siteRails 7).filter (fun r => decide (opVolt (sited.opp 7 (sited.rd D.SITE_OPP_CURRENT 7)) r < opVolt (sited.opp 7 1) r)) = [] ∧
    frameNew sited 7 (sbOf 2 9 1) 2 = true ∧ (sited.site 7).run = .idle ∧ frameNew (siteRun (.granted 1 true)) 7 (sbOf 2 9 1) 2 = true ∧
    ((siteRun (.granted 1 true)).site 7).run = .granted (sbArg (sbOf 2 9 1).toNat) true ∧ (siteRun (.granted 1 true)).rd D.SITE_POWER 7 ≠ 0 ∧
    frameNew sited 7 (sbOf 3 9 7) 3 = true ∧ sbArg (sbOf 3 9 7).toNat < 8 ∧ frameNew sited 7 (sbOf 4 9 1) 4 = true ∧ sbArg (sbOf 4 9 1).toNat < 2 ∧
    sited.sbLive 7 = true ∧ bits (sbOf 0x7F 9 0).toNat 7 0 = 0x7F ∧ sbCrc ((sbOf 0x7F 9 0).toNat % 2 ^ 56) = bits (sbOf 0x7F 9 0).toNat 63 56 ∧
    ((inUnacked 8).site 7).unacked = (0x44, 8) :: [] ∧ (inUnacked 8).sbLive 7 = true ∧ ((inUnacked 9).site 7).unacked = (0x44, 9) :: [] ∧
    (inUnacked 9).sbLive 7 = true := by decide +kernel

def gap0 (s : State) : State := s.wr D.SITE_SEQ_GAP 7 0
def offSite : State := sited.wr D.SITE_POWER 7 0
def heavy : State := (sited.wr D.RAIL_VMAX 57 60000).wr D.RAIL_DIE_CAP 57 (2 ^ 32 - 1)
def droopy : State := sited.setSite 7 { sited.site 7 with droop := true, volt := [700] }
theorem witness_SiteRailsAndObjects_rails :
    ((siteRun (.up 7 [])).site 7).run = .up 7 [] ∧ ((siteRun (.up 0 [7])).site 7).run = .up 0 [7] ∧ (gap0 (siteRun (.up 0 [7]))).rd D.SITE_SEQ_GAP 7 = 0 ∧
    (siteRun (.up 0 [7])).rd D.SITE_SEQ_GAP 7 ≠ 0 ∧ ((siteRun (.down 7 [0] 0)).site 7).run = .down 7 [0] 0 ∧
    ((siteRun (.down 7 [] 2)).site 7).run = .down 7 [] 2 ∧ ((siteRun (.upGap [0])).site 7).run = .upGap [0] ∧
    ((siteRun (.downGap [0] 0)).site 7).run = .downGap [0] 0 ∧
    sited.sbLive 7 = true ∧ bit (sited.rd D.SITE_RAILS 7) 0 = true ∧ ((sited.setSite 7 { sited.site 7 with volt := [700] }).site 7).droop = false ∧
    (669 : Int) + sited.rd D.RAIL_DROOP_MV 56 < (sited.setSite 7 { sited.site 7 with volt := [700] }).setpoint 7 0 ∧
    (droopy.site 7).droop = true ∧
    (droopy.siteRails 7).all (fun k => decide (2 * (((([685#16][k]?).getD 0).toNat : Int) - droopy.setpoint 7 k).natAbs ≤ droopy.rd D.RAIL_DROOP_MV (56 + k)))
      = true ∧ sited.sitePowered 7 = true ∧ maskList 4 8 = 3 :: [] := by decide +kernel
theorem witness_SiteRailsAndObjects_writes :
    up.takes D.SITE_POWER 7 (wo D.SITE_POWER 1) = true ∧ opValid (up.opp 7 0) = false ∧ sited.takes D.SITE_POWER 7 (wo D.SITE_POWER 1) = true ∧
    opValid (sited.opp 7 0) = true ∧ sited.rd D.SITE_POWER 7 = 1 ∧ offSite.takes D.SITE_POWER 7 (wo D.SITE_POWER 1) = true ∧
    offSite.rd D.SITE_POWER 7 ≠ 1 ∧ (offSite.site 7).run = .idle ∧ sited.takes D.SITE_POWER 7 (wo D.SITE_POWER 0) = true ∧ (sited.site 7).run = .idle ∧
    sited.takes D.SITE_OPP 127 (wo D.SITE_OPP (oppOf 1001 10)) = true ∧ bits (oppOf 1001 10) 319 289 = 0 ∧
    (List.range 8).any (fun k => decide (1200 < opImax (oppOf 1001 1200) k)) = false ∧
    sited.opRailsOk 7 (oppOf 1001 10) (sited.rd D.RAIL_VMIN) (sited.rd D.RAIL_VMAX) = false ∧
    sited.opRailsOk 7 (oppOf 1000 10) (sited.rd D.RAIL_VMIN) (sited.rd D.RAIL_VMAX) = true ∧
    opSum (oppOf 1000 10) ≤ 1000 * sited.rd D.SITE_PMAX 7 ∧ (sited.oppsUsed 7).contains 0 = true ∧ (sited.oppsUsed 7).contains 15 = false ∧
    sited.takes D.SITE_OPP 112 (wo D.SITE_OPP (oppOf 1000 10)) = true ∧
    sited.takes D.SITE_PMAX 7 (wo D.SITE_PMAX 5) = true ∧ (sited.oppsUsed 7).any (fun k => decide (1000 * 5 < opSum (sited.opp 7 k))) = true ∧
    sited.takes D.SITE_PMAX 7 (wo D.SITE_PMAX 700) = true ∧ (sited.oppsUsed 7).any (fun k => decide (1000 * 700 < opSum (sited.opp 7 k))) = false ∧
    heavy.takes D.SITE_RAILS 7 (wo D.SITE_RAILS 1) = true ∧ heavy.energyWith (some (7, 1)) none none = true ∧
    heavy.takes D.SITE_RAILS 7 (wo D.SITE_RAILS 3) = true ∧ heavy.energyWith (some (7, 3)) none none = false ∧
    sited.takes D.RAIL_VMIN 56 (wo D.RAIL_VMIN 500) = true ∧ sited.absOk 56 500 = true ∧
    sited.oppsFit 7 (upd (sited.rd D.RAIL_VMIN) 56 500) (sited.rd D.RAIL_VMAX) = true ∧
    sited.takes D.RAIL_VMAX 56 (wo D.RAIL_VMAX 1001) = true ∧ sited.absOk 56 1001 = false ∧ sited.takes D.RAIL_VMAX 56 (wo D.RAIL_VMAX 1000) = true ∧
    sited.absOk 56 1000 = true ∧ sited.oppsFit 7 (sited.rd D.RAIL_VMIN) (upd (sited.rd D.RAIL_VMAX) 56 1000) = true ∧
    sited.energyWith none (some (56, 1000)) none = true ∧ sited.takes D.RAIL_DIE_CAP 56 (wo D.RAIL_DIE_CAP 1) = true ∧
    sited.energyWith none none (some (56, 1)) = true ∧
    ((sited.wr D.RAIL_VMAX 56 60000).energyWith none none (some (56, 2 ^ 32 - 1))) = false := by decide +kernel

/-! ### HBM -/

def rdE : RdEnt :=
  { key := 1023, n := 1023, src := 0, dist := 0, line := 5, phys := 5, sectors := 1, cls := 0, deadline := none, at_ := 0 }
/-- A read waits at pseudo-channel 2047, its row closed. -/
def readWaits : State := up.setPc 2047 { Pc.init with rd := [rdE] }
def rowOpen : State := up.setPc 2047 { Pc.init with rd := [rdE], rows := [(lineBank 0 5, some (lineRow 0 5))] }
def actLate : State := up.wr D.ACT_TIMING 31 1000 |>.setPc 2047 { Pc.init with rd := [rdE], actTimes := [0] }
def hit? (s : State) : Option Bool := (s.pcChoice 2047).map (fun x => x.hit)
def trained (b : Nat) : State := (up.wr D.TRAIN_MODE_LAST 31 1).wr D.STACK_BAND 31 b
def migrated : State := ((up.wr D.CHAN_BACKING 1023 1).setChan 1023 { Chan.init with mig := some 5 }).wr D.MIG_PROGRESS 1023 chanUnits
def waking (b : Nat) : State := ({ up with rising := [.channel 1023] } : State).wr D.CHAN_POWER 1023 b
theorem witness_HbmOperation :
    rowOpen.pcLive 2047 = true ∧ hit? rowOpen = some true ∧ readWaits.pcLive 2047 = true ∧ hit? readWaits = some false ∧
    readWaits.actLimited 2047 (readWaits.pc 2047) = false ∧ actLate.pcLive 2047 = true ∧ hit? actLate = some false ∧
    actLate.actLimited 2047 (actLate.pc 2047) = true ∧ ((up.setPc 2047 { Pc.init with back := [rdE] }).pc 2047).back = rdE :: [] ∧
    up.rd D.CHAN_POWER (2047 / 2) < 2 ∧ up.has .stack 31 = true ∧ (trained 0).rd D.TRAIN_MODE_LAST 31 = 1 ∧
    nextBand ((trained 0).rd D.STACK_BAND 31) 84 = (trained 0).rd D.STACK_BAND 31 ∧ nextBand ((trained 1).rd D.STACK_BAND 31) 95 = 2 ∧
    (trained 1).rd D.STACK_BAND 31 < 2 ∧ nextBand ((trained 2).rd D.STACK_BAND 31) 105 = 3 ∧ (trained 2).rd D.STACK_BAND 31 < 3 ∧
    up.has .chan 1023 = true ∧ up.rd D.CHAN_BACKING 1023 = 0 ∧ (up.chan 1023).inited < chanUnits ∧ (up.pc 2047).retrain = false ∧
    (waking 2).rising.contains (.channel 1023) = true ∧ (waking 2).rd D.CHAN_POWER 1023 = 2 ∧ (waking 2).rd D.STACK_BAND (1023 / 32) ≠ 3 ∧
    up.takes D.HBM_SELF_REFRESH 1023 (wo D.HBM_SELF_REFRESH 1) = true ∧ odNum (wo D.HBM_SELF_REFRESH 1) ≠ 0 ∧
    up.takes D.HBM_SELF_REFRESH 1023 (wo D.HBM_SELF_REFRESH 0) = true ∧ odNum (wo D.HBM_SELF_REFRESH 0) = 0 ∧ up.rd D.CHAN_POWER 1023 ≠ 2 := by
  decide +kernel

def training : State := up.wr D.BOOT_STAGE 0 6
def outcome (sup ver : Bool) (bad : BitVec 64) : TrainOutcome :=
  { supported := sup, serial := 7, config := 0, actTiming := 0, rfmThreshold := 0, rfmReduce := 0, celsius := 40, verifies := ver, failedPcs := bad,
    record := { len := 4, val := 9 } }
def trainedOnce : State := (after (.stackTrain 31 (outcome true false 0)) training).wr D.FORCE_FULL_TRAIN 0 0
def donorOf (f b : Nat) : Nat := 2 ^ 15 + f + b * 2 ^ 3
theorem witness_HbmTrainingAndRetirement :
    up.has .stack 31 = true ∧ training.rd D.BOOT_STAGE 0 = 6 ∧ training.named (ucStack 31) 0 = false ∧ (outcome false false 0).supported = false ∧
    trainedOnce.has .stack 31 = true ∧ trainedOnce.rd D.BOOT_STAGE 0 = 6 ∧ trainedOnce.named (ucStack 31) 0 = false ∧
    (trainedOnce.stackId 31 (outcome true true 0)).rdB D.FORCE_FULL_TRAIN 0 = false ∧
    (trainedOnce.stackId 31 (outcome true true 0)).trainMatch 31 (outcome true true 0) = true ∧
    (outcome true false (BitVec.allOnes 64)).failedPcs.toNat = 2 ^ 64 - 1 ∧
    up.takes D.CHANNEL_RETIRE 1023 (wo D.CHANNEL_RETIRE (donorOf 0 126)) = true ∧ up.retireStatus 1023 (odNum (wo D.CHANNEL_RETIRE (donorOf 0 126))) = 0 ∧
    up.takes D.CHANNEL_RETIRE 1023 (wo D.CHANNEL_RETIRE (donorOf 0 127)) = true ∧
    up.retireStatus 1023 (odNum (wo D.CHANNEL_RETIRE (donorOf 0 127))) = St.CHAN_DONOR_BAD ∧
    (migrated.wr D.MIG_PROGRESS 1023 (chanUnits - 1)).rd D.CHAN_BACKING 1023 = 1 ∧
    (migrated.wr D.MIG_PROGRESS 1023 (chanUnits - 1)).rd D.MIG_PROGRESS 1023 < chanUnits ∧ migrated.rd D.CHAN_BACKING 1023 = 1 ∧
    migrated.rd D.MIG_PROGRESS 1023 = chanUnits ∧ (up.wr D.CHAN_BACKING 1023 3).rd D.CHAN_BACKING (1023 : Fin 1024).val = 3 ∧
    up.has .chan 1023 = true ∧ up.rd D.CHAN_BACKING 1023 < 2 ∧ (up.chan 1023).dead = false := by decide +kernel
/-- Each way a channel fails: while it is being retired, with AUTO_RETIRE, and without it. -/
theorem witness_HbmTrainingAndRetirement_fail :
    (((((migrated.setChan 1023 { migrated.chan 1023 with dead := true }).pcDead 2046).pcDead 2047).addDefect (ucChannel 1023) 0 2 0).rd D.CHAN_BACKING 1023 = 1) ∧
    ((((((up.wr D.AUTO_RETIRE 0 1).setChan 1023 { up.chan 1023 with dead := true }).pcDead 2046).pcDead 2047).addDefect (ucChannel 1023) 0 2 0).rdB D.AUTO_RETIRE 0
      = true) := by decide +kernel

/-! ### Lap tables and the mesh -/

/-- Every field runs at 2,000 MHz, and group 3 of partition 0 may read the device's first 2 MiB. -/
def clocked : State :=
  ((List.range 8).foldl (fun t f => t.wr D.FIELD_FREQ f 2000) up).wr D.WINDOW_ENTRY (winIdx 0 3 0) (1 + 2 ^ 1)
/-- Chapter 07, "Example: a schedule on a fragment of F0": its flows (Table 7.9), reduction record and entries (Table 7.10: stride, router, entry). -/
def exFlows : List Nat := [0x0000100508CC1802, 0x0000300508CC1821, 0x00000006008C1423]
def exRed : Nat := 0x0000000300030000
def exRecs : List (Nat × Nat × Nat) :=
  [(20, 2, 0x1000000000000060), (20, 33, 0x1001000000000060), (21, 3, 0x400), (21, 34, 0x40), (22, 35, 0x0000000900090000),
   (24, 35, 0x1002000000005000), (25, 34, 2), (26, 2, 0x300000)]
def exBody : Nat :=
  (exFlows.foldr (fun f a => f + a * 2 ^ 64) 0) + exRed * 2 ^ 192 +
    (exRecs.foldr (fun r a => r.1 + (r.2.1 % 32) * 2 ^ 16 + (r.2.1 / 32) * 2 ^ 21 + r.2.2 * 2 ^ 64 + a * 2 ^ 128) 0) * 2 ^ 320
/-- Its Tlaund file (Table 7.4) for the topology `topo`: L = 256, TAIL = 3, every pace 1, no link. -/
def exHead (topo : Nat) : Nat :=
  0x444E4C54 + 1 * 2 ^ 32 + 8 * 2 ^ 48 + 3 * 2 ^ 640 + 3 * 2 ^ 656 + 1 * 2 ^ 672 + 8 * 2 ^ 704 + topo * 2 ^ 1024 + exBody * 2 ^ 2048
def exLen : Nat := 256 + 3 * 8 + 16 + 8 * 16
def lapFile (topo : Nat) : Nat := exHead topo + lapDigest (exHead topo) exLen * 2 ^ 1536
/-- The state with a file at address 0, its load running. -/
def loading (x : Nat) : State := { State.pokeMany 5 clocked 0 exLen x false with lapLoad := some (0, exLen) }
def loaded (x : Nat) : State := { loading x with lapLoad := none }
set_option maxRecDepth 100000 in
/-- The example's file passes every check, on a state that holds it in memory. -/
theorem witness_LapTables_load :
    (loaded (lapFile clocked.topoDigest)).lapReadStatus 0 exLen = 0 ∧
    ((loaded (lapFile clocked.topoDigest)).peekMany (exLen / 128 + 2) 0 exLen).2 = false ∧
    (loaded (lapFile clocked.topoDigest)).lapCheck ((loaded (lapFile clocked.topoDigest)).peekMany (exLen / 128 + 2) 0 exLen).1 exLen = none := by
  decide +kernel
theorem witness_LapTables_refused :
    (loaded 0).lapReadStatus 0 exLen = 0 ∧ (loaded 0).lapCheck ((loaded 0).peekMany (exLen / 128 + 2) 0 exLen).1 exLen = some (lapErr St.LAP_BAD 2) ∧
    ((loaded 0).peekMany (exLen / 128 + 2) 0 exLen).2 = false ∧ (loaded 0).lapReadStatus (2 ^ 21 - 1) exLen = St.WINDOW_FAULT := by decide +kernel
/-- Step 3 refuses it on HN8-S, whose routers have no reducers; a mesh output and a SLICE output wait at most 64 and 128 strides. -/
theorem test_lap_example_hn8s : ({ up with variant := .hn8s } : State).lapStep3 (lapTable (exHead 0)) (lfEntryList (exHead 0)) = some (lapErr St.UNIT_ABSENT 3) := by
  decide +kernel
theorem test_lap_example_waits : waitBound 256 1 1 2 ((lapTable (exHead 0)).busyAt 2 2) = 64 ∧ waitBound 256 1 1 5 ((lapTable (exHead 0)).busyAt 35 5) = 128 ∧
    (lapTable (exHead 0)).longest .hn8f = 3 := by decide +kernel

/-- A table for this topology, the shadow copy. -/
def aTable : LapTable := lapTable (exHead clocked.topoDigest)
def shadowed : State := { clocked with lapS := some aTable }
def arming (k : LapKind) (st : Nat) : State :=
  { clocked.wr D.LAP_STATE 0 st with lapS := some aTable, lapA := some aTable, lapOp := some { kind := k, time := 0, tail := false, clock := false } }
def suspended : State := { shadowed.wr D.LAP_STATE 0 2 with lapA := some aTable }
set_option maxRecDepth 100000 in
theorem witness_LapTables_switch :
    shadowed.takes D.LAP_SWITCH 0 (wo D.LAP_SWITCH 20224) = true ∧ shadowed.switchStatus (odNum (wo D.LAP_SWITCH 20224)) = 0 ∧
    shadowed.takes D.LAP_SWITCH 0 (wo D.LAP_SWITCH 19968) = true ∧ shadowed.switchStatus (odNum (wo D.LAP_SWITCH 19968)) = St.LAP_SWITCH_TIME ∧
    clocked.lapStep789 aTable = none ∧ ((up.wr D.FIELD_FREQ 7 1999).lapStep789 aTable).isSome = true ∧
    suspended.rd D.LAP_STATE 0 = 2 ∧ suspended.lapA = some aTable ∧ suspended.takes D.LAP_RESUME 0 (wo D.LAP_RESUME 20224) = true ∧
    suspended.armStatus aTable aTable.len (odNum (wo D.LAP_RESUME 20224)) = 0 ∧
    (arming .switch 1).activeLap = some aTable ∧ (arming .switch 1).lapStep789 aTable = none ∧ (arming .switch 1).lapS = some aTable ∧
    (arming .resume 2).lapA = some aTable ∧ (arming .resume 2).lapStep789 aTable = none := by decide +kernel
def cause1 : State := { up.wr D.LAP_STATE 0 1 with lapCause := some 1 }
theorem witness_LapTables :
    up.takes D.LAP_LOAD 0 (wo D.LAP_LOAD (2 ^ 44)) = true ∧ bits (odNum (wo D.LAP_LOAD (2 ^ 44))) 63 44 ≠ 0 ∧
    bits (odNum (wo D.LAP_LOAD (2 ^ 96))) 127 96 ≠ 0 ∧ up.takes D.LAP_LOAD 0 (wo D.LAP_LOAD (2 ^ 44 - 1)) = true ∧
    bits (odNum (wo D.LAP_LOAD (2 ^ 44 - 1))) 63 44 = 0 ∧ bits (odNum (wo D.LAP_LOAD (2 ^ 44 - 1))) 127 96 = 0 ∧ up.lapLoad = none ∧ up.lapOp = none ∧
    (loading 0).takes D.LAP_LOAD 0 (wo D.LAP_LOAD 0) = true ∧ (loading 0).lapLoad.isSome = true ∧
    up.takes D.LAP_UNLOAD 0 (wo D.LAP_UNLOAD 20224) = true ∧ odNum (wo D.LAP_UNLOAD 20224) % up.activeLen = 0 ∧
    up.gate + 20000 ≤ odNum (wo D.LAP_UNLOAD 20224) ∧ up.takes D.LAP_UNLOAD 0 (wo D.LAP_UNLOAD 20225) = true ∧
    odNum (wo D.LAP_UNLOAD 20225) % up.activeLen ≠ 0 ∧ (arming .unload 1).takes D.LAP_UNLOAD 0 (wo D.LAP_UNLOAD 20224) = true ∧
    (arming .unload 1).lapOp.isSome = true ∧ up.takes D.LAP_RESUME 0 (wo D.LAP_RESUME 0) = true ∧ up.rd D.LAP_STATE 0 ≠ 2 ∧
    cause1.lapCause = some 1 ∧ cause1.rd D.LAP_STATE 0 = 1 ∧ cause1.gate % 256 = 0 ∧ ({ cause1 with gate := 255 } : State).gate % 256 ≠ 0 := by
  decide +kernel

def aUnit : MUnit := { src := 0, dst := endpoint 33 5 0, cls := 0, part := 0, rids := [], bitmap := 0, merged := [] }
/-- A unit waits at the east output of router 0. -/
def skating : State := up.setFsq (outKey 0 2) [aUnit]
theorem witness_MeshMoves :
    ({ up with gateRun := true } : State).gateRun = true ∧ up.gateRun = false ∧ skating.fsQueue (outKey 0 2) = aUnit :: [] ∧
    skating.slotNow (routerField (outKey 0 2 / 16)) = true ∧ neighbour skating.variant (outKey 0 2 / 16) (outKey 0 2 % 16) = some 1 ∧
    skating.rd D.ROUTER_STATE 1 = 0 ∧ (skating.rd D.FIELD_POWER (routerField 1)) = 0 ∧ routerField 1 = routerField (outKey 0 2 / 16) ∧
    (skating.fsQueue (outKey 1 (skating.outPort 1 (outKey 0 2 % 16) aUnit.dst))).length < 32 ∧
    outKey 1 (skating.outPort 1 (outKey 0 2 % 16) aUnit.dst) ≠ outKey 0 2 ∧ (up.routerHere 1023 = true ∧ up.rd D.ROUTER_STATE 1023 = 0) ∧
    west.routerHere 1023 = false ∧ up.routeFails = up.failedRouters ∧
    up.takes D.RED_FLAGS_CLEAR 63 (wo D.RED_FLAGS_CLEAR 1) = true := by decide +kernel
theorem witness_MeshMoves_field : skating.fieldUp (routerField 1) = (skating, true) := rfl
/-- Of all routers only 0 and 1 have not failed. -/
def deadRouters : List Nat := (List.range 1022).map (fun k => k + 2)
def routeDue : State := deadRouters.foldl (fun t k => t.wr D.ROUTER_STATE k 1) up
theorem rd_foldl_routers (l : List Nat) (t : State) (r : Nat) :
    (l.foldl (fun t k => t.wr D.ROUTER_STATE k 1) t).rd D.ROUTER_STATE r = if r ∈ l then 1 else t.rd D.ROUTER_STATE r := by
  induction l generalizing t with
  | nil => simp
  | cons k l ih =>
    rw [List.foldl_cons, ih]
    by_cases hl : r ∈ l
    · simp [hl]
    · by_cases hk : r = k
      · subst hk; simp [hl]
      · simp [hl, hk, t.rd_wr_inst D.ROUTER_STATE D.ROUTER_STATE hk 1]
theorem foldl_routers_variant (l : List Nat) (t : State) :
    (l.foldl (fun t k => t.wr D.ROUTER_STATE k 1) t).variant = t.variant := by
  induction l generalizing t with
  | nil => rfl
  | cons k l ih => rw [List.foldl_cons, ih]; rfl
theorem routeDue_state (r : Nat) (h : r < 1024) : routeDue.rd D.ROUTER_STATE r = if 2 ≤ r then 1 else 0 := by
  have hu : up.rd D.ROUTER_STATE r = 0 := by rw [up, State.rd_wr_key _ (by decide)]; rfl
  rw [routeDue, rd_foldl_routers, hu]
  have : r ∈ deadRouters ↔ 2 ≤ r := by
    simp only [deadRouters, List.mem_map, List.mem_range]
    exact ⟨fun ⟨k, _, e⟩ => by omega, fun h2 => ⟨r - 2, by omega, by omega⟩⟩
  simp [this]
theorem routeDue_failed : routeDue.failedRouters = (List.range 1024).filter (fun r => decide (2 ≤ r)) := by
  apply List.filter_congr
  intro r hr
  rw [routeDue_state r (List.mem_range.mp hr)]
  by_cases h : 2 ≤ r <;> simp [h]
theorem routeDue_live : routeDue.liveRouters = [0, 1] := by
  have h : routeDue.liveRouters = (List.range 1024).filter (fun r => decide (r < 2)) := by
    apply List.filter_congr
    intro r hr
    have hv : routeDue.routerHere r = up.routerHere r := by
      simp only [State.routerHere, State.has, routeDue, foldl_routers_variant]
    rw [routeDue_state r (List.mem_range.mp hr), hv]
    by_cases h : 2 ≤ r
    · simp [h]; omega
    · have : r = 0 ∨ r = 1 := by omega
      obtain rfl | rfl := this <;> rfl
  rw [h]; decide +kernel
theorem routeFails_live (s : State) (l : List Nat) : ({ s with routeFails := l } : State).liveRouters = s.liveRouters := rfl
theorem avoidFailed_live (s : State) : s.avoidFailed.liveRouters = s.liveRouters := by
  rw [State.avoidFailed]
  exact routeFails_live s _
theorem witness_MeshMoves_routes : routeDue.routeFails ≠ routeDue.failedRouters ∧ routeDue.avoidFailed.stranded = none := by
  constructor
  · rw [routeDue_failed]
    have : routeDue.routeFails = up.routeFails := by
      have : ∀ (l : List Nat) (t : State), (l.foldl (fun t k => t.wr D.ROUTER_STATE k 1) t).routeFails = t.routeFails := by
        intro l
        induction l with
        | nil => intro t; rfl
        | cons k l ih => intro t; rw [List.foldl_cons, ih]; rfl
      exact this _ _
    rw [this]; decide +kernel
  · have hv : routeDue.variant = up.variant := foldl_routers_variant _ _
    have hl : routeDue.avoidFailed.liveRouters = [0, 1] := (avoidFailed_live _).trans routeDue_live
    have hp : ∀ a b, routeDue.avoidFailed.pathTo a 0 b =
        search up.variant (fun n => up.routerHere n && !((List.range 1024).filter (fun r => decide (2 ≤ r))).contains n) b 4096 [(a, 0, 0)] [] 0 := by
      intro a b
      simp only [State.pathTo, State.avoidFailed, routeDue_failed, State.routerHere, State.has, hv]
    simp only [State.stranded, hl, hp]
    decide +kernel

/-! ### Gate time and launches -/

/-- Link 63 is ACTIVE, its exchange number 9 open with t1 = 60. -/
def linked : State := up.wr D.LINK_STATE 63 3
def exchanging (wait : Bool) : State :=
  (linked.wr D.GATE_SOURCE 0 0).setTmx 63 { Tmx.init with seq := 9, open_ := !wait, t1 := some 60, t2 := 100, t4 := 200, wait := wait }
def tx (kind time : Nat) : BitVec 256 := BitVec.ofNat 256 (timexHdr kind 9 1 0 2 + time * 2 ^ 128)
def synced (st : Nat) : State := up.wr D.GATE_SYNC_STATE 0 st
def inGsv (g : Gsv) (st : Nat) : State := { synced st with gsv := g }
def follower (st : Nat) : State := (synced st).wr D.GATE_SOURCE 0 2
def ptpRoot (st : Nat) : State := (synced st).wr D.GATE_SOURCE 0 1
theorem witness_GateTime :
    ({ up with gate := 1025 } : State).gate % 1024 ≠ 0 ∧ up.gate % 1024 = 0 ∧ fieldPresent up.variant (sliceField 1023) = true ∧
    up.rd D.FIELD_POWER (sliceField 1023) < 2 ∧ up.takes D.GATE_SOURCE 0 (wo D.GATE_SOURCE 1) = true ∧ odNum (wo D.GATE_SOURCE 1) ≠ 2 ∧
    up.takes D.GATE_SOURCE 0 (wo D.GATE_SOURCE 0) = true ∧ odNum (wo D.GATE_SOURCE 0) = 0 ∧ 10 ≤ up.rd D.BOOT_STAGE 0 ∧
    up.rd D.LINK_STATE 63 ≠ 3 ∧ linked.rd D.LINK_STATE 63 = 3 ∧ linked.timexIs 63 (tx 0 0) 0 = true ∧
    (exchanging false).timexIs 63 (tx 1 150) 1 = true ∧ ((exchanging false).tmx 63).open_ = true ∧ ((exchanging false).tmx 63).t1 = some 60 ∧
    txXseq (tx 1 150).toNat = ((exchanging false).tmx 63).seq ∧ (exchanging false).rd D.GATE_SOURCE 0 ≠ 2 ∧
    (exchanging true).timexIs 63 (tx 2 120) 2 = true ∧ ((exchanging true).tmx 63).wait = true ∧ ((exchanging true).tmx 63).t1 = some 60 ∧
    txXseq (tx 2 120).toNat = ((exchanging true).tmx 63).seq ∧ (exchanging true).rd D.GATE_SOURCE 0 ≠ 2 ∧
    (2 : Int) * 20 = (((60 : Nat) : Int) - ((exchanging true).tmx 63).t2) + ((((exchanging true).tmx 63).t4 : Int) - bits (tx 2 120).toNat 191 128) +
      toSigned 32 ((exchanging true).rd D.LINK_ASYM_USER 63) ∧
    (2 : Int) * 41 = ((((exchanging true).tmx 63).t4 : Int) - (60 : Nat)) - ((bits (tx 2 120).toNat 191 128 : Int) - ((exchanging true).tmx 63).t2) - 38 ∧
    2000 < (2001 : Int).natAbs ∧ (synced 0).rd D.GATE_SYNC_STATE 0 = 0 ∧ (synced 0).stepOk = true ∧ (16 : Int).natAbs ≤ 16 ∧
    (inGsv { Gsv.init with lock := 7 } 0).gsv.lock = 7 ∧ (inGsv { Gsv.init with lock := 7 } 0).rd D.GATE_SYNC_STATE 0 = 0 := by decide +kernel
def stepping (st lap : Nat) : State := (inGsv { Gsv.init with step := some 5 } st).wr D.LAP_STATE 0 lap
theorem witness_GateTime_steps :
    (stepping 0 0).gsv.step = some 5 ∧ (stepping 0 0).gate % 1024 = 0 ∧ (stepping 0 0).synced = false ∧ (stepping 0 0).stepOk = true ∧
    (stepping 1 0).synced = true ∧ (stepping 1 0).gsv.step = some 5 ∧ (stepping 0 1).synced = false ∧ (stepping 0 1).stepOk = false ∧
    (stepping 0 1).gsv.step = some 5 ∧ (follower 1).rd D.GATE_SOURCE 0 = 2 ∧ (follower 1).rd D.GATE_SYNC_STATE 0 = 1 ∧
    (ptpRoot 1).rd D.GATE_SOURCE 0 = 1 ∧ (ptpRoot 1).rd D.GATE_SYNC_STATE 0 = 1 ∧ (synced 2).rd D.GATE_SYNC_STATE 0 = 2 ∧
    (0 : BitVec 8).toNat = (ptpRoot 0).rd D.PTP_DOMAIN 0 ∧ (ptpRoot 0).gsv.master = none ∧ (follower 0).rd D.GATE_SOURCE 0 ≠ 1 ∧
    up.odFree = true ∧ up.odCheckRead D.GATE_TIME 0 .hostPf = 0 ∧ up.odCheckRead D.GATE_TIME 1 .hostPf = St.OD_NO_OBJECT ∧
    St.OD_NO_OBJECT ≠ St.UNIT_ABSENT := by decide +kernel

/-- A NOTIFY launch for port 511, and a LINK_ACTIVE launch for link 63, of this device, at gate time `t`. -/
def aNotify (t : Nat) : Nat := 2 + t * 2 ^ 64 + 2 ^ 191 + 7 * 2 ^ 192
def linkUp (t : Nat) : Nat := 3 + t * 2 ^ 64 + 2 ^ 191
def asks : Asker := { part := 0, priv := true, cls := 0, origin := .od }
def waitingL (l : Launch) : State := up.setLaunch 5 (some l)
def aLaunch (t : Nat) : Launch :=
  { rec256 := aNotify t, part := 0, time := t, targets := up.launchTargets (aNotify t), remote := false, status := 0, late := 0, missed := false,
    woken := false }
theorem witness_Launches :
    up.takes D.GATE_LAUNCH 0 (wo D.GATE_LAUNCH (aNotify 5000)) = true ∧ up.takes D.GATE_CANCEL 0 (wo D.GATE_CANCEL 5) = true ∧
    up.launchCheck (aNotify 5000) asks.part asks.priv (lrDevice (aNotify 5000) != up.devNum) (if up.namesRemote (aNotify 5000) then 50000 else 5000)
      = (0, 5000) ∧
    up.launchCheck (aNotify 4999) asks.part asks.priv (lrDevice (aNotify 4999) != up.devNum) (if up.namesRemote (aNotify 4999) then 50000 else 5000)
      = (St.GATE_TOO_LATE, 0) ∧ lrDevice (aNotify 5000) = up.devNum ∧
    west.launchPresent (aNotify 5000) = false ∧ up.launchPresent (aNotify 5000) = true ∧ up.rdB D.PART_ENABLE 15 = false ∧ lrTime (aNotify 0) = 0 ∧
    up.gate + 5000 ≤ lrTime (aNotify 5000) ∧ lrTime (aNotify 4999) < up.gate + 5000 ∧ up.launch? 5 = none ∧
    (waitingL (aLaunch 1000)).launch? 5 = some (aLaunch 1000) ∧ (aLaunch 1000).part ≠ 1 ∧ (waitingL (aLaunch 1000)).gate + 1000 ≤ (aLaunch 1000).time ∧
    (aLaunch 999).time < (waitingL (aLaunch 999)).gate + 1000 ∧ (waitingL { aLaunch 0 with targets := [] }).launchTurn 5 { aLaunch 0 with targets := [] } = true ∧
    (waitingL (aLaunch 1)).launchTurn 5 (aLaunch 1) = false ∧ lrDoneNotify (aNotify 0) = false := by decide +kernel

/-- A link message of device 1 for this device: opcode, payload. -/
def lm (op key p : Nat) : Msg := { hdr := BitVec.ofNat 128 (linkReqHeader op key 0 0 1 0 1 0 2 false), ext := 0, payload := p }
/-- The answer of device 1 to entry `key` of this device's request table. -/
def la (key p : Nat) : Msg := { hdr := BitVec.ofNat 128 (linkReqHeader 0x30 key 0 0 0 0 0 0 1 false), ext := 0, payload := p }
def fwd (cancel : Bool) : Forward :=
  { key := 4096 * 63, cancel := cancel, id := 5, rec256 := aNotify 9000, part := 0, dev := 1, cls := 0, priv := true, origin := .od }
def forwarding (cancel : Bool) : State := { linked with forwards := [fwd cancel] }
theorem witness_Launches_links :
    linkUsable (linked.rd D.LINK_STATE 63) = true ∧ linked.boot.hold = false ∧ lhTarget (lm 0x14 0 (aNotify 5000)).hdr.toNat = linked.devNum ∧
    linked.r31 63 (lhPart (lm 0x14 0 (aNotify 5000)).hdr.toNat) = true ∧ lhOp (lm 0x14 0 (aNotify 5000)).hdr.toNat = 0x14 ∧
    (linked.linkFreeReq 63 (linkChunks (lm 0x14 0 (aNotify 5000)).hdr.toNat)).launchCheck ((lm 0x14 0 (aNotify 5000)).payload % 2 ^ 256)
      (lhPart (lm 0x14 0 (aNotify 5000)).hdr.toNat) (bit (lhAttr (lm 0x14 0 (aNotify 5000)).hdr.toNat) 0) false 5000 = (0, 5000) ∧
    (linked.linkFreeReq 63 (linkChunks (lm 0x14 0 (aNotify 4999)).hdr.toNat)).launchCheck ((lm 0x14 0 (aNotify 4999)).payload % 2 ^ 256)
      (lhPart (lm 0x14 0 (aNotify 4999)).hdr.toNat) (bit (lhAttr (lm 0x14 0 (aNotify 4999)).hdr.toNat) 0) false 5000 = (St.GATE_TOO_LATE, 0) ∧
    lhOp (lm 0x15 0 5).hdr.toNat = 0x15 ∧ lhOp (la (4096 * 63) 7).hdr.toNat = 0x30 ∧ lhDev (la (4096 * 63) 7).hdr.toNat = linked.devNum ∧
    Table.get none (lhReqId (la (4096 * 63) 7).hdr.toNat) ((forwarding true).linkFreeRsp 63 (linkChunks (la (4096 * 63) 7).hdr.toNat)).linkTab = none ∧
    ((forwarding true).linkFreeRsp 63 (linkChunks (la (4096 * 63) 7).hdr.toNat)).forwards.find? (fun g => g.key == lhReqId (la (4096 * 63) 7).hdr.toNat)
      = some (fwd true) ∧ (forwarding true).answersForward (la (4096 * 63) 7) true = true ∧
    (forwarding false).answersForward (la (4096 * 63) 7) false = true ∧
    ((forwarding false).linkFreeRsp 63 (linkChunks (la (4096 * 63) 7).hdr.toNat)).forwards.find? (fun g => g.key == lhReqId (la (4096 * 63) 7).hdr.toNat)
      = some (fwd false) := by decide +kernel

/-! ### Regulation and links -/

theorem witness_RegulationWrites :
    up.takes D.MEM_GUARANTEE 63 (wo D.MEM_GUARANTEE (2 ^ 32 - 1)) = true ∧ memExceeds up (up.wr D.MEM_GUARANTEE 63 (2 ^ 32 - 1)) = true ∧
    up.takes D.MEM_GUARANTEE 63 (wo D.MEM_GUARANTEE 0) = true ∧ memExceeds up (up.wr D.MEM_GUARANTEE 63 0) = false ∧
    linkExceeds up (up.wr D.MEM_GUARANTEE 63 0) = false ∧ up.takes D.LINK_GUARANTEE 63 (wo D.LINK_GUARANTEE 1) = true ∧
    linkExceeds up (up.wr D.LINK_GUARANTEE 63 1) = true ∧ memExceeds up (up.wr D.LINK_GUARANTEE 63 0) = false ∧
    linkExceeds up (up.wr D.LINK_GUARANTEE 63 0) = false ∧ west.takes D.MEM_GROUP_MASK 63 (wo D.MEM_GROUP_MASK (2 ^ 32 - 1)) = true ∧
    (2 ^ 32 - 1) &&& presentStackMask west.variant ≠ 2 ^ 32 - 1 ∧ (2 ^ 32 - 1) &&& presentStackMask up.variant = 2 ^ 32 - 1 ∧
    west.takes D.LINK_MASK 63 (wo D.LINK_MASK (2 ^ 64 - 1)) = true ∧ (2 ^ 64 - 1) &&& presentLinkMask west.variant ≠ 2 ^ 64 - 1 ∧
    memExceeds ((up.wr D.MEM_GUARANTEE 63 (2 ^ 32 - 1)).wr D.MEM_GROUP_MASK 63 0) (up.wr D.MEM_GUARANTEE 63 (2 ^ 32 - 1)) = true ∧
    linkExceeds ((up.wr D.LINK_GUARANTEE 63 1).wr D.LINK_MASK 63 0) (up.wr D.LINK_GUARANTEE 63 1) = true ∧
    up.takes D.MEM_EFFICIENCY 0 (wo D.MEM_EFFICIENCY 500) = true ∧ up.takes D.LINK_EFFICIENCY 0 (wo D.LINK_EFFICIENCY 1000) = true ∧
    up.takes D.CLASS_MISS_MIN 63 (wo D.CLASS_MISS_MIN 32) = true ∧ (up.wr D.CLASS_MISS_MIN 63 32).missMinSum ≤ 96 ∧ 32 ≤ up.rd D.CLASS_MISS_MAX 63 ∧
    (up.wr D.CLASS_MISS_MAX 63 31).takes D.CLASS_MISS_MIN 63 (wo D.CLASS_MISS_MIN 32) = true ∧ (up.wr D.CLASS_MISS_MAX 63 31).rd D.CLASS_MISS_MAX 63 < 32 ∧
    96 < ((((up.wr D.CLASS_MISS_MIN 0 32).wr D.CLASS_MISS_MIN 1 32).wr D.CLASS_MISS_MIN 2 32).wr D.CLASS_MISS_MIN 63 1).missMinSum ∧
    up.takes D.CLASS_MISS_MAX 63 (wo D.CLASS_MISS_MAX 1) = true ∧ up.rd D.CLASS_MISS_MIN 63 ≤ 1 ∧
    (up.wr D.CLASS_MISS_MIN 63 2).takes D.CLASS_MISS_MAX 63 (wo D.CLASS_MISS_MAX 1) = true ∧ 1 < (up.wr D.CLASS_MISS_MIN 63 2).rd D.CLASS_MISS_MIN 63 := by
  decide +kernel

/-- Link 63 in a state of R284, and in a phase of its training. -/
def lk (st : Nat) : State := up.wr D.LINK_STATE 63 st
def ph (p : Nat) : State := (lk 2).setLnk 63 { Lnk.init with phase := p, rxOk := 0xFF }
def lkWith (x : Lnk) : State := linked.setLnk 63 x
/-- A beacon with STATE `st` of a device of serial 7, and its CRC (Table 11.3). -/
def beacon (st : Nat) : BitVec 128 := BitVec.ofNat 128 (0xBEAC + st * 2 ^ 34 + 7 * 2 ^ 64)
def beaconC (st : Nat) : BitVec 16 := BitVec.ofNat 16 (beaconCrc (beacon st).toNat)
/-- A control block: version `v`, receiver lanes all good, serial 7 (Table 11.4). -/
def cblock (v : Nat) : BitVec 256 := BitVec.ofNat 256 (0xFF * 2 ^ 56 + v * 2 ^ 88 + 7 * 2 ^ 128)
def forced : State := (lk 2).setLnk 63 { Lnk.init with phase := 3, rxOk := 0xFF, forceFull := true }
def bigBer : List (BitVec 32) := [0x3F800000]
set_option maxRecDepth 100000 in
theorem witness_LinkBringUp :
    (lk 3).takes D.LINK_POWER 63 (wo D.LINK_POWER 2) = true ∧ odNum (wo D.LINK_POWER 2) = 2 ∧ linkUsable ((lk 3).rd D.LINK_STATE 63) = true ∧
    (lk 0).takes D.LINK_POWER 63 (wo D.LINK_POWER 2) = true ∧ (lk 0).rd D.LINK_STATE 63 = 0 ∧ (lk 5).takes D.LINK_POWER 63 (wo D.LINK_POWER 2) = true ∧
    linkUsable ((lk 5).rd D.LINK_STATE 63) = false ∧ (lk 5).rd D.LINK_STATE 63 ≠ 0 ∧ (lk 0).takes D.LINK_POWER 63 (wo D.LINK_POWER 1) = true ∧
    odNum (wo D.LINK_POWER 1) ≠ 2 ∧ ((lk 0).setObj D.LINK_POWER 63 (wo D.LINK_POWER 1)).has .link 63 = true ∧
    ((lk 0).setObj D.LINK_POWER 63 (wo D.LINK_POWER 1)).linkBarred 63 = false ∧ ((lk 3).lnk 63).draining = false ∧
    (lk 3).takes D.LINK_POWER 63 (wo D.LINK_POWER 1) = true ∧
    ((lkWith { Lnk.init with draining := true }).lnk 63).draining = true ∧ beaconOk (beacon 1).toNat (beaconC 1).toNat = true ∧
    beaconOk (beacon 1).toNat (beaconC 2).toNat = false ∧ (lk 1).rd D.LINK_STATE 63 = 1 ∧ (lk 5).rd D.LINK_STATE 63 = 5 ∧
    (lk 2).rd D.LINK_STATE 63 ≠ 1 ∧ (lk 2).rd D.LINK_STATE 63 ≠ 5 ∧ (ph 1).inPhase 63 1 = true ∧ (ph 2).inPhase 63 1 = false ∧
    (ph 2).inPhase 63 2 = true ∧ (0 : BitVec 8).toNat &&& (ph 2).laneAllow 63 = 0 ∧ (0x80 : BitVec 8).toNat &&& (ph 2).laneAllow 63 ≠ 0 ∧
    up.takes D.LANE_BITSLIP 511 (wo D.LANE_BITSLIP 5439) = true ∧ up.rd D.LINK_LOCK_MODE (511 / 8) ≠ 1 ∧
    (up.wr D.LINK_LOCK_MODE 63 1).takes D.LANE_BITSLIP 511 (wo D.LANE_BITSLIP 1) = true ∧ (up.wr D.LINK_LOCK_MODE 63 1).rd D.LINK_LOCK_MODE (511 / 8) = 1 ∧
    forced.inPhase 63 3 = true ∧ (forced.lnk 63).forceFull = true ∧ (ph 4).inPhase 63 4 = true ∧ cbVersion (cblock 2).toNat ≠ 1 ∧
    cbVersion (cblock 1).toNat = 1 ∧ laneMask (((ph 4).lnk 63).rxOk &&& cbRxOk (cblock 1).toNat) ≠ 0 ∧ (ph 5).inPhase 63 5 = true ∧
    badLanes (((ph 5).wr D.LINK_LANE_MASK 63 1).rd D.LINK_LANE_MASK 63) [] = [] ∧ (0 : BitVec 32).toNat ≤ flrLimit ∧
    badLanes (((ph 5).wr D.LINK_LANE_MASK 63 1).rd D.LINK_LANE_MASK 63) bigBer ≠ [] ∧ ((ph 5).lnk 63).runs < 2 ∧
    2 ≤ ((lkWith { Lnk.init with runs := 2 }).lnk 63).runs ∧ (lk 4).rd D.LINK_STATE 63 = 4 ∧ (ph 3).inPhase 63 3 = true := by decide +kernel

def idleLink : State := linked.wr D.LINK_TX_IDLE 63 1
/-- Its rise out of idle has been admitted. -/
def idleUp : State := { idleLink with rising := [.link 63] }
def idleAckDue : State := { lkWith { Lnk.init with nakDue := true } with rising := [.link 63] }
def quiet : State := lkWith { Lnk.init with txAck := 4095, idleAsk := true }
def retraining : State := (lk 4).wr D.LINK_PARTNER_SERIAL 63 7
def rtOut (c : Bool) (v : Nat) : RetrainOutcome := { completes := c, lanesOk := 0xFF, partner := cblock v, bers := [], band := 0, foms := List.replicate 8 250, coefs := [], record := { len := 0, val := 0 } }
def ackW (nak : Nat) : BitVec 128 := BitVec.ofNat 128 (0x20 + 5 * 2 ^ 6 + nak * 2 ^ 18)
theorem witness_LinkUpkeep :
    linkUsable (linked.rd D.LINK_STATE 63) = true ∧ linkUsable ((lk 2).rd D.LINK_STATE 63) = false ∧ fieldPresent west.variant 7 = false ∧
    fieldPresent up.variant 7 = true ∧ laserMin ≤ toSigned 32 (1700 : BitVec 32).toNat ∧ toSigned 32 (1699 : BitVec 32).toNat < laserMin ∧
    quiet.linkQuiet 63 = true ∧ (quiet.lnk 63).idleAsk = true ∧ up.linkQuiet 63 = false ∧ linked.rdB D.LINK_TX_IDLE 63 = false ∧
    idleLink.rdB D.LINK_TX_IDLE 63 = true ∧ up.takes D.LINK_RETRAIN 63 (wo D.LINK_RETRAIN 1) = true ∧ up.rd D.LINK_STATE 63 ≠ 3 ∧
    linked.takes D.LINK_RETRAIN 63 (wo D.LINK_RETRAIN 1) = true ∧ linked.rd D.LINK_STATE 63 = 3 ∧
    badLanes ((linked.wr D.LINK_LANE_MASK 63 1).rd D.LINK_LANE_MASK 63) bigBer ≠ [] ∧
    (((linked.wr D.LINK_LANE_MASK 63 1).wr D.LINK_AUTO_RETRAIN 0 1).noteBers 63 1 bigBer).rdB D.LINK_AUTO_RETRAIN 0 = true ∧
    retraining.rd D.LINK_STATE 63 = 4 ∧ (rtOut false 1).completes = false ∧ (rtOut true 1).completes = true ∧
    cbSerial (rtOut true 1).partner.toNat ≠ (retraining.wr D.LINK_PARTNER_SERIAL 63 8).rd D.LINK_PARTNER_SERIAL 63 ∧
    cbSerial (rtOut true 1).partner.toNat = retraining.rd D.LINK_PARTNER_SERIAL 63 ∧ cbVersion (rtOut true 1).partner.toNat = 1 ∧
    laneMask ((rtOut true 1).lanesOk.toNat &&& retraining.laneAllow 63 &&& fomMask (rtOut true 1).foms (retraining.lnk 63).fomMin &&& cbRxOk (rtOut true 1).partner.toNat) = 0xFF ∧ badLanes 0xFF [] = [] ∧
    lhOp (ackW 0).toNat = 0x20 ∧ bit (ackW 0).toNat 18 = false ∧ bit (ackW 1).toNat 18 = true ∧ (linked.lnk 63).nakRun = 0 ∧
    ((lkWith { Lnk.init with nakRun := 7, nakAck := 5 }).lnk 63).nakRun = 7 ∧ ((lkWith { Lnk.init with nakRun := 7, nakAck := 5 }).lnk 63).nakAck = bits (ackW 1).toNat 17 6 ∧
    linked.ackDue 63 = false ∧ linked.txq 63 = [] ∧ linked.txChoose 63 = none ∧ (linked.lnk 63).unacked < 1024 ∧
    1024 ≤ ((lkWith { Lnk.init with txSeq := 1024, txAck := 4095 }).lnk 63).unacked ∧ (lkWith { Lnk.init with nakDue := true }).ackDue 63 = true ∧
    idleLink.ackDue 63 = false ∧ idleLink.txq 63 = [] ∧ idleUp.rdB D.LINK_TX_IDLE 63 = true ∧ idleUp.rising.contains (.link 63) = true ∧
    idleLink.rising.contains (.link 63) = false ∧ (idleAckDue.wr D.LINK_TX_IDLE 63 1).ackDue 63 = true ∧
    (idleAckDue.wr D.LINK_TX_IDLE 63 1).rising.contains (.link 63) = true ∧ (idleAckDue.wr D.LINK_TX_IDLE 63 1).rd D.LINK_STATE 63 = 3 := by decide +kernel

/-- A flit header with a number and its HCRC, and a filler (Table 11.2). -/
def fh (seq filler : Nat) : BitVec 20 := let x := seq + filler * 2 ^ 12; BitVec.ofNat 20 (x + hcrc x * 2 ^ 14)
/-- A read for device `d`. -/
def lmFar (d : Nat) : Msg := { hdr := BitVec.ofNat 128 (linkReqHeader 1 0 0 0 1 0 1 (d * 2 ^ 44) 0 false), ext := 0, payload := 0 }
def wide : State := (linked.wr D.LINK_LANE_MASK 63 1).wr D.LINK_TRAINED_WIDTH 63 1
def asked : State := { linked with linkTab := [(4096 * 63, some 2)] }
def outed : State := up.newReq { aRead with dev := 9, stage := .mesh }
theorem witness_LinkTraffic :
    hcrc (fh 0 0).toNat = bits (fh 0 0).toNat 19 14 ∧ bit (fh 0 0).toNat 12 = false ∧ bit (fh 0 1).toNat 12 = true ∧
    hcrc (fh 0 1).toNat = bits (fh 0 1).toNat 19 14 ∧ hcrc (1 : BitVec 20).toNat ≠ bits (1 : BitVec 20).toNat 19 14 ∧
    bits (fh 1 0).toNat 11 0 ≠ ((wide.countWord 63 0 false).lnk 63).rxSeq ∧ hcrc (fh 1 0).toNat = bits (fh 1 0).toNat 19 14 ∧
    bits (fh 0 0).toNat 11 0 = ((wide.countWord 63 0 false).lnk 63).rxSeq ∧
    logicalLane ((wide.countWord 63 0 false).rd D.LINK_LANE_MASK 63) 0 = bits (fh 0 0).toNat 11 0 % max 1 ((wide.countWord 63 0 false).rd D.LINK_TRAINED_WIDTH 63) ∧
    ((wide.countWord 63 0 false).lnk 63).stream = [] ∧ cutItems ((bodyChunks (0 : BitVec 5120).toNat).length + 1) (bodyChunks (0 : BitVec 5120).toNat) = ([], []) ∧
    (linked.lnk 63).episode = false ∧ ((lkWith { Lnk.init with episode := true }).lnk 63).episode = true ∧
    lhOp (BitVec.ofNat 128 0x22).toNat = 0x22 ∧ linked.boot.hold = false ∧ linked.schedLead 63 = 0xFFFFFFFF ∧
    lhOp (lm 1 0 0).hdr.toNat = 1 ∧ lhTarget (lm 1 0 0).hdr.toNat = linked.devNum ∧ linked.r31 63 (lhPart (lm 1 0 0).hdr.toNat) = true ∧
    linked.linkFmt (lm 1 0 0).hdr.toNat = 0 ∧ (linked.linkReqOf 63 (lm 1 0 0) (linkChunks (lm 1 0 0).hdr.toNat)).isSome = true ∧
    linked.linkFmt (lm 6 0 0).hdr.toNat = St.FORMAT_UNSET ∧ (linked.wr D.LINK_PART_MASK 63 0).r31 63 (lhPart (lm 1 0 0).hdr.toNat) = false ∧
    lhTarget (lmFar 3).hdr.toNat ≠ linked.devNum ∧ lhOp (lmFar 3).hdr.toNat = 1 ∧ lhOp (la (4096 * 63) 7).hdr.toNat = 0x30 ∧
    lhDev (la (4096 * 63) 7).hdr.toNat = linked.devNum ∧
    Table.get none (lhReqId (la (4096 * 63) 7).hdr.toNat) (linked.linkFreeRsp 63 (linkChunks (la (4096 * 63) 7).hdr.toNat)).linkTab = none ∧
    (linked.linkFreeRsp 63 (linkChunks (la (4096 * 63) 7).hdr.toNat)).forwards.find? (fun f => f.key == lhReqId (la (4096 * 63) 7).hdr.toNat) = none ∧
    Table.get none (lhReqId (la (4096 * 63) 7).hdr.toNat) (asked.linkFreeRsp 63 (linkChunks (la (4096 * 63) 7).hdr.toNat)).linkTab = some 2 ∧
    lhStatus (la (4096 * 63) 7).hdr.toNat = 0 ∧
    west.takes D.LINK_ROUTE 4095 (wo D.LINK_ROUTE (2 ^ 63)) = true ∧ (maskList 64 (odNum (wo D.LINK_ROUTE (2 ^ 63)))).any (fun n => !west.has .link n) = true ∧
    up.takes D.LINK_ROUTE 4095 (wo D.LINK_ROUTE (2 ^ 63)) = true ∧ (maskList 64 (odNum (wo D.LINK_ROUTE (2 ^ 63)))).any (fun n => !up.has .link n) = false ∧
    (maskList 64 (odNum (wo D.LINK_ROUTE (2 ^ 63)))).any (fun n => !bit (up.rd D.LINK_ROUTE 4095) n) = true ∧
    (maskList 64 (odNum (wo D.LINK_ROUTE 0))).any (fun n => !bit (up.rd D.LINK_ROUTE 4095) n) = false ∧
    ({ up with routeHold := [4095] } : State).routeHold.contains 4095 = true ∧ up.routeHold = [] ∧ outed.outTo 9 = true ∧ up.outTo 9 = false ∧
    west.takes D.LINK_SNAPSHOT 0 (wo D.LINK_SNAPSHOT 63) = true ∧ west.has .link (odNum (wo D.LINK_SNAPSHOT 63)) = false ∧
    up.takes D.LINK_SNAPSHOT 0 (wo D.LINK_SNAPSHOT 63) = true ∧ up.has .link (odNum (wo D.LINK_SNAPSHOT 63)) = true ∧
    ({ up with snapLink := some 63 } : State).snapLink = some 63 := by decide +kernel

/-! ### Host and management ports -/

def hq (w : Bool) (b : HostBar) : HostReq := { write := w, bar := b, offset := 0, len := 8, data := 0, relaxed := false, tag := 0 }
def hostUp : State := up.wr D.HOST_LINK_STATE 0 2
/-- Ring 15 of the PF has 64 entries; a record waits in the queue of partition 15. -/
def ringed (full : Bool) : State :=
  let r : FaultRing := { base := 0, shadow := 0, sizeLog2 := 6, cons := 0, prod := if full then 64 else 0 }
  (hostUp.setFn 0 { hostUp.fn 0 with rings := [(15, r)] }).setPart 15 { hostUp.part 15 with normal := [7] }
def mbxBusy : State := up.setFn 0 { up.fn 0 with mbx := 1 }
theorem witness_GateNowReads : up.fnPresent 0 = true ∧ (up.wr D.HOST_NUM_VFS 0 16).fnPresent (16 : Fin 17).val = true := by decide +kernel
theorem witness_HostPortCommands :
    up.fnPresent 16 = false ∧ up.fnPresent 0 = true ∧ (hq false .bar2).bar ≠ .bar0 ∧ (hq false .bar4).write = false ∧ (hq true .bar4).bar ≠ .bar0 ∧
    (hq true .bar0).write = true ∧ (up.wr D.HOST_NUM_VFS 0 16).fnPresent (16 : Fin 17).val = true ∧
    (3 : BitVec 64).toNat % 2 ^ 32 ≠ 0 ∧ (5 : BitVec 64).toNat % 2 ^ 32 < 6 ∧ 16 < (17 : BitVec 64).toNat % 2 ^ 32 ∧
    (up.part 15).nextRecord = none ∧ ((ringed false).part 15).nextRecord = some 7 ∧ (ringed false).rd D.HOST_LINK_STATE 0 = 2 ∧
    (((ringed false).fn 0).ring 15).sizeLog2 ≠ 0 ∧ (((ringed false).fn 0).ring 15).full = false ∧ (((ringed true).fn 0).ring 15).full = true ∧
    State.reset.odUp = false ∧ (mbxBusy.fn 0).mbx = 1 ∧ (up.fn 0).mbx ≠ 1 ∧ up.odFree = true ∧ held.fnPresent 0 = true ∧ (held.fn 0).mbx ≠ 1 ∧
    held.odUp = true ∧ held.odFree = false ∧ 9 ≤ up.rd D.BOOT_STAGE 0 ∧ up.rd D.HOST_LINK_STATE 0 ≠ 2 ∧
    (1 : BitVec 8).toNat = 1 ∧ (2 : BitVec 8).toNat ≤ up.cur D.HOST_MAX_RATE 0 ∧ (8 : BitVec 8).toNat = 8 ∧ State.reset.rd D.BOOT_STAGE 0 < 9 ∧
    hostUp.rd D.HOST_LINK_STATE 0 = 2 := by decide +kernel

/-- A frame to every device, of 46 bytes: a message of a kind with transaction 5 and no operations. -/
def frame (kind : Nat) (serial : Nat) : EthFrame :=
  { dst := 0xFFFFFFFFFFFF, src := 0x020000000001, tagged := false, etype := BitVec.ofNat 16 (up.cur D.PHIL_ETHERTYPE 0),
    payload := { len := 46, val := philHeader kind false 5 0 0 9 serial } }
def frame1 : EthFrame :=
  { frame 0 0 with payload := { len := 46, val := philHeader 0 false 5 0 1 9 0 + (5 + D.BOOT_STAGE.idx * 2 ^ 32 + D.BOOT_STAGE.sub * 2 ^ 64) * 2 ^ 192 } }
def phil : State := up.wr D.MGMT_LINK_STATE 0 2
def philHeld : State := { phil with odRun := some { src := .phil 0x020000000001 false, hdr := philHeader 0 false 5 0 0 9 0, todo := [], cur := none, done := [], result := none } }
def philFull : State := { philHeld with odRun := none, odWait := true, backlog := List.replicate 32 (.eventAck frame1) }
def keyed : State := phil.wrLen D.MGMT_PUBKEY 3 57
def evQ (n : Nat) : State := { up with events := [{ seq := 9, word := 0, sends := n }] }
def payloadOf (fr : EthFrame) : Nat := fr.payload.val % 2 ^ (8 * fr.payload.len)
def keptOne : State := { phil with philKept := [(0x020000000001, [(5, 24, 7)])] }
def authRead : State := phil.wr D.PHIL_READ_AUTH 0 1
/-- A read of an object outside area 0x1000. -/
def frame2 : EthFrame :=
  { frame 0 0 with payload := { len := 46, val := philHeader 0 false 5 0 1 9 0 + (1 + D.GATE_TIME.idx * 2 ^ 32 + D.GATE_TIME.sub * 2 ^ 64) * 2 ^ 192 } }
theorem witness_ManagementPort :
    State.reset.odUp = false ∧ up.rd D.MGMT_LINK_STATE 0 ≠ 2 ∧ phil.frameMine { frame1 with tagged := true } = false ∧ philHeld.repeatsRun frame1 = true ∧
    phil.odFree = true ∧ phil.rd D.MGMT_LINK_STATE 0 = 2 ∧ phil.frameMine frame1 = true ∧ phil.repeatsRun frame1 = false ∧
    philFull.odUp = true ∧ philFull.odFree = false ∧ philFull.rd D.MGMT_LINK_STATE 0 = 2 ∧ philFull.frameMine frame1 = true ∧
    philFull.repeatsRun frame1 = false ∧ philFull.framesWaiting = 32 ∧ ({ philFull with backlog := [] } : State).odFree = false ∧
    ({ philFull with backlog := [] } : State).framesWaiting < 32 ∧ parseMsg (payloadOf (frame 0 0)) 46 = none ∧
    (parseMsg (payloadOf (frame 3 0)) 46).isSome = true ∧ (parseMsg (payloadOf frame1) 46).map (fun x => decide (opsSize x.2 ≤ 1362)) = some true ∧
    phKind (bytesOf (payloadOf (frame 3 0)) 0 24) = 3 ∧ phKind (bytesOf (payloadOf frame1) 0 24) ≠ 3 ∧
    (keptOne.keptOf 0x020000000001).find? (fun k => k.1 == phTxn (bytesOf (payloadOf frame1) 0 24)) = some (5, 24, 7) ∧
    (phil.keptOf 0x020000000001).find? (fun k => k.1 == phTxn (bytesOf (payloadOf frame1) 0 24)) = none ∧
    (parseMsg (payloadOf frame1) 46).map (fun x => phil.philAuth (payloadOf frame1) x.2 x.1) = some true ∧
    (parseMsg (payloadOf frame2) 46).map (fun x => authRead.philAuth (payloadOf frame2) x.2 x.1) = some false ∧
    phil.anyKey = false ∧ keyed.anyKey = true ∧ phSigned (bytesOf (payloadOf (frame 3 0)) 0 24) = false ∧
    (evQ 0).uttexPause = false ∧ (evQ 9).events = [{ seq := 9, word := 0, sends := 9 }] ∧ up.boot.pin = false ∧ up.boot.down = none ∧
    ({ up with boot := { up.boot with pin := true } } : State).boot.pin = true := by decide +kernel

/-! ### The object store, clocks, power, start-up and resets -/

def committing : State := { up with mram := { Store.init with commit := some { copyB := true, body := { objs := [], lens := [] }, waits := false } } }
def logging : State := { up with flogWait := [{ kind := 1, mask := 0, body := 0, boot := 0 }] }
theorem witness_StoreAndFaultLog :
    up.takes D.STORE_COMMIT 0 (wo D.STORE_COMMIT 1) = true ∧ up.mram.commit = none ∧ up.mram.empty = false ∧
    committing.takes D.STORE_COMMIT 0 (wo D.STORE_COMMIT 1) = true ∧ committing.mram.commit.isSome = true ∧
    up.mram.dirty = false ∧ ({ up with mram := { Store.init with dirty := true } } : State).mram.dirty = true ∧ up.mram.sealed = false ∧
    up.uttexPause = false ∧ committing.uttexPause = false ∧ committing.mram.again = false ∧ committing.mram.sealed = false ∧
    up.takes D.STORE_DEFAULTS 0 (wo D.STORE_DEFAULTS 1) = true ∧ up.flogWait = [] ∧ logging.flogWait.length = 1 ∧
    up.takes D.FAULT_LOG_SELECT 0 (wo D.FAULT_LOG_SELECT 3) = true ∧ up.takes D.FAULT_OVERFLOW_CLEAR 15 (wo D.FAULT_OVERFLOW_CLEAR 1) = true ∧
    fieldPresent west.variant 7 = false ∧ fieldPresent up.variant 7 = true := by decide +kernel

def cReq (mask mhz : Nat) : Nat := mask + mhz * 2 ^ 16
def gliding : State := { up.wr D.FIELD_CLOCK_STATE 0 2 with clkReq := some (cReq 0x80 1500) }
def pllLost (f : Nat) : State := up.setClk f { up.clk f with unlocked := true }
/-- Field 7, unlocked, wants 1,500 MHz below the floor of the active table. -/
def floored : State :=
  { (up.wr D.LAP_STATE 0 1).setClk 7 { up.clk 7 with unlocked := true, target := 1500 } with
    lapA := some { id := 0, len := 256, pace := [1, 1, 1, 1, 1, 1, 1, 1], width := [], tail := 0, flows := [], reds := [], entries := [], topo := 0 } }
theorem witness_ClockCommands :
    up.takes D.FIELD_CLOCK_REQ 0 (wo D.FIELD_CLOCK_REQ (cReq 0x80 2200)) = true ∧ up.clockStatus (cReq 0x80 2200) = 0 ∧
    up.clockStatus (cReq 0x80 2201) = St.CLK_REQ_BAD ∧ 2200 < fcMhz (cReq 0x80 2201) ∧ fcMhz (cReq 0x80 249) < 250 ∧
    west.takes D.FIELD_CLOCK_REQ 0 (wo D.FIELD_CLOCK_REQ (cReq 0x80 2200)) = true ∧ west.clockStatus (cReq 0x80 2200) = St.UNIT_ABSENT ∧
    (fcFields (cReq 0x80 2200)).any (fun f => up.belowFloor f (fcMhz (cReq 0x80 2200))) = false ∧ up.clkReq = none ∧
    gliding.clkReq = some (cReq 0x80 1500) ∧ gliding.rd D.FIELD_CLOCK_STATE 0 = 2 ∧ gliding.lift.any isGlide = false ∧
    (up.clockReq (cReq 0x80 2200)).lift = [.glide 7] ∧ (up.clockReq (cReq 0x80 2200)).lift.any isGlide = true ∧ (up.clockReq (cReq 0x80 1999)).lift = [] ∧ (up.clk 7).unlocked = false ∧ fieldPresent up.variant 7 = true ∧
    up.rd D.FIELD_CLK_SRC 7 ≠ 1 ∧ (up.wr D.FIELD_CLK_SRC 7 1).rd D.FIELD_CLK_SRC 7 = 1 ∧ ((pllLost 7).clk 7).unlocked = true ∧
    (pllLost 7).clkPend.contains 8 = false ∧ (pllLost 7).belowFloor 7 ((pllLost 7).clk 7).target = false ∧
    (floored.clk 7).unlocked = true ∧ floored.clkPend.contains 8 = false ∧ floored.belowFloor 7 (floored.clk 7).target = true ∧ (floored.clk 7).target < floored.rd D.FIELD_FREQ 7 ∧
    ({ up with clkPend := [0, 8] } : State).clkPend.contains (8 : Fin 10).val = true ∧ ({ up with clkPend := [0, 9] } : State).clkPend.contains 9 = true ∧
    up.takes D.CKOBS_SELECT 0 (wo D.CKOBS_SELECT 5) = true ∧ up.ckFreq 5 = none ∧ up.takes D.CKOBS_SELECT 0 (wo D.CKOBS_SELECT 0x40) = true ∧
    (up.wr D.CKOBS_DIV 0 1).takes D.CKOBS_SELECT 0 (wo D.CKOBS_SELECT 0x40) = true ∧
    (up.wr D.CKOBS_DIV 0 1).ckFreq 0x40 = some 2125000 ∧ 2500 * (up.wr D.CKOBS_DIV 0 1).rd D.CKOBS_DIV 0 < 2125000 ∧ up.takes D.CKOBS_SELECT 0 (wo D.CKOBS_SELECT 1) = true ∧
    up.ckFreq 1 = some 20 ∧ 20 ≤ 2500 * up.rd D.CKOBS_DIV 0 ∧ 1 ≠ up.rd D.CKOBS_SELECT 0 ∧ up.ckGated (up.rd D.CKOBS_SELECT 0) = false ∧
    up.ckFreq (up.rd D.CKOBS_SELECT 0) = some 500 ∧ up.takes D.CKOBS_DIV 0 (wo D.CKOBS_DIV 1) = true ∧
    (up.ckFreq (up.rd D.CKOBS_SELECT 0)).getD 0 ≤ 2500 * 1 ∧ (up.wr D.CKOBS_SELECT 0 0x40).takes D.CKOBS_DIV 0 (wo D.CKOBS_DIV 1) = true ∧
    2500 * 1 < ((up.wr D.CKOBS_SELECT 0 0x40).ckFreq ((up.wr D.CKOBS_SELECT 0 0x40).rd D.CKOBS_SELECT 0)).getD 0 := by decide +kernel

/-- Line 5 of slice 1023 is present and locked. -/
def lockedUp5 : State := up.setCache 1023 { up.cache 1023 with tags := [(0, some { ln0 with lock := true })] }
def dozing : State := (fieldSlices 7).foldr (fun n t => t.wr D.SLICE_POWER n 2) up
def deep : State := (fieldSlices 7).foldr (fun n t => t.wr D.SLICE_POWER n 3) up
def lifting : State := { up with lift := [.field 7] }
def risen : State := { up with rising := [.slice 1023] }
def downFor (c : Nat) : State := { up with boot := { up.boot with down := some c } }
def pinned : State := { up with boot := { up.boot with pin := true } }
set_option maxRecDepth 100000 in
theorem witness_PowerCommands :
    lockedUp5.takes D.SLICE_POWER_MODE 1023 (wo D.SLICE_POWER_MODE 3) = true ∧ lockedUp5.sliceLocked 1023 = true ∧
    up.takes D.SLICE_POWER_MODE 1023 (wo D.SLICE_POWER_MODE 3) = true ∧ up.sliceLocked 1023 = false ∧
    up.takes D.SLICE_POWER_MODE 1023 (wo D.SLICE_POWER_MODE 1) = true ∧ up.has .slice 1023 = true ∧ up.isHole 1023 = false ∧
    up.takes D.FIELD_POWER_MODE 7 (wo D.FIELD_POWER_MODE 0) = true ∧ up.takes D.FIELD_POWER_MODE 7 (wo D.FIELD_POWER_MODE 1) = true ∧
    up.takes D.FIELD_POWER_MODE 7 (wo D.FIELD_POWER_MODE 2) = true ∧ up.fieldDepth 7 2 = none ∧
    dozing.takes D.FIELD_POWER_MODE 7 (wo D.FIELD_POWER_MODE 2) = true ∧ dozing.fieldDepth 7 2 = some 2 ∧ dozing.rd D.FIELD_POWER 7 < 2 ∧
    deep.fieldDepth 7 3 = some 3 ∧ up.rd D.SLICE_POWER_MODE 1023 ≠ 1 ∧ (up.wr D.SLICE_POWER_MODE 1023 1).rd D.SLICE_POWER_MODE (1023 : Fin 1024).val = 1 ∧
    up.sliceQuiet 1023 = true ∧ up.sliceResets 1023 = false ∧ up.rd D.SLICE_POWER 1023 < 2 ∧ fieldPresent up.variant 7 = true ∧
    up.rd D.FIELD_POWER_MODE 7 ≠ 1 ∧ up.routersEmpty 7 = true ∧ (dozing.wr D.FIELD_POWER_MODE 7 2).fieldDepth 7 ((dozing.wr D.FIELD_POWER_MODE 7 2).rd D.FIELD_POWER_MODE 7)
      = some 2 ∧ (up.wr D.FIELD_POWER_MODE 7 2).fieldDepth 7 ((up.wr D.FIELD_POWER_MODE 7 2).rd D.FIELD_POWER_MODE 7) = none ∧
    (up.refill 5).liftNext = none ∧ (lifting.refill 5).liftNext = some (.field 7) ∧
    ({ up with lift := [.glide 7, .field 7] } : State).liftNext = some (.field 7) ∧ isGlide (.field 7) = false ∧
    up.rd D.LINK_STATE 63 = 0 ∧ up.linkMayRise 63 = true ∧ linked.rd D.LINK_STATE 63 ≠ 0 ∧ risen.rising.contains (.slice 1023) = true ∧
    risen.parentUp (.slice 1023) = true ∧ up.rising.contains (.slice 1023) = false ∧ fieldPresent west.variant 7 = false ∧
    up.tempOf 7 950 = 10 * 95 ∧ up.boot.down = none ∧ (95 : Int) < 110 ∧ 10 * (up.rd D.THERMAL_HOT_C 0 : Int) ≤ 10 * 109 ∧ up.tempOf 7 1090 = 10 * 109 ∧
    10 * 20 < 10 * (up.rd D.THERMAL_HOT_C 0 : Int) ∧ (up.clk 7).capped = false ∧ (downFor 0).boot.down = some 0 ∧ (downFor 8).boot.down ≠ some 0 ∧
    pinned.boot.pin = true ∧ up.boot.pin = false := by decide +kernel

/-- The device in a stage of start-up, and in the crystal check of stage 1. -/
def stage (k : Nat) : State := { up.wr D.BOOT_STAGE 0 k with boot := { Boot.init with last := none } }
def crystal (n : Nat) : State := ((stage 1).wr D.AO_CLOCK_SOURCE 0 0).wr D.XTAL_ATTEMPTS 0 n
def runBy (src : Nat) : State := (stage 1).wr D.AO_CLOCK_SOURCE 0 src
def attesting : State := { up with boot := { up.boot with attest := true } }
def wdtOnce : State := { up with boot := { up.boot with wdt := some none } }
theorem witness_StartUpCommands :
    (crystal 0).checking = true ∧ (crystal 2).rd D.XTAL_ATTEMPTS 0 < 3 ∧ (crystal 3).checking = true ∧ (crystal 3).rd D.XTAL_ATTEMPTS 0 = 3 ∧
    up.checking = false ∧ 159 ≤ (159 : BitVec 16).toNat ∧ (169 : BitVec 16).toNat ≤ 169 ∧ (158 : BitVec 16).toNat < 159 ∧ 169 < (170 : BitVec 16).toNat ∧
    pinned.heldOff = true ∧ (up.wr D.BOOT_HALTED 0 1).rdB D.BOOT_HALTED 0 = true ∧ ({ up with boot := { Boot.init with last := some 10 } } : State).started = true ∧
    (stage 0).heldOff = false ∧ (stage 0).rdB D.BOOT_HALTED 0 = false ∧ (stage 0).started = false ∧ (stage 0).rd D.BOOT_STAGE 0 = 0 ∧
    (runBy 0).rd D.AO_CLOCK_SOURCE 0 = 0 ∧ (runBy 1).rd D.AO_CLOCK_SOURCE 0 ≠ 0 ∧ (runBy 1).rd D.BOOT_STAGE 0 = 1 ∧ (stage 9).rd D.BOOT_STAGE 0 = 9 ∧
    10 ≤ (stage 10).rd D.BOOT_STAGE 0 ∧ (stage 10).started = false ∧ up.rd D.FW_BANK_STATE (1 : Fin 2).val ≠ 3 ∧
    (up.wr D.FW_BANK_STATE 1 3).rd D.FW_BANK_STATE (1 : Fin 2).val = 3 ∧ up.takes D.FW_MIN_SVN 0 (wo D.FW_MIN_SVN 5) = true ∧ up.rd D.FW_MIN_SVN 0 ≤ 5 ∧
    (up.wr D.FW_MIN_SVN 0 6).takes D.FW_MIN_SVN 0 (wo D.FW_MIN_SVN 5) = true ∧ 5 < (up.wr D.FW_MIN_SVN 0 6).rd D.FW_MIN_SVN 0 ∧
    up.takes D.ATTEST_NONCE 0 (wo D.ATTEST_NONCE 5) = true ∧ up.boot.attest = false ∧ attesting.boot.attest = true ∧ State.reset.odUp = false ∧
    up.odUp = true ∧ wdtOnce.wdtSecond = true ∧ up.wdtSecond = false := by decide +kernel

/-- Bank 1 holds a valid image; a moult of slice engines is at a unit. -/
def banked : State := up.wr D.FW_BANK_STATE 1 1
def moulting (cur : Option Nat) : State :=
  { up with boot := { up.boot with moult := some { kind := 1, bank := 1, groups := [[0x1007], []], cur := cur, done := 0, reverted := false } } }
def resetting : State := { up with boot := { up.boot with resets := [.slice 1023] } }
def failedSlice : State := up.setCache 1023 { up.cache 1023 with failed := true }
def resetAsked : State := up.setPart 15 { up.part 15 with wcmds := [(.reset, .od)] }
theorem witness_MoultsAndResets :
    up.takes D.MOULT_COMMAND 0 (wo D.MOULT_COMMAND 0x8011) = true ∧ up.moultStatus 0x8011 = St.FW_BANK_BAD ∧
    west.takes D.MOULT_COMMAND 0 (wo D.MOULT_COMMAND 0x8011) = true ∧ west.moultStatus 0x8011 = St.UNIT_ABSENT ∧
    banked.takes D.MOULT_COMMAND 0 (wo D.MOULT_COMMAND 0x8011) = true ∧ banked.moultStatus 0x8011 = 0 ∧
    (moulting none).boot.moult.isSome = true ∧ (moulting (some 0x1007)).boot.moult.map (fun m => m.cur) = some (some 0x1007) ∧ up.boot.moult = none ∧
    up.takes D.DEFECT_ADD 0 (wo D.DEFECT_ADD (2 ^ 20)) = true ∧ bits (2 ^ 20) 31 20 ≠ 0 ∧ 2 < bits (3 * 2 ^ 16) 19 16 ∧ bits 0xF000 15 0 / 4096 = 15 ∧
    up.takes D.DEFECT_ADD 0 (wo D.DEFECT_ADD 0x6FFF) = true ∧ bits 0x6FFF 31 20 = 0 ∧ up.unitHere (bits 0x6FFF 15 0) = false ∧
    up.takes D.DEFECT_ADD 0 (wo D.DEFECT_ADD 0x603F) = true ∧ up.unitHere (bits 0x603F 15 0) = true ∧
    failedSlice.takes D.RESET_SLICE 1023 (wo D.RESET_SLICE 1) = true ∧ (failedSlice.cache (failedSlice.homeKey 1023)).failed = true ∧
    up.takes D.RESET_SLICE 1023 (wo D.RESET_SLICE 1) = true ∧ up.sliceStatus 1023 = 0 ∧ up.sliceBusy 1023 = false ∧
    resetting.takes D.RESET_SLICE 1023 (wo D.RESET_SLICE 1) = true ∧ resetting.sliceStatus 1023 = 0 ∧ resetting.sliceBusy 1023 = true ∧
    up.takes D.RESET_FIELD 7 (wo D.RESET_FIELD 1) = true ∧ up.fieldBusy 7 = false ∧ resetting.takes D.RESET_FIELD 7 (wo D.RESET_FIELD 1) = true ∧
    resetting.fieldBusy 7 = true ∧ up.takes D.RESET_PARTITION 15 (wo D.RESET_PARTITION 1) = true ∧ (up.part 15).drain = none ∧ (up.part 15).wcmds = [] ∧
    resetAsked.takes D.RESET_PARTITION 15 (wo D.RESET_PARTITION 1) = true ∧
    (resetAsked.part 15).wcmds.any (fun c => c.1 == .reset) = true ∧ up.takes D.RESET_DEVICE 0 (wo D.RESET_DEVICE 1) = true ∧
    up.takes D.RESET_DEVICE 0 (wo D.RESET_DEVICE 2) = true := by decide +kernel

/-! ### What WellFormed refuses: one ill-formed operand for each check -/

def wide0 : OdWrite := { route := .internal, val := { len := 1, val := 256 } }
def long0 : OdWrite := { route := .internal, val := { len := 67108865, val := 0 } }
def badMsg : Msg := { hdr := 0, ext := 0, payload := 2 ^ 8064 }
def badSrc : CmdSrc := .host 0 0 0 (2 ^ 640)
def image (k : Nat) : BankImage :=
  { svn := 0, version := 0, manifestDigest := 0, digests := List.replicate 4 0, handover := List.replicate k 0, handoverMin := List.replicate 4 0 }
def found (k u : Nat) : StageOutcome :=
  { aoTime := 0, fails := [(u, 0)], fuseCopiesAgree := true, railsSettle := true, inputMv := 0, chargeUs := 0, bankOk := List.replicate k true,
    factoryOk := true, defectStoreOk := true, imageBad := false, startMs := 0 }
def eq0 (k : Nat) : EqOutcome :=
  { band := 0, fastFoms := List.replicate 8 0, fullFoms := List.replicate k 0, coefs := List.replicate 8 0, record := { len := 0, val := 0 } }
theorem test_wf_values : (Instr.storeCommit wide0).wf = false ∧ (Instr.storeCommit long0).wf = false ∧ (Instr.storeCommit (wi 1 255)).wf = true ∧
    (Instr.objectWrite { index := 0, inst := 0, sub := 0 } wide0).wf = false ∧
    (Instr.writeSeg { route := .internal, mac := 0 } { index := 0, inst := 0, sub := 0 } (2 ^ 32) true { len := 0, val := 0 }).wf = false ∧
    (Instr.readSeg .internal { index := 0, inst := 0, sub := 0 } 0 (2 ^ 16)).wf = false := by decide +kernel
theorem test_wf_messages : (Instr.read 0 badMsg).wf = false ∧ (Instr.linkRequest 0 badMsg).wf = false ∧ (Instr.schedStart 0 0 { msgs := [] }).wf = false ∧
    (Instr.schedStart 0 0 { msgs := [badMsg] }).wf = false ∧ (Instr.launch badSrc).wf = false ∧ (Instr.sweep (.attach 0 badMsg)).wf = false ∧
    (Instr.gateRead (.object (2 ^ 20) (wi 0 0))).wf = false ∧ (Instr.mailboxRequest 0 4097 0).wf = false ∧
    (Instr.mailboxRequest 0 1 256).wf = false := by decide +kernel
theorem test_wf_lists : (Instr.sdroopRelease 0 []).wf = false ∧ (Instr.linkBerInterval 0 []).wf = false ∧
    (Instr.linkMeasureDone 0 { bers := [], flr := 0 }).wf = false ∧ (Instr.linkEqDone 0 (eq0 7)).wf = false ∧ (Instr.linkEqDone 0 (eq0 8)).wf = true ∧
    (Instr.linkRetrainDone 0 { completes := true, lanesOk := 0, partner := 0, bers := [], band := 0, foms := List.replicate 8 250, coefs := [], record := { len := 0, val := 0 } }).wf = false ∧
    (Instr.fwBankProgrammed 0 true (image 3)).wf = false ∧ (Instr.fwBankProgrammed 0 true (image 4)).wf = true ∧
    (Instr.bootStageEnd (found 1 0)).wf = false ∧ (Instr.bootStageEnd (found 2 65536)).wf = false ∧ (Instr.bootStageEnd (found 2 65535)).wf = true := by
  decide +kernel
theorem test_wf_ranges :
    (Instr.hostMemoryRequest 0 { write := false, bar := .bar0, offset := 65536, len := 1, data := 0, relaxed := false, tag := 0 }).wf = false ∧
    (Instr.hostMemoryRequest 0 { write := false, bar := .bar2, offset := 4095, len := 2, data := 0, relaxed := false, tag := 0 }).wf = false ∧
    (Instr.hostMemoryRequest 0 { write := true, bar := .bar4, offset := 0, len := 1, data := 256, relaxed := false, tag := 0 }).wf = false ∧
    (Instr.hostAtomicop 0 { write := false, bar := .bar4, offset := 0, len := 0, data := 0, relaxed := false, tag := 0 } .swap64).wf = false ∧
    (Instr.phildofelRequest { dst := 0, src := 0, tagged := false, etype := 0, payload := { len := 9217, val := 0 } }).wf = false ∧
    (Instr.ptpMessage (.announce 0 0 (2 ^ 64))).wf = false ∧ (Instr.stackTempSample 0 151).wf = false ∧ (Instr.fieldTempSample 0 (-551)).wf = false ∧
    (Instr.launchAct 0 (2 ^ 32)).wf = false ∧
    (Instr.stackTrain 0 { supported := true, serial := 0, config := 0, actTiming := 0, rfmThreshold := 0, rfmReduce := 0, celsius := 151, verifies := true, failedPcs := 0, record := { len := 0, val := 0 } }).wf = false := by decide +kernel

/-! ### The opcode table spells no command by bits -/

theorem test_no_word : decodeTableWord 8 0 = none ∧ (up.withFetchWord 8 0) = up := ⟨rfl, rfl⟩

/-! ### The spec's worked examples and published values -/

/-- Chapter 01, the example of R16 and R21: port 37 of C5 is at node (21, 13), 14 hops from slice 286; SP43 is the spare nearest it. -/
theorem test_fields_example : portNode (64 * 5 + 37) = 21 + 32 * 13 ∧ nodeDist (portNode (64 * 5 + 37)) 286 = 14 ∧ spareNode 43 = 29 + 32 * 8 ∧
    nodeDist (portNode (64 * 5 + 37)) (spareNode 43) = 13 ∧ up.nearestSpare 286 = some 43 ∧ (up.wr D.SPARE_STATE 43 1).nearestSpare 286 = some 42 := by
  decide +kernel
/-- Chapter 02: SITE entry 5 of partition P3, 64 GiB of field F2. -/
theorem test_window_example : weShape .hn8f (0x2A0F + 0x240000 * 2 ^ 32 + 0x247FFF * 2 ^ 64) = 0 ∧ weDevice 0x2A0F = 0x02A ∧
    weLo (0x240000 * 2 ^ 32 + 0x247FFF * 2 ^ 64) = 0x48000000000 ∧ weHi (0x240000 * 2 ^ 32 + 0x247FFF * 2 ^ 64) = 0x48FFFFFFFFF := by decide +kernel
/-- Chapter 03, the example of R58: slice, offset, set and channel; chapter 06: bank and row. -/
theorem test_hash_example : locate .hn8f 0x12345678 = some (109, 0x48C78) ∧ lineSet 0x918 = 0x11A ∧ sliceChannel 109 = 32 * 1 + 29 ∧
    lineBank 0 0x918 = 0x13 ∧ lineRow 0 0x918 = 2 := by decide +kernel
/-- Chapter 06, the example of R171: donor 0x83F5 and the owner of M9.4. -/
theorem test_donor_example : dnValid 0x83F5 = true ∧ donorLo 0x83F5 = 0x57F00000000 ∧ donorHi 0x83F5 = 0x57F7FFFFFFF ∧ channelSlice (32 * 9 + 4) = 524 := by
  decide +kernel
/-- Chapter 04, "Example: one MXFP4 block": its sources, its bytes, its scale and tag, its flow counts, and the read back. -/
def mxSrc : List Nat :=
  [0x3F800000, 0xC00CCCCD, 0x41580000, 0xC0E00000, 0x00000000, 0x40A00000, 0xC1400000, 0x4119999A, 0x40466666, 0xBECCCCCD, 0x40C00000, 0xC08CCCCD,
   0x40000000, 0x41300000, 0xBFC00000, 0x41000000, 0xC1500000, 0x3F666666, 0x40800000, 0xC0D00000, 0x41200000, 0xC0400000, 0x40E66666, 0xC1100000,
   0x41466666, 0xBF4CCCCD, 0x3FCCCCCD, 0x40333333, 0xC0A00000, 0x4099999A, 0xC139999A, 0x40D33333]
def mxWrite (d : Nat) : Nat × Nat × Nat × FlowCnt × Rng := writeBlock d (mxSrc.map (decodeElem 0)) { x := 1, k := 0 }
def mxBytes : List Nat := [0x90, 0xC5, 0x20, 0x4D, 0x02, 0xA3, 0x51, 0x49, 0x0D, 0xB2, 0xA4, 0xC4, 0x05, 0x11, 0x2A, 0x3D]
theorem test_mxfp4_example : toByteList 16 (mxWrite 0x07004019).1 = mxBytes ∧ (mxWrite 0x07004019).2.1 = 0x81 ∧ (mxWrite 0x07004019).2.2.1 = 0 ∧
    (mxWrite 0x07004019).2.2.2.1.flags = 0x22 ∧ (mxWrite 0x07004019).2.2.2.1.raised = 1 ∧ (mxWrite 0x07004019).2.2.2.1.underflow = 4 ∧
    (mxWrite 0x07004019).2.2.2.1.clip = 0 ∧ (mxWrite 0x00000019).2.1 = 0x80 ∧ (mxWrite 0x00000019).2.2.1 = 1 ∧
    (mxWrite 0x00000019).2.2.2.1.clip = 3 := by decide +kernel
theorem test_mxfp4_read : (let x := (readBlock 0x07004019 0x81 (ofByteList mxBytes) 0 { x := 1, k := 0 }).1
    [2, 19, 30, 0].map (fun i => bytesOf x (4 * i) 4)) = [0x41400000, 0xC0C00000, 0xC1400000, 0] := by decide +kernel
/-- Chapter 08, the example of R216: offset −3,000 and delay 530. The example's times have the fixed delays removed; 19 ns stand before that in t2 and t4. -/
def exchange19 : State :=
  (((up.wr D.LINK_STATE 19 3).wr D.GATE_SOURCE 0 2).wr D.LINK_ASYM_USER 19 20).setTmx 19
    { Tmx.init with seq := 9, wait := true, t1 := some 10000000, t2 := 10003559, t4 := 10001539 }
theorem test_exchange_example :
    toSigned 32 ((after (.timexFollowUp 19 (tx 2 10004000)) exchange19).rd D.LINK_TIME_OFFSET 19) = -3000 ∧
    (after (.timexFollowUp 19 (tx 2 10004000)) exchange19).rd D.LINK_TIME_DELAY 19 = 530 := by decide +kernel
/-- Chapter 09: Table 9.2's figures and the example of R246. -/
theorem test_capacity_example : (up.wr D.STACK_BAND 9 0).chanCapacity 300 = 65620 ∧ up.chanCapacity 300 = 63240 ∧
    (up.wr D.STACK_BAND 9 2).chanCapacity 300 = 47430 ∧ (up.wr D.STACK_BAND 9 0).groupCapacity 9 = 2099840 ∧ scaleF 2000000 1960440 = 64239 ∧
    effG 900000 2000000 1960440 = 882198 ∧ effG 1100000 2000000 1960440 = 1078242 := by decide +kernel
/-- Chapter 10: the ADD of port 37, its four words; the operating points of C3. -/
def addHdr : Nat := 0x1E30A943 + 0x12344040 * 2 ^ 32 + 0x01B54000 * 2 ^ 64 + 2 ^ 96
theorem test_attach_example : addHdr % 64 = 3 ∧ mhTag addHdr = 0x2A5 ∧ mhClass addHdr = 12 ∧ mhPch addHdr = 1 ∧
    mhAddr addHdr = 0x01B54000123440 ∧ opSum (2 ^ 288 + 850 + 880 * 2 ^ 16 + 700 * 2 ^ 128 + 100 * 2 ^ 144) = 683000 := by decide +kernel
/-- Chapter 11, "Example: a link that trains narrow": the lanes chosen, the last step, and LINK_SCHED_LEAD. -/
def narrow : State := (((up.wr D.LINK_STATE 22 2).wr D.LINK_LANE_MASK 22 0x1B).setLnk 22 { Lnk.init with phase := 5, rxOk := 0xBB, full := true })
def narrowUp : State := after (.linkMeasureDone 22 { bers := List.replicate 8 0, flr := 0 }) narrow
theorem test_link_example : laneMask 0xBF = 0x0F ∧ laneMask 0xBB = 0x1B ∧ narrowUp.rd D.LINK_STATE 22 = 3 ∧ narrowUp.rd D.LINK_TRAINED_WIDTH 22 = 4 ∧
    narrowUp.rd D.LINK_CAPACITY 22 = 180000 := by decide +kernel
theorem test_lead_example :
    (((narrowUp.wr D.LINK_TIME_DELAY 22 260).wr D.GATE_SYNC_STATE 0 1).wr D.GATE_SOURCE 0 0 |>.setTmx 22
      { Tmx.init with known := true, state := 1, hops := 1, err := 12 }).schedLead 22 = 420 := by decide +kernel
/-- Chapter 12: the header of the example's WIN_INSTALL. -/
theorem test_host_example : hcOp 0x000002000001F3A0 = 0x20 ∧ hcPart 0 0x000002000001F3A0 = 3 ∧ hcGroup 0x000002000001F3A0 = 3 ∧
    hcIndex 0x000002000001F3A0 = 7 ∧ hcArg 0x000002000001F3A0 = 512 ∧ hcStatus 0 0x000002000001F3A0 0x20 = 0 := by decide +kernel
/-- Chapter 13, the signed request of the example: its operations end at byte 60. -/
def req60 : Nat :=
  ofByteList [0x01, 0x10, 0x07, 0x01, 0, 0, 2, 0, 0x2C, 0, 0, 0, 0, 0, 0, 0, 0xE2, 0x77, 0x30, 0x55, 0x1B, 0x0A, 0, 0, 2, 0, 0, 0, 0, 0x82, 9, 0, 1, 1, 0, 0, 0, 0, 0, 0,
    0x20, 0, 0, 0, 1, 0, 0, 0, 0x10, 0x82, 9, 0, 1, 0, 0, 0, 0, 0, 0, 0]
theorem test_phildofel_header : phTxn req60 = 0x0107 ∧ phSigned req60 = true ∧ phCtr req60 = 0x2C ∧ phSerial req60 = 0x0A1B553077E2 ∧
    parseMsg req60 173 = none := by decide +kernel
theorem test_phildofel_operations :
    (parseMsg req60 174).map (fun x => (x.2, x.1.map (fun o => [o.op, o.index, o.inst, o.sub, o.len, o.data]))) =
      some (60, [[2, 0x8200, 9, 1, 1, 32], [1, 0x8210, 9, 1, 0, 0]]) := by decide +kernel
/-- Chapter 14: the steps of the chairlift's example. -/
theorem test_chairlift_example : (up.wr D.FIELD_POWER 3 3).liftStep (.field 3) = 10000 ∧ (up.wr D.SLICE_POWER 784 3).liftStep (.slice 784) = 750 ∧
    up.liftStep (.channel 500) = 1500 ∧ up.rd D.CHAIRLIFT_SLEW 0 = 50 := by decide +kernel
/-- Chapter 15: slice 300 goes to SP10 where SP11 serves already; SLICE_HOME[300] = 0x0001_2909. -/
theorem test_adoption_example : (up.wr D.SPARE_STATE 11 1).nearestSpare 300 = some 10 ∧ homeOfSpare 10 = 0x12909 ∧ sliceChannel 300 = 32 * 5 + 12 := by
  decide +kernel
/-- FIPS 202: SHAKE256 of the empty string; RFC 8032, 7.4, "Blank": the public key of its secret key, and its signature. -/
def rfcSecret : Nat :=
  byteSwap 57 0x6c82a562cb808d10d632be89c8513ebf6c929f34ddfa8c9f63c9960ef6e348a3528c8a3fcc2f044e39a3fc5b94492f8f032e7549a20098f95b
def rfcPublic : Nat :=
  byteSwap 57 0x5fd7449b59b461fd2ce787ec616ad46a1da1342485a70e1f8a0ea75d80e96778edf124769b46c7061bd6783df1e50f6cd1fa1abeafe8256180
theorem test_shake256 : byteSwap 16 (shake256Of 16 0 0) = 0x46b9dd2b0ba88d13233b3feb743eeb24 := by decide +kernel
set_option maxRecDepth 1000000 in
theorem test_ed448_public : ed448Public rfcSecret = rfcPublic := by decide +kernel

end Sys2Proof.Tests
end

section
/-! SUPPORT. Every command answers a next state (R335, R351): one lemma for each shape of meaning, one for each meaning that looks at the data it finds. -/

namespace Sys2Proof.Machine

/-- The block goes on: the outcome is a next state, neither a fault nor a refusal. -/
def Answers (o : Host.Outcome State Fault Refusal) : Prop := ∃ t, o = .next t

theorem answers_next (t : State) : Answers (.next t) := ⟨t, rfl⟩

theorem answers_ite {c : Prop} [Decidable c] {a b : Host.Outcome State Fault Refusal} (ha : Answers a) (hb : Answers b) :
    Answers (if c then a else b) := by
  split <;> assumption

/-- The shape of most meanings: where a first condition decides, its state is answered at once; otherwise the rest of the meaning answers. -/
theorem answers_guard {c : Prop} [Decidable c] {t : State} {b : Host.Outcome State Fault Refusal} (hb : Answers b) :
    Answers (if c then .next t else b) := answers_ite (answers_next t) hb

/-! ### Meanings that look at the data they find -/

theorem execNtfSend_answers (i : Fin 512) (s : State) : Answers (execNtfSend i s) := by
  unfold execNtfSend
  extract_lets +onlyGivenNames x
  split
  · exact answers_next _
  · exact answers_guard (answers_next _)

theorem execVfDoneTimeout_answers (n : Fin 8) (s : State) : Answers (execVfDoneTimeout n s) := by
  unfold execVfDoneTimeout
  split <;> exact answers_next _

theorem execSidebandResend_answers (n : Fin 8) (s : State) : Answers (execSidebandResend n s) := by
  unfold execSidebandResend
  extract_lets +onlyGivenNames x
  split
  · exact answers_next _
  · exact answers_guard (answers_guard (answers_next _))

theorem execRailSettled_answers (n : Fin 8) (k : Fin 8) (s : State) : Answers (execRailSettled n k s) := by
  unfold execRailSettled
  split
  · exact answers_guard (answers_guard (answers_guard (answers_next _)))
  · exact answers_guard (answers_guard (answers_next _))
  · exact answers_guard (answers_next _)
  · exact answers_guard (answers_next _)
  · exact answers_next _

theorem execSiteSeqGapExpiry_answers (n : Fin 8) (s : State) : Answers (execSiteSeqGapExpiry n s) := by
  unfold execSiteSeqGapExpiry
  split <;> exact answers_next _

theorem execSiteFault_answers (n : Fin 8) (conditions : BitVec 4) (s : State) : Answers (execSiteFault n conditions s) := by
  unfold execSiteFault
  split
  · exact answers_next _
  · exact answers_guard (answers_next _)

theorem execRangePart_answers (rid : Nat) (s : State) : Answers (execRangePart rid s) := by
  unfold execRangePart
  split
  · exact answers_next _
  · exact answers_guard (answers_next _)

theorem execRangePartDone_answers (rid : Nat) (s : State) : Answers (execRangePartDone rid s) := by
  unfold execRangePartDone
  split
  · exact answers_next _
  · exact answers_guard (answers_guard (answers_next _))

theorem execSpareAdoptionSwitch_answers (n : Fin 1024) (s : State) : Answers (execSpareAdoptionSwitch n s) := by
  unfold execSpareAdoptionSwitch
  split <;> exact answers_next _

theorem execRetireWalkEnd_answers (n : Fin 1024) (s : State) : Answers (execRetireWalkEnd n s) := by
  unfold execRetireWalkEnd
  split
  · exact answers_next _
  · exact answers_guard (answers_next _)

theorem execReductionUnitApply_answers (n : Fin 1024) (s : State) : Answers (execReductionUnitApply n s) := by
  unfold execReductionUnitApply
  refine answers_guard ?_
  split
  · exact answers_next _
  · extract_lets +onlyGivenNames l
    clear_value l
    split
    · exact answers_next _
    · split
      · exact answers_next _
      · exact answers_guard (answers_guard (answers_guard (answers_next _)))

theorem execFaultStallExpiry_answers (rid : Nat) (s : State) : Answers (execFaultStallExpiry rid s) := by
  unfold execFaultStallExpiry
  split
  · exact answers_guard (answers_next _)
  · exact answers_next _

theorem execWithdrawalAck_answers (p : Fin 16) (s : State) : Answers (execWithdrawalAck p s) := by
  unfold execWithdrawalAck
  split
  · exact answers_guard (answers_next _)
  · exact answers_next _

theorem execDrainLimitExpiry_answers (p : Fin 16) (s : State) : Answers (execDrainLimitExpiry p s) := by
  unfold execDrainLimitExpiry
  split <;> exact answers_next _

theorem execRebindDrainExpiry_answers (x : Resource) (s : State) : Answers (execRebindDrainExpiry x s) := by
  unfold execRebindDrainExpiry
  split <;> exact answers_next _

theorem execRebindStampSwitch_answers (x : Resource) (s : State) : Answers (execRebindStampSwitch x s) := by
  unfold execRebindStampSwitch
  split
  · exact answers_next _
  · exact answers_guard (answers_next _)

theorem execDoorbell_answers (rid : Nat) (s : State) : Answers (execDoorbell rid s) := by
  unfold execDoorbell
  split
  · exact answers_next _
  · exact answers_guard (answers_next _)

theorem execDescriptorStart_answers (r : Fin 1048576) (s : State) : Answers (execDescriptorStart r s) := by
  unfold execDescriptorStart
  extract_lets +onlyGivenNames c x
  split
  · exact answers_next _
  · exact answers_guard (answers_next _)

theorem execTeRequestDone_answers (r : Fin 1048576) (s : State) : Answers (execTeRequestDone r s) := by
  unfold execTeRequestDone
  split
  · exact answers_next _
  · refine answers_ite ?_ ?_
    · split
      · exact answers_next _
      · refine answers_guard ?_
        split <;> exact answers_next _
    · refine answers_guard ?_
      split
      · exact answers_next _
      · split <;> exact answers_next _

theorem execDescriptorComplete_answers (r : Fin 1048576) (s : State) : Answers (execDescriptorComplete r s) := by
  unfold execDescriptorComplete
  split
  · exact answers_next _
  · split
    · exact answers_guard (answers_next _)
    · exact answers_next _

theorem execGateWaitDone_answers (r : Fin 1048576) (s : State) : Answers (execGateWaitDone r s) := by
  unfold execGateWaitDone
  split
  · exact answers_next _
  · exact answers_guard (answers_next _)

theorem execSweepLaunch_answers (p : Fin 16) (s : State) : Answers (execSweepLaunch p s) := by
  unfold execSweepLaunch
  split
  · exact answers_next _
  · exact answers_guard (answers_next _)

theorem execSweepSliceLine_answers (p : Fin 16) (n : Fin 1024) (s : State) : Answers (execSweepSliceLine p n s) := by
  unfold execSweepSliceLine
  split
  · exact answers_next _
  · split
    · exact answers_next _
    · refine answers_guard (answers_guard (answers_guard (answers_guard ?_)))
      split
      · exact answers_next _
      · refine answers_guard ?_
        split
        · exact answers_next _
        · split <;> exact answers_next _

theorem execSweepComplete_answers (p : Fin 16) (s : State) : Answers (execSweepComplete p s) := by
  unfold execSweepComplete
  split
  · exact answers_next _
  · exact answers_guard (answers_guard (answers_guard (answers_guard (answers_next _))))

theorem execSweepTimeoutExpiry_answers (p : Fin 16) (s : State) : Answers (execSweepTimeoutExpiry p s) := by
  unfold execSweepTimeoutExpiry
  split
  · exact answers_next _
  · exact answers_guard (answers_guard (answers_next _))

theorem execSweepProgressRefresh_answers (p : Fin 16) (s : State) : Answers (execSweepProgressRefresh p s) := by
  unfold execSweepProgressRefresh
  split <;> exact answers_next _

theorem execPseudoChannelIssue_answers (i : Fin 2048) (s : State) : Answers (execPseudoChannelIssue i s) := by
  unfold execPseudoChannelIssue
  refine answers_ite ?_ (answers_next _)
  split
  · exact answers_next _
  · exact answers_guard (answers_guard (answers_next _))

theorem execHbmReadReturn_answers (i : Fin 2048) (e : Ecc) (s : State) : Answers (execHbmReadReturn i e s) := by
  unfold execHbmReadReturn
  split <;> exact answers_next _

theorem execTimexFollowUp_answers (n : Fin 64) (m : BitVec 256) (s : State) : Answers (execTimexFollowUp n m s) := by
  unfold execTimexFollowUp
  extract_lets +onlyGivenNames x
  split
  · exact answers_guard (answers_next _)
  · exact answers_next _

theorem execLaunchWake_answers (id : Nat) (s : State) : Answers (execLaunchWake id s) := by
  unfold execLaunchWake
  split
  · exact answers_next _
  · exact answers_guard (answers_next _)

theorem execLaunchAct_answers (id : Nat) (lateNs : Nat) (s : State) : Answers (execLaunchAct id lateNs s) := by
  unfold execLaunchAct
  split
  · exact answers_next _
  · exact answers_guard (answers_next _)

theorem execLinkPhaseTimeout_answers (n : Fin 64) (s : State) : Answers (execLinkPhaseTimeout n s) := by
  unfold execLinkPhaseTimeout
  refine answers_guard (answers_guard ?_)
  split <;> exact answers_next _

theorem execHostMemoryRequest_answers (f : Fin 17) (q : HostReq) (s : State) : Answers (execHostMemoryRequest f q s) := by
  unfold execHostMemoryRequest
  refine answers_guard ?_
  split
  · exact answers_next _
  · exact answers_guard (answers_next _)

theorem execHostAtomicop_answers (f : Fin 17) (q : HostReq) (op : PcieAtomic) (s : State) : Answers (execHostAtomicop f q op s) := by
  unfold execHostAtomicop
  refine answers_guard ?_
  split <;> exact answers_next _

theorem execFaultRecordDeliver_answers (p : Fin 16) (s : State) : Answers (execFaultRecordDeliver p s) := by
  unfold execFaultRecordDeliver
  extract_lets +onlyGivenNames r
  split
  · exact answers_next _
  · exact answers_guard (answers_next _)

theorem execHostLinkTrained_answers (o : HostTrain) (s : State) : Answers (execHostLinkTrained o s) := by
  unfold execHostLinkTrained
  refine answers_guard ?_
  split
  · exact answers_next _
  · exact answers_guard (answers_next _)

theorem execCommitDone_answers (o : CommitOutcome) (s : State) : Answers (execCommitDone o s) := by
  unfold execCommitDone
  split
  · exact answers_next _
  · split <;> exact answers_next _

theorem execIdleTimeout_answers (u : PowerUnit) (sleep : Bool) (s : State) : Answers (execIdleTimeout u sleep s) := by
  unfold execIdleTimeout
  split <;> exact answers_next _

theorem execChairliftAdmit_answers (elapsedNs : Nat) (s : State) : Answers (execChairliftAdmit elapsedNs s) := by
  unfold execChairliftAdmit
  extract_lets +onlyGivenNames s
  split
  · exact answers_next _
  · exact answers_guard (answers_guard (answers_next _))

theorem execFieldTempSample_answers (f : Fin 8) (deciCelsius : Int) (s : State) : Answers (execFieldTempSample f deciCelsius s) := by
  unfold execFieldTempSample
  refine answers_guard ?_
  extract_lets +onlyGivenNames t x s
  split
  · exact answers_guard (answers_next _)
  · exact answers_next _

theorem execBootStageEnd_answers (o : StageOutcome) (s : State) : Answers (execBootStageEnd o s) := by
  unfold execBootStageEnd
  refine answers_guard ?_
  split <;> exact answers_next _

theorem execLapLoadDone_answers (s : State) : Answers (execLapLoadDone s) := by
  unfold execLapLoadDone
  split <;> exact answers_next _

theorem execLapTailStop_answers (s : State) : Answers (execLapTailStop s) := by
  unfold execLapTailStop
  split
  · exact answers_guard (answers_next _)
  · exact answers_next _

theorem execLapSwitchAtT_answers (s : State) : Answers (execLapSwitchAtT s) := by
  unfold execLapSwitchAtT
  split
  · split <;> exact answers_next _
  · exact answers_next _
  · exact answers_next _

theorem execLapUnloadAtT_answers (s : State) : Answers (execLapUnloadAtT s) := by
  unfold execLapUnloadAtT
  split <;> exact answers_next _

theorem execLapResumeAtT_answers (s : State) : Answers (execLapResumeAtT s) := by
  unfold execLapResumeAtT
  split
  · split <;> exact answers_next _
  · exact answers_next _

theorem execLapSuspend_answers (s : State) : Answers (execLapSuspend s) := by
  unfold execLapSuspend
  split
  · exact answers_next _
  · exact answers_guard (answers_next _)

theorem execGateStep_answers (s : State) : Answers (execGateStep s) := by
  unfold execGateStep
  split
  · exact answers_next _
  · exact answers_guard (answers_guard (answers_guard (answers_next _)))

theorem execPhilEventResend_answers (s : State) : Answers (execPhilEventResend s) := by
  unfold execPhilEventResend
  split
  · exact answers_next _
  · exact answers_guard (answers_guard (answers_next _))

theorem execFieldClockSettled_answers (s : State) : Answers (execFieldClockSettled s) := by
  unfold execFieldClockSettled
  split
  · exact answers_next _
  · exact answers_guard (answers_next _)

theorem execMoultUnitSwitch_answers (s : State) : Answers (execMoultUnitSwitch s) := by
  unfold execMoultUnitSwitch
  split
  · split <;> exact answers_next _
  · exact answers_next _

theorem execMoultReadyTimeout_answers (s : State) : Answers (execMoultReadyTimeout s) := by
  unfold execMoultReadyTimeout
  split
  · split <;> exact answers_next _
  · exact answers_next _

theorem execFaultLogWrite_answers (s : State) : Answers (execFaultLogWrite s) := by
  unfold execFaultLogWrite
  split <;> exact answers_next _

theorem execMoultReady_answers (s : State) : Answers (execMoultReady s) := by
  unfold execMoultReady
  split
  · split <;> exact answers_next _
  · exact answers_next _

theorem execLinkSnapDone_answers (s : State) : Answers (execLinkSnapDone s) := by
  unfold execLinkSnapDone
  split <;> exact answers_next _

theorem execRange_answers (src : CmdSrc) (s : State) : Answers (execRange src s) := by
  cases src with
  | attach | host | object => exact answers_next _
  | descriptor r =>
    simp only [execRange]
    split <;> exact answers_next _

/-- Every command, in every state, answers a next state. The arms are grouped by the shape of their meanings; an access of the
object dictionary is of the first (`State.odCmd`), for it answers a state whether it is dropped, waits or runs. -/
theorem exec_answers (c : Instr) (s : State) : Answers (exec c s) := by
  cases c with
  | read | write | atomic | prefetch | fmtRead | fmtWrite | scaledAcc | fence | attachPortReset | vfReq | vfDone | railQuery | portQuery | sitePower
  | siteOpp | sitePmax | siteRails | railVmin | railVmax | railDieCap | sliceRead | sliceWrite | sliceAtomic | slicePrefetch | formatOnRead
  | formatOnWrite | scaledAccumulate | lineFill | replayRetry | writebackIssued | writebackAck | atomicBusyClear | hotLineInterval | hotBufferApply
  | sliceFail | sliceRetire | tagPeekSelect | partEnable | partDomain | portPartition | tePartition | pfDataPartition | linkPartMask | srSeed
  | flowSnapshot | flowClear | engineFail | sweepAbort | sweepGroup | rowCloseTimeout | pdIdleExpiry | hbmSelfRefresh | channelRetire | lapLoad
  | lapSwitch | lapUnload | lapResume | routerFail | redFlagsClear | gateSource | memGuarantee | memGroupMask | linkGuarantee | linkMask
  | memEfficiency | linkEfficiency | classMissMin | classMissMax | linkPower | laneBitslip | linkRetrain | linkRoute | linkQuarantineEnd
  | linkSnapshot | vfEnable | phildofelRequest | eventAck | objectRead | objectWrite | readSeg | writeSeg | describe | storeCommit | storeDefaults
  | configLock | mgmtPubkey | powerOn | fieldClockReq | ckobsSelect | ckobsDiv | slicePowerMode | fieldPowerMode | powerLoss | fwMinSvn | moultCommand
  | defectAdd | resetSlice | resetField | resetPartition | deviceReset | linkHoldReset | attestNonce | faultOverflowClear | faultLogSelect
  | hbmRetrainDone | partnerRetraining | mgmtLinkChange | bwEstimateUpdate | pfFlr | stride | resetPinRelease =>
    exact answers_next _
  | attachNullFlit | attachResetTimer | attachTrainDone | attachTrainTimeout | attachParamTimeout | attachResetDrainEnd | sidebandAck | sdroopRelease
  | currentLimitHold | descriptorFetch | gatherWrite | scrubStep | initStep | readTimingCheck | selfRefreshExitDone | migrationUnitCopy | migrationEnd
  | syncWord | timexDue | timexRequest | timexReply | ptpMessage | launchFrame | launchResponse | launchCancelFrame | launchCancelAnswer
  | linkOffDrainEnd | linkPatternDone | linkEqDone | linkCaps | linkMeasureDone | linkLightLoss | linkRetryExpiry | linkIdleEntry | linkIdleExit
  | linkRetrainDone | linkAck | schedStart | linkRequest | linkRsp | linkRouteHoldExpiry | faultRingWrite | gateNow | vfFlr | clkForced | unitWakeDone
  | fwBankProgrammed | fieldCtrlFail | refresh | flowSnapDone | routeTableSwitch | upstreamLossTimeout | ptpSyncTimeout | holdoverLimitExpiry
  | hostLinkDown | storeDelayExpiry | xtalRestart | inputRecovered | attestReportReady =>
    exact answers_guard (answers_next _)
  | linkLockDone | laserLowDetect | linkBerInterval | mailboxRequest | pllRelockAttempt | resetPin | uttexWatchdog =>
    exact answers_guard (answers_guard (answers_next _))
  | attachParamFlit | railDroop | stackTempSample | xtalDelayExpiry =>
    exact answers_ite (answers_guard (answers_next _)) (answers_next _)
  | stackTrain | channelFail | linkBeacon | pllUnlock =>
    exact answers_guard (answers_guard (answers_guard (answers_next _)))
  | attachDataFlit =>
    exact answers_guard (answers_guard (answers_guard (answers_guard (answers_next _))))
  | linkFlit =>
    exact answers_guard (answers_ite (answers_guard (answers_guard (answers_next _))) (answers_next _))
  | linkTransmit =>
    exact answers_guard (answers_ite (answers_ite (answers_guard (answers_next _)) (answers_next _)) (answers_next _))
  | formatSet src | ringWrite src | ringRead src | sweep src | launch src | launchCancel src | gateRead src | winInstall src | winWithdraw src
  | faultDeny src =>
    cases src <;> exact answers_next _
  | range => exact execRange_answers ..
  | ntfSend => exact execNtfSend_answers ..
  | vfDoneTimeout => exact execVfDoneTimeout_answers ..
  | sidebandResend => exact execSidebandResend_answers ..
  | railSettled => exact execRailSettled_answers ..
  | siteSeqGapExpiry => exact execSiteSeqGapExpiry_answers ..
  | siteFault => exact execSiteFault_answers ..
  | rangePart => exact execRangePart_answers ..
  | rangePartDone => exact execRangePartDone_answers ..
  | spareAdoptionSwitch => exact execSpareAdoptionSwitch_answers ..
  | retireWalkEnd => exact execRetireWalkEnd_answers ..
  | reductionUnitApply => exact execReductionUnitApply_answers ..
  | faultStallExpiry => exact execFaultStallExpiry_answers ..
  | withdrawalAck => exact execWithdrawalAck_answers ..
  | drainLimitExpiry => exact execDrainLimitExpiry_answers ..
  | rebindDrainExpiry => exact execRebindDrainExpiry_answers ..
  | rebindStampSwitch => exact execRebindStampSwitch_answers ..
  | doorbell => exact execDoorbell_answers ..
  | descriptorStart => exact execDescriptorStart_answers ..
  | teRequestDone => exact execTeRequestDone_answers ..
  | descriptorComplete => exact execDescriptorComplete_answers ..
  | gateWaitDone => exact execGateWaitDone_answers ..
  | sweepLaunch => exact execSweepLaunch_answers ..
  | sweepSliceLine => exact execSweepSliceLine_answers ..
  | sweepComplete => exact execSweepComplete_answers ..
  | sweepTimeoutExpiry => exact execSweepTimeoutExpiry_answers ..
  | sweepProgressRefresh => exact execSweepProgressRefresh_answers ..
  | pseudoChannelIssue => exact execPseudoChannelIssue_answers ..
  | hbmReadReturn => exact execHbmReadReturn_answers ..
  | timexFollowUp => exact execTimexFollowUp_answers ..
  | launchWake => exact execLaunchWake_answers ..
  | launchAct => exact execLaunchAct_answers ..
  | linkPhaseTimeout => exact execLinkPhaseTimeout_answers ..
  | hostMemoryRequest => exact execHostMemoryRequest_answers ..
  | hostAtomicop => exact execHostAtomicop_answers ..
  | faultRecordDeliver => exact execFaultRecordDeliver_answers ..
  | hostLinkTrained => exact execHostLinkTrained_answers ..
  | commitDone => exact execCommitDone_answers ..
  | idleTimeout => exact execIdleTimeout_answers ..
  | chairliftAdmit => exact execChairliftAdmit_answers ..
  | fieldTempSample => exact execFieldTempSample_answers ..
  | bootStageEnd => exact execBootStageEnd_answers ..
  | lapLoadDone => exact execLapLoadDone_answers ..
  | lapTailStop => exact execLapTailStop_answers ..
  | lapSwitchAtT => exact execLapSwitchAtT_answers ..
  | lapUnloadAtT => exact execLapUnloadAtT_answers ..
  | lapResumeAtT => exact execLapResumeAtT_answers ..
  | lapSuspend => exact execLapSuspend_answers ..
  | gateStep => exact execGateStep_answers ..
  | philEventResend => exact execPhilEventResend_answers ..
  | fieldClockSettled => exact execFieldClockSettled_answers ..
  | moultUnitSwitch => exact execMoultUnitSwitch_answers ..
  | moultReadyTimeout => exact execMoultReadyTimeout_answers ..
  | faultLogWrite => exact execFaultLogWrite_answers ..
  | moultReady => exact execMoultReady_answers ..
  | linkSnapDone => exact execLinkSnapDone_answers ..

/-- Settles O3: with a command waiting the step is that command's meaning, with none the block goes on by itself. -/
theorem everyStepAnswersANextState : Obligations.EveryStepAnswersANextState := by
  unfold Obligations.EveryStepAnswersANextState
  intro s
  unfold step
  split
  · exact answers_next _
  · exact exec_answers _ _

/-- Settles O6: what every operation keeps, put together for a step (`step_keeps`), from the state with the front command taken. -/
theorem everyStepKeepsFusesQueueAndHistory : Obligations.EveryStepKeepsFusesQueueAndHistory := by
  unfold Obligations.EveryStepKeepsFusesQueueAndHistory
  intro s t h
  have k : Keeps { s with pending := s.pending.tail } t := step_keeps s t h
  exact ⟨k.variant, k.pending, k.out, k.free⟩

end Sys2Proof.Machine
end

section
/-! SUPPORT. What a data-path message of an attach port reads of its port is the same before and after its chunks are counted (R256, R260, R263). -/

namespace Sys2Proof.Machine

theorem received_attachReq (s : State) (i : Nat) (m : Msg) (kind : ReqKind) (len attr data : Nat) :
    (received s i m).attachReq i m kind len attr data = s.attachReq i m kind len attr data := rfl

theorem received_attachFmt (s : State) (i : Nat) (m : Msg) (acc : Bool) : (received s i m).attachFmt i m acc = s.attachFmt i m acc := rfl

theorem State.attachOp_runs {s : State} {i : Nat} {m : Msg} {op : Nat} (h : messageRuns s i m op = true) :
    s.attachOp i m op = (received s i m).attachData i m op := s.attachTake_runs i m op _ h

/-- Settles O17: a message that runs (`attachOp_runs`) does what `attachData` gives its operation, on the state with its chunks counted. -/
theorem attachMessagesEnter : Obligations.AttachMessagesEnter := by
  unfold Obligations.AttachMessagesEnter
  intro i m s
  have enters {op : Nat} {r : Req} (hdata : (received s i m).attachData i m op = (received s i m).enter r) (h : messageRuns s i m op = true) :
      (.next (s.attachOp i m op) : Host.Outcome State Fault Refusal) = .next ((received s i m).enter r) :=
    congrArg _ ((State.attachOp_runs h).trans hdata)
  refine ⟨enters rfl, enters rfl, enters rfl, enters rfl, enters rfl, fun h hfmt => enters ?_ h, fun h hfmt => enters ?_ h, enters rfl, enters rfl⟩
  all_goals simp only [State.attachData, received_attachFmt, hfmt, received_attachReq]

end Sys2Proof.Machine
end

section
/-! SUPPORT. The doorbell aperture in the local address map, and in the check of a local access (R24, R28). -/

namespace Sys2Proof.Machine

theorem regionOf_aperture (v : Variant) {a : Nat} (hlo : 0xF0000000000 ≤ a) (hhi : a < 0xF0004000000) :
    regionOf v a = .doorbell (a - 0xF0000000000) := by
  unfold regionOf
  rw [if_neg (by omega), if_neg (by omega), if_neg (by omega), if_neg (by omega), if_neg (by omega), if_pos hhi]

/-- Between the field views and the aperture, and above the aperture, nothing is mapped (Table 2.2). -/
theorem regionOf_around (v : Variant) {a : Nat} (hlo : 0x60000000000 ≤ a) (hout : a < 0xF0000000000 ∨ 0xF0004000000 ≤ a) : regionOf v a = .unmapped := by
  unfold regionOf
  rw [if_neg (by omega), if_neg (by omega), if_neg (by omega), if_neg (by omega)]
  rcases hout with h | h
  · rw [if_pos h]
  · rw [if_neg (by omega), if_neg (by omega)]

theorem absentView_above (v : Variant) {a : Nat} (h : 0x60000000000 ≤ a) : absentView v a = false := by
  unfold absentView
  by_cases hin : 0xF0000000000 ≤ a ∧ a < 0xF0004000000
  · rw [regionOf_aperture v hin.1 hin.2]
  · rw [regionOf_around v h (by omega)]

/-- Bytes that touch the aperture are mapped for a doorbell write of 8 bytes at the start of a ring's slot alone. -/
theorem mappedOk_aperture (v : Variant) {lo hi : Nat} (hle : lo ≤ hi) (hlen : hi < lo + 128)
    (ht : (0xF0000000000 ≤ lo ∧ lo < 0xF0004000000) ∨ (0xF0000000000 ≤ hi ∧ hi < 0xF0004000000)) (bell : Bool) :
    mappedOk v lo hi bell = true ↔ bell = true ∧ (∃ r, r < 1048576 ∧ lo = 0xF0000000000 + 64 * r) ∧ hi = lo + 7 := by
  unfold mappedOk
  by_cases hl : 0xF0000000000 ≤ lo ∧ lo < 0xF0004000000
  · rw [regionOf_aperture v hl.1 hl.2]
    by_cases hh : hi < 0xF0004000000
    · rw [regionOf_aperture v (by omega) hh]
      have hslot : (lo - 0xF0000000000) % 64 = 0 ↔ ∃ r, r < 1048576 ∧ lo = 0xF0000000000 + 64 * r :=
        ⟨fun h => ⟨(lo - 0xF0000000000) / 64, by omega, by omega⟩, fun ⟨r, _, hr⟩ => by omega⟩
      have hbytes : hi - lo = 7 ↔ hi = lo + 7 := by omega
      simp only [Bool.and_eq_true, beq_iff_eq, hslot, hbytes, and_assoc]
    · rw [regionOf_around v (by omega) (Or.inr (Nat.not_lt.mp hh))]
      refine iff_of_false Bool.false_ne_true ?_
      rintro ⟨-, ⟨r, hr, rfl⟩, hbytes⟩
      omega
  · rw [regionOf_around v (by omega) (by omega), regionOf_aperture v (by omega) (by omega)]
    refine iff_of_false Bool.false_ne_true ?_
    rintro ⟨-, ⟨r, hr, rfl⟩, -⟩
    omega

theorem State.preCheck_local {s : State} {p g src lo hi : Nat} {acc : Acc} (hlo : absentView s.variant lo = false) (hhi : absentView s.variant hi = false)
    (hp : s.partStatus p g src = 0) : s.preCheck p g src s.devNum lo hi acc =
      if mappedOk s.variant lo hi (acc == .doorbell) then none else some (.fail St.ADDRESS_UNMAPPED 0x22) := by
  cases hm : mappedOk s.variant lo hi (acc == .doorbell) <;> simp [State.preCheck, hlo, hhi, hp, hm]

theorem State.checkSpan_stops {s : State} {p g src dev lo hi : Nat} {acc : Acc} {c : ChkRes} (h : s.preCheck p g src dev lo hi acc = some c) :
    s.checkSpan p g src dev lo hi acc = c := by
  simp only [State.checkSpan, h]

/-- Settles O21: the view check passes near the aperture, so `mappedOk_aperture` decides. -/
theorem doorbellAperture : Obligations.DoorbellAperture := by
  unfold Obligations.DoorbellAperture
  intro s p g src lo hi acc hp hle hlen ht
  have hpre := State.preCheck_local (g := g) (src := src) (acc := acc) (absentView_above s.variant (a := lo) (by omega))
    (absentView_above s.variant (a := hi) (by omega)) hp
  have hmapped := mappedOk_aperture s.variant hle hlen ht (acc == .doorbell)
  rw [beq_iff_eq] at hmapped
  refine ⟨fun hacc hslot hbytes => ?_, fun hn => ?_, fun hlo hhi => ?_⟩
  · rw [hpre, if_pos (hmapped.mpr ⟨hacc, hslot, hbytes⟩)]
  · exact State.checkSpan_stops (hpre.trans (if_neg (mt hmapped.mp hn)))
  · rw [writeKind, regionOf_aperture s.variant hlo hhi]

end Sys2Proof.Machine
end

section
/-! SUPPORT. Window commands of a partition: the start of a drain, and each command's effect when its turn has come (R42 to R45, R49). -/

namespace Sys2Proof.Machine

theorem State.rd_storeTouch (s : State) {o : Obj} (h : objKey o ≠ objKey D.STORE_STATE) (i : Nat) : s.storeTouch.rd o i = s.rd o i :=
  s.storeTouch_spec.1 o i (by simp [h])

theorem State.rd_beginDrain_epoch (s : State) (p : Nat) (c : WCmd) (r : Reply) :
    (s.beginDrain p c r).rd D.WINDOW_EPOCH p = (s.rd D.WINDOW_EPOCH p + 1) % 2 ^ 32 := by
  simp [State.beginDrain]

theorem State.beginDrain_objs (s : State) (p : Nat) (c : WCmd) (r : Reply) : ObjsBut s (s.beginDrain p c r) [(objKey D.WINDOW_EPOCH, p)] :=
  ((ObjsBut.refl s _).wr (List.mem_singleton.mpr rfl) _).trans (ObjsBut.congr rfl rfl _)

theorem State.beginDrain_drain (s : State) (p : Nat) (c : WCmd) (r : Reply) :
    ((s.beginDrain p c r).part p).drain = some (c, r, s.rd D.WINDOW_EPOCH p) := by
  simp [State.beginDrain]

theorem narrows_of_not_valid {old : Nat} (h : weValid old = false) (new : Nat) : narrows old new = false := by simp [narrows, h]

/-- Behind a withdrawal that is not acknowledged yet, a command waits. -/
theorem State.wcmd_waits {s : State} {p : Nat} (h : (s.part p).drain.isSome = true) (c : WCmd) (r : Reply) :
    s.wcmd p c r = s.setPart p { s.part p with wcmds := (s.part p).wcmds ++ [(c, r)] } := if_pos h

theorem State.wcmd_starts {s : State} {p : Nat} (h : (s.part p).drain = none) (c : WCmd) (r : Reply) : s.wcmd p c r = s.wcmdStart p c r :=
  if_neg (by simp [h])

/-- The bit of a link's mask is cleared for the partition, and its epoch advances (R49). -/
theorem State.wcmdStart_linkMask (s : State) (p n : Nat) (r : Reply) :
    (s.wcmdStart p (.linkMask n) r).rd D.LINK_PART_MASK n = setBit (s.rd D.LINK_PART_MASK n) p false ∧
      (s.wcmdStart p (.linkMask n) r).rd D.WINDOW_EPOCH p = (s.rd D.WINDOW_EPOCH p + 1) % 2 ^ 32 := by
  have hme : objKey D.LINK_PART_MASK ≠ objKey D.WINDOW_EPOCH := by decide
  constructor
  · rw [State.wcmdStart, State.beginDrain_objs _ _ _ _ _ _ (by simp [hme]), State.rd_storeTouch _ (by decide), State.rd_wr_same]
  · rw [State.wcmdStart, State.rd_beginDrain_epoch, State.rd_storeTouch _ (by decide), State.rd_wr_key _ hme.symm]

/-- Settles O25: a command waits (`wcmd_waits`) or starts (`wcmd_starts`), and each clause is the branch of `wcmdStart` that its hypotheses pick. -/
theorem windowCommandsInOrder : Obligations.WindowCommandsInOrder := by
  unfold Obligations.WindowCommandsInOrder
  intro p g w e fid n c r s
  refine ⟨fun h => State.wcmd_waits h c r, fun h hn => ?_, fun h hn => ?_, fun h hv => ?_, fun h hv => ?_, fun h hm => ?_, fun h hm => ?_,
    fun h hw => ?_, fun h hw => ?_, fun h => ?_,
    ⟨s.rd_beginDrain_epoch p c r, s.beginDrain_drain p c r, s.beginDrain_objs p c r⟩, fun hv => narrows_of_not_valid hv e⟩
  case refine_9 => exact ⟨_, rfl, by rw [State.wcmd_starts h]; exact s.wcmdStart_linkMask p n r⟩
  all_goals rw [State.wcmd_starts h, State.wcmdStart]
  · exact if_neg (by simp [hn])
  · exact if_pos hn
  · exact if_pos hv
  · exact if_neg (by simp [hv])
  · exact if_neg (by simp [hm])
  · exact if_pos hm
  · exact if_pos (by simp [hw])
  · exact if_neg (by simpa using hw)

end Sys2Proof.Machine
end

section
/-! SUPPORT. Re-binding a resource to another partition (R48, R50, R135). -/

namespace Sys2Proof.Machine

section Write

variable {s : State} {x : Resource} {w : OdWrite}

theorem objKey_resObj_ne_storeState : ∀ x : Resource, objKey (resObj x) ≠ objKey D.STORE_STATE
  | .port _ => (by decide : objKey D.PORT_PARTITION ≠ objKey D.STORE_STATE)
  | .te _ => (by decide : objKey D.TE_PARTITION ≠ objKey D.STORE_STATE)
  | .pf => (by decide : objKey D.PF_DATA_PARTITION ≠ objKey D.STORE_STATE)

/-- Step 1 of Table 2.9 refuses a resource whose re-binding has not completed (R50). -/
theorem State.ownRebind_busy (h : s.rebinds.any (fun b => b.res == x) = true) : s.ownRebind x w = s.odFail St.PART_BUSY := if_pos h

theorem State.ownRebind_same (h : s.rebinds.any (fun b => b.res == x) = false) (hv : odNum w = s.rd (resObj x) (resSource x)) :
    s.ownRebind x w = s.odSet (resObj x) (resSource x) w := by
  simp only [State.ownRebind, h, Bool.false_eq_true, if_false, if_pos hv]

theorem State.ownRebind_new (h : s.rebinds.any (fun b => b.res == x) = false) (hv : odNum w ≠ s.rd (resObj x) (resSource x)) :
    s.ownRebind x w = ({ s.odHold with rebinds := s.rebinds ++ [{ res := x, old := s.rd (resObj x) (resSource x), new := odNum w, drained := false }] } :
      State).faultAll (s.rd (resObj x) (resSource x)) (ofResource x (s.rd (resObj x) (resSource x))) := by
  simp only [State.ownRebind, h, Bool.false_eq_true, if_false, if_neg hv]

variable {c : Instr} (ht : s.takes (resObj x) (resSource x) w = true)
  (hc : exec c s = s.odCmd c (fun t => t.odWrite (resObj x) (resSource x) w (fun u => u.ownRebind x w)))
include ht hc

/-- A write of a binding object that its controller takes runs the rules of re-binding. -/
theorem exec_rebind : exec c s = .next (s.ownRebind x w) := hc.trans (State.odCmd_takes ht c _)

theorem exec_rebind_busy (h : s.rebinds.any (fun b => b.res == x) = true) : ∃ t, exec c s = .next t ∧ Refuses s t St.PART_BUSY :=
  takes_refuses ht ((exec_rebind ht hc).trans (congrArg _ (State.ownRebind_busy h))) (by decide)

theorem exec_rebind_free (h : s.rebinds.any (fun b => b.res == x) = false) :
    (odNum w = s.rd (resObj x) (resSource x) → ∃ t, exec c s = .next t ∧ Sets s t (resObj x) (resSource x) (odNum w)) ∧
    (odNum w ≠ s.rd (resObj x) (resSource x) → exec c s = .next
      (({ s.odHold with rebinds := s.rebinds ++ [{ res := x, old := s.rd (resObj x) (resSource x), new := odNum w, drained := false }] } :
        State).faultAll (s.rd (resObj x) (resSource x)) (ofResource x (s.rd (resObj x) (resSource x))))) :=
  ⟨fun hv => takes_sets ht ((exec_rebind ht hc).trans (congrArg _ (State.ownRebind_same h hv))) (objKey_resObj_ne_storeState x),
   fun hv => (exec_rebind ht hc).trans (congrArg _ (State.ownRebind_new h hv))⟩

end Write

/-- The state with the rings of an engine's old partition stopped (R135); the other resources have no rings. -/
def State.resRingStop (s : State) (x : Resource) (old : Nat) : State :=
  match x with
  | .te t => s.ringStopAll (fun c => rcEngine c == t.val && rcPart c == old) St.RING_DENIED
  | _ => s

theorem State.resRingStop_of_ne_te (s : State) {x : Resource} (hx : ∀ n, x ≠ .te n) (old : Nat) : s.resRingStop x old = s := by
  cases x with
  | port i => rfl
  | te n => exact absurd rfl (hx n)
  | pf => rfl

section Steps

variable {s : State} {x : Resource} {b : Rebind} (hb : s.rebinds.find? (fun c => c.res == x) = some b)
include hb

/-- Step 3 of Table 2.9 at its limit. -/
theorem exec_rebindDrainExpiry : exec (.rebindDrainExpiry x) s = .next { s.revoke b.old (s.resInFlight x b.old) with
    rebinds := (s.revoke b.old (s.resInFlight x b.old)).rebinds.map (fun c => if c.res == x then { c with drained := true } else c) } := by
  show execRebindDrainExpiry x s = _
  simp only [execRebindDrainExpiry, hb]

/-- Steps 4 and 5 of Table 2.9, once the drain is over. -/
theorem exec_rebindStampSwitch (hd : b.drained = true ∨ s.resInFlight x b.old = []) : exec (.rebindStampSwitch x) s = .next
    ((((({ s.resRingStop x b.old with rebinds := (s.resRingStop x b.old).rebinds.filter (fun c => c.res != x) } : State).wr (resObj x) (resSource x)
      b.new).storeTouch).restamp x b.old b.new).odDone) := by
  have hover : (!b.drained && !(s.resInFlight x b.old).isEmpty) = false := by rcases hd with h | h <;> simp [h]
  show execRebindStampSwitch x s = _
  simp only [execRebindStampSwitch, hb, hover, Bool.false_eq_true, if_false]
  cases x <;> rfl

end Steps

/-- Settles O27: each of the three writes runs the rules of re-binding, whose first refuses it. -/
theorem rebindingAgainIsBusy : Obligations.RebindingAgainIsBusy := by
  unfold Obligations.RebindingAgainIsBusy
  exact ⟨fun i _ _ ht h => exec_rebind_busy (x := .port i) ht rfl h, fun i _ _ ht h => exec_rebind_busy (x := .te i) ht rfl h,
    fun _ _ ht h => exec_rebind_busy (x := .pf) ht rfl h⟩

/-- Settles O28: the three writes are `exec_rebind_free` for their resource, and the later steps one lemma each. -/
theorem rebindingSteps : Obligations.RebindingSteps := by
  unfold Obligations.RebindingSteps
  refine ⟨fun i _ _ ht h => exec_rebind_free (x := .port i) ht rfl h, fun i _ _ ht h => exec_rebind_free (x := .te i) ht rfl h,
    fun _ _ ht h => exec_rebind_free (x := .pf) ht rfl h, fun x b s hb => ⟨_, rfl, exec_rebindDrainExpiry hb⟩, fun x b s hb hd hx => ?_,
    fun n b s hb hd => ⟨_, rfl, exec_rebindStampSwitch hb hd⟩⟩
  have h := exec_rebindStampSwitch hb hd
  rwa [s.resRingStop_of_ne_te hx] at h

end Sys2Proof.Machine
end

section
/-! SUPPORT. What a doorbell write does to its ring (R28, R128). -/

namespace Sys2Proof.Machine

@[simp] theorem State.ringCtx_setCtx (s : State) (r v : Nat) : (s.setCtx r v).ringCtx r = v := State.rd_wr_same ..

section Doorbell

variable {s : State} {r p v : Nat}

theorem State.doorbell_disabled (h : rcEnable (s.ringCtx r) = false) : s.doorbell r p v = (St.RING_DISABLED, s) := by
  simp [State.doorbell, h]

theorem State.doorbell_denied (he : rcEnable (s.ringCtx r) = true) (hp : p ≠ rcPart (s.ringCtx r)) : s.doorbell r p v = (St.RING_DENIED, s) := by
  simp [State.doorbell, he, hp]

/-- For a ring that its partition may ring, the value alone decides: it fits in 32 bits, and the new TAIL lies between the old TAIL and HEAD plus the
ring's size. -/
theorem State.doorbell_enabled (he : rcEnable (s.ringCtx r) = true) (hp : p = rcPart (s.ringCtx r)) : s.doorbell r p v =
    if ((rcTail (s.ringCtx r) + 2 ^ 32 - rcHead (s.ringCtx r)) % 2 ^ 32 ≤ (v % 2 ^ 32 + 2 ^ 32 - rcHead (s.ringCtx r)) % 2 ^ 32 ∧
      (v % 2 ^ 32 + 2 ^ 32 - rcHead (s.ringCtx r)) % 2 ^ 32 ≤ 2 ^ rcSize (s.ringCtx r)) ∧ v / 2 ^ 32 = 0
    then (0, s.setCtx r (setBits (s.ringCtx r) 255 224 (v % 2 ^ 32))) else (St.RING_TAIL_BAD, s) := by
  simp only [State.doorbell, he, hp, Bool.not_true, Bool.false_eq_true, if_false, bne_self_eq_false, Bool.and_eq_true, decide_eq_true_eq, beq_iff_eq]

theorem exec_doorbell {rid : Nat} {q : Req} (hq : s.req? rid = some q) (hk : q.kind = .doorbell) (hs : q.stage = .slice) :
    exec (.doorbell rid) s = .next ((s.doorbell (ringOfAddr q.addr) q.part q.data).2.complete rid
      (s.doorbell (ringOfAddr q.addr) q.part q.data).1 0 0) := by
  show execDoorbell rid s = _
  simp [execDoorbell, hq, hk, hs]

end Doorbell

/-- Settles O33: the command completes with what `State.doorbell` answers, whose checks are taken in their order. -/
theorem doorbellOutcomes : Obligations.DoorbellOutcomes := by
  unfold Obligations.DoorbellOutcomes
  refine ⟨fun rid r s hr hk hs => exec_doorbell hr hk hs, fun r p v s =>
    ⟨State.doorbell_disabled, State.doorbell_denied, fun he hp hv hsize htail => ?_, fun he hp hbad => ?_⟩⟩
  · have hmod : v % 2 ^ 32 = v := Nat.mod_eq_of_lt hv
    have hring := State.doorbell_enabled (v := v) he hp
    rw [hmod, if_pos ⟨⟨htail, hsize⟩, Nat.div_eq_of_lt hv⟩] at hring
    rw [hring]
    exact ⟨rfl, State.ringCtx_setCtx ..⟩
  · rw [State.doorbell_enabled he hp, if_neg]
    rintro ⟨⟨htail, hsize⟩, hupper⟩
    rcases hbad with h | h | h
    · omega
    · exact absurd hsize (Nat.not_le.mpr h)
    · exact absurd htail (Nat.not_le.mpr h)

end Sys2Proof.Machine
end

section
/-! SUPPORT. Reading a byte after bytes have been replaced, and the effect of each kind of request on the bytes of its lines (R66, R67, R101, R108,
R115 to R117). -/

namespace Sys2Proof.Machine

section Bytes

variable (u v off n : Nat)

/-- Replacing a field keeps what lies below it and above it. -/
theorem setBytes_eq : setBytes u off n v =
    2 ^ (8 * off) * (2 ^ (8 * n) * (u / 2 ^ (8 * off) / 2 ^ (8 * n)) + v % 2 ^ (8 * n)) + u % 2 ^ (8 * off) := by
  have hu := Nat.div_add_mod u (2 ^ (8 * off))
  have hq := Nat.div_add_mod (u / 2 ^ (8 * off)) (2 ^ (8 * n))
  simp only [setBytes, bytesOf, Nat.shiftRight_eq_div_pow]
  generalize 2 ^ (8 * off) = a at *
  generalize 2 ^ (8 * n) = m at *
  have hsub : u - u / a % m * a = a * (m * (u / a / m)) + u % a := by
    apply Nat.sub_eq_of_eq_add
    calc u = a * (u / a) + u % a := hu.symm
      _ = a * (m * (u / a / m) + u / a % m) + u % a := by rw [hq]
      _ = a * (m * (u / a / m)) + u % a + u / a % m * a := by ring
  rw [hsub]
  ring

theorem testBit_setBytes (i : Nat) :
    (setBytes u off n v).testBit i = if 8 * off ≤ i ∧ i < 8 * (off + n) then v.testBit (i - 8 * off) else u.testBit i := by
  rw [setBytes_eq, Nat.testBit_two_pow_mul_add _ (Nat.mod_lt _ (Nat.two_pow_pos _))]
  by_cases hlo : i < 8 * off
  · rw [if_pos hlo, if_neg (by omega), Nat.testBit_mod_two_pow]
    simp [hlo]
  · rw [if_neg hlo, Nat.testBit_two_pow_mul_add _ (Nat.mod_lt _ (Nat.two_pow_pos _))]
    by_cases hhi : i - 8 * off < 8 * n
    · rw [if_pos hhi, if_pos (by omega), Nat.testBit_mod_two_pow]
      simp [hhi]
    · rw [if_neg hhi, if_neg (by omega), Nat.testBit_div_two_pow, Nat.testBit_div_two_pow]
      congr 1
      omega

theorem testBit_bytesOf_one (b j : Nat) : (bytesOf u b 1).testBit j = (decide (j < 8) && u.testBit (8 * b + j)) := by
  rw [bytesOf, Nat.testBit_mod_two_pow, Nat.testBit_shiftRight]

/-- The replaced bytes are those of the new value; every other byte stays. -/
theorem bytesOf_setBytes_one (b : Nat) :
    bytesOf (setBytes u off n v) b 1 = if off ≤ b ∧ b < off + n then v / 256 ^ (b - off) % 256 else bytesOf u b 1 := by
  apply Nat.eq_of_testBit_eq
  intro j
  rw [testBit_bytesOf_one, testBit_setBytes]
  by_cases hj : j < 8
  · by_cases hb : off ≤ b ∧ b < off + n
    · rw [if_pos hb, if_pos (by omega), show (256 : Nat) = 2 ^ 8 from rfl, ← pow_mul, Nat.testBit_mod_two_pow, Nat.testBit_div_two_pow]
      congr 2
      omega
    · rw [if_neg hb, if_neg (by omega), testBit_bytesOf_one]
  · by_cases hb : off ≤ b ∧ b < off + n
    · rw [if_pos hb, show (256 : Nat) = 2 ^ 8 from rfl, Nat.testBit_mod_two_pow]
      simp [hj]
    · rw [if_neg hb, testBit_bytesOf_one]
      simp [hj]

end Bytes

/-! ### The effect of each kind of request -/

section Effects

variable {s : State} {k n u pois : Nat} {r : Req} {pl : Plan}

/-- The answer to a request that poison turns away: nothing has changed. -/
def Eff.poisoned (u pois : Nat) : Eff := { u := u, pois := pois, st := St.POISONED, rlen := 0, rdata := 0, changed := false }

theorem State.eff_read (h : r.kind = .read) : s.eff k n r pl u pois =
    if pois &&& pl.need ≠ 0 then (Eff.poisoned u pois, s)
    else ({ u := u, pois := pois, st := 0, rlen := r.len, rdata := bytesOf u pl.off r.len, changed := false }, s) := by
  simp only [State.eff, h, bne_iff_ne, Eff.poisoned]

theorem State.eff_write (h : r.kind = .write) : s.eff k n r pl u pois =
    ({ u := setBytes u pl.off r.len r.data,
       pois := (markPoison r 2 pl.wm (writePoison 2 pl.wm pois).1 (writePoison 2 pl.wm pois).2).1,
       st := (markPoison r 2 pl.wm (writePoison 2 pl.wm pois).1 (writePoison 2 pl.wm pois).2).2, rlen := 0, rdata := 0, changed := true }, s) := by
  simp only [State.eff, h]

theorem State.eff_atomic (h : r.kind = .atomic) : s.eff k n r pl u pois =
    if pois &&& pl.need ≠ 0 then (Eff.poisoned u pois, s)
    else ({ u := atApply (r.len / atWidth (atTy r.attr)) (atOp r.attr) (atTy r.attr) pl.off r.data u, pois := pois, st := 0,
            rlen := atRspLen r.attr r.len, rdata := bytesOf u pl.off r.len, changed := true }, s.count D.ATOMIC_OPS n 1) := by
  simp only [State.eff, h, bne_iff_ne, Eff.poisoned]

theorem State.eff_fmtRead_poisoned (h : r.kind = .fmtRead) (hp : pois &&& pl.need ≠ 0) : s.eff k n r pl u pois = (Eff.poisoned u pois, s) := by
  simp only [State.eff, h, bne_iff_ne, if_pos hp, Eff.poisoned]

theorem State.eff_scaledAcc_poisoned (h : r.kind = .scaledAcc) (hp : pois ≠ 0 ∨ r.poison = true) :
    s.eff k n r pl u pois = (Eff.poisoned u pois, s) := by
  simp only [State.eff, h, Bool.or_eq_true, bne_iff_ne, if_pos hp, Eff.poisoned]

end Effects

/-- Settles O37: the effect of each kind is one lemma, and a write's bytes are those of `bytesOf_setBytes_one`. -/
theorem requestEffects : Obligations.RequestEffects := by
  unfold Obligations.RequestEffects
  refine ⟨fun k n u pois r pl s hk => ⟨fun hp => ?_, fun hp => ?_⟩, fun k n u pois b r pl s hk => ?_,
    fun k n u pois r pl s hk => ⟨fun hp => ?_, fun hp => ?_⟩, fun k n u pois r pl s hk hp => State.eff_fmtRead_poisoned hk hp,
    fun k n u pois r pl s hk hp => State.eff_scaledAcc_poisoned hk hp⟩
  · exact (State.eff_read hk).trans (if_pos hp)
  · exact (State.eff_read hk).trans (if_neg (not_not.mpr hp))
  · rw [State.eff_write hk]
    exact ⟨rfl, rfl, bytesOf_setBytes_one u r.data pl.off r.len b⟩
  · exact (State.eff_atomic hk).trans (if_pos hp)
  · exact (State.eff_atomic hk).trans (if_neg (not_not.mpr hp))

end Sys2Proof.Machine
end

section
/-! SUPPORT. The commands of a slice's queues, for a logical slice that one physical slice serves (R68, R70, R82, R83, R119, R122, R123). -/

namespace Sys2Proof.Machine

section Queues

variable {s : State} {n : Fin 1024} {k : Nat} (hk : s.keysOf n = [k])
include hk

/-- A slice command does its work at each physical slice that may be meant; here it is one. -/
theorem State.foldl_keysOf_one (f : State → Nat → State) : (s.keysOf n).foldl f s = f s k := by rw [hk]; rfl

theorem exec_lineFill {line : Nat} {m : MissReg} (hm : (s.cache k).miss.find? (fun m => m.line == line && m.want &&& (3 - m.have_) == 0) = some m) :
    exec (.lineFill n line) s = .next (s.fill { key := k, n := n, src := m.src, dist := m.dist, line := line } m) := by
  show execLineFill n line s = _
  simp only [execLineFill, State.foldl_keysOf_one hk, hm]

theorem exec_replayRetry : exec (.replayRetry n) s =
    .next ((s.setCache k { s.cache k with replay := [] }).againAll ((s.cache k).replay.map (fun r => [r]))) :=
  congrArg _ (State.foldl_keysOf_one hk _)

theorem exec_writebackIssued {line : Nat} {v : Victim}
    (hv : (s.cache k).victims.find? (fun v => v.line.line == line && !v.issued && !v.line.abusy) = some v)
    (hroom : s.wrRoom { key := k, n := n, src := v.line.src, dist := v.line.dist, line := line } v.line.cls = true) :
    exec (.writebackIssued n line) s = .next ((s.setCache k (victimPut (s.cache k) { v with issued := true })).issueWrite
      { key := k, n := n, src := v.line.src, dist := v.line.dist, line := line } v.line) := by
  show execWritebackIssued n line s = _
  simp only [execWritebackIssued, State.foldl_keysOf_one hk, hv, hroom, if_true]

theorem exec_writebackAck {line : Nat} {v : Victim} (hv : (s.cache k).victims.find? (fun v => v.line.line == line && v.issued) = some v) :
    exec (.writebackAck n line) s =
      .next ((s.setCache k (victimDrop (s.cache k) line v.line.src v.line.dist)).againAll (v.waiters.map (fun r => [r]))) := by
  show execWritebackAck n line s = _
  simp only [execWritebackAck, State.foldl_keysOf_one hk, hv]

/-- The atomic's line has left the arrays: its victim entry is no longer busy, and what waited on it goes on. -/
theorem exec_atomicBusyClear_victim {line : Nat} {v : Victim}
    (hl : ((s.cache k).tags.filterMap (fun e => e.2)).find? (fun l => l.line == line && l.abusy) = none)
    (hv : (s.cache k).victims.find? (fun v => v.line.line == line && v.line.abusy) = some v) :
    exec (.atomicBusyClear n line) s =
      .next ((s.setCache k (victimPut (s.cache k) { v with line := { v.line with abusy := false }, waiters := [] })).againAll
        (v.waiters.map (fun r => [r]))) := by
  show execAtomicBusyClear n line s = _
  simp only [execAtomicBusyClear, State.foldl_keysOf_one hk, hl, hv]

/-- The atomic's line is in the arrays: it is no longer busy, and the entries that waited for it leave the queue and go on. -/
theorem exec_atomicBusyClear_line {line : Nat} {ln : Line} {p : Loc} {t : State}
    (hl : ((s.cache k).tags.filterMap (fun e => e.2)).find? (fun l => l.line == line && l.abusy) = some ln)
    (hp : p = { key := k, n := n, src := ln.src, dist := ln.dist, line := line }) (ht : t = s.putLine p { ln with abusy := false }) :
    exec (.atomicBusyClear n line) s = .next ((t.setCache k { t.cache k with
        busyQ := (t.cache k).busyQ.filter (fun g => !((s.cache k).busyQ.filter (s.waitsOn p)).contains g) }).againAll
      ((s.cache k).busyQ.filter (s.waitsOn p))) := by
  subst ht hp
  show execAtomicBusyClear n line s = _
  simp only [execAtomicBusyClear, State.foldl_keysOf_one hk, hl]

theorem exec_hotLineInterval : exec (.hotLineInterval n) s = .next ((s.setCache k { s.cache k with
    hotCounts := [], hot := ((s.cache k).hot.filter (fun e => decide (1 < e.2))).map (fun e => (e.1, e.2 - 1)) }).enforce D.HOT_LINE_THRESHOLD 0) :=
  congrArg (fun t => Host.Outcome.next (State.enforce t D.HOT_LINE_THRESHOLD 0)) (State.foldl_keysOf_one hk _)

theorem exec_hotBufferApply {line : Nat} {b : HotBuf} (hb : (s.cache k).hotBufs.find? (fun b => b.line == line) = some b) :
    exec (.hotBufferApply n line) s = .next (s.applyHot { key := k, n := n, src := b.src, dist := b.dist, line := line }) := by
  show execHotBufferApply n line s = _
  simp only [execHotBufferApply, State.foldl_keysOf_one hk, hb]

end Queues

/-- Settles O38: one lemma per command, each at the one physical slice. -/
theorem sliceQueues : Obligations.SliceQueues := by
  unfold Obligations.SliceQueues
  intro n k s hk
  exact ⟨fun _ _ hm => exec_lineFill hk hm, exec_replayRetry hk, fun _ _ hv hroom => exec_writebackIssued hk hv hroom,
    fun _ _ hv => exec_writebackAck hk hv, fun _ _ hl hv => exec_atomicBusyClear_victim hk hl hv,
    fun _ _ hl => ⟨_, _, rfl, rfl, exec_atomicBusyClear_line hk hl rfl rfl⟩, exec_hotLineInterval hk, fun _ _ hb => exec_hotBufferApply hk hb⟩

end Sys2Proof.Machine
end

section
/-! SUPPORT. Power states of slices and fields, the chairlift, a field's temperature, power loss and the reset pin (R78, R373 to R383, R407, R438). -/

namespace Sys2Proof.Machine

/-! ### SLICE_POWER_MODE and FIELD_POWER_MODE -/

section Modes

variable {s : State} {w : OdWrite}

theorem exec_slicePowerMode {n : Fin 1024} (ht : s.takes D.SLICE_POWER_MODE n w = true) :
    exec (.slicePowerMode n w) s = .next (s.ownSliceMode n w) := State.odCmd_takes ht _ _

theorem State.ownSliceMode_held {n : Nat} (hw : odNum w = 3) (hl : s.sliceLocked n = true) : s.ownSliceMode n w = s.odFail St.PIN_HELD := by
  simp [State.ownSliceMode, hw, hl]

theorem State.ownSliceMode_set {n : Nat} (h1 : odNum w ≠ 1) (h3 : odNum w ≠ 3 ∨ s.sliceLocked n = false) :
    s.ownSliceMode n w = s.odSet D.SLICE_POWER_MODE n w := by
  have hfree : (decide (odNum w = 3) && s.sliceLocked n) = false := by rcases h3 with h | h <;> simp [h]
  simp [State.ownSliceMode, hfree, h1]

theorem State.ownSliceMode_run {n : Nat} (h1 : odNum w = 1) (hp : s.has .slice n = true) (hh : s.isHole n = false) :
    s.ownSliceMode n w = (s.sliceUp n).1.odSet D.SLICE_POWER_MODE n w := by
  simp [State.ownSliceMode, h1, hp, hh]

theorem exec_fieldPowerMode {f : Fin 8} (ht : s.takes D.FIELD_POWER_MODE f w = true) :
    exec (.fieldPowerMode f w) s = .next (s.ownFieldMode f w) := State.odCmd_takes ht _ _

theorem State.ownFieldMode_free {f : Nat} (h0 : odNum w = 0) : s.ownFieldMode f w = s.odSet D.FIELD_POWER_MODE f w := by
  simp [State.ownFieldMode, h0]

theorem State.ownFieldMode_run {f : Nat} (h1 : odNum w = 1) : s.ownFieldMode f w = (s.fieldUp f).1.odSet D.FIELD_POWER_MODE f w := by
  simp [State.ownFieldMode, h1]

theorem State.ownFieldMode_barred {f : Nat} (h2 : 2 ≤ odNum w) (hd : s.fieldDepth f (odNum w) = none) :
    s.ownFieldMode f w = s.odFail St.GATE_BUSY := by
  simp only [State.ownFieldMode, if_neg (Nat.not_lt.mpr h2), hd]

theorem State.ownFieldMode_deeper {f d : Nat} (h2 : 2 ≤ odNum w) (hd : s.fieldDepth f (odNum w) = some d) (hlt : s.rd D.FIELD_POWER f < d) :
    s.ownFieldMode f w = ((s.wr D.FIELD_POWER f d).setObj D.FIELD_POWER_MODE f w).odDone := by
  simp only [State.ownFieldMode, if_neg (Nat.not_lt.mpr h2), hd, if_pos hlt]

end Modes

/-! ### Idle slices and fields -/

section Idle

variable {s : State}

theorem State.sliceIdle_stays {n : Nat} (h : s.rd D.SLICE_POWER_MODE n = 1 ∨ s.sliceQuiet n = false) (sleep : Bool) : s.sliceIdle n sleep = s := by
  rcases h with h | h <;> simp [State.sliceIdle, h]

theorem State.sliceIdle_doze {n : Nat} (hp : s.has .slice n = true) (hh : s.isHole n = false) (hm : s.rd D.SLICE_POWER_MODE n ≠ 1)
    (hq : s.sliceQuiet n = true) (hr : s.sliceResets n = false) (hd : s.rd D.SLICE_POWER n < 2) :
    s.sliceIdle n false = s.wr D.SLICE_POWER n 1 := by
  simp [State.sliceIdle, hp, hh, hm, hq, hr, Nat.not_le.mpr hd]

/-- A field that may sleep enters the depth that its mode and its conditions allow, if any. -/
theorem State.fieldIdle_sleep {f : Nat} (hp : fieldPresent s.variant f = true) (hm : s.rd D.FIELD_POWER_MODE f ≠ 1) (hd : s.rd D.FIELD_POWER f < 2)
    (he : s.routersEmpty f = true) : s.fieldIdle f true =
      (s.fieldDepth f (s.rd D.FIELD_POWER_MODE f)).elim s (s.wr D.FIELD_POWER f) := by
  simp only [State.fieldIdle, hp, hm, he, Nat.not_le.mpr hd, Bool.not_true, decide_false, Bool.or_self, Bool.false_eq_true, if_false, if_true]
  cases s.fieldDepth f (s.rd D.FIELD_POWER_MODE f) <;> rfl

end Idle

/-! ### The chairlift -/

section Chairlift

variable {s : State} {ns : Nat}

theorem exec_chairliftAdmit_none (h : (s.refill ns).liftNext = none) : exec (.chairliftAdmit ns) s = .next (s.refill ns) := by
  show execChairliftAdmit ns s = _
  simp only [execChairliftAdmit, h]

/-- The next rise: the estimate of the device's power, a free value, and then the budget decide. -/
theorem exec_chairliftAdmit_some {x : PowerUnit} (h : (s.refill ns).liftNext = some x) : exec (.chairliftAdmit ns) s = .next
    (if (s.refill ns).fresh % 2 = 1 then ((s.refill ns).drew.liftWait x).powerCapped
     else if (s.refill ns).drew.liftStep x ≤ (s.refill ns).drew.budget then (s.refill ns).drew.liftAdmit x
     else (s.refill ns).drew.liftWait x) := by
  show execChairliftAdmit ns s = _
  simp only [execChairliftAdmit, h, beq_iff_eq]
  split
  · rfl
  · split <;> rfl

theorem State.liftAdmit_unit {x : PowerUnit} (h : isGlide x = false) : s.liftAdmit x =
    { s with budget := s.budget - s.liftStep x, lift := s.lift.filter (fun v => v != x), liftFirst := s.liftFirst.filter (fun v => v != x),
             liftWaited := s.liftWaited.filter (fun v => v != x), rising := s.rising ++ [x] } := by
  simp [State.liftAdmit, h]

theorem State.liftAdmit_glide (f : Fin 8) : s.liftAdmit (.glide f) = s.glideStep (.glide f) := rfl

theorem powerUnit_not_mem_filter_ne (x : PowerUnit) (l : List PowerUnit) : x ∉ l.filter (fun v => v != x) := by
  simp [List.mem_filter]

/-- A glide's step spends 0.25 W; whether another follows is a free value, and nothing rises. -/
theorem State.glideStep_spec (f : Fin 8) : (s.glideStep (.glide f)).budget = s.budget - 250 ∧ (s.glideStep (.glide f)).rising = s.rising ∧
    (s.glideStep (.glide f)).lift = if s.fresh % 2 = 1 then s.lift else s.lift.filter (fun v => v != .glide f) := ⟨rfl, rfl, rfl⟩

theorem exec_unitWakeDone_waits {x : PowerUnit} (h : s.rising.contains x = false ∨ s.parentUp x = false) : exec (.unitWakeDone x) s = .next s := by
  have hno : (s.rising.contains x && s.parentUp x) = false := Bool.and_eq_false_iff.mpr h
  show execUnitWakeDone x s = _
  simp only [execUnitWakeDone, hno, Bool.false_eq_true, if_false]

theorem exec_unitWakeDone_up {x : PowerUnit} (hr : s.rising.contains x = true) (hp : s.parentUp x = true) :
    exec (.unitWakeDone x) s = .next (({ s with rising := s.rising.filter (fun v => v != x) } : State).unitUp x) := by
  show execUnitWakeDone x s = _
  simp only [execUnitWakeDone, hr, hp, Bool.and_self, if_true]

/-- A link that was OFF enters DETECT where it may; any other leaves electrical idle (R294). -/
theorem State.unitUp_link (n : Fin 64) : s.unitUp (.link n) =
    if s.rd D.LINK_STATE n = 0 then (if s.linkMayRise n then s.linkDetect n else s) else s.linkWake n := rfl

end Chairlift

/-! ### Temperature (R379) -/

section Temperature

variable {s : State} {f : Fin 8} {c d : Int}

/-- The state with a field's exact reading of `d` degrees in its objects. -/
def State.withTemp (s : State) (f : Nat) (d : Int) : State := (s.wr D.FIELD_TEMP f (ofSigned 32 d)).wr D.THERMAL_VALID f 1

theorem State.tempWhole_exact : s.tempWhole (10 * d) = (d, s) := by
  simp [State.tempWhole]

theorem exec_fieldTempSample_absent (h : fieldPresent s.variant f = false) : exec (.fieldTempSample f c) s = .next s := by
  show execFieldTempSample f c s = _
  simp only [execFieldTempSample, h, Bool.not_false, if_true]

theorem exec_fieldTempSample_exact (hp : fieldPresent s.variant f = true) (ht : s.tempOf f c = 10 * d) (hb : s.boot.down = none) :
    exec (.fieldTempSample f c) s = .next ((s.withTemp f d).thermal f (10 * d)) := by
  show execFieldTempSample f c s = _
  simp only [execFieldTempSample, hp, ht, State.tempWhole_exact, Bool.not_true, Bool.false_eq_true, if_false, State.wr_boot, hb]
  rfl

theorem State.rd_withTemp_hot (s : State) (f : Nat) (d : Int) : (s.withTemp f d).rd D.THERMAL_HOT_C 0 = s.rd D.THERMAL_HOT_C 0 := by
  rw [State.withTemp, State.rd_wr_key _ (by decide), State.rd_wr_key _ (by decide)]

/-- Below 110 °C neither the bypass nor the trip acts, so a field that is not capped is capped or left as it is. -/
theorem State.thermal_below {u : State} {f : Nat} (hd : d < 110) (hc : (u.clk f).capped = false) : u.thermal f (10 * d) =
    if 10 * (u.rd D.THERMAL_HOT_C 0 : Int) ≤ 10 * d then u.tooHot f else u := by
  have hbypass : ¬ (1100 : Int) ≤ 10 * d := by omega
  have htrip : ¬ (1150 : Int) ≤ 10 * d := by omega
  simp [State.thermal, hc, hbypass, htrip]

theorem State.thermal_withTemp {f : Nat} (hd : d < 110) (hc : (s.clk f).capped = false) : (s.withTemp f d).thermal f (10 * d) =
    if 10 * (s.rd D.THERMAL_HOT_C 0 : Int) ≤ 10 * d then (s.withTemp f d).tooHot f else s.withTemp f d := by
  rw [State.thermal_below (u := s.withTemp f d) hd hc, State.rd_withTemp_hot]

end Temperature

/-! ### Power loss and the reset pin -/

section Loss

variable {s : State}

theorem exec_powerLoss {mv : BitVec 16} {c : CommitOutcome} {b : Bool} :
    exec (.powerLoss mv c b) s = .next (if s.boot.down.isSome then s.holdLow else s.lossSeq mv.toNat 0 (headerWritten c) b) := rfl

theorem exec_inputRecovered : exec .inputRecovered s =
    if s.boot.down = some 0 then .next (({ s with boot := { s.boot with down := none } } : State).restart 6) else .next s := rfl

theorem exec_resetPin_again (h : s.boot.pin = true) : exec .resetPin s = .next s := if_pos h

theorem exec_resetPin_first (h : s.boot.pin = false) : exec .resetPin s =
    if s.boot.down.isSome then .next { s with boot := { s.boot with pin := true } }
    else .next (({ s with boot := { s.boot with pin := true } } : State).restart 1) := by
  show execResetPin s = _
  simp only [execResetPin, h, Bool.false_eq_true, if_false]

end Loss

/-- Settles O58: each part is the lemmas above about its command or operation. -/
theorem powerCommands : Obligations.PowerCommands := by
  unfold Obligations.PowerCommands
  refine ⟨?sliceMode, ?fieldMode, ?sliceIdle, ?fieldIdle, ?chairlift, ?rise, ?glide, ?wake, ?temperature, ?loss, ?pin⟩
  case sliceMode =>
    intro n w s ht
    have hexec := exec_slicePowerMode ht
    exact ⟨fun h3 hl => takes_refuses ht (hexec.trans (congrArg _ (State.ownSliceMode_held h3 hl))) (by decide),
      fun h1 h3 => takes_sets ht (hexec.trans (congrArg _ (State.ownSliceMode_set h1 h3))) (by decide),
      fun h1 hp hh => hexec.trans (congrArg _ (State.ownSliceMode_run h1 hp hh))⟩
  case fieldMode =>
    intro f w s ht
    have hexec := exec_fieldPowerMode ht
    refine ⟨fun h0 => ?_, fun h1 => hexec.trans (congrArg _ (State.ownFieldMode_run h1)),
      fun h2 hd => takes_refuses ht (hexec.trans (congrArg _ (State.ownFieldMode_barred h2 hd))) (by decide),
      fun d h2 hd hlt => hexec.trans (congrArg _ (State.ownFieldMode_deeper h2 hd hlt))⟩
    have hset := takes_sets ht (hexec.trans (congrArg _ (State.ownFieldMode_free h0))) (by decide)
    rwa [h0] at hset
  case sliceIdle =>
    exact fun n b s => ⟨fun h => congrArg _ (State.sliceIdle_stays h b),
      fun hp hh hm hq hr hd => congrArg _ (State.sliceIdle_doze hp hh hm hq hr hd)⟩
  case fieldIdle =>
    intro f s hp hm hd he
    have hsleep := State.fieldIdle_sleep hp hm hd he
    exact ⟨fun d hdep => congrArg _ (hsleep.trans (by rw [hdep]; rfl)), fun hdep => congrArg _ (hsleep.trans (by rw [hdep]; rfl))⟩
  case chairlift =>
    refine fun ns s => ⟨_, rfl, rfl, exec_chairliftAdmit_none, fun x hx => ⟨fun hc => ?_, fun hc hb => ?_, fun hc hb => ?_⟩⟩
    · rw [exec_chairliftAdmit_some hx, if_pos hc]
    · rw [exec_chairliftAdmit_some hx, if_neg hc, if_pos hb]
    · rw [exec_chairliftAdmit_some hx, if_neg hc, if_neg (Nat.not_le.mpr hb)]
  case rise =>
    exact fun x s hx =>
      ⟨_, State.liftAdmit_unit hx, rfl, List.mem_append_right _ (List.mem_singleton_self x), powerUnit_not_mem_filter_ne x s.lift⟩
  case glide =>
    intro f s
    obtain ⟨hbudget, hrising, hlift⟩ := s.glideStep_spec f
    refine ⟨_, State.liftAdmit_glide f, hbudget, hrising, fun h => hlift.trans (if_pos h), fun h => ?_⟩
    rw [hlift, if_neg h]
    exact powerUnit_not_mem_filter_ne _ s.lift
  case wake =>
    refine fun x s => ⟨exec_unitWakeDone_waits, exec_unitWakeDone_up, fun _ => rfl, fun _ => rfl, fun n => ⟨fun h0 hr => ?_, fun h0 => ?_⟩⟩
    · rw [State.unitUp_link, if_pos h0, if_pos hr]
    · rw [State.unitUp_link, if_neg h0]
  case temperature =>
    exact fun f c s => ⟨exec_fieldTempSample_absent, fun d hp ht hb => ⟨s.withTemp f d, rfl, exec_fieldTempSample_exact hp ht hb,
      fun hd hhot hc => (State.thermal_withTemp hd hc).trans (if_pos hhot),
      fun hd hcool hc => (State.thermal_withTemp hd hc).trans (if_neg (not_le.mpr hcool))⟩⟩
  case loss =>
    refine fun mv c b s => ⟨fun h => ?_, fun h => ?_⟩
    · rw [exec_powerLoss, if_pos h]
      rfl
    · rw [exec_powerLoss, h]
      rfl
  case pin =>
    refine fun s => ⟨fun h => exec_inputRecovered.trans (if_pos h), fun h => exec_inputRecovered.trans (if_neg h), exec_resetPin_again,
      fun hp hd => ?_, fun hp hd => ?_, rfl⟩
    · rw [exec_resetPin_first hp, hd]
      rfl
    · rw [exec_resetPin_first hp, if_pos hd]

end Sys2Proof.Machine
end

section
/-! SUPPORT. Writing and reading a ring context (R124, R126, R127). -/

namespace Sys2Proof.Machine

/-! ### RING_WRITE and RING_READ through the object -/

section Object

variable {s : State} {i : Nat} {w : OdWrite}

theorem exec_ringWrite_object (ht : s.takes (D.RING_CONTEXT (i / 65536)) (i % 65536) w = true) :
    exec (.ringWrite (.object i w)) s = .next (s.odHold.ringWrite i (odNum w) none .od) := State.odCmd_takes ht _ _

theorem exec_ringRead_object (hf : s.odFree = true) (hc : s.odCheckRead (D.RING_CONTEXT (i / 65536)) (i % 65536) w.route = 0) :
    exec (.ringRead (.object i w)) s = .next { s with out := s.out ++ [.od 0 64 (s.ringCtx i)] } := by
  show execRingRead (.object i w) s = _
  simp only [execRingRead, State.odCmd_free hf, hc, State.odAnswer_free hf 0 64 (s.ringCtx i) (by decide)]

end Object

/-! ### The checks of a write -/

section Write

variable {s : State} {r v : Nat} {who : Option Nat} {o : Origin}

theorem State.ringWrite_absent (he : rcEnable v = true) (ha : s.has .te (rcEngine v) = false) :
    s.ringWrite r v who o = s.answer s.nextReq o St.UNIT_ABSENT 0 0 := by
  simp [State.ringWrite, he, ha]

theorem engine_check_passes (h : rcEnable v = false ∨ s.has .te (rcEngine v) = true) : (rcEnable v && !s.has .te (rcEngine v)) = false := by
  rcases h with h | h <;> simp [h]

theorem State.ringWrite_denied {p : Nat} (h : rcEnable v = false ∨ s.has .te (rcEngine v) = true)
    (hp : rcPart (s.ringCtx r) ≠ p ∨ rcPart v ≠ p) : s.ringWrite r v (some p) o = s.answer s.nextReq o St.RING_DENIED 0 0 := by
  have hother : (rcPart (s.ringCtx r) != p || rcPart v != p) = true := by simpa using hp
  simp only [State.ringWrite, engine_check_passes h, hother, Bool.false_eq_true, if_false, if_true]

/-- A running ring takes new values of NOTIFY (bits 303:288) at once, and otherwise only its disable (R127). -/
theorem State.ringWrite_running (h : rcEnable v = false ∨ s.has .te (rcEngine v) = true) (he : rcEnable (s.ringCtx r) = true)
    (hs : rcStopped (s.ringCtx r) = false) : s.ringWrite r v none o =
      if setBits v 303 288 0 = setBits (s.ringCtx r) 303 288 0 then (s.setCtx r v).answer s.nextReq o 0 0 0
      else if (s.ring r).disabling = none ∧ v = setBit (s.ringCtx r) 0 false then s.ringDisable r o
      else s.answer s.nextReq o St.RING_BUSY 0 0 := by
  simp only [State.ringWrite, engine_check_passes h, he, hs, Bool.false_eq_true, if_false, Bool.not_false, Bool.and_self, if_true,
    Bool.and_eq_true, Option.isNone_iff_eq_none, decide_eq_true_eq]
  rfl

theorem State.ringOrphan_nextReq (s : State) (r : Nat) : (s.ringOrphan r).nextReq = s.nextReq := by
  refine List.foldlRecOn (motive := fun t : State => t.nextReq = s.nextReq) s.reqList _ rfl fun t ht x _ => ?_
  dsimp only
  split
  · split
    · exact ht
    · exact ht
  · exact ht

/-- A ring that does not run is checked whole, and starts anew (R124, R126). -/
theorem State.ringWrite_idle (h : rcEnable v = false ∨ s.has .te (rcEngine v) = true)
    (hi : rcEnable (s.ringCtx r) = false ∨ rcStopped (s.ringCtx r) = true) : s.ringWrite r v none o =
      if rcReserved v = true then s.answer s.nextReq o St.DESC_BAD 0 0
      else if rcEnable v = true ∧ ¬ (4 ≤ rcSize v ∧ rcSize v ≤ 16) then s.answer s.nextReq o St.DESC_BAD 0 0
      else if rcEnable v = true ∧ s.rd D.TE_PARTITION (rcEngine v) ≠ rcPart v then s.answer s.nextReq o St.RING_DENIED 0 0
      else (((s.ringOrphan r).setCtx r v).setRing r Ring.init).answer s.nextReq o 0 0 0 := by
  have hidle : (rcEnable (s.ringCtx r) && !rcStopped (s.ringCtx r)) = false := by rcases hi with h | h <;> simp [h]
  simp only [State.ringWrite, engine_check_passes h, hidle, Bool.false_eq_true, if_false, Bool.and_eq_true, Bool.not_eq_true', decide_eq_false_iff_not,
    bne_iff_ne]
  rw [show (((s.ringOrphan r).setCtx r v).setRing r Ring.init).nextReq = s.nextReq from s.ringOrphan_nextReq r]

end Write

/-- Settles O32: the first two checks are one lemma each, and the branches of `ringWrite_running` and `ringWrite_idle` are the rest in order. -/
theorem ringContextWrites : Obligations.RingContextWrites := by
  unfold Obligations.RingContextWrites
  refine ⟨fun i w s ht => exec_ringWrite_object ht, fun i w s hf hc => exec_ringRead_object hf hc,
    fun r v who o s => ⟨State.ringWrite_absent, fun p h hwho hp => hwho ▸ State.ringWrite_denied h hp⟩,
    fun r v o s h => ⟨fun he hs => ?running, fun hi => ?idle⟩⟩
  case running =>
    rw [State.ringWrite_running h he hs]
    exact ⟨fun hbits => if_pos hbits, fun hbits hd hv => (if_neg hbits).trans (if_pos ⟨hd, hv⟩),
      fun hbits hv => (if_neg hbits).trans (if_neg fun hdis => hv hdis.2)⟩
  case idle =>
    rw [State.ringWrite_idle h hi]
    refine ⟨fun hr => if_pos hr, fun hr he hsize => ?_, fun hr he hlo hhi hp => ?_, fun hr hok => ?_⟩
    all_goals rw [if_neg (by simp [hr])]
    · exact if_pos ⟨he, hsize⟩
    · rw [if_neg fun hbad => hbad.2 ⟨hlo, hhi⟩, if_pos ⟨he, hp⟩]
    · have hsize : ¬ (rcEnable v = true ∧ ¬ (4 ≤ rcSize v ∧ rcSize v ≤ 16)) := fun ⟨he, hbad⟩ => hbad ⟨(hok he).1, (hok he).2.1⟩
      have hpart : ¬ (rcEnable v = true ∧ s.rd D.TE_PARTITION (rcEngine v) ≠ rcPart v) := fun ⟨he, hbad⟩ => hbad (hok he).2.2
      rw [if_neg hsize, if_neg hpart]

end Sys2Proof.Machine
end

section
/-! SUPPORT. The commands of a sweep, and its end (R136 to R145). -/

namespace Sys2Proof.Machine

@[simp] theorem State.sweep?_setSweep (s : State) (p : Nat) (x : Option SweepRun) : (s.setSweep p x).sweep? p = x := Table.get_set_same ..

@[simp] theorem State.sweep?_wr (s : State) (o : Obj) (i v p : Nat) : (s.wr o i v).sweep? p = s.sweep? p := rfl

theorem State.setSweep_objsBut (s : State) (p : Nat) (x : Option SweepRun) (l : List (Nat × Nat)) : ObjsBut s (s.setSweep p x) l := .congr rfl rfl l

theorem OnlyObjs.setSweep {s t : State} {p : Nat} {x : Option SweepRun} (h : OnlyObjs (s.setSweep p x) t) :
    t = { s with objs := t.objs, sweeps := t.sweeps } := by
  unfold OnlyObjs at h
  rw [h]
  rfl

/-! ### The end of a sweep -/

section End

variable {s : State} {p st : Nat} {x : SweepRun}

theorem State.sweepEnd_silent (hn : swNotify x.cmd = false) : s.sweepEnd p x st =
    ((s.setSweep p none).wr D.SWEEP_STATE p 3).wr D.SWEEP_RESULT p (s.sweepRecord p x st) := by
  simp [State.sweepEnd, hn]

theorem State.sweepEnd_objs (hn : swNotify x.cmd = false) :
    ObjsBut s (s.sweepEnd p x st) [(objKey D.SWEEP_STATE, p), (objKey D.SWEEP_RESULT, p)] := by
  rw [State.sweepEnd_silent hn]
  exact ((s.setSweep_objsBut p none _).wr (by simp) 3).wr (by simp) _

theorem State.rd_sweepEnd_state (hn : swNotify x.cmd = false) : (s.sweepEnd p x st).rd D.SWEEP_STATE p = 3 := by
  rw [State.sweepEnd_silent hn, State.rd_wr_key _ (by decide), State.rd_wr_same]

theorem State.rd_sweepEnd_result (hn : swNotify x.cmd = false) : (s.sweepEnd p x st).rd D.SWEEP_RESULT p = s.sweepRecord p x st := by
  rw [State.sweepEnd_silent hn, State.rd_wr_same]

theorem State.sweepEnd_gone (hn : swNotify x.cmd = false) : (s.sweepEnd p x st).sweep? p = none := by
  simp [State.sweepEnd_silent hn]

theorem State.sweepEnd_rest (hn : swNotify x.cmd = false) :
    s.sweepEnd p x st = { s with objs := (s.sweepEnd p x st).objs, sweeps := (s.sweepEnd p x st).sweeps } := by
  rw [State.sweepEnd_silent hn]
  exact (((OnlyObjs.refl (s.setSweep p none)).wr _ _ _).wr _ _ _).setSweep

theorem State.sweepStop_armed (h1 : s.rd D.SWEEP_STATE p = 1) (hx : s.sweep? p = some x) : s.sweepStop p st = s.sweepEnd p x st := by
  simp only [State.sweepStop, hx, h1, if_true]

theorem State.sweepStop_running (h2 : s.rd D.SWEEP_STATE p = 2) (hx : s.sweep? p = some x) :
    s.sweepStop p st = (s.setSweep p (some { x with early := st })).wr D.SWEEP_STATE p 4 := by
  simp [State.sweepStop, hx, h2]

end End

/-! ### Writes of SWEEP_COMMAND, SWEEP_ABORT and SWEEP_GROUP -/

section Writes

variable {s : State} {w : OdWrite}

theorem exec_sweep_object {p : Nat} (ht : s.takes D.SWEEP_COMMAND p w = true) : exec (.sweep (.object p w)) s = .next (s.ownSweep p w) :=
  State.odCmd_takes ht _ _

theorem State.ownSweep_armed {p : Nat} (h : s.sweepStatus p (odNum w) = 0) : s.ownSweep p w = (s.sweepArm p (odNum w)).odDone := by
  simp only [State.ownSweep, State.sweepSubmit, h]

theorem State.sweepSubmit_refused {p c : Nat} (h : s.sweepStatus p c ≠ 0) : s.sweepSubmit p c = (s.sweepStatus p c, s) := by
  unfold State.sweepSubmit
  split
  · contradiction
  · rfl

theorem State.ownSweep_refused {p : Nat} (h : s.sweepStatus p (odNum w) ≠ 0) : s.ownSweep p w = s.odFail (s.sweepStatus p (odNum w)) := by
  unfold State.ownSweep
  rw [State.sweepSubmit_refused h]
  split
  next heq => exact absurd (congrArg Prod.fst heq) h
  next heq => cases heq; rfl

theorem exec_sweepAbort {p : Fin 16} (ht : s.takes D.SWEEP_ABORT p w = true) : exec (.sweepAbort p w) s = .next (s.ownSweepAbort p) :=
  State.odCmd_takes ht _ _

theorem State.ownSweepAbort_none {p : Nat} (h : s.rd D.SWEEP_STATE p = 0 ∨ s.rd D.SWEEP_STATE p = 3) :
    s.ownSweepAbort p = s.odFail St.SWEEP_NONE := if_pos h

theorem State.ownSweepAbort_some {p : Nat} (h0 : s.rd D.SWEEP_STATE p ≠ 0) (h3 : s.rd D.SWEEP_STATE p ≠ 3) :
    s.ownSweepAbort p = (s.sweepStop p St.SWEEP_ABORTED).odDone := if_neg (not_or.mpr ⟨h0, h3⟩)

theorem exec_sweepAbort_armed {p : Fin 16} {x : SweepRun} (ht : s.takes D.SWEEP_ABORT p w = true) (h1 : s.rd D.SWEEP_STATE p = 1)
    (hx : s.sweep? p = some x) : exec (.sweepAbort p w) s = .next (s.sweepEnd p x St.SWEEP_ABORTED).odDone := by
  rw [exec_sweepAbort ht, State.ownSweepAbort_some (by simp [h1]) (by simp [h1]), State.sweepStop_armed h1 hx]

theorem exec_sweepAbort_running {p : Fin 16} {x : SweepRun} (ht : s.takes D.SWEEP_ABORT p w = true) (h2 : s.rd D.SWEEP_STATE p = 2)
    (hx : s.sweep? p = some x) : exec (.sweepAbort p w) s = .next
      { (s.setSweep p (some { x with early := St.SWEEP_ABORTED })).wr D.SWEEP_STATE p 4 with out := s.out ++ [.od 0 0 0] } := by
  rw [exec_sweepAbort ht, State.ownSweepAbort_some (by simp [h2]) (by simp [h2]), State.sweepStop_running h2 hx]
  exact congrArg _ (State.odDone_idle (State.takes_idle ht).1 rfl rfl)

theorem exec_sweepGroup {p : Fin 16} (ht : s.takes D.SWEEP_GROUP p w = true) : exec (.sweepGroup p w) s = .next (s.ownSweepGroup p w) :=
  State.odCmd_takes ht _ _

theorem State.ownSweepGroup_set {p : Nat} (h : s.rd D.SWEEP_STATE p = 0 ∨ s.rd D.SWEEP_STATE p = 3) :
    s.ownSweepGroup p w = s.odSet D.SWEEP_GROUP p w := if_pos h

theorem State.ownSweepGroup_busy {p : Nat} (h0 : s.rd D.SWEEP_STATE p ≠ 0) (h3 : s.rd D.SWEEP_STATE p ≠ 3) :
    s.ownSweepGroup p w = s.odFail St.SWEEP_BUSY := if_neg (not_or.mpr ⟨h0, h3⟩)

end Writes

/-! ### A sweep at work -/

section Work

variable {s : State} {p : Fin 16} {x : SweepRun} (hx : s.sweep? p = some x)
include hx

/-- At T the sweep runs on every slice of its domain that is no hole (R59, R138). -/
theorem exec_sweepLaunch_due (h1 : s.rd D.SWEEP_STATE p = 1) (ht : x.time ≤ s.gate) : ∃ y : SweepRun,
    exec (.sweepLaunch p) s = .next ((s.setSweep p (some y)).wr D.SWEEP_STATE p 2) ∧
    y.holes = (domainSlices s.variant (s.rd D.PART_DOMAIN p)).filter (fun n => s.isOut n || (s.cache (s.sliceKey n)).failed) ∧
    y.work = ((domainSlices s.variant (s.rd D.PART_DOMAIN p)).filter (fun n => !y.holes.contains n)).map (fun n => (n, 0)) ∧
    y = { x with work := y.work, holes := y.holes, early := y.early } := by
  have hdue : (s.rd D.SWEEP_STATE p != 1 || decide (s.gate < x.time)) = false := by simp [h1, ht]
  show ∃ y, execSweepLaunch p s = _ ∧ _
  simp only [execSweepLaunch, hx, hdue, Bool.false_eq_true, if_false]
  refine ⟨_, rfl, ?_, ?_, ?_⟩ <;> dsimp only

theorem exec_sweepSliceLine_stopping {n : Fin 1024} {i : Nat} (h4 : s.rd D.SWEEP_STATE p = 4)
    (hw : x.work.find? (fun e => e.1 == n.val) = some (n.val, i)) :
    exec (.sweepSliceLine p n) s = .next (s.setSweep p (some (sliceOut x n 0))) := by
  show execSweepSliceLine p n s = _
  simp only [execSweepSliceLine, hx, hw, h4, if_true]

/-- The next item of a slice's share, where nothing ends the share, takes effect and is counted (R138, R139). -/
theorem exec_sweepSliceLine_item {n : Fin 1024} {i j : Nat} {y : SweepRun} {d : ItemDone} {t : State} (h2 : s.rd D.SWEEP_STATE p = 2)
    (hw : x.work.find? (fun e => e.1 == n.val) = some (n.val, i)) (hup : (s.sliceUp n).2 = true) (he : s.rd D.WINDOW_EPOCH p = x.epoch)
    (hj : s.nextItem p x n i = some j) (hdonor : ∀ h o, locate s.variant (s.sweepItemAt p x.cmd j) = some (h, o) → s.inDonor h o = false)
    (hd : s.sweepItem p x n j = some (t, d)) (hy : t.sweep? p = some y) :
    exec (.sweepSliceLine p n) s = .next (t.setSweep p (some { y with
      work := y.work.map (fun e => if e.1 = n.val then (e.1, j + 1) else e), linesDone := y.linesDone + d.lines, unitsDone := y.unitsDone + d.units,
      early := if d.lines = 0 && y.early = 0 then St.SLICE_FAILED else y.early, poisoned := y.poisoned || d.pois })) := by
  show execSweepSliceLine p n s = _
  rcases hl : locate s.variant (s.sweepItemAt p x.cmd j) with _ | ⟨h, o⟩
  · simp [execSweepSliceLine, hx, hw, h2, hup, he, hj, hl, hd, hy]
  · simp [execSweepSliceLine, hx, hw, h2, hup, he, hj, hl, hdonor h o hl, hd, hy]

theorem exec_sweepComplete_stopping (h4 : s.rd D.SWEEP_STATE p = 4) : exec (.sweepComplete p) s = .next (s.sweepEnd p x x.early) := by
  show execSweepComplete p s = _
  simp only [execSweepComplete, hx, h4, if_true]

/-- A running sweep with no item left ends with its early status, or, once an ALL_GATHER has everything, by whether it met poison (R139, R141). -/
theorem exec_sweepComplete_done (h2 : s.rd D.SWEEP_STATE p = 2) (hw : x.work.any (fun e => (s.nextItem p x e.1 e.2).isSome) = false) :
    exec (.sweepComplete p) s = .next (if x.early ≠ 0 then s.sweepEnd p x x.early
      else if swOp x.cmd = 5 ∧ s.gatherDone p x = false then s else s.sweepEnd p x (if x.poisoned then St.POISONED else 0)) := by
  show execSweepComplete p s = _
  simp only [execSweepComplete, hx, h2, hw, Nat.reduceEqDiff, Nat.reduceBneDiff, Bool.or_self, Bool.false_eq_true, if_false, bne_iff_ne,
    Bool.and_eq_true, beq_iff_eq, Bool.not_eq_true', apply_ite Host.Outcome.next]

theorem exec_sweepTimeoutExpiry_running (h2 : s.rd D.SWEEP_STATE p = 2) :
    exec (.sweepTimeoutExpiry p) s = .next (s.sweepEnd p x St.SWEEP_TIMEOUT) := by
  show execSweepTimeoutExpiry p s = _
  simp only [execSweepTimeoutExpiry, hx, h2, if_true]

theorem exec_sweepProgressRefresh : exec (.sweepProgressRefresh p) s = .next (s.wr D.SWEEP_PROGRESS p x.linesDone) := by
  show execSweepProgressRefresh p s = _
  simp only [execSweepProgressRefresh, hx]

end Work

theorem exec_gatherWrite_heard {s : State} {n : Fin 64} {m : Msg} (h : s.linkHears n m 0x0A = true) :
    exec (.gatherWrite n m) s = .next (s.gatherTake n m (linkChunks m.hdr.toNat)) := if_pos h

/-- Settles O35: each stage of a sweep's life is the lemmas above about its command. -/
theorem sweepLifecycle : Obligations.SweepLifecycle := by
  unfold Obligations.SweepLifecycle
  refine ⟨fun p w s ht h => ?arm, fun p w s ht h h5 => ?refused, fun p x s hx h1 ht => ?launch,
    fun p n i x s hx h4 hw => exec_sweepSliceLine_stopping hx h4 hw,
    fun p n i j x y d s t hx h2 hw hup he hj hdonor hd hy => exec_sweepSliceLine_item hx h2 hw hup he hj hdonor hd hy,
    fun p x s hx h2 hw => ?complete,
    fun p x s hx => ⟨exec_sweepComplete_stopping hx, exec_sweepTimeoutExpiry_running hx, exec_sweepProgressRefresh hx⟩,
    fun p w s ht => ⟨fun h => ?abort, fun x => exec_sweepAbort_armed ht, fun x => exec_sweepAbort_running ht⟩,
    fun p w s ht => ⟨fun h => ?group, fun h0 h3 => ?groupBusy⟩,
    fun p st x s hn => ⟨_, rfl, State.rd_sweepEnd_state hn, State.rd_sweepEnd_result hn, State.sweepEnd_gone hn, State.sweepEnd_objs hn,
      State.sweepEnd_rest hn⟩,
    fun n m s h => exec_gatherWrite_heard h⟩
  case arm => exact (exec_sweep_object ht).trans (congrArg _ (State.ownSweep_armed h))
  case refused => exact takes_refuses ht ((exec_sweep_object ht).trans (congrArg _ (State.ownSweep_refused h))) h5
  case launch =>
    obtain ⟨y, hexec, hholes, hwork, hy⟩ := exec_sweepLaunch_due hx h1 ht
    exact ⟨_, y, hexec, State.rd_wr_same .., State.sweep?_setSweep s p (some y), hholes, hwork, hy,
      (s.setSweep_objsBut p _ _).wr (List.mem_singleton.mpr rfl) 2⟩
  case complete =>
    rw [exec_sweepComplete_done hx h2 hw]
    refine ⟨fun he => by rw [if_pos he], fun he hg => ?_⟩
    have hdone : ¬ (swOp x.cmd = 5 ∧ s.gatherDone p x = false) := by
      rcases hg with hg | hg <;> simp [hg]
    rw [if_neg (not_not.mpr he), if_neg hdone]
  case abort => exact takes_refuses ht ((exec_sweepAbort ht).trans (congrArg _ (State.ownSweepAbort_none h))) (by decide)
  case group => exact takes_sets ht ((exec_sweepGroup ht).trans (congrArg _ (State.ownSweepGroup_set h))) (by decide)
  case groupBusy => exact takes_refuses ht ((exec_sweepGroup ht).trans (congrArg _ (State.ownSweepGroup_busy h0 h3))) (by decide)

end Sys2Proof.Machine
end

section
/-! SUPPORT. The byte law of a store (R10, R25, R159), and the invariant of every step as its four forms (R355, R430). -/

namespace Sys2Proof.Machine

/-- One byte after an unmasked store of `n` bytes from `a`. -/
theorem State.store_byteAt (s : State) (a n v b : Nat) :
    (s.store a n v).byteAt b = if a ≤ b ∧ b < a + n then v / 256 ^ (b - a) % 256 else s.byteAt b := by
  unfold State.store State.byteAt
  rw [memWrite_get, Nat.testBit_two_pow_sub_one]
  by_cases hin : a ≤ b ∧ b < a + n
  · have hmask : a ≤ b ∧ b < a + n ∧ decide (b - a < n) = true := ⟨hin.1, hin.2, decide_eq_true (by omega)⟩
    rw [if_pos hmask, if_pos hin, BitVec.toNat_ofNat]
  · rw [if_neg (fun h => hin ⟨h.1, h.2.1⟩), if_neg hin]

/-- Settles O9: a store is a write through a mask of ones, whose bit is set at each of the bytes stored (`State.store_byteAt`). -/
theorem memoryReadsWhatWasStored : Obligations.MemoryReadsWhatWasStored := by
  unfold Obligations.MemoryReadsWhatWasStored
  exact State.store_byteAt

theorem formed_iff {s : State} :
    Formed s = true ↔ Memory.wf s.mem = true ∧ Table.wf false s.poison = true ∧ s.events.length ≤ 256 ∧ s.flogWait.length ≤ 256 := by
  simp only [Formed, Bool.and_eq_true, decide_eq_true_eq, and_assoc]

/-- What the operations of the block keep includes the invariant. -/
theorem Keeps.formed {r t : State} (k : Keeps r t) (h : Formed r = true) : Formed t = true := by
  obtain ⟨hmem, hpoison, hevents, hflog⟩ := formed_iff.mp h
  exact formed_iff.mpr ⟨k.mem hmem, k.poison hpoison, k.events hevents, k.flog hflog⟩

/-- Taking commands from the queue touches neither memory nor the event and log queues. -/
theorem formed_pending (s : State) (l : List Instr) : Formed { s with pending := l } = Formed s := rfl

/-- Settles O4: the state with the front command taken has the invariant, and all that a step does from there keeps it (`step_keeps`). -/
theorem everyStepKeepsTheInvariant : Obligations.EveryStepKeepsTheInvariant := by
  unfold Obligations.EveryStepKeepsTheInvariant
  intro s t hs ht
  have htaken : Formed { s with pending := s.pending.tail } = true := (formed_pending s _).trans hs
  exact (step_keeps s t ht).formed htaken

/-- Settles O5: after reset memory, the poison map and both queues are empty. -/
theorem resetHasTheInvariant : Obligations.ResetHasTheInvariant := by
  unfold Obligations.ResetHasTheInvariant
  exact formed_iff.mpr ⟨rfl, rfl, Nat.zero_le _, Nat.zero_le _⟩

end Sys2Proof.Machine
end

section
/-! SUPPORT. The counter of gate time at the end of a stride (R207, log 5). -/

namespace Sys2Proof.Machine

theorem State.tickGate_running {s : State} (h : s.gateRun = true) : s.tickGate = { s with gate := (s.gate + 1) % 2 ^ 64 } := if_pos h

theorem State.tickGate_stopped {s : State} (h : s.gateRun = false) : s.tickGate = s := by
  simp [State.tickGate, h]

theorem step_emptyQueue {s : State} (h : s.pending = []) : step s = .next s.idle := by
  simp only [step, h]

/-- Settles O2: on an empty queue the step is `idle`, which ends with the tick of the counter. -/
theorem emptyQueueLetsTimePass : Obligations.EmptyQueueLetsTimePass := by
  unfold Obligations.EmptyQueueLetsTimePass
  intro s hp
  have hidle : s.idle = s.settle.strideMove.tickGate := rfl
  refine ⟨step_emptyQueue hp, fun hrun => ?running, fun hstop => ?stopped⟩
  case running => rw [hidle, State.tickGate_running hrun]
  case stopped => rw [hidle, State.tickGate_stopped hstop]

end Sys2Proof.Machine
end

section
/-! SUPPORT. What a change of the synchronisation state does (R214), and what one exchange, one source and one offset leave of gate time. -/

namespace Sys2Proof.Machine

@[simp] theorem State.rd_count_same (s : State) (o : Obj) (i n : Nat) : (s.count o i n).rd o i = satAdd (8 * o.len) (s.rd o i) n :=
  State.rd_wr_same ..

@[simp] theorem State.count_gsv (s : State) (o : Obj) (i n : Nat) : (s.count o i n).gsv = s.gsv := rfl
@[simp] theorem State.count_gate (s : State) (o : Obj) (i n : Nat) : (s.count o i n).gate = s.gate := rfl
@[simp] theorem State.count_eventSeq (s : State) (o : Obj) (i n : Nat) : (s.count o i n).eventSeq = s.eventSeq := rfl

/-! ### `setSync` -/

/-- Objects that a change of the synchronisation state may change. -/
def syncKeys : List Nat := objKey D.GATE_SYNC_STATE :: raiseKeys

theorem raiseKeys_syncKeys : ∀ k, k ∈ raiseKeys → k ∈ syncKeys := fun _ h => List.mem_cons_of_mem _ h

/-- The count of good offsets starts again, and a holdover starts now. -/
def State.lockCleared (s : State) (st : Nat) : State :=
  { s with gsv := { s.gsv with lock := 0, holdAt := if st = 2 then s.gate else s.gsv.holdAt } }

/-- The event that reports a state (R214). -/
def syncEvent (st : Nat) : Nat := if st = 1 then Ev.GATE_SYNCED else if st = 2 then Ev.GATE_HOLDOVER else Ev.GATE_SYNC_LOST

theorem State.setSync_same {s : State} {st : Nat} (h : s.rd D.GATE_SYNC_STATE 0 = st) : s.setSync st = s := if_pos h

theorem State.setSync_change {s : State} {st : Nat} (h : s.rd D.GATE_SYNC_STATE 0 ≠ st) : s.setSync st =
    ((s.lockCleared st).wr D.GATE_SYNC_STATE 0 st).raise (syncEvent st) 0 0 := if_neg h

@[simp] theorem State.rd_setSync_state (s : State) (st : Nat) : (s.setSync st).rd D.GATE_SYNC_STATE 0 = st := by
  by_cases h : s.rd D.GATE_SYNC_STATE 0 = st
  · rw [State.setSync_same h, h]
  · rw [State.setSync_change h, State.rd_raise _ _ _ _ (by decide), State.rd_wr_same]

theorem State.setSync_keys (s : State) (st : Nat) : KeysBut s (s.setSync st) syncKeys := by
  by_cases h : s.rd D.GATE_SYNC_STATE 0 = st
  · rw [State.setSync_same h]
    exact KeysBut.refl s _
  · have hcleared : KeysBut s (s.lockCleared st) syncKeys := KeysBut.congr rfl rfl _
    rw [State.setSync_change h]
    exact (hcleared.wr (List.mem_cons_self ..) 0 st).trans ((State.raise_keys _ _ 0 0).mono raiseKeys_syncKeys)

theorem State.rd_setSync (s : State) (st : Nat) {o : Obj} (h : objKey o ∉ syncKeys) (i : Nat) : (s.setSync st).rd o i = s.rd o i :=
  s.setSync_keys st o i h

theorem State.setSync_gsv {s : State} {st : Nat} (h : s.rd D.GATE_SYNC_STATE 0 ≠ st) :
    (s.setSync st).gsv = { s.gsv with lock := 0, holdAt := if st = 2 then s.gate else s.gsv.holdAt } := by
  rw [State.setSync_change h, State.raise_gsv]
  rfl

theorem State.setSync_eventSeq {s : State} {st : Nat} (h : s.rd D.GATE_SYNC_STATE 0 ≠ st) : (s.setSync st).eventSeq = s.eventSeq + 1 := by
  rw [State.setSync_change h, State.raise_eventSeq]
  rfl

/-- A change of state is in the object, the servo's share and what reports change. -/
theorem State.setSync_rest (s : State) (st : Nat) : s.setSync st =
    { s with objs := (s.setSync st).objs, events := (s.setSync st).events, eventSeq := (s.setSync st).eventSeq,
             flogWait := (s.setSync st).flogWait, out := (s.setSync st).out, gsv := (s.setSync st).gsv } := by
  by_cases h : s.rd D.GATE_SYNC_STATE 0 = st
  · rw [State.setSync_same h]
  · have hr := State.raise_reports ((s.lockCleared st).wr D.GATE_SYNC_STATE 0 st) (syncEvent st) 0 0
    rw [← State.setSync_change h] at hr
    rw [hr]
    rfl

@[simp] theorem State.setSync_gate (s : State) (st : Nat) : (s.setSync st).gate = s.gate := by rw [State.setSync_rest]
@[simp] theorem State.setSync_odWait (s : State) (st : Nat) : (s.setSync st).odWait = s.odWait := by rw [State.setSync_rest]
@[simp] theorem State.setSync_odRun (s : State) (st : Nat) : (s.setSync st).odRun = s.odRun := by rw [State.setSync_rest]

/-- Whether the state changes or not, a count of good offsets that is 0 stays so. -/
theorem State.setSync_lock {s : State} (st : Nat) (h : s.gsv.lock = 0) : (s.setSync st).gsv.lock = 0 := by
  by_cases hs : s.rd D.GATE_SYNC_STATE 0 = st
  · rw [State.setSync_same hs, h]
  · rw [State.setSync_gsv hs]

@[simp] theorem State.setSync_step (s : State) (st : Nat) : (s.setSync st).gsv.step = s.gsv.step := by
  by_cases hs : s.rd D.GATE_SYNC_STATE 0 = st
  · rw [State.setSync_same hs]
  · rw [State.setSync_gsv hs]

/-! ### The upstream: only a follower has one (R213, R217) -/

theorem State.chooseUpstream_root {s : State} (h : s.rd D.GATE_SOURCE 0 ≠ 2) : s.chooseUpstream = s := by
  simp [State.chooseUpstream, h]

theorem State.noteHops_root {s : State} (h : s.rd D.GATE_SOURCE 0 ≠ 2) : s.noteHops = s := by
  simp [State.noteHops, h]

@[simp] theorem State.rd_setTmx (s : State) (n : Nat) (x : Tmx) (o : Obj) (i : Nat) : (s.setTmx n x).rd o i = s.rd o i := rfl

@[simp] theorem State.tmx_setTmx (s : State) (n : Nat) (x : Tmx) : (s.setTmx n x).tmx n = x :=
  congrArg Lnk.tmx (State.lnk_same s n _)

/-! ### GATE_SOURCE (R213, R214) -/

/-- `t` is at the start of synchronisation with source `src` and state `st`, for a root: no upstream, no time transmitter, no hops, nothing that
waits; start-up and the object dictionary are where they were in `s`. -/
structure RestartsSync (s t : State) (src st : Nat) : Prop where
  source : t.rd D.GATE_SOURCE 0 = src
  upstream : t.rd D.GATE_UPSTREAM_LINK 0 = 0xFF
  ptp : t.rd D.PTP_STATE 0 = 0
  hops : t.rd D.GATE_HOPS 0 = 0
  sync : t.rd D.GATE_SYNC_STATE 0 = st
  step : t.gsv.step = none
  lock : t.gsv.lock = 0
  stage : t.rd D.BOOT_STAGE 0 = s.rd D.BOOT_STAGE 0
  odWait : t.odWait = s.odWait
  odRun : t.odRun = s.odRun

theorem RestartsSync.setSync {s t : State} {src st : Nat} (h : RestartsSync s t src st) (st' : Nat) : RestartsSync s (t.setSync st') src st' where
  source := (t.rd_setSync st' (by decide) 0).trans h.source
  upstream := (t.rd_setSync st' (by decide) 0).trans h.upstream
  ptp := (t.rd_setSync st' (by decide) 0).trans h.ptp
  hops := (t.rd_setSync st' (by decide) 0).trans h.hops
  sync := t.rd_setSync_state st'
  step := (t.setSync_step st').trans h.step
  lock := State.setSync_lock st' h.lock
  stage := (t.rd_setSync st' (by decide) 0).trans h.stage
  odWait := (t.setSync_odWait st').trans h.odWait
  odRun := (t.setSync_odRun st').trans h.odRun

/-- The source is written and synchronisation forgets what it had, before it starts anew. -/
def State.sourceWritten (s : State) (w : OdWrite) : State :=
  let t := (s.setObj D.GATE_SOURCE 0 w).setSync 0
  let t := { t with gsv := { t.gsv with lock := 0, step := none, master := none, ptpT1 := none, ptpT2 := none } }
  ((t.wr D.GATE_UPSTREAM_LINK 0 0xFF).wr D.PTP_STATE 0 0).wr D.GATE_HOPS 0 (if odNum w = 2 then 0xFF else 0)

theorem State.ownGateSource_eq (s : State) (w : OdWrite) : s.ownGateSource w =
    (if odNum w = 0 && decide (10 ≤ (s.sourceWritten w).rd D.BOOT_STAGE 0) then (s.sourceWritten w).setSync 1
     else (s.sourceWritten w).chooseUpstream.noteHops).odDone := rfl

/-- After the change to UNSYNC only the objects of the upstream are written. -/
theorem State.rd_sourceWritten (s : State) (w : OdWrite) {o : Obj}
    (h : objKey o ∉ [objKey D.GATE_UPSTREAM_LINK, objKey D.PTP_STATE, objKey D.GATE_HOPS]) (i : Nat) :
    (s.sourceWritten w).rd o i = ((s.setObj D.GATE_SOURCE 0 w).setSync 0).rd o i := by
  simp only [List.mem_cons, List.not_mem_nil, or_false, not_or] at h
  obtain ⟨hup, hptp, hhops⟩ := h
  unfold State.sourceWritten
  rw [State.rd_wr_key _ hhops, State.rd_wr_key _ hptp, State.rd_wr_key _ hup]
  rfl

theorem State.sourceWritten_odWait (s : State) (w : OdWrite) : (s.sourceWritten w).odWait = ((s.setObj D.GATE_SOURCE 0 w).setSync 0).odWait := by
  simp only [State.sourceWritten, State.wr_odWait]

theorem State.sourceWritten_odRun (s : State) (w : OdWrite) : (s.sourceWritten w).odRun = ((s.setObj D.GATE_SOURCE 0 w).setSync 0).odRun := by
  simp only [State.sourceWritten, State.wr_odRun]

theorem State.sourceWritten_restarts {s : State} {w : OdWrite} (hw : odNum w ≠ 2) : RestartsSync s (s.sourceWritten w) (odNum w) 0 := by
  have hstore : objKey D.GATE_SOURCE ≠ objKey D.STORE_STATE := by decide
  obtain ⟨hwait, hrun, -⟩ := s.setObj_od hstore 0 w
  refine { source := ?_, upstream := ?_, ptp := ?_, hops := ?_, sync := ?_, step := rfl, lock := rfl, stage := ?_, odWait := ?_, odRun := ?_ }
  · rw [State.rd_sourceWritten _ _ (by decide), State.rd_setSync _ _ (by decide)]
    exact (s.setObj_sets hstore 0 w).value
  · unfold State.sourceWritten
    rw [State.rd_wr_key _ (by decide), State.rd_wr_key _ (by decide), State.rd_wr_same]
  · unfold State.sourceWritten
    rw [State.rd_wr_key _ (by decide), State.rd_wr_same]
  · unfold State.sourceWritten
    rw [State.rd_wr_same, if_neg hw]
  · rw [State.rd_sourceWritten _ _ (by decide), State.rd_setSync_state]
  · rw [State.rd_sourceWritten _ _ (by decide), State.rd_setSync _ _ (by decide), State.rd_setObj_key _ hstore (by decide) (by decide)]
  · rw [State.sourceWritten_odWait, State.setSync_odWait, hwait]
  · rw [State.sourceWritten_odRun, State.setSync_odRun, hrun]

/-- The state in which a root starts. -/
def rootStart (s : State) (w : OdWrite) : Nat := if odNum w = 0 ∧ 10 ≤ s.rd D.BOOT_STAGE 0 then 1 else 0

/-- A root takes no upstream, and a free root past stage 10 is in SYNC at once (R214). -/
theorem State.ownGateSource_root {s : State} {w : OdWrite} (hw : odNum w ≠ 2) :
    ∃ t, RestartsSync s t (odNum w) (rootStart s w) ∧ s.ownGateSource w = t.odDone := by
  have h := s.sourceWritten_restarts hw
  by_cases hfree : odNum w = 0 ∧ 10 ≤ s.rd D.BOOT_STAGE 0
  · refine ⟨(s.sourceWritten w).setSync 1, ?_, ?_⟩
    · rw [rootStart, if_pos hfree]
      exact h.setSync 1
    · simp [State.ownGateSource_eq, h.stage, hfree]
  · have hroot : (s.sourceWritten w).rd D.GATE_SOURCE 0 ≠ 2 := h.source ▸ hw
    refine ⟨s.sourceWritten w, ?_, ?_⟩
    · rwa [rootStart, if_neg hfree]
    · simp only [State.ownGateSource_eq, h.stage, ← Bool.decide_and, hfree, decide_false, Bool.false_eq_true, if_false,
        State.chooseUpstream_root hroot, State.noteHops_root hroot]

theorem exec_gateSource_root {s : State} {w : OdWrite} (ht : s.takes D.GATE_SOURCE 0 w = true) (hw : odNum w ≠ 2) :
    ∃ t, RestartsSync s t (odNum w) (rootStart s w) ∧ exec (.gateSource w) s = .next { t with out := t.out ++ [.od 0 0 0] } := by
  obtain ⟨t, h, he⟩ := s.ownGateSource_root hw
  refine ⟨t, h, (State.odCmd_takes ht _ _).trans (congrArg _ ?_)⟩
  rw [he, State.odDone_idle (State.takes_idle ht).1 h.odWait h.odRun]

/-! ### SYNC_WORD (R208) -/

theorem exec_syncWord_off {s : State} (l : List (Fin 1024)) (h : s.gate % 1024 ≠ 0) : exec (.syncWord l) s = .next s := by
  show execSyncWord l s = _
  simp [execSyncWord, h]

theorem exec_syncWord_none {s : State} (h : s.gate % 1024 = 0) : exec (.syncWord []) s = .next { s with gsv := { s.gsv with stale := [] } } := by
  show execSyncWord [] s = _
  simp [execSyncWord, h]

/-- A running tap that disagrees is reported and counted. -/
theorem exec_syncWord_one {s : State} {r : Fin 1024} (h : s.gate % 1024 = 0) (hp : fieldPresent s.variant (sliceField r.val) = true)
    (hr : s.rd D.FIELD_POWER (sliceField r.val) < 2) : exec (.syncWord [r]) s =
      .next ((({ s with gsv := { s.gsv with stale := [] } } : State).raise Ev.GATE_TAP_ERR 0 0).count D.GATE_TAP_ERR_COUNT 0 1) := by
  have hrd : ({ s with gsv := { s.gsv with stale := [] } } : State).rd D.FIELD_POWER (sliceField r.val) < 2 := hr
  show execSyncWord [r] s = _
  simp only [execSyncWord, h, bne_self_eq_false, Bool.false_eq_true, if_false, List.foldl_cons, List.foldl_nil, hp, hrd, decide_true, Bool.and_self,
    if_true]

/-! ### The exchange of a link (R215, R216) -/

section Exchange

variable {s : State} {n : Fin 64} {m : BitVec 256}

theorem exec_timexDue_inactive (h : s.rd D.LINK_STATE n.val ≠ 3) : exec (.timexDue n) s = .next s := by
  show execTimexDue n s = _
  simp [execTimexDue, h]

theorem exec_timexDue_active (h : s.rd D.LINK_STATE n.val = 3) : exec (.timexDue n) s = .next
    ((s.setTmx n { s.tmx n with seq := ((s.tmx n).seq + 1) % 2 ^ 16, open_ := true, t1 := none, wait := false }).sendTimex n
      (timexHdr 0 (((s.tmx n).seq + 1) % 2 ^ 16) 0 0 0) 0) := by
  show execTimexDue n s = _
  simp only [execTimexDue, h, bne_self_eq_false, Bool.false_eq_true, if_false]

theorem exec_timexRequest_active (h : s.timexIs n m 0 = true) : exec (.timexRequest n m) s = .next
    (s.sendTimex n (timexHdr 1 (txXseq m.toNat) (s.rd D.GATE_SYNC_STATE 0) s.ghops s.errBound) s.gate) := if_pos h

theorem exec_timexReply_root {a : Nat} (h : s.timexIs n m 1 = true) (ho : (s.tmx n).open_ = true) (ha : (s.tmx n).t1 = some a)
    (hx : txXseq m.toNat = (s.tmx n).seq) (hr : s.rd D.GATE_SOURCE 0 ≠ 2) : exec (.timexReply n m) s = .next (s.setTmx n
      { s.tmx n with open_ := false, wait := true, t2 := bits m.toNat 191 128, t4 := s.gate, known := true, state := bits m.toNat 25 24,
                     hops := bits m.toNat 29 26, err := bits m.toNat 61 30 }) := by
  have hroot : ∀ x, (s.setTmx n x).rd D.GATE_SOURCE 0 ≠ 2 := fun _ => hr
  show execTimexReply n m s = _
  simp only [execTimexReply, h, ho, ha, hx, beq_self_eq_true, Option.isSome_some, Bool.and_self, if_true, State.chooseUpstream_root (hroot _),
    State.noteHops_root (hroot _)]

theorem exec_timexFollowUp_known {t1 : Nat} (h : s.timexIs n m 2 = true) (hw : (s.tmx n).wait = true) (ht : (s.tmx n).t1 = some t1)
    (hx : txXseq m.toNat = (s.tmx n).seq) :
    exec (.timexFollowUp n m) s = .next (s.exchanged n t1 (s.tmx n).t2 (bits m.toNat 191 128) (s.tmx n).t4) := by
  show execTimexFollowUp n m s = _
  simp only [execTimexFollowUp, ht, h, hw, hx, beq_self_eq_true, Bool.and_self, if_true]

theorem State.halved_even (s : State) (x : Int) : s.halved (2 * x) = (x, s) := by
  simp [State.halved]

theorem State.fits_32 {x : Int} (hlo : -(2 ^ 31) ≤ x) (hhi : x < 2 ^ 31) : s.fits 32 x = (ofSigned 32 x, s) := if_pos ⟨hlo, hhi⟩

/-- An exchange with even sums, at a root: the offset and the delay are their halves, and no free value is drawn (R216). -/
theorem State.exchanged_even {k t1 t2 t3 t4 : Nat} {off del : Int} (hr : s.rd D.GATE_SOURCE 0 ≠ 2)
    (hoff : 2 * off = ((t1 : Int) - t2) + ((t4 : Int) - t3) + toSigned 32 (s.rd D.LINK_ASYM_USER k))
    (hdel : 2 * del = ((t4 : Int) - t1) - ((t3 : Int) - t2) - 38)
    (hlo : -(2 ^ 31) ≤ off) (hhi : off < 2 ^ 31) (h0 : 0 ≤ del) (h1 : del < 2 ^ 32) :
    s.exchanged k t1 t2 t3 t4 = ((s.wr D.LINK_TIME_OFFSET k (ofSigned 32 off)).wr D.LINK_TIME_DELAY k del.toNat).setTmx k
      { s.tmx k with wait := false, off2 := some (2 * off) } := by
  have hroot : ∀ x, (((s.wr D.LINK_TIME_OFFSET k (ofSigned 32 off)).wr D.LINK_TIME_DELAY k del.toNat).setTmx k x).rd D.GATE_SOURCE 0 ≠ 2 := by
    intro x
    rwa [State.rd_setTmx, State.rd_wr_key _ (by decide), State.rd_wr_key _ (by decide)]
  unfold State.exchanged
  simp only [← hoff, ← hdel, State.halved_even, State.fits_32 hlo hhi, h0, h1, and_self, if_true]
  rw [State.chooseUpstream_root (hroot _), State.noteHops_root (hroot _), decide_eq_false (hroot _)]
  rfl

end Exchange

/-! ### The servo and its step (R218, R219) -/

section Servo

variable {s : State} {off2 off d : Int}

theorem State.noteLock_stepOk (s : State) (good : Bool) : (s.noteLock good).stepOk = s.stepOk := rfl

/-- Beyond ±1 µs in UNSYNC, with nothing armed and no table active, a step waits for a sync word. -/
theorem State.servo_far (hbig : 2000 < off2.natAbs) (h0 : s.rd D.GATE_SYNC_STATE 0 = 0) (hok : s.stepOk = true) :
    s.servo off2 off = { s with gsv := { s.gsv with lock := 0, step := some (-off) } } := by
  have hbad : ¬ off2.natAbs ≤ 16 := by omega
  simp only [State.servo, hbig, hbad, decide_true, decide_false, if_true, State.setSync_same h0, State.wantStep, State.noteLock_stepOk, hok]
  rfl

/-- The eighth good offset in a row gives SYNC (R214). -/
theorem State.servo_locks (hgood : off2.natAbs ≤ 16) (hlock : s.gsv.lock = 7) (h1 : s.rd D.GATE_SYNC_STATE 0 ≠ 1) :
    s.servo off2 off = (s.noteLock true).setSync 1 := by
  have hnear : ¬ 2000 < off2.natAbs := by omega
  have hstate : (s.noteLock true).rd D.GATE_SYNC_STATE 0 ≠ 1 := h1
  have hcount : (s.noteLock true).gsv.lock = 8 := congrArg (· + 1) hlock
  simp [State.servo, hnear, hgood, hstate, hcount]

section Step

variable (hd : s.gsv.step = some d)
include hd

theorem exec_gateStep_waits (h : s.gate % 1024 ≠ 0) : exec .gateStep s = .next s := by
  show execGateStep s = _
  simp [execGateStep, hd, h]

/-- At a sync word: a device that has become synchronised drops the step, and one that may not step reports so (R219). -/
theorem exec_gateStep_due (h : s.gate % 1024 = 0) : exec .gateStep s = .next
    (if s.synced then { s with gsv := { s.gsv with step := none } }
     else if s.stepOk then
       (({ s with gsv := { s.gsv with step := none }, gate := stepped s.gate d } : State).count D.GATE_STEP_COUNT 0 1).raise Ev.GATE_STEPPED 0 0
     else ({ s with gsv := { s.gsv with step := none } } : State).raise Ev.GATE_STEP_BLOCKED 0 0) := by
  have hs : ({ s with gsv := { s.gsv with step := none } } : State).synced = s.synced := rfl
  have hk : ({ s with gsv := { s.gsv with step := none } } : State).stepOk = s.stepOk := rfl
  show execGateStep s = _
  simp only [execGateStep, hd, h, bne_self_eq_false, Bool.false_eq_true, if_false, hs, hk]
  split
  · rfl
  · split <;> rfl

end Step

end Servo

/-! ### Timeouts, PTP and reads -/

section Others

variable {s : State}

theorem exec_upstreamLossTimeout : exec .upstreamLossTimeout s =
    .next (if s.rd D.GATE_SOURCE 0 = 2 ∧ s.rd D.GATE_SYNC_STATE 0 = 1 then s.setSync 2 else s) := by
  show execUpstreamLossTimeout s = _
  simp only [execUpstreamLossTimeout, Bool.and_eq_true, decide_eq_true_eq, beq_iff_eq, apply_ite Host.Outcome.next]

theorem exec_ptpSyncTimeout : exec .ptpSyncTimeout s =
    .next (if s.rd D.GATE_SOURCE 0 = 1 ∧ s.rd D.GATE_SYNC_STATE 0 = 1 then (s.setSync 2).wr D.PTP_STATE 0 1 else s) := by
  show execPtpSyncTimeout s = _
  simp only [execPtpSyncTimeout, Bool.and_eq_true, decide_eq_true_eq, beq_iff_eq, apply_ite Host.Outcome.next]

theorem exec_holdoverLimitExpiry : exec .holdoverLimitExpiry s = .next (if s.rd D.GATE_SYNC_STATE 0 = 2 then s.setSync 0 else s) :=
  (apply_ite Host.Outcome.next _ _ _).symm

theorem exec_ptpMessage {m : PtpMsg} : exec (.ptpMessage m) s = .next (if s.rd D.GATE_SOURCE 0 = 1 then s.ptpTake m else s) :=
  (apply_ite Host.Outcome.next _ _ _).symm

/-- The first time transmitter of the domain is taken (R221). -/
theorem State.ptpTake_announce_first {d : BitVec 8} {p i : Nat} (hd : d.toNat = s.rd D.PTP_DOMAIN 0) (hm : s.gsv.master = none) :
    s.ptpTake (.announce d p i) = ({ s with gsv := { s.gsv with master := some (p, i), lock := 0 } } : State).wr D.PTP_STATE 0 1 := by
  simp only [State.ptpTake, hd, bne_self_eq_false, Bool.false_eq_true, if_false, hm]

/-- GATE_TIME is read like any object, and answers gate time (R212). -/
theorem exec_gateRead_object {i : Nat} {w : OdWrite} (hf : s.odFree = true) : exec (.gateRead (.object i w)) s = .next
    (if s.odCheckRead D.GATE_TIME i w.route = 0 then s.odAnswer 0 8 s.gate else s.odFail (s.odCheckRead D.GATE_TIME i w.route)) := by
  show execGateRead (.object i w) s = _
  simp only [execGateRead, State.odCmd_free hf]
  cases s.odCheckRead D.GATE_TIME i w.route <;> rfl

end Others

/-- Settles O47: each part is the lemmas above about its command or operation. -/
theorem gateTime : Obligations.GateTime := by
  unfold Obligations.GateTime
  refine ⟨fun l s h => exec_syncWord_off l h, fun r s h => ⟨exec_syncWord_none h, ?tap⟩, ?source, ?sync,
    fun n s => ⟨exec_timexDue_inactive, exec_timexDue_active⟩, fun n m s h => exec_timexRequest_active h,
    fun n m a s h ho ha hx hr => exec_timexReply_root h ho ha hx hr, ?followUp, ?far, ?locks, ?step, ?timeouts, ?notPtp, ?announce, ?read⟩
  case tap =>
    intro hp hr
    refine ⟨_, exec_syncWord_one h hp hr, ?_, ?_, ?_⟩
    · rw [State.count_gsv, State.raise_gsv]
    · rw [State.count_eventSeq, State.raise_eventSeq]
    · rw [State.rd_count_same, State.rd_raise _ _ _ _ (by decide)]
      rfl
  case source =>
    intro w s ht hw
    obtain ⟨t, h, he⟩ := exec_gateSource_root ht hw
    exact ⟨_, he, h.source, h.upstream, h.ptp, h.hops, h.sync, h.step, h.lock, List.getLast?_concat⟩
  case sync =>
    intro st s
    refine ⟨_, rfl, s.rd_setSync_state st, State.setSync_same, fun h => ⟨State.setSync_eventSeq h, ?_, ?_⟩⟩
    · rw [State.setSync_gsv h]
    · rw [State.setSync_gsv h]
  case followUp =>
    intro n m t1 off del s h hw ht hx hr hoff hdel hlo hhi h0 h1
    have he := exec_timexFollowUp_known h hw ht hx
    rw [State.exchanged_even hr hoff hdel hlo hhi h0 h1] at he
    refine ⟨_, he, ?_, ?_, rfl, ?_, ?_⟩
    · rw [State.rd_setTmx, State.rd_wr_key _ (by decide), State.rd_wr_same]
    · rw [State.rd_setTmx, State.rd_wr_same]
    · rw [State.tmx_setTmx]
    · rw [State.tmx_setTmx]
  case far => exact fun off2 off s hbig h0 hok => ⟨_, State.servo_far hbig h0 hok, rfl, rfl⟩
  case locks =>
    intro off2 off s hgood hlock h0
    have he := State.servo_locks (off := off) hgood hlock (by rw [h0]; decide)
    exact ⟨_, he, State.rd_setSync_state .., State.setSync_gate ..⟩
  case step =>
    intro d s hd
    refine ⟨exec_gateStep_waits hd, fun h hs => ?dropped, fun h hs hk => ?taken, fun h hs hk => ?blocked⟩
    case dropped => rw [exec_gateStep_due hd h, if_pos hs]
    case taken =>
      refine ⟨_, exec_gateStep_due hd h, ?_⟩
      simp only [hs, hk, Bool.false_eq_true, if_false, if_true]
      exact ⟨State.raise_gate .., (State.rd_raise _ _ _ _ (by decide) _).trans (State.rd_count_same ..), State.raise_eventSeq ..,
        congrArg Gsv.step (State.raise_gsv ..)⟩
    case blocked =>
      refine ⟨_, exec_gateStep_due hd h, ?_⟩
      simp only [hs, hk, Bool.false_eq_true, if_false]
      exact ⟨State.raise_gate .., congrArg Gsv.step (State.raise_gsv ..), State.raise_eventSeq ..⟩
  case timeouts =>
    refine fun s => ⟨fun h2 h1 => ?_, fun h => ?_, fun h1 hs => ?_, fun h => ?_, fun h => ?_, fun h => ?_⟩
    · rw [exec_upstreamLossTimeout, if_pos ⟨h2, h1⟩]
    · rw [exec_upstreamLossTimeout, if_neg (not_and_or.mpr h)]
    · rw [exec_ptpSyncTimeout, if_pos ⟨h1, hs⟩]
    · rw [exec_ptpSyncTimeout, if_neg (not_and_or.mpr h)]
    · rw [exec_holdoverLimitExpiry, if_pos h]
    · rw [exec_holdoverLimitExpiry, if_neg h]
  case notPtp =>
    intro m s h
    rw [exec_ptpMessage, if_neg h]
  case announce =>
    intro d p i s h1 hd hm
    refine ⟨_, by rw [exec_ptpMessage, if_pos h1, State.ptpTake_announce_first hd hm], rfl, State.rd_wr_same ..⟩
  case read =>
    refine fun i w s hf => ⟨fun h => ?_, fun h h5 => ⟨_, ?_, State.odFail_refuses hf h5⟩⟩
    · rw [exec_gateRead_object hf, if_pos h, State.odAnswer_free hf _ _ _ (by decide)]
    · rw [exec_gateRead_object hf, if_neg h]

end Sys2Proof.Machine
end

section
/-! SUPPORT. What a device reset leaves (R405, R407), and the commands of start-up, firmware banks, attestation and the watchdog. -/

namespace Sys2Proof.Machine

/-! ### A device reset (Table 15.10) -/

theorem get_keepOf_dropped {keys : List Nat} {k : Nat} (h : k ∉ keys) (l : List (Nat × List (Nat × Nat))) :
    Table.get [] k (keepOf keys l) = [] := by
  unfold keepOf
  induction l with
  | nil => rfl
  | cons a l ih =>
    rw [List.filter_cons]
    split
    · rename_i ha
      have hne : k ≠ a.1 := fun e => h (e ▸ List.contains_iff_mem.mp ha)
      rw [Table.get_cons, if_neg hne, ih]
    · exact ih

theorem State.seal_flog (s : State) (inHeader : Bool) : (s.seal inHeader).flog = s.flog := by
  unfold State.seal
  split
  · rfl
  · split <;> rfl

theorem State.sealNow_flog (s : State) : s.sealNow.flog = s.flog := by
  unfold State.sealNow
  split
  · rfl
  · exact State.seal_flog s.drew _

theorem State.bankStop_flog (s : State) : s.bankStop.flog = s.flog := by
  unfold State.bankStop
  refine List.foldlRecOn (motive := fun t : State => t.flog = s.flog) _ _ rfl fun t ht b _ => ?_
  split <;> exact ht

theorem State.restart_flog (s : State) (cause : Nat) : (s.restart cause).flog = s.flog :=
  (State.bankStop_flog s.sealNow).trans s.sealNow_flog

theorem State.restart_pending (s : State) (cause : Nat) : (s.restart cause).pending = s.pending := (State.restart_keeps (Keeps.refl s)).pending

/-- An object that a device reset does not keep reads its default again. -/
theorem State.rd_restart_dropped (s : State) (cause : Nat) {o : Obj} (hk : objKey o ∉ keptKeys) (hc : objKey o ≠ objKey D.LAST_RESET_CAUSE)
    (i : Nat) : (s.restart cause).rd o i = o.dflt s.variant i := by
  have hv : (s.restart cause).variant = s.variant := (State.restart_keeps (Keeps.refl s)).variant
  unfold State.restart at hv ⊢
  rw [State.rd_wr_key _ hc]
  simp only [State.rd, get_keepOf_dropped hk, Table.get_nil]
  exact congrArg (o.dflt · i) hv

theorem State.rd_restart_stage (s : State) (cause : Nat) : (s.restart cause).rd D.BOOT_STAGE 0 = 0 :=
  s.rd_restart_dropped cause (by decide +kernel) (by decide) 0

theorem exec_powerOn {x : BitVec 3} {s : State} : exec (.powerOn x) s = .next
    (({ s.restart 0 with boot := { (s.restart 0).boot with down := none, wdtLog := false } } : State).wr D.XSD_STRAP 0 x.toNat) := rfl

/-! ### The crystal check of stage 1 (R362) -/

section Crystal

variable {c : BitVec 16} {s : State}

theorem exec_xtalDelayExpiry_none (h : s.checking = false ∨ 3 ≤ s.rd D.XTAL_ATTEMPTS 0) : exec (.xtalDelayExpiry c) s = .next s := by
  have hno : (s.checking && decide (s.rd D.XTAL_ATTEMPTS 0 < 3)) = false := by
    rcases h with h | h
    · rw [h, Bool.false_and]
    · rw [decide_eq_false (Nat.not_lt.mpr h), Bool.and_false]
  show execXtalDelayExpiry c s = _
  simp only [execXtalDelayExpiry, hno, Bool.false_eq_true, if_false]

/-- A check counts an attempt; one whose count is right moves the always-on clock to the crystal. -/
theorem exec_xtalDelayExpiry_check (hc : s.checking = true) (hn : s.rd D.XTAL_ATTEMPTS 0 < 3) : exec (.xtalDelayExpiry c) s = .next
    (if 159 ≤ c.toNat ∧ c.toNat ≤ 169 then
       (((s.count D.XTAL_ATTEMPTS 0 1).wr D.XTAL_CHECK_COUNT 0 c.toNat).wr D.AO_CLOCK_SOURCE 0 1).swNormal 0
     else s.count D.XTAL_ATTEMPTS 0 1) := by
  show execXtalDelayExpiry c s = _
  simp only [execXtalDelayExpiry, hc, hn, decide_true, Bool.and_self, if_true, apply_ite Host.Outcome.next]

theorem exec_xtalRestart_third (hc : s.checking = true) (hn : s.rd D.XTAL_ATTEMPTS 0 = 3) : exec .xtalRestart s =
    .next (({ s with boot := { s.boot with xtalFails := s.boot.xtalFails + 1 } } : State).wr D.XTAL_ATTEMPTS 0 0) := by
  show execXtalRestart s = _
  simp only [execXtalRestart, hc, hn, beq_self_eq_true, Bool.and_self, if_true]

theorem exec_xtalRestart_none (hc : s.checking = false) : exec .xtalRestart s = .next s := by
  show execXtalRestart s = _
  simp only [execXtalRestart, hc, Bool.false_and, Bool.false_eq_true, if_false]

end Crystal

/-! ### The end of a stage (R386 to R388) -/

section Stages

variable {s : State} {o : StageOutcome}

/-- What the end of stage `g` does. -/
def State.stageEnd (s : State) (o : StageOutcome) : Nat → State
  | 0 => s.end0 o
  | 1 => s.end1 o
  | 2 => s.end2 o
  | 3 => s.end3 o
  | 4 => s.end4 o
  | 5 => s.end5 o
  | 6 => s.end6 o
  | 7 => s.end7 o
  | 8 => s.end8 o
  | 9 => s.end9 o
  | _ => s.end10 o

theorem exec_bootStageEnd_none (h : s.heldOff = true ∨ s.rdB D.BOOT_HALTED 0 = true ∨ s.started = true) : exec (.bootStageEnd o) s = .next s :=
  if_pos (by simpa only [Bool.or_eq_true, or_assoc] using h)

/-- The end of a stage acts on the stage that runs. -/
theorem exec_bootStageEnd_runs {g : Nat} (hh : s.heldOff = false) (hb : s.rdB D.BOOT_HALTED 0 = false) (hs : s.started = false)
    (hg : s.rd D.BOOT_STAGE 0 = g) : exec (.bootStageEnd o) s = .next (s.stageEnd o g) := by
  show execBootStageEnd o s = _
  simp only [execBootStageEnd, hh, hb, hs, Bool.or_self, Bool.false_eq_true, if_false, hg]
  rcases Nat.lt_or_ge g 10 with hlt | hge
  · interval_cases g <;> rfl
  · obtain ⟨k, rfl⟩ := Nat.exists_eq_add_of_le' hge
    rfl

theorem State.stageEnd_last {g : Nat} (h : 10 ≤ g) : s.stageEnd o g = s.end10 o := by
  obtain ⟨k, rfl⟩ := Nat.exists_eq_add_of_le' h
  rfl

theorem State.end1_unchecked (h : s.rd D.AO_CLOCK_SOURCE 0 = 0) : s.end1 o = s := if_pos h

/-- Stage 1 ends in stage 2 with gate time at 0 and running (R207). -/
theorem State.end1_checked (h : s.rd D.AO_CLOCK_SOURCE 0 ≠ 0) :
    ∃ u : State, s.end1 o = { u.wr D.BOOT_STAGE 0 2 with gate := 0, gateRun := true } :=
  ⟨_, if_neg h⟩

theorem State.rd_end0_stage (h : o.fuseCopiesAgree = true) : (s.end0 o).rd D.BOOT_STAGE 0 = 1 := by
  simp only [State.end0, h, if_true, State.rd_wr_same]

theorem State.rd_halt_halted (s : State) (ao cause detail : Nat) : (s.halt ao cause detail).rd D.BOOT_HALTED 0 = 1 := State.rd_wr_same ..

theorem State.rd_end0_halted (h : o.fuseCopiesAgree = false) : (s.end0 o).rd D.BOOT_HALTED 0 = 1 := by
  simp only [State.end0, h, Bool.false_eq_true, if_false, State.rd_halt_halted]

theorem State.rd_end9_stage : (s.end9 o).rd D.BOOT_STAGE 0 = 10 := State.rd_wr_same ..

end Stages

/-! ### Firmware banks, attestation and the watchdog (R392, R393, R408, R414) -/

section Firmware

variable {s : State} {w : OdWrite}

theorem exec_fwBankProgrammed_none {b : Fin 2} {v : Bool} {img : BankImage} (h : s.rd D.FW_BANK_STATE b.val ≠ 3) :
    exec (.fwBankProgrammed b v img) s = .next s := if_neg h

theorem exec_fwBankProgrammed_written {b : Fin 2} {v : Bool} {img : BankImage} (h : s.rd D.FW_BANK_STATE b.val = 3) :
    exec (.fwBankProgrammed b v img) s =
      .next ((({ s with boot := { s.boot with nor := Table.set blankImage b.val img s.boot.nor } } : State).wr D.FW_BANK_STATE b
        (if v then 1 else 2)).wr D.FW_BANK_SVN b img.svn.toNat) := if_pos h

theorem exec_fwMinSvn (ht : s.takes D.FW_MIN_SVN 0 w = true) : exec (.fwMinSvn w) s = .next (s.ownMinSvn w) := State.odCmd_takes ht _ _

theorem State.ownMinSvn_below (h : odNum w < s.rd D.FW_MIN_SVN 0) : s.ownMinSvn w = s.odFail St.OD_RANGE := if_pos h

theorem State.ownMinSvn_set (h : s.rd D.FW_MIN_SVN 0 ≤ odNum w) : s.ownMinSvn w = (s.wr D.FW_MIN_SVN 0 (odNum w)).odDone :=
  if_neg (Nat.not_lt.mpr h)

theorem exec_attestNonce (ht : s.takes D.ATTEST_NONCE 0 w = true) : exec (.attestNonce w) s = .next (s.ownNonce w) := State.odCmd_takes ht _ _

theorem exec_attestReportReady_none (h : s.boot.attest = false) : exec .attestReportReady s = .next s := by
  show execAttestReportReady s = _
  simp only [execAttestReportReady, h, Bool.false_eq_true, if_false]

/-- The report that a nonce has asked for is the body of Table 15.12 with its signature. -/
theorem exec_attestReportReady_asked (h : s.boot.attest = true) : exec .attestReportReady s =
    .next ((({ s with boot := { s.boot with attest := false } } : State).wr D.ATTEST_REPORT 0
      (s.attestBody + ed448Sign Config.identityKey 576 s.attestBody * 2 ^ 4608)).wrLen D.ATTEST_REPORT 0 690) := if_pos h

theorem State.rdLen_wrLen_same (s : State) {o : Obj} (h : o.fixed = false) (i n : Nat) : (s.wrLen o i n).rdLen o i = n := by
  simp [State.rdLen, State.wrLen, h]

theorem exec_uttexWatchdog_down (h : s.odUp = false) : exec .uttexWatchdog s = .next s := by
  show execUttexWatchdog s = _
  simp only [execUttexWatchdog, h, Bool.not_false, if_true]

/-- An expiry is noted for the log; the second in the time of R408 restarts the device, the first holds the links. -/
theorem exec_uttexWatchdog_up {u : State} (h : s.odUp = true) (hu : u = { s with boot := { s.boot with wdtLog := true } }) :
    exec .uttexWatchdog s =
      .next (if s.wdtSecond then u.restart 4 else { u.linkHold 4 with boot := { (u.linkHold 4).boot with wdt := some none } }) := by
  subst hu
  show execUttexWatchdog s = _
  simp only [execUttexWatchdog, h, Bool.not_true, Bool.false_eq_true, if_false, apply_ite Host.Outcome.next]

end Firmware

/-- Settles O59: each part is the lemmas above about its command or operation. -/
theorem startUpCommands : Obligations.StartUpCommands := by
  unfold Obligations.StartUpCommands
  refine ⟨?powerOn, ?restart, ?crystal, ?stages, ?bank, ?minSvn, ?nonce, ?report, ?watchdog⟩
  case powerOn =>
    refine fun x s => ⟨_, exec_powerOn, ?_, rfl, rfl, State.rd_wr_same .., rfl, rfl, rfl, s.restart_pending 0⟩
    exact (State.rd_wr_key _ (by decide) ..).trans (s.rd_restart_stage 0)
  case restart =>
    exact fun cause s => ⟨_, rfl, State.rd_wr_same .., s.rd_restart_stage cause, rfl, rfl, rfl, rfl, s.restart_flog cause,
      s.restart_pending cause⟩
  case crystal =>
    refine fun c s => ⟨exec_xtalDelayExpiry_none, fun hc hn hlo hhi => ?_, fun hc hn hout => ?_,
      fun hc hn => ⟨_, exec_xtalRestart_third hc hn, State.rd_wr_same .., rfl⟩, exec_xtalRestart_none⟩
    · rw [exec_xtalDelayExpiry_check hc hn, if_pos ⟨hlo, hhi⟩]
    · rw [exec_xtalDelayExpiry_check hc hn, if_neg (by omega)]
  case stages =>
    refine fun o s => ⟨exec_bootStageEnd_none, fun hh hb hs => ?runs, State.rd_end0_stage, State.rd_end0_halted, State.rd_end9_stage⟩
    have hrun : ∀ {g}, s.rd D.BOOT_STAGE 0 = g → exec (.bootStageEnd o) s = .next (s.stageEnd o g) := exec_bootStageEnd_runs hh hb hs
    refine ⟨hrun, fun hg hx => ?unchecked, fun hg hx => ?checked, hrun, hrun, hrun, hrun, hrun, hrun, hrun, hrun,
      fun hg => (hrun rfl).trans (congrArg _ (State.stageEnd_last hg))⟩
    case unchecked => exact (hrun hg).trans (congrArg _ (State.end1_unchecked hx))
    case checked =>
      obtain ⟨u, hu⟩ := State.end1_checked (o := o) hx
      exact ⟨_, (hrun hg).trans (congrArg _ hu), rfl, rfl, State.rd_wr_same u D.BOOT_STAGE 0 2⟩
  case bank =>
    refine fun b v img s => ⟨exec_fwBankProgrammed_none, fun h => ⟨_, exec_fwBankProgrammed_written h, ?_,
      State.rd_wr_same .., Table.get_set_same ..⟩⟩
    rw [State.rd_wr_key _ (by decide), State.rd_wr_same]
  case minSvn =>
    refine fun w s ht => ⟨fun h => takes_refuses ht ((exec_fwMinSvn ht).trans (congrArg _ (State.ownMinSvn_below h))) (by decide), fun h => ?_⟩
    rw [exec_fwMinSvn ht, State.ownMinSvn_set h, State.odDone_idle (t := s.wr D.FW_MIN_SVN 0 (odNum w)) (State.takes_idle ht).1 rfl rfl]
    rfl
  case nonce =>
    intro w s ht
    have hdone : s.ownNonce w = _ := State.odDone_idle (State.takes_idle ht).1 rfl rfl
    exact ⟨_, (exec_attestNonce ht).trans (congrArg _ hdone), State.rd_wr_same s D.ATTEST_NONCE 0 (odNum w), rfl, rfl⟩
  case report =>
    refine fun s => ⟨exec_attestReportReady_none, fun h => ⟨_, exec_attestReportReady_asked h, rfl,
      State.rdLen_wrLen_same _ (by decide) .., ?_⟩⟩
    rw [State.rd_wrLen, State.rd_wr_same]
  case watchdog =>
    refine fun s => ⟨exec_uttexWatchdog_down, fun h => ⟨_, rfl, fun h2 => ?_, fun h2 => ?_⟩⟩
    · rw [exec_uttexWatchdog_up h rfl, if_pos h2]
    · rw [exec_uttexWatchdog_up h rfl, h2]
      rfl

end Sys2Proof.Machine
end

section
/-! SUPPORT. The refresh of the regulation points (R234, R246), admission under R237, miss credits (R250) and a step of the estimators (R242). -/

namespace Sys2Proof.Machine

/-! ### The refresh of the points -/

theorem raiseKeys_regKeys : ∀ k, k ∈ raiseKeys → k ∈ regKeys := by simp [raiseKeys, regKeys]

/-- A change of the scale factor is reported, and nothing else. -/
theorem State.scaleEvent_reports (s : State) (kind point old new : Nat) : Tells raiseKeys s (s.scaleEvent kind point old new) := by
  unfold State.scaleEvent
  split
  · exact .refl ..
  · split <;> exact (Tells.refl ..).raise (fun _ h => h) ..

theorem Tells.scaleEvent {s t : State} (h : Tells regKeys s t) (kind point old new : Nat) : Tells regKeys s (t.scaleEvent kind point old new) :=
  have hev := t.scaleEvent_reports kind point old new
  h.trans ⟨hev.rest, hev.keys.mono raiseKeys_regKeys⟩

theorem State.refreshGroup_publishes (s : State) (m : Nat) : Tells regKeys s (s.refreshGroup m) := by
  unfold State.refreshGroup
  split
  · exact (((Tells.refl ..).wr (by decide) ..).wr (by decide) ..).scaleEvent ..
  · exact .refl ..

theorem State.refreshLink_publishes (s : State) (n : Nat) : Tells regKeys s (s.refreshLink n) := by
  unfold State.refreshLink
  split
  · exact (((Tells.refl ..).wr (by decide) ..).wr (by decide) ..).scaleEvent ..
  · exact .refl ..

/-- Publishing every point changes the capacities, the scales and what reports change. -/
theorem State.refreshPoints_publish (s : State) : Tells regKeys s s.refreshGroups.refreshLinks :=
  (Tells.foldl State.refreshGroup_publishes (List.range 32) s).trans (Tells.foldl State.refreshLink_publishes (List.range 64) s.refreshGroups)

/-! ### Admission -/

section Admission

variable {s t : State} {o : Obj} {i : Nat} {w : OdWrite}

theorem State.ownAdmit_exceeds (hwr : t = s.wr o i (odNum w)) (h : memExceeds s t = true ∨ linkExceeds s t = true) :
    s.ownAdmit o i w = s.odFail St.GUARANTEE_EXCEEDED := by
  subst hwr
  exact if_pos (by simpa using h)

theorem State.ownAdmit_within (hwr : t = s.wr o i (odNum w)) (hm : memExceeds s t = false) (hl : linkExceeds s t = false) :
    s.ownAdmit o i w = (s.setObj o i w).refreshGroups.refreshLinks.odDone := by
  subst hwr
  exact if_neg (by simp [hm, hl])

/-- Once the object is set, publishing the points and answering keeps its value, for it is no object of a point. -/
theorem State.setObj_tells_admits (hf : s.odFree = true) (hs : objKey o ≠ objKey D.STORE_STATE) (hr : objKey o ∉ regKeys)
    (ht : Tells regKeys (s.setObj o i w) t) : Admits s t.odDone o i (odNum w) := by
  obtain ⟨hwait, hrun, -⟩ := s.setObj_od hs i w
  have hwait' : t.odWait = s.odWait := by rw [ht.rest, hwait]
  have hrun' : t.odRun = s.odRun := by rw [ht.rest, hrun]
  rw [State.odDone_idle hf hwait' hrun']
  refine ⟨(ht.rd hr i).trans (s.setObj_sets hs i w).value, List.getLast?_concat .., fun o' j hn => ?_⟩
  obtain ⟨hne, hstore, hreg⟩ : objKey o' ≠ objKey o ∧ objKey o' ≠ objKey D.STORE_STATE ∧ objKey o' ∉ regKeys := by
    rwa [List.mem_cons, not_or, List.mem_cons, not_or] at hn
  exact (ht.rd hreg j).trans (s.rd_setObj_key hs hne hstore i j w)

variable {c : Instr} (ht : s.takes o i w = true) (hs : objKey o ≠ objKey D.STORE_STATE) (hr : objKey o ∉ regKeys)
include ht

/-- A write under R237 is refused where a sum would exceed its capacity. -/
theorem exec_admit_exceeds (hc : exec c s = .next (s.ownAdmit o i w)) (hwr : t = s.wr o i (odNum w))
    (h : memExceeds s t = true ∨ linkExceeds s t = true) : ∃ u, exec c s = .next u ∧ Refuses s u St.GUARANTEE_EXCEEDED :=
  takes_refuses ht (hc.trans (congrArg _ (State.ownAdmit_exceeds hwr h))) (by decide)

include hs hr

/-- Where no sum would exceed its capacity, it is applied and published. -/
theorem exec_admit_within (hc : exec c s = .next (s.ownAdmit o i w)) (hwr : t = s.wr o i (odNum w)) (hm : memExceeds s t = false)
    (hl : linkExceeds s t = false) : ∃ u, exec c s = .next u ∧ Admits s u o i (odNum w) :=
  ⟨_, hc.trans (congrArg _ (State.ownAdmit_within hwr hm hl)), State.setObj_tells_admits (State.takes_idle ht).1 hs hr (State.refreshPoints_publish _)⟩

/-- The two outcomes of R237. -/
theorem exec_admit (hc : exec c s = .next (s.ownAdmit o i w)) (hwr : t = s.wr o i (odNum w)) :
    (memExceeds s t = true ∨ linkExceeds s t = true → ∃ u, exec c s = .next u ∧ Refuses s u St.GUARANTEE_EXCEEDED) ∧
    (memExceeds s t = false → linkExceeds s t = false → ∃ u, exec c s = .next u ∧ Admits s u o i (odNum w)) :=
  ⟨exec_admit_exceeds ht hc hwr, exec_admit_within ht hs hr hc hwr⟩

/-- A mask is first checked for bits of absent units; then the outcomes are those of any write under R237. -/
theorem exec_mask {present : Nat} (hc : exec c s = .next (s.ownMask o i w present)) (hwr : t = s.wr o i (odNum w)) :
    (odNum w &&& present ≠ odNum w → ∃ u, exec c s = .next u ∧ u.out = s.out ++ [.od St.UNIT_ABSENT 0 0] ∧
      ObjsBut s u [(objKey D.UNIT_ABSENT_COUNT, 0)]) ∧
    (odNum w &&& present = odNum w → memExceeds s t = true ∨ linkExceeds s t = true →
      ∃ u, exec c s = .next u ∧ Refuses s u St.GUARANTEE_EXCEEDED) ∧
    (odNum w &&& present = odNum w → memExceeds s t = false → linkExceeds s t = false →
      ∃ u, exec c s = .next u ∧ Admits s u o i (odNum w)) := by
  have hpresent (h : odNum w &&& present = odNum w) : exec c s = .next (s.ownAdmit o i w) := hc.trans (congrArg _ (if_pos h))
  refine ⟨fun h => ?absent, fun h => exec_admit_exceeds ht (hpresent h) hwr, fun h => exec_admit_within ht hs hr (hpresent h) hwr⟩
  case absent =>
    obtain ⟨u, hfail, hout, hobjs⟩ := takes_absent ht
    exact ⟨u, hc.trans (congrArg _ ((if_neg h).trans hfail)), hout, hobjs⟩

end Admission

/-! ### Writes that raise no sum -/

section Sums

variable {s : State} {o : Obj} (i v : Nat)

theorem State.memSum_wr (hmask : objKey D.MEM_GROUP_MASK ≠ objKey o) (hg : objKey D.MEM_GUARANTEE ≠ objKey o) (m : Nat) :
    (s.wr o i v).memSum m = s.memSum m := by
  simp only [State.memSum, State.memG, s.rd_wr_key hmask, s.rd_wr_key hg]

theorem State.linkSum_wr (hmask : objKey D.LINK_MASK ≠ objKey o) (hg : objKey D.LINK_GUARANTEE ≠ objKey o) (n : Nat) :
    (s.wr o i v).linkSum n = s.linkSum n := by
  simp only [State.linkSum, State.linkG, s.rd_wr_key hmask, s.rd_wr_key hg]

theorem memExceeds_of_sums {s t : State} (h : ∀ m, t.memSum m = s.memSum m) : memExceeds s t = false := by simp [memExceeds, h]

theorem linkExceeds_of_sums {s t : State} (h : ∀ n, t.linkSum n = s.linkSum n) : linkExceeds s t = false := by simp [linkExceeds, h]

end Sums

/-- A write of an object that is no guarantee and no mask raises no sum, so R237 admits it. -/
theorem exec_admit_noSum {s : State} {o : Obj} {i : Nat} {w : OdWrite} {c : Instr} (ht : s.takes o i w = true)
    (hs : objKey o ≠ objKey D.STORE_STATE) (hr : objKey o ∉ regKeys)
    (hg : ∀ k ∈ [D.MEM_GROUP_MASK, D.MEM_GUARANTEE, D.LINK_MASK, D.LINK_GUARANTEE], objKey k ≠ objKey o)
    (hc : exec c s = .next (s.ownAdmit o i w)) : ∃ u, exec c s = .next u ∧ Admits s u o i (odNum w) :=
  exec_admit_within ht hs hr hc rfl
    (memExceeds_of_sums (State.memSum_wr i _ (hg _ (by simp)) (hg _ (by simp))))
    (linkExceeds_of_sums (State.linkSum_wr i _ (hg _ (by simp)) (hg _ (by simp))))

/-! ### Miss credits -/

section Credits

variable {s : State} {c : Fin 64} {w : OdWrite}

theorem exec_classMissMin (ht : s.takes D.CLASS_MISS_MIN c w = true) : exec (.classMissMin c w) s = .next (s.ownMissMin c w) :=
  State.odCmd_takes ht _ _

theorem State.ownMissMin_exceeds {c : Nat} (h : 96 < (s.wr D.CLASS_MISS_MIN c (odNum w)).missMinSum ∨ s.rd D.CLASS_MISS_MAX c < odNum w) :
    s.ownMissMin c w = s.odFail St.CREDIT_EXCEEDED := if_pos h

theorem State.ownMissMin_set {c : Nat} (hsum : (s.wr D.CLASS_MISS_MIN c (odNum w)).missMinSum ≤ 96) (hmax : odNum w ≤ s.rd D.CLASS_MISS_MAX c) :
    s.ownMissMin c w = s.odSet D.CLASS_MISS_MIN c w := if_neg (not_or.mpr ⟨Nat.not_lt.mpr hsum, Nat.not_lt.mpr hmax⟩)

theorem exec_classMissMax (ht : s.takes D.CLASS_MISS_MAX c w = true) : exec (.classMissMax c w) s = .next (s.ownMissMax c w) :=
  State.odCmd_takes ht _ _

theorem State.ownMissMax_exceeds {c : Nat} (h : odNum w < s.rd D.CLASS_MISS_MIN c) : s.ownMissMax c w = s.odFail St.CREDIT_EXCEEDED := if_pos h

theorem State.ownMissMax_set {c : Nat} (h : s.rd D.CLASS_MISS_MIN c ≤ odNum w) : s.ownMissMax c w = s.odSet D.CLASS_MISS_MAX c w :=
  if_neg (Nat.not_lt.mpr h)

end Credits

/-! ### The estimators -/

/-- An estimator's next value is its average, rounded down or up. -/
theorem State.estStep_rounds (s : State) (k e b : Nat) :
    estSum e b / 10 ^ 18 ≤ s.estStep k e b ∧ 10 ^ 18 * s.estStep k e b < estSum e b + 10 ^ 18 := by
  unfold State.estStep
  split
  · omega
  · omega

/-- `u` with the first `n` estimators of object `o`, which count from `base` in `s.served`, taken one step. -/
def State.estSteps (s : State) (o : Obj) (base n : Nat) (u : State) : State :=
  (List.range n).foldl (fun v i => v.wr o i (s.estStep (base + i) (v.rd o i) (Table.get 0 (base + i) s.served))) u

section Steps

variable (s u : State) (o : Obj) (base n : Nat)

theorem State.estSteps_keys : KeysBut u (s.estSteps o base n u) [objKey o] := by
  unfold State.estSteps
  exact KeysBut.foldl (fun t _ => (KeysBut.refl t _).wr (List.mem_singleton.mpr rfl) _ _) _ _

theorem State.rd_estSteps {i : Nat} (h : i < n) :
    (s.estSteps o base n u).rd o i = s.estStep (base + i) (u.rd o i) (Table.get 0 (base + i) s.served) := by
  obtain ⟨-, -, hread, -, -⟩ :=
    range_foldl_wr o (fun _ i e => s.estStep (base + i) e (Table.get 0 (base + i) s.served)) (fun _ _ _ _ _ => rfl) n u
  exact hread i h

end Steps

theorem State.rd_served_freeCtr (s : State) (l : List (Nat × Nat)) (n : Nat) (o : Obj) (i : Nat) :
    ({ s with served := l, freeCtr := n } : State).rd o i = s.rd o i := rfl

/-- Every estimator taken one step. -/
def State.estUpdated (s : State) : State := s.estSteps D.LINK_BW_EST 2048 4096 (s.estSteps D.MEM_BW_EST 0 2048 s)

section Updated

variable (s : State)

theorem State.rd_estUpdated_mem {i : Nat} (h : i < 2048) :
    s.estUpdated.rd D.MEM_BW_EST i = s.estStep i (s.rd D.MEM_BW_EST i) (Table.get 0 i s.served) := by
  have hlink : s.estUpdated.rd D.MEM_BW_EST i = _ := s.estSteps_keys _ D.LINK_BW_EST 2048 4096 D.MEM_BW_EST i (by decide)
  rw [hlink, s.rd_estSteps _ _ _ _ h, Nat.zero_add]

theorem State.rd_estUpdated_link {i : Nat} (h : i < 4096) :
    s.estUpdated.rd D.LINK_BW_EST i = s.estStep (2048 + i) (s.rd D.LINK_BW_EST i) (Table.get 0 (2048 + i) s.served) := by
  rw [State.estUpdated, s.rd_estSteps _ _ _ _ h, s.estSteps_keys s D.MEM_BW_EST 0 2048 D.LINK_BW_EST i (by decide)]

theorem State.estUpdated_keys : KeysBut s s.estUpdated [objKey D.MEM_BW_EST, objKey D.LINK_BW_EST] :=
  ((s.estSteps_keys s D.MEM_BW_EST 0 2048).mono (by simp)).trans ((s.estSteps_keys _ D.LINK_BW_EST 2048 4096).mono (by simp))

theorem exec_bwEstimateUpdate : exec .bwEstimateUpdate s = .next { s.estUpdated with served := [], freeCtr := s.freeCtr + 6144 } := by
  show execBwEstimateUpdate s = _
  simp only [execBwEstimateUpdate, State.estUpdated, State.estSteps, Nat.zero_add]

end Updated

/-- Settles O49: guarantees, masks and efficiencies are writes under R237 (`exec_admit`, `exec_mask`, `exec_admit_noSum`), the miss credits are one
lemma per outcome, and an update of the estimators is one step of each (`estStep_rounds`). -/
theorem regulationWrites : Obligations.RegulationWrites := by
  unfold Obligations.RegulationWrites
  refine ⟨fun c w s t ht hwr => ?memGuarantee, fun c w s t ht hwr => ?linkGuarantee, fun c w s t ht hwr => ?memMask, fun c w s t ht hwr => ?linkMask,
    fun w s ht => ?memEfficiency, fun w s ht => ?linkEfficiency, fun c w s ht => ⟨fun h => ?minExceeds, fun hsum hmax => ?minSet⟩,
    fun c w s ht => ⟨fun h => ?maxExceeds, fun h => ?maxSet⟩, fun s => ?estimators⟩
  case memGuarantee => exact exec_admit ht (by decide) (by decide) (State.odCmd_takes ht _ _) hwr
  case linkGuarantee => exact exec_admit ht (by decide) (by decide) (State.odCmd_takes ht _ _) hwr
  case memMask => exact exec_mask ht (by decide) (by decide) (State.odCmd_takes ht _ _) hwr
  case linkMask => exact exec_mask ht (by decide) (by decide) (State.odCmd_takes ht _ _) hwr
  case memEfficiency => exact exec_admit_noSum ht (by decide) (by decide) (by decide) (State.odCmd_takes ht _ _)
  case linkEfficiency => exact exec_admit_noSum ht (by decide) (by decide) (by decide) (State.odCmd_takes ht _ _)
  case minExceeds => exact takes_refuses ht ((exec_classMissMin ht).trans (congrArg _ (State.ownMissMin_exceeds h))) (by decide)
  case minSet => exact takes_sets ht ((exec_classMissMin ht).trans (congrArg _ (State.ownMissMin_set hsum hmax))) (by decide)
  case maxExceeds => exact takes_refuses ht ((exec_classMissMax ht).trans (congrArg _ (State.ownMissMax_exceeds h))) (by decide)
  case maxSet => exact takes_sets ht ((exec_classMissMax ht).trans (congrArg _ (State.ownMissMax_set h))) (by decide)
  case estimators =>
    refine ⟨_, exec_bwEstimateUpdate s, rfl, fun i hi => ?mem, fun i hi => ?link, fun o i hk => ?keys⟩
    all_goals rw [State.rd_served_freeCtr s.estUpdated]
    case mem => rw [s.rd_estUpdated_mem hi]; exact s.estStep_rounds ..
    case link => rw [s.rd_estUpdated_link hi]; exact s.estStep_rounds ..
    case keys => exact s.estUpdated_keys o i hk

end Sys2Proof.Machine
end

section
/-! SUPPORT. The bring-up of an attach port: RESET, TRAIN, PARAM, and ACTIVE or DOWN (R257, R258). -/

namespace Sys2Proof.Machine

@[simp] theorem State.cur_enforce (s : State) (o : Obj) (i : Nat) : (s.enforce o i).cur o i = s.rd o i := by
  simp [State.cur, State.enforce]

section BringUp

variable {s : State} {i : Fin 512}

theorem exec_attachResetTimer (h : s.rd D.ATTACH_STATE i = 1) : exec (.attachResetTimer i) s = .next (s.wr D.ATTACH_STATE i 2) :=
  if_pos (beq_iff_eq.mpr h)

theorem exec_attachTrainDone (h : s.rd D.ATTACH_STATE i = 2) : exec (.attachTrainDone i) s = .next (s.enterParam i) := if_pos (beq_iff_eq.mpr h)

theorem exec_attachTrainTimeout (h : s.rd D.ATTACH_STATE i = 2) : exec (.attachTrainTimeout i) s = .next (s.portDown i 1) :=
  if_pos (beq_iff_eq.mpr h)

theorem exec_attachParamTimeout (h : s.rd D.ATTACH_STATE i = 3) : exec (.attachParamTimeout i) s = .next (s.portDown i 1) :=
  if_pos (beq_iff_eq.mpr h)

/-- PARAM is entered by one object write, the credits' coming into force, and one flit. -/
theorem State.enterParam_eq (s : State) (i : Nat) : ∃ f, s.enterParam i =
    ((s.enforce D.ATTACH_REQ_CREDITS i).wr D.ATTACH_STATE i 3).emit (.attachFlit i f) := ⟨_, rfl⟩

/-- The parameters agree: the port is ACTIVE with nothing sent or received yet, the die's credit and its identity. -/
def State.paramAgreed (s : State) (i credit die : Nat) : State :=
  ((s.setPort i { Port.init with ntfGrant := credit }).wr D.ATTACH_DIE_ID i die).wr D.ATTACH_STATE i 4

theorem State.paramAgreed_objs (s : State) (i credit die : Nat) :
    ObjsBut s (s.paramAgreed i credit die) [(objKey D.ATTACH_STATE, i), (objKey D.ATTACH_DIE_ID, i)] :=
  ((ObjsBut.congr (t := s.setPort i _) rfl rfl _).wr (by simp) die).wr (by simp) 4

section Param

variable {flit : BitVec 2048} (h : s.rd D.ATTACH_STATE i = 3) (ht : fhType flit.toNat = 1) (hg : flitGood flit.toNat = true)
include h ht hg

theorem exec_attachParamFlit_agrees (hv : bits (bytesOf flit.toNat 16 16) 15 0 = 1) (hc : 64 ≤ bits (bytesOf flit.toNat 16 16) 31 16) :
    exec (.attachParamFlit i flit) s =
      .next ((s.paramAgreed i (bits (bytesOf flit.toNat 16 16) 31 16) (bits (bytesOf flit.toNat 16 16) 127 64)).sbPorts i) := by
  have hfit : (bits (bytesOf flit.toNat 16 16) 15 0 != 1 || decide (bits (bytesOf flit.toNat 16 16) 31 16 < 64)) = false := by
    simp [hv, Nat.not_lt.mpr hc]
  show execAttachParamFlit i flit s = _
  simp only [execAttachParamFlit, h, ht, hg, hfit, beq_self_eq_true, Bool.and_self, if_true, Bool.false_eq_true, if_false]
  rfl

theorem exec_attachParamFlit_mismatch (hbad : bits (bytesOf flit.toNat 16 16) 15 0 ≠ 1 ∨ bits (bytesOf flit.toNat 16 16) 31 16 < 64) :
    exec (.attachParamFlit i flit) s = .next (s.portDown i 7) := by
  have hmis : (bits (bytesOf flit.toNat 16 16) 15 0 != 1 || decide (bits (bytesOf flit.toNat 16 16) 31 16 < 64)) = true := by
    simpa using hbad
  show execAttachParamFlit i flit s = _
  simp only [execAttachParamFlit, h, ht, hg, hmis, beq_self_eq_true, Bool.and_self, if_true]

end Param

end BringUp

/-- Settles O15: what takes a port DOWN is `State.portDown_spec`, entering PARAM is `enterParam_eq`, and agreed parameters are `paramAgreed`. -/
theorem attachPortTraining : Obligations.AttachPortTraining := by
  unfold Obligations.AttachPortTraining
  refine ⟨fun i s h => exec_attachResetTimer h, fun i s h => ?trained, fun i s h => ⟨_, exec_attachTrainTimeout h, s.portDown_spec i 1⟩,
    fun i s h => ⟨_, exec_attachParamTimeout h, s.portDown_spec i 1⟩, fun i flit s h ht hg hv hc => ?agrees, fun i flit s h ht hg hbad => ?mismatch⟩
  case trained =>
    obtain ⟨f, hparam⟩ := s.enterParam_eq i
    refine ⟨_, (exec_attachTrainDone h).trans (congrArg _ hparam), ?state, s.cur_enforce .., ⟨f, rfl⟩, ?objs, rfl⟩
    case state => rw [State.rd_emit, State.rd_wr_same]
    case objs => exact ((ObjsBut.congr (t := s.enforce D.ATTACH_REQ_CREDITS i) rfl rfl _).wr (List.mem_singleton.mpr rfl) 3).trans (.congr rfl rfl _)
  case agrees =>
    refine ⟨_, exec_attachParamFlit_agrees h ht hg hv hc, ?state, ?identity, ?port, fun o j hn => ?objs, State.sbPorts_mem .., State.sbPorts_events ..⟩
    case state => rw [State.sbPorts_rd]; exact State.rd_wr_same ..
    case identity => rw [State.sbPorts_rd, State.paramAgreed, State.rd_wr_key _ (by decide), State.rd_wr_same]
    case port => rw [State.sbPorts_port]; exact State.port_setPort ..
    case objs => rw [State.sbPorts_rd]; exact s.paramAgreed_objs _ _ _ o j hn
  case mismatch =>
    obtain ⟨hstate, hcause, -⟩ := s.portDown_spec i 7
    exact ⟨_, exec_attachParamFlit_mismatch h ht hg hbad, hstate, hcause⟩

end Sys2Proof.Machine
end

section
/-! SUPPORT. Flits, notifications and the reset of an ACTIVE attach port (R254 to R256, R258; a notification leaves however many flits are
unacknowledged, log 20). -/

namespace Sys2Proof.Machine

section Flits

variable {s : State} {i : Fin 512} {flit : BitVec 2048}

/-- A flit that carries no NAK only moves ACK and CREDIT. -/
theorem State.flitApply_noNak {h : Nat} (s : State) (i : Nat) (hn : fhNak h = false) : s.flitApply i h = s.setPort i { s.port i with
    dieAck := fhAck h, unacked := (s.port i).unacked - (fhAck h + 4096 - (s.port i).dieAck) % 4096, ntfFreed := fhCredit h } := by
  simp only [State.flitApply, hn, Bool.false_eq_true, if_false]

theorem exec_attachDataFlit_badCrc (h : s.rd D.ATTACH_STATE i = 4) (ht : fhType flit.toNat = 0) (hg : flitGood flit.toNat = false) :
    exec (.attachDataFlit i flit) s = .next (s.flitDiscard i) := by
  show execAttachDataFlit i flit s = _
  simp only [execAttachDataFlit, h, ht, hg, bne_self_eq_false, Bool.or_self, Bool.false_eq_true, if_false, Bool.not_false, if_true]

/-- With a good CRC the header acts first; a port still ACTIVE then takes the flit that is next in sequence and no other. -/
theorem exec_attachDataFlit_goodCrc (h : s.rd D.ATTACH_STATE i = 4) (ht : fhType flit.toNat = 0) (hg : flitGood flit.toNat = true)
    (hup : (s.flitApply i flit.toNat).rd D.ATTACH_STATE i = 4) : exec (.attachDataFlit i flit) s = .next
      (if fhSeq flit.toNat = ((s.flitApply i flit.toNat).port i).rxSeq then (s.flitApply i flit.toNat).flitTake i flit.toNat
       else (s.flitApply i flit.toNat).flitDiscard i) := by
  show execAttachDataFlit i flit s = _
  simp only [execAttachDataFlit, h, ht, hg, hup, bne_self_eq_false, Bool.or_self, Bool.false_eq_true, if_false, Bool.not_true,
    apply_ite Host.Outcome.next]

theorem exec_attachNullFlit (h : s.rd D.ATTACH_STATE i = 4) (ht : fhType flit.toNat = 2) (hg : flitGood flit.toNat = true) :
    exec (.attachNullFlit i flit) s = .next (s.flitApply i flit.toNat) := if_pos (by simp [h, ht, hg])

end Flits

/-! ### NTF_SEND -/

theorem State.port_portSent (s : State) (i n : Nat) : (s.portSent i n).port i =
    { s.port i with txSeq := ((s.port i).txSeq + ceilDiv n 15) % 4096, unacked := (s.port i).unacked + ceilDiv n 15 } := State.port_setPort ..

/-- The oldest notification has left the port's list, and its chunks count against the die's credit. -/
def State.ntfTaken (s : State) (i h : Nat) (rest : List (Nat × Nat)) : State :=
  (s.setPort i { s.port i with ntfs := rest, ntfTx := ((s.port i).ntfTx + (1 + mhPch h)) % 2 ^ 16 }).portSent i (1 + mhPch h)

theorem State.ntfTaken_port (s : State) (i h : Nat) (rest : List (Nat × Nat)) : ((s.ntfTaken i h rest).port i).ntfs = rest ∧
    ((s.ntfTaken i h rest).port i).ntfTx = ((s.port i).ntfTx + (1 + mhPch h)) % 2 ^ 16 := by
  rw [State.ntfTaken, State.port_portSent, State.port_setPort]
  exact ⟨rfl, rfl⟩

theorem exec_ntfSend_credit {s : State} {i : Fin 512} {h v : Nat} {rest : List (Nat × Nat)} (hact : s.rd D.ATTACH_STATE i = 4)
    (hn : (s.port i).ntfs = (h, v) :: rest)
    (hc : ((s.port i).ntfTx + 2 ^ 16 - (s.port i).ntfFreed) % 2 ^ 16 + (1 + mhPch h) ≤ (s.port i).ntfGrant) :
    exec (.ntfSend i) s = .next ((s.ntfTaken i h rest).emit (.ntf i h v)) := by
  show execNtfSend i s = _
  simp only [execNtfSend, hn, hact, hc, beq_self_eq_true, decide_true, Bool.and_self, if_true]
  rfl

/-! ### ATTACH_PORT_RESET -/

section Reset

variable {s : State} {i : Fin 512} {w : OdWrite} (ht : s.takes D.ATTACH_PORT_RESET i w = true)

theorem State.ownPortReset_off (h : s.rd D.ATTACH_STATE i = 0) : s.ownPortReset i = s.odDone := by simp only [State.ownPortReset, h]

theorem State.ownPortReset_active (h : s.rd D.ATTACH_STATE i = 4) (hr : (s.port i).resetting = none) :
    s.ownPortReset i = (s.setPort i { s.port i with resetting := some (s.port i).reqFreed }).odDone := by
  simp only [State.ownPortReset, h, hr, Option.isSome_none, Bool.false_eq_true, if_false]

theorem State.ownPortReset_bringUp (h0 : s.rd D.ATTACH_STATE i ≠ 0) (h4 : s.rd D.ATTACH_STATE i ≠ 4) :
    s.ownPortReset i = (s.portReset i).odDone := by
  unfold State.ownPortReset
  split
  next h => exact absurd h h0
  next h => exact absurd h h4
  next => rfl

include ht in
theorem exec_attachPortReset {t : State} (hown : s.ownPortReset i = t.odDone) (hwait : t.odWait = s.odWait) (hrun : t.odRun = s.odRun) :
    exec (.attachPortReset i w) s = .next { t with out := t.out ++ [.od 0 0 0] } :=
  (State.odCmd_takes ht _ _).trans (congrArg _ (hown.trans (State.odDone_idle (State.takes_idle ht).1 hwait hrun)))

/-- The end of the drain: the port enters RESET, and the site's die is told. -/
theorem exec_attachResetDrainEnd (h : s.rd D.ATTACH_STATE i = 4) (hr : (s.port i).resetting.isSome = true) :
    exec (.attachResetDrainEnd i) s = .next (((s.portClear i).portReset i).sbPorts i) := if_pos (by simp [h, hr])

theorem State.portReset_spec (s : State) (i : Nat) : (s.portReset i).rd D.ATTACH_STATE i = 1 ∧ (s.portReset i).port i = Port.init ∧
    (s.portReset i).mem = s.mem := ⟨State.rd_wr_same .., State.port_setPort .., rfl⟩

theorem State.portClear_mem (s : State) (i : Nat) : (s.portClear i).mem = s.mem := by rw [State.portClear_shape]

end Reset

/-- Settles O16: one lemma per flit, per notification and per state that a requested reset meets. -/
theorem attachPortTraffic : Obligations.AttachPortTraffic := by
  unfold Obligations.AttachPortTraffic
  refine ⟨fun i flit s h ht hg hup hseq => ?next, fun i flit s h ht hg hup hseq => ?other, fun i flit s => exec_attachDataFlit_badCrc,
    fun i flit s h ht hg hn => ?noNak, fun i flit s => exec_attachNullFlit, fun i h v rest s hact hn hc => ?notification,
    fun i w s ht h => exec_attachPortReset ht (State.ownPortReset_off h) rfl rfl,
    fun i w s ht h hr => exec_attachPortReset ht (State.ownPortReset_active h hr) rfl rfl,
    fun i w s ht h0 h4 => exec_attachPortReset ht (State.ownPortReset_bringUp h0 h4) rfl rfl, fun i s h hr => ?drained⟩
  case next => rw [exec_attachDataFlit_goodCrc h ht hg hup, if_pos hseq]
  case other => rw [exec_attachDataFlit_goodCrc h ht hg hup, if_neg hseq]
  case noNak => rw [exec_attachNullFlit h ht hg, s.flitApply_noNak i hn]
  case notification =>
    obtain ⟨hntfs, htx⟩ := s.ntfTaken_port i h rest
    exact ⟨_, exec_ntfSend_credit hact hn hc, rfl, hntfs, htx, rfl⟩
  case drained =>
    obtain ⟨hstate, hport, hmem⟩ := (s.portClear i).portReset_spec i
    refine ⟨_, exec_attachResetDrainEnd h hr, ?_, ?_, ?_⟩
    · rw [State.sbPorts_rd, hstate]
    · rw [State.sbPorts_port, hport]
    · rw [State.sbPorts_mem, hmem, State.portClear_mem]

end Sys2Proof.Machine
end

section
/-! SUPPORT. A command whose frame is right runs on the state its carrier leaves: the host port's slot taken (R319, R320), or the attach port's credit
counted (R256, R263). -/

namespace Sys2Proof.Machine

/-! ### Host commands (Table 12.6; window entries are checked as they arrive, log 204) -/

/-- A header that passes the checks of R319 and R320 is stored in its slot, and its command runs. -/
theorem State.hostCmd_runs {s : State} {f slot h op : Nat} (hr : hostRuns s f slot h op = true) (p : Nat) (k : State → State) :
    s.hostCmd f slot h p op k = k (hostTaken s f slot h p) := by
  simp only [hostRuns, Bool.and_eq_true, Bool.not_eq_true', beq_iff_eq] at hr
  obtain ⟨⟨⟨hfn, hown⟩, hset⟩, hst⟩ := hr
  simp only [State.hostCmd, hfn, hown, hset, hst, Bool.not_true, Bool.false_eq_true, if_false]
  rw [hostTaken, hset]

/-- A command that is a host command of operation `op` does what it does to the state with its slot taken. -/
theorem exec_host_runs {s t : State} {f slot h op p : Nat} {c : Instr} {k : State → State} (hr : hostRuns s f slot h op = true)
    (hc : exec c s = .next (s.hostCmd f slot h p op k)) (ht : k (hostTaken s f slot h p) = t) : exec c s = .next t :=
  hc.trans (congrArg _ ((State.hostCmd_runs hr p k).trans ht))

section Windows

variable {s : State} {p g w e fid : Nat} {r : Reply}

theorem State.winInstall_right (h : s.weStatus e = 0) : s.winInstall p g w e fid r = s.wcmd p (.install g w e fid) r := by
  simp only [State.winInstall, h]

theorem State.winInstall_wrong (h : s.weStatus e ≠ 0) : s.winInstall p g w e fid r = s.reply r (s.weStatus e) := by
  unfold State.winInstall
  split
  · contradiction
  · rfl

end Windows

/-- Settles O23: each form is a host command that runs (`exec_host_runs`); RING_READ and WIN_INSTALL then have two outcomes. -/
theorem hostCommandsRun : Obligations.HostCommandsRun := by
  unfold Obligations.HostCommandsRun
  exact fun f k h p s => ⟨fun hr => exec_host_runs hr rfl rfl, fun hr => exec_host_runs hr rfl rfl, fun hr => exec_host_runs hr rfl rfl,
    fun hr hp => exec_host_runs hr rfl (if_pos hp), fun hr hp => exec_host_runs hr rfl (if_neg hp), fun hr => exec_host_runs hr rfl rfl,
    fun hr => exec_host_runs hr rfl rfl, fun hr => exec_host_runs hr rfl rfl, fun hr => exec_host_runs hr rfl rfl,
    fun hr he => exec_host_runs hr rfl (State.winInstall_right he), fun hr he => exec_host_runs hr rfl (State.winInstall_wrong he),
    fun hr => exec_host_runs hr rfl rfl, fun hr => exec_host_runs hr rfl rfl⟩

/-! ### Command messages of an attach port (Table 10.6) -/

/-- A command that is a message of operation `op` does what it does to the state with its chunks counted. -/
theorem exec_message_runs {s t : State} {i op : Nat} {m : Msg} {c : Instr} {k : State → State} (hr : messageRuns s i m op = true)
    (hc : exec c s = .next (s.attachTake i m op k)) (ht : k (received s i m) = t) : exec c s = .next t :=
  hc.trans (congrArg _ ((s.attachTake_runs i m op k hr).trans ht))

theorem State.reqFreed_portSent (t : State) (i n : Nat) : ((t.portSent i n).port i).reqFreed = (t.port i).reqFreed := by
  rw [State.port_portSent]

theorem State.reqFreed_portFree (t : State) (i : Nat) (m : Msg) :
    ((t.portFree i m).port i).reqFreed = ((t.port i).reqFreed + msgChunks m) % 2 ^ 16 := by
  rw [State.portFree, State.port_setPort]

/-- A successful answer is one response message, once the request's chunks are freed (R256, R265). -/
theorem State.attachAnswer_success (t : State) (i : Nat) (m : Msg) (len data : Nat) : t.attachAnswer i m 0 len data =
    ((t.portFree i m).portSent i (1 + ceilDiv len 16)).emit
      (.rsp i (rspHeader (mhTag m.hdr.toNat) 0 (ceilDiv len 16)) (data % 2 ^ (8 * len))) := rfl

theorem State.reqFreed_attachAnswer (t : State) (i : Nat) (m : Msg) (len data : Nat) :
    ((t.attachAnswer i m 0 len data).port i).reqFreed = ((t.port i).reqFreed + msgChunks m) % 2 ^ 16 :=
  (State.reqFreed_portSent (t.portFree i m) i _).trans (t.reqFreed_portFree i m)

/-- Settles O24: each form is a message that runs (`exec_message_runs`), and its answer is `attachAnswer_success`. -/
theorem attachCommandsRun : Obligations.AttachCommandsRun := by
  unfold Obligations.AttachCommandsRun
  exact fun i m s => ⟨fun hr => exec_message_runs hr rfl rfl, fun hr => exec_message_runs hr rfl rfl,
    fun hr hp => exec_message_runs hr rfl (if_pos hp), fun hr hp => exec_message_runs hr rfl (if_neg hp),
    fun hr => exec_message_runs hr rfl rfl, fun hr => exec_message_runs hr rfl rfl, fun hr => exec_message_runs hr rfl rfl,
    fun hr => exec_message_runs hr rfl rfl,
    fun t len data => ⟨_, t.attachAnswer_success i m len data, rfl, t.reqFreed_attachAnswer i m len data⟩⟩

end Sys2Proof.Machine
end

section
/-! SUPPORT. Frames of a site's sideband (R270 to R272; a repeated frame is one with the last SEQ, log 1008). -/

namespace Sys2Proof.Machine

section Frames

variable {s : State} {n : Fin 8} {f : BitVec 64}

/-- A frame that is new does what its type says. -/
theorem State.sbTake_new {ty : Nat} (h : frameNew s n f ty = true) (k : State → State) : s.sbTake n f ty k = k s := by
  simp only [frameNew, Bool.and_eq_true, beq_iff_eq, bne_iff_ne] at h
  obtain ⟨⟨⟨hlive, hty⟩, hcrc⟩, hseq⟩ := h
  have hpass : (!s.sbLive n || bits f.toNat 7 0 != ty || sbCrc (f.toNat % 2 ^ 56) != bits f.toNat 63 56) = false := by
    simp only [hlive, hty, hcrc, Bool.not_true, bne_self_eq_false, Bool.or_self]
  exact (if_neg (ne_true_of_eq_false hpass)).trans (if_neg hseq)

/-- A command that is a frame of type `ty` does what it does, once the frame is new. -/
theorem exec_frame_new {ty : Nat} {c : Instr} {k : State → State} (h : frameNew s n f ty = true) (hc : exec c s = .next (s.sbTake n f ty k)) :
    exec c s = .next (k s) := hc.trans (congrArg _ (State.sbTake_new h k))

/-! ### VF_REQ and VF_DONE (R272) -/

/-- The checks of a requested operating point in their order, and then step 1 of the transition. -/
theorem exec_vfReq_new (h : frameNew s n f 1 = true) : exec (.vfReq n f) s = .next
    (if 16 ≤ sbArg f.toNat ∨ opValid (s.opp n (sbArg f.toNat)) = false then s.sbAnswer n (sbSeq f.toNat) 0x42 (sbArg f.toNat) 1
     else if s.inTransition n = true then s.sbAnswer n (sbSeq f.toNat) 0x42 (sbArg f.toNat) 2
     else if 1000 * s.rd D.SITE_PMAX n < opSum (s.opp n (sbArg f.toNat)) then s.sbAnswer n (sbSeq f.toNat) 0x42 (sbArg f.toNat) 3
     else s.vfStart n (sbArg f.toNat) (sbSeq f.toNat)) := by
  rw [exec_frame_new h rfl]
  simp only [Bool.or_eq_true, decide_eq_true_eq, Bool.not_eq_true', State.vfNak]

@[simp] theorem State.site_emit (s : State) (x : Out) (n : Nat) : (s.emit x).site n = s.site n := rfl

@[simp] theorem State.run_sbAnswer (s : State) (n seq ty arg data : Nat) : ((s.sbAnswer n seq ty arg data).site n).run = (s.site n).run := by
  rw [State.sbAnswer, State.site_emit, State.site_setSite]

@[simp] theorem State.run_setRun (s : State) (n : Nat) (r : SiteRun) : ((s.setRun n r).site n).run = r := by
  rw [State.setRun, State.site_setSite]

/-- With no rail to raise, an accepted request is granted at once. -/
theorem State.vfStart_granted {k seq : Nat} {n : Nat}
    (h : (s.siteRails n).filter (fun r => decide (opVolt (s.opp n (s.rd D.SITE_OPP_CURRENT n)) r < opVolt (s.opp n k) r)) = []) :
    ((s.vfStart n k seq).site n).run = .granted k false := by
  simp only [State.vfStart, h, List.isEmpty_nil, if_true, State.vfGrant, State.run_sbAnswer, State.run_setRun]

theorem exec_vfDone_other (h : frameNew s n f 2 = true) (hr : ∀ r, (s.site n).run ≠ .granted (sbArg f.toNat) r) :
    exec (.vfDone n f) s = .next (s.sbAnswer n (sbSeq f.toNat) 0x42 (sbArg f.toNat) 5) := by
  rw [exec_frame_new h rfl]
  split
  next k r hrun => exact congrArg _ (if_neg fun (hk : k = sbArg f.toNat) => hr r (hk ▸ hrun))
  next => rfl

theorem exec_vfDone_granted {r : Bool} (h : frameNew s n f 2 = true) (hr : (s.site n).run = .granted (sbArg f.toNat) r) :
    exec (.vfDone n f) s = .next (s.vfLower n (sbArg f.toNat) (sbSeq f.toNat)) := by
  rw [exec_frame_new h rfl]
  simp only [hr, if_true]

/-! ### The end of a transition -/

theorem exec_vfDoneTimeout_granted {k : Nat} {r : Bool} (hr : (s.site n).run = .granted k r) : exec (.vfDoneTimeout n) s =
    .next ((s.transitionEnd n (if r then k else s.rd D.SITE_OPP_CURRENT n)).raise Ev.SITE_VF_TIMEOUT 0 0) := by
  show execVfDoneTimeout n s = _
  simp only [execVfDoneTimeout, hr]

/-- No off has been asked for, so the site only goes on at its operating point. -/
theorem State.transitionEnd_on {n k : Nat} (h : s.rd D.SITE_POWER n ≠ 0) : s.transitionEnd n k = (s.wr D.SITE_OPP_CURRENT n k).setRun n .idle := by
  have hpower : ((s.wr D.SITE_OPP_CURRENT n k).setRun n .idle).rd D.SITE_POWER n = s.rd D.SITE_POWER n := s.rd_wr_key (by decide) n n k
  exact if_neg (hpower ▸ h)

/-! ### RAIL_QUERY, PORT_QUERY, and acknowledgements (R271) -/

/-- The measured voltage and current in the objects of a rail. -/
def State.railNoted (s : State) (j mv da : Nat) : State := (s.wr D.RAIL_VOUT j mv).wr D.RAIL_IOUT j da

theorem State.rd_railNoted (s : State) (j mv da : Nat) :
    (s.railNoted j mv da).rd D.RAIL_VOUT j = mv ∧ (s.railNoted j mv da).rd D.RAIL_IOUT j = da := by
  rw [State.railNoted, State.rd_wr_key _ (by decide), State.rd_wr_same, State.rd_wr_same]
  exact ⟨rfl, rfl⟩

theorem exec_railQuery_new {mv da : BitVec 16} (h : frameNew s n f 3 = true) (hk : sbArg f.toNat < 8) : exec (.railQuery n f mv da) s =
    .next ((s.railNoted (8 * n + sbArg f.toNat) mv.toNat da.toNat).sbAnswer n (sbSeq f.toNat) 0x43 (sbArg f.toNat)
      (mv.toNat + da.toNat * 2 ^ 16)) := by
  rw [exec_frame_new h rfl]
  simp only [hk, if_true]
  rfl

theorem exec_portQuery_new (h : frameNew s n f 4 = true) (hk : sbArg f.toNat < 2) : exec (.portQuery n f) s =
    .next (s.sbAnswer n (sbSeq f.toNat) 0x46 (sbArg f.toNat) (s.portMask n (sbArg f.toNat))) := by
  rw [exec_frame_new h rfl]
  simp only [hk, if_true]

theorem exec_sidebandAck_live (hl : s.sbLive n = true) (hty : bits f.toNat 7 0 = 0x7F) (hcrc : sbCrc (f.toNat % 2 ^ 56) = bits f.toNat 63 56) :
    exec (.sidebandAck n f) s =
      .next (s.setSite n { s.site n with unacked := (s.site n).unacked.filter (fun u => sbSeq u.1 != sbSeq f.toNat) }) :=
  if_neg (by simp only [hl, hty, hcrc, Bool.not_true, bne_self_eq_false, Bool.or_self, Bool.false_eq_true, not_false_eq_true])

/-- The oldest unacknowledged frame is sent again, up to the eighth time; then it is lost. -/
theorem exec_sidebandResend_oldest {g c : Nat} {rest : List (Nat × Nat)} (hu : (s.site n).unacked = (g, c) :: rest) (hl : s.sbLive n = true) :
    exec (.sidebandResend n) s = .next
      (if c ≤ 8 then (s.setSite n { s.site n with unacked := (g, c + 1) :: rest }).emit (.sideband n g)
       else (s.setSite n { s.site n with unacked := rest }).count D.SITE_SB_LOST n 1) := by
  show execSidebandResend n s = _
  simp only [execSidebandResend, hu, hl, Bool.not_true, Bool.false_eq_true, if_false, apply_ite Host.Outcome.next]

end Frames

/-- Settles O41: a new frame does what its type says (`exec_frame_new`), and the timeout and the resends are one lemma each. -/
theorem sidebandFrames : Obligations.SidebandFrames := by
  unfold Obligations.SidebandFrames
  refine ⟨fun n f s h => ?request, fun n f s h => ⟨exec_vfDone_other h, fun r => exec_vfDone_granted h⟩, fun n k r s hr hp => ?timeout,
    fun n f mv da s h hk => ?railQuery, fun n f s => exec_portQuery_new, fun n f s => exec_sidebandAck_live, fun n f c rest s hu hl => ?resend⟩
  case request =>
    rw [exec_vfReq_new h]
    have hvalid (hk : sbArg f.toNat < 16) (hv : opValid (s.opp n (sbArg f.toNat)) = true) :
        ¬ (16 ≤ sbArg f.toNat ∨ opValid (s.opp n (sbArg f.toNat)) = false) := by simp [hk, hv]
    refine ⟨fun hbad => by rw [if_pos hbad], fun hk hv ht => ?busy, fun hk hv ht hsum => ?power, fun hk hv ht hsum => ⟨?starts, State.vfStart_granted⟩⟩
    case busy => rw [if_neg (hvalid hk hv), if_pos ht]
    case power => rw [if_neg (hvalid hk hv), if_neg (ne_true_of_eq_false ht), if_pos hsum]
    case starts => rw [if_neg (hvalid hk hv), if_neg (ne_true_of_eq_false ht), if_neg (Nat.not_lt.mpr hsum)]
  case timeout =>
    refine ⟨_, exec_vfDoneTimeout_granted hr, ?_, ?_, ?_⟩
    all_goals rw [State.transitionEnd_on hp]
    · rw [State.rd_raise _ _ _ _ (by decide), State.setRun, State.rd_setSite, State.rd_wr_same]
    · rw [State.raise_site, State.run_setRun]
    · rw [State.raise_eventSeq]
      rfl
  case railQuery =>
    obtain ⟨hvolt, hamp⟩ := s.rd_railNoted (8 * n + sbArg f.toNat) mv.toNat da.toNat
    exact ⟨_, exec_railQuery_new h hk, hvolt, hamp, rfl⟩
  case resend =>
    rw [exec_sidebandResend_oldest hu hl]
    exact ⟨fun hc => by rw [if_pos hc]; rfl, fun hc => by rw [if_neg (Nat.not_le.mpr hc)]⟩

end Sys2Proof.Machine
end

section
/-! SUPPORT. GATE_NOW: its three reads, as a command and as a read of BAR0 (R324). -/

namespace Sys2Proof.Machine

section GateNow

variable {s : State} {f : Fin 17}

/-- Where a read of GATE_NOW begins in BAR0 (Table 12.4, R324). -/
def gateOffset : GateHalf → Nat
  | .whole | .low => 8
  | .high => 12

/-- The bytes a read of GATE_NOW takes (R324). -/
def gateBytes (half : GateHalf) : Nat := if half = .whole then 8 else 4

/-- The capture of a read of the low half holds the whole of gate time. -/
theorem State.gateCap_gateNow_low (s : State) (f : Nat) : ((s.gateNow f .low).2.fn f).gateCap = s.gate :=
  congrArg HostFn.gateCap (s.fn_setFn f _)

theorem exec_gateNow_present (h : s.fnPresent f = true) (half : GateHalf) :
    exec (.gateNow f half) s = .next ((s.gateNow f half).2.emit (.reg f (gateBytes half) (s.gateNow f half).1)) :=
  if_pos h

/-- A read of BAR0 at the place and of the length of one of the three reads is that read. -/
theorem State.regAnswer_gateNow (s : State) (f : Nat) {q : HostReq} {half : GateHalf} (hoff : q.offset = gateOffset half)
    (hlen : q.len = gateBytes half) :
    s.regAnswer f q = (s.gateNow f half).2.emit (.hostCpl f q.tag 0 false q.len ((s.gateNow f half).1 % 2 ^ (8 * q.len))) := by
  cases half <;> simp [State.regAnswer, hoff, hlen, gateOffset, gateBytes]

theorem exec_bar0_read {q : HostReq} (h : s.fnPresent f = true) (hbar : q.bar = .bar0) (hread : q.write = false) :
    exec (.hostMemoryRequest f q) s = .next (s.regAnswer f q) := by
  show execHostMemoryRequest f q s = _
  simp only [execHostMemoryRequest, h, hbar, hread, Bool.not_true, Bool.false_eq_true, if_false]

/-- The memory read of BAR0 answers what the command GATE_NOW reads, in the bytes it takes. -/
theorem exec_bar0_gateNow {q : HostReq} (h : s.fnPresent f = true) (hbar : q.bar = .bar0) (hread : q.write = false) (half : GateHalf)
    (hoff : q.offset = gateOffset half) (hlen : q.len = gateBytes half) :
    exec (.hostMemoryRequest f q) s =
      .next ((s.gateNow f half).2.emit (.hostCpl f q.tag 0 false q.len ((s.gateNow f half).1 % 2 ^ (8 * q.len)))) :=
  (exec_bar0_read h hbar hread).trans (congrArg _ (s.regAnswer_gateNow f hoff hlen))

end GateNow

/-- Settles O53: each read is one of the three of `State.gateNow`, by `exec_gateNow_present` as a command and by `exec_bar0_gateNow` in BAR0. -/
theorem gateNowReads : Obligations.GateNowReads := by
  unfold Obligations.GateNowReads
  intro f s h
  refine ⟨exec_gateNow_present h .whole, ⟨_, exec_gateNow_present h .low, rfl, s.gateCap_gateNow_low f, fun u hu hcap => ?laterHigh⟩,
    fun tag r d => exec_bar0_gateNow h rfl rfl .whole rfl rfl,
    fun tag r d => ⟨_, exec_bar0_gateNow h rfl rfl .low rfl rfl, ?lowOut, s.gateCap_gateNow_low f⟩,
    fun tag r d => exec_bar0_gateNow h rfl rfl .high rfl rfl⟩
  case laterHigh =>
    have hheld : (u.fn f).gateCap = s.gate := hcap.trans (s.gateCap_gateNow_low f)
    rw [exec_gateNow_present hu .high, ← hheld]
    rfl
  case lowOut =>
    have hfits : s.gate % 2 ^ 32 % 2 ^ (8 * 4) = s.gate % 2 ^ 32 := Nat.mod_mod _ _
    exact congrArg (fun v => s.out ++ [.hostCpl f tag 0 false 4 v]) hfits

end Sys2Proof.Machine
end

section
/-! SUPPORT. The queue's front, the state after reset, and an object after a write (the queue is the model's own, log 5; the reset values the spec
does not give are its choice, logs 1 and 2). -/

namespace Sys2Proof.Machine

theorem step_front {s : State} {c : Instr} {rest : List Instr} (h : s.pending = c :: rest) : step s = exec c { s with pending := rest } := by
  simp only [step, h]

/-- Settles O1: `step_front` is the equation of a queue that is not empty. -/
theorem stepRunsTheFrontCommand : Obligations.StepRunsTheFrontCommand := by
  unfold Obligations.StepRunsTheFrontCommand
  exact fun s c rest => step_front

/-! ### After reset every table is empty -/

theorem State.rd_reset (o : Obj) (i : Nat) : State.reset.rd o i = o.dflt .hn8f i := rfl

theorem State.byteAt_reset (a : Nat) : State.reset.byteAt a = 0 := rfl

theorem State.poisonAt_reset (a : Nat) : State.reset.poisonAt a = false := rfl

theorem State.reqList_reset : State.reset.reqList = [] := rfl

/-- Settles O7: a read of an empty table gives the default, and the queues of `State.reset` are empty. -/
theorem resetState : Obligations.ResetState := by
  unfold Obligations.ResetState
  exact ⟨State.rd_reset, State.byteAt_reset, State.poisonAt_reset, State.reqList_reset, rfl, rfl, rfl, State.rd_reset D.BOOT_STAGE 0⟩

/-- Settles O8: the value by `State.rd_wr_same`, the other objects by `ObjsBut.wr`, the rest of the state by `OnlyObjs.wr`. -/
theorem objectReadsWhatWasWritten : Obligations.ObjectReadsWhatWasWritten := by
  unfold Obligations.ObjectReadsWhatWasWritten
  intro s o i v
  exact ⟨s.rd_wr_same o i v, (ObjsBut.refl s _).wr (List.mem_singleton.mpr rfl) v, (OnlyObjs.refl s).wr o i v⟩

end Sys2Proof.Machine
end

section
/-! SUPPORT. Accesses of the object dictionary: where they wait (logs 1301, 1302), and what a free controller answers (Table 13.3, R335, R350). -/

namespace Sys2Proof.Machine

/-- Every access of the object dictionary is handed to the one place that holds accesses back. -/
theorem exec_objectCommand {c : Instr} (h : objectCommand c = true) (s : State) : ∃ k, exec c s = s.odCmd c k := by
  unfold objectCommand at h
  split at h
  case h_79 => cases h
  all_goals exact ⟨_, by with_unfolding_all rfl⟩

/-- Settles O10: by `exec_objectCommand` each access is one of `State.odCmd`, which holds it back while the controller is down or busy. -/
theorem objectCommandsWaitForTheController : Obligations.ObjectCommandsWaitForTheController := by
  unfold Obligations.ObjectCommandsWaitForTheController
  intro c s hc
  obtain ⟨k, hk⟩ := exec_objectCommand hc s
  exact ⟨fun hdown => hk.trans (State.odCmd_down hdown c k), fun hup hbusy => hk.trans (State.odCmd_busy hup hbusy c k)⟩

/-! ### The end of a write -/

section Free

variable {s : State} {a : ObjAddr} {o : Obj} {i : Nat} {w : OdWrite} {route : Route}

theorem State.odBusy_of_free (hf : s.odFree = true) : s.odBusy = false := (s.odFree_iff.mp hf).2.1

theorem State.odRun_of_free (hf : s.odFree = true) : s.odRun = none := (State.odBusy_false (State.odBusy_of_free hf)).2.1

/-- PHIL_ETHERTYPE's value comes into force at the end of a write that waits for nothing and asks for no reset (Table 13.11, log 1312). -/
theorem State.afterOd_ended (hb : s.odBusy = false) (ha : s.boot.ask = none) : s.afterOd = s.enforce D.PHIL_ETHERTYPE 0 := by
  have hpassed : (s.enforce D.PHIL_ETHERTYPE 0).odBusy = false := hb
  have hask : (s.enforce D.PHIL_ETHERTYPE 0).boot.ask = none := ha
  simp only [State.afterOd, State.runAsk, hb, hpassed, hask, Bool.false_eq_true, if_false]

/-- An absent unit is counted (R5). -/
theorem State.odFail_absent (hf : s.odFree = true) :
    s.odFail St.UNIT_ABSENT = { s.count D.UNIT_ABSENT_COUNT 0 1 with out := s.out ++ [.od St.UNIT_ABSENT 0 0] } := by
  obtain ⟨hwait, hrun, -⟩ := State.odBusy_false (State.odBusy_of_free hf)
  have hcount : (s.count D.UNIT_ABSENT_COUNT 0 1).odRun = none := hrun
  have hidle : (s.count D.UNIT_ABSENT_COUNT 0 1).odWait = false := hwait
  simp only [State.odFail, State.odAnswer, State.noteStatus, if_true, hcount, hidle, State.emit]
  rfl

/-! ### OBJECT_WRITE -/

/-- A write whose access has ended with nothing left to wait for. -/
theorem exec_objectWrite_ended {t : State} (hf : s.odFree = true) (ht : s.objWrite a w false = t) (hb : t.odBusy = false)
    (ha : t.boot.ask = none) : exec (.objectWrite a w) s = .next (t.enforce D.PHIL_ETHERTYPE 0) := by
  subst ht
  show execObjectWrite a w s = _
  rw [execObjectWrite, State.odCmd_free hf, State.afterOd_ended hb ha]

theorem State.objWrite_noObject {seg : Bool} (h : findObj a.index.toNat a.sub.toNat = none) : s.objWrite a w seg = s.odFail St.OD_NO_OBJECT := by
  simp only [State.objWrite, h]

theorem State.objWrite_refused {seg : Bool} {st : Nat} (h : findObj a.index.toNat a.sub.toNat = some o)
    (hc : s.odCheck o a.inst.toNat w seg = st) (hst : st ≠ 0) : s.objWrite a w seg = s.odFail st := by
  subst hc
  simp only [State.objWrite, h, State.odWriteAs]

theorem State.objWrite_taken (h : findObj a.index.toNat a.sub.toNat = some o) (ht : s.takes o a.inst.toNat w = true) :
    s.objWrite a w false = s.own o a.inst.toNat w := by
  obtain ⟨-, hcheck, hlive⟩ := (s.takes_iff o a.inst.toNat w).mp ht
  simp only [State.objWrite, h, State.odWriteAs, hcheck, hlive, Bool.false_eq_true, if_false]

/-! ### OBJECT_READ and READ_SEG -/

/-- An object that the device does not compute gives the value it holds, to every route alike unless it is a log entry (R431). -/
theorem State.objView_held (hl : s.liveView (objKey o) i = none) (hk : objKey o ≠ objKey D.FAULT_LOG_ENTRY) (route : Route) :
    s.objView o i route = (s.rdLen o i, s.rd o i % 2 ^ (8 * s.rdLen o i), s) := by
  simp only [State.objView, hl, hk, if_false]

theorem State.objView_live {v : Nat} {t : State} (hl : s.liveView (objKey o) i = some (v, t)) (route : Route) :
    s.objView o i route = (s.rdLen o i, v % 2 ^ (8 * s.rdLen o i), t) := by
  simp only [State.objView, hl]

theorem exec_objectRead_fits (hf : s.odFree = true) (h : findObj a.index.toNat a.sub.toNat = some o)
    (hst : s.readStatus o a.inst.toNat route false = 0) (hroom : roundUp (s.objView o a.inst.toNat route).1 4 ≤ s.room route) :
    exec (.objectRead route a) s = .next ((s.objView o a.inst.toNat route).2.2.odAnswer 0 (s.objView o a.inst.toNat route).1
      (s.objView o a.inst.toNat route).2.1) := by
  show execObjectRead route a s = _
  simp only [execObjectRead, State.odCmd_free hf, State.objRead, h, hst, Nat.not_lt.mpr hroom, if_false]

/-- The bytes READ_SEG answers with: those asked for, as many as remain and fit. -/
theorem exec_readSeg_readable (hf : s.odFree = true) (h : findObj a.index.toNat a.sub.toNat = some o)
    (hst : s.readStatus o a.inst.toNat route true = 0) (offset len : Nat) {n v : Nat} (hv : s.objView o a.inst.toNat route = (n, v, s)) :
    exec (.readSeg route a offset len) s = .next { s with out := s.out ++
      [.od 0 (min len (min (n - offset) (s.room route / 4 * 4))) (bytesOf v offset (min len (min (n - offset) (s.room route / 4 * 4))))] } := by
  show execReadSeg route a offset len s = _
  simp only [execReadSeg, State.odCmd_free hf, State.objReadSeg, h, hst, hv, State.odAnswer_free hf 0 _ _ (by decide)]

/-! ### WRITE_SEG -/

theorem State.objWriteSeg_allowed {src : SegSrc} (h : findObj a.index.toNat a.sub.toNat = some o) (hst : s.segStatus o a.inst.toNat src.route = 0)
    (offset : Nat) (last : Bool) (v : OdVal) : s.objWriteSeg src a offset last v = s.segment src a offset last v := by
  simp only [State.objWriteSeg, h, hst]

/-- Where nothing is staged, nothing is discarded. -/
theorem State.unstage_none (h : s.stagedOf a = none) : s.unstage a = s := by
  have hkeep : s.staged.filter (fun x => x.obj != a) = s.staged :=
    List.filter_eq_self.mpr fun x hx => by simpa using List.find?_eq_none.mp h x hx
  simp only [State.unstage, hkeep]

theorem State.segment_first (h : s.stagedOf a = none) (src : SegSrc) (v : OdVal) : s.segment src a 0 false v =
    ({ s with staged := s.staged ++ [{ src := src, obj := a, val := { len := v.len, val := v.val % 2 ^ (8 * v.len) } }] } : State).odDone := by
  simp only [State.segment, h, State.stage, State.unstage_none h, if_true, Bool.false_eq_true, if_false]

/-- A segment that neither starts the value again nor goes on where it ends is out of order, whoever staged the value. -/
theorem State.segment_misplaced {x : Staged} {offset : Nat} (h : s.stagedOf a = some x) (h0 : offset ≠ 0) (hlen : offset ≠ x.val.len) (src : SegSrc)
    (last : Bool) (v : OdVal) : s.segment src a offset last v = (s.unstage a).odFail St.OD_SEGMENT := by
  simp only [State.segment, h, h0, hlen, if_false, ite_self]

theorem exec_writeSeg_ended {src : SegSrc} {offset : Nat} {last : Bool} {v : OdVal} {t : State} (hf : s.odFree = true)
    (ht : s.objWriteSeg src a offset last v = t) (hb : t.odBusy = false) (ha : t.boot.ask = none) :
    exec (.writeSeg src a offset last v) s = .next (t.enforce D.PHIL_ETHERTYPE 0) := by
  subst ht
  show execWriteSeg src a offset last v s = _
  rw [execWriteSeg, State.odCmd_free hf, State.afterOd_ended hb ha]

/-! ### DESCRIBE -/

/-- With no transaction there is always room for a description. -/
theorem State.room_free (hf : s.odFree = true) (route : Route) : 16 ≤ s.room route := by
  simp only [State.room, State.odRun_of_free hf]
  have hlimit : 32 ≤ opsLimit route := by cases route <;> simp [opsLimit]
  omega

theorem exec_describe_exists (hf : s.odFree = true) (h : findObj a.index.toNat a.sub.toNat = some o)
    (hi : if o.insts = 0 then a.inst.toNat = 0 else a.inst.toNat < o.insts) (route : Route) :
    exec (.describe route a) s = .next { s with out := s.out ++ [.od 0 16 (description o)] } := by
  have hinst : (if o.insts = 0 then a.inst.toNat != 0 else decide (o.insts ≤ a.inst.toNat)) = false := by
    split at hi
    next h0 => rw [if_pos h0, hi]; rfl
    next h0 => rw [if_neg h0]; exact decide_eq_false (Nat.not_le.mpr hi)
  show execDescribe route a s = _
  simp only [execDescribe, State.odCmd_free hf, State.objDescribe, h, hinst, Nat.not_lt.mpr (State.room_free hf route), Bool.false_eq_true,
    if_false, State.odAnswer_free hf 0 _ _ (by decide)]

/-! ### CONFIG_LOCK and MGMT_PUBKEY -/

theorem State.ownConfigLock_allowed (h : odNum w = 0 → s.rdB D.CONFIG_LOCK 0 = false) : s.ownConfigLock w = s.odSet D.CONFIG_LOCK 0 w :=
  if_neg (by simpa using h)

/-- The lock does not open again (R334). -/
theorem State.ownConfigLock_opening (h0 : odNum w = 0) (hl : s.rdB D.CONFIG_LOCK 0 = true) : s.ownConfigLock w = s.odFail St.OD_LOCKED :=
  if_pos (by simp [h0, hl])

theorem exec_configLock (ht : s.takes D.CONFIG_LOCK 0 w = true) : exec (.configLock w) s = .next (s.ownConfigLock w) := State.odCmd_takes ht _ _

theorem exec_mgmtPubkey {k : Fin 4} (ht : s.takes D.MGMT_PUBKEY k w = true) : exec (.mgmtPubkey k w) s = .next (s.odSet D.MGMT_PUBKEY k w) :=
  State.odCmd_takes ht _ _

end Free

/-- Settles O11: the answer is that of `State.odFail`, and `exec_objectWrite_ended` gives what follows the end of the write. -/
theorem objectWriteRefusals : Obligations.ObjectWriteRefusals := by
  unfold Obligations.ObjectWriteRefusals
  refine ⟨fun a w s hf ha hfind => ?noObject, fun a w o st s hf ha hfind hc h0 h5 => ?refused, fun a w o s hf ha hfind hc => ?absent⟩
  case noObject =>
    exact exec_objectWrite_ended hf ((State.objWrite_noObject hfind).trans (State.odFail_refuses hf (by decide))) (State.odBusy_of_free hf) ha
  case refused =>
    exact exec_objectWrite_ended hf ((State.objWrite_refused hfind hc h0).trans (State.odFail_refuses hf h5)) (State.odBusy_of_free hf) ha
  case absent =>
    have hbusy := State.odBusy_of_free hf
    exact exec_objectWrite_ended hf ((State.objWrite_refused hfind hc (by decide)).trans (State.odFail_absent hf)) hbusy ha

/-- Settles O13: one lemma per operation above; a plain write is `State.odSet_sets`, and what it leaves keeps the controller free. -/
theorem dictionaryOperations : Obligations.DictionaryOperations := by
  unfold Obligations.DictionaryOperations
  refine ⟨fun route a o s hf hfind hst hroom hlive hlog => ?read, fun route a o v t s hf hfind hst hroom hlive => ?readLive,
    fun a w o s ha hfind ht hstore hown => ?write, fun route a offset len o s hf hfind hst hlive hlog => ?readSeg,
    fun src a v o s hf ha hfind hst hnone => ?firstSeg, fun src a offset last v o x s hf ha hfind hst hx h0 hlen => ?misplaced,
    fun route a o s hf hfind hi => exec_describe_exists hf hfind hi route, fun w s ht hopen => ?lock, fun w s ht h0 hlocked => ?locked,
    fun k w s ht => takes_sets ht (exec_mgmtPubkey ht) (by decide)⟩
  case read =>
    rw [exec_objectRead_fits hf hfind hst hroom, State.objView_held hlive hlog, State.odAnswer_free hf _ _ _ (by decide)]
  case readLive => rw [exec_objectRead_fits hf hfind hst hroom, State.objView_live hlive]
  case write =>
    have hf := (State.takes_idle ht).1
    have hbusy := State.odBusy_of_free hf
    have hset := State.odSet_sets hf hstore a.inst.toNat w
    refine ⟨_, hset, exec_objectWrite_ended hf ((State.objWrite_taken hfind ht).trans (hown s)) ?_ ?_⟩
    · rw [hset.rest]; exact hbusy
    · rw [hset.rest]; exact ha
  case readSeg => exact exec_readSeg_readable hf hfind hst offset len (State.objView_held hlive hlog route)
  case firstSeg =>
    refine exec_writeSeg_ended hf ?_ (State.odBusy_of_free hf) ha
    rw [State.objWriteSeg_allowed hfind hst, State.segment_first hnone]
    exact State.odDone_idle hf rfl rfl
  case misplaced =>
    refine exec_writeSeg_ended hf ?_ (State.odBusy_of_free hf) ha
    have hfree : (s.unstage a).odFree = true := hf
    rw [State.objWriteSeg_allowed hfind hst, State.segment_misplaced hx h0 hlen]
    exact State.odFail_refuses hfree (by decide)
  case lock => exact takes_sets ht ((exec_configLock ht).trans (congrArg _ (State.ownConfigLock_allowed hopen))) (by decide)
  case locked => exact takes_refuses ht ((exec_configLock ht).trans (congrArg _ (State.ownConfigLock_opening h0 hlocked))) (by decide)

end Sys2Proof.Machine
end

section
/-! SUPPORT. The management port: which frames reach the controller (R351, R356; logs 1303, 1304), what a frame does there (R352 to R355), and the
resends of events and the state of the link (R348, R355; logs 1309 to 1311, 1510). -/

namespace Sys2Proof.Machine

/-! ### A frame at the port -/

section Arrival

variable {s : State} {fr : EthFrame}

/-- Of the reasons to drop a frame at the port none applies: the controller is up and the link too, the frame is for this device, and it does not
repeat the running transaction. -/
theorem frameIn_passes (hup : s.odUp = true) (hlink : s.rd D.MGMT_LINK_STATE 0 = 2) (hmine : s.frameMine fr = true) (hrep : s.repeatsRun fr = false) :
    (!s.odUp || s.rd D.MGMT_LINK_STATE 0 != 2 || !s.frameMine fr || s.repeatsRun fr) = false := by
  simp [hup, hlink, hmine, hrep]

theorem State.frameIn_dropped
    (h : s.odUp = false ∨ s.rd D.MGMT_LINK_STATE 0 ≠ 2 ∨ s.frameMine fr = false ∨ s.repeatsRun fr = true) (c : Instr) : s.frameIn c fr = s :=
  if_pos (by simpa [or_assoc] using h)

theorem State.frameIn_taken (hf : s.odFree = true) (hlink : s.rd D.MGMT_LINK_STATE 0 = 2) (hmine : s.frameMine fr = true)
    (hrep : s.repeatsRun fr = false) (c : Instr) : s.frameIn c fr = s.frameTake fr := by
  obtain ⟨hup, hbusy, hback⟩ := s.odFree_iff.mp hf
  simp only [State.frameIn, frameIn_passes hup hlink hmine hrep, hbusy, hback, List.isEmpty_nil, Bool.not_true, Bool.or_self, Bool.false_eq_true,
    if_false]

theorem State.odBlocked_of_not_free (hup : s.odUp = true) (hf : s.odFree = false) : (s.odBusy || !s.backlog.isEmpty) = true := by
  simpa [State.odFree, hup, imp_iff_not_or] using hf

/-- Behind a running command a frame waits while fewer than 32 do, and is counted as dropped from then on (R356). -/
theorem State.frameIn_behind (hup : s.odUp = true) (hf : s.odFree = false) (hlink : s.rd D.MGMT_LINK_STATE 0 = 2) (hmine : s.frameMine fr = true)
    (hrep : s.repeatsRun fr = false) (c : Instr) : s.frameIn c fr =
      if 32 ≤ s.framesWaiting then s.count D.PHIL_RX_DROPPED 0 1 else { s with backlog := s.backlog ++ [c] } := by
  simp only [State.frameIn, frameIn_passes hup hlink hmine hrep, State.odBlocked_of_not_free hup hf, Bool.false_eq_true, if_true, if_false]

end Arrival

/-! ### A frame at the controller: steps 2 to 5 of R351 -/

section Taken

variable {s : State} {fr : EthFrame} {x h e : Nat} {l : List OdOp}

theorem State.frameTake_bad (hx : x = fr.payload.val % 2 ^ (8 * fr.payload.len)) (hh : h = bytesOf x 0 24)
    (hp : parseMsg x fr.payload.len = none) : s.frameTake fr = s.philRespond fr.src.toNat h St.PHIL_BAD [] := by
  subst hx hh
  simp only [State.frameTake, hp]

/-! A frame in the message format and of a size that fits is an acknowledgement, the repetition of a kept response, unauthenticated, or a
transaction. -/

theorem State.frameTake_ack (hx : x = fr.payload.val % 2 ^ (8 * fr.payload.len)) (hh : h = bytesOf x 0 24)
    (hp : parseMsg x fr.payload.len = some (l, e)) (hsize : opsSize e ≤ 1362) (hack : phKind h = 3) : s.frameTake fr = s.eventsAck x e := by
  subst hx hh
  simp only [State.frameTake, hp, Nat.not_lt.mpr hsize, hack, if_true, if_false]

theorem State.frameTake_kept {k : Nat × Nat × Nat} (hx : x = fr.payload.val % 2 ^ (8 * fr.payload.len)) (hh : h = bytesOf x 0 24)
    (hp : parseMsg x fr.payload.len = some (l, e)) (hsize : opsSize e ≤ 1362) (hreq : phKind h ≠ 3)
    (hkept : (s.keptOf fr.src.toNat).find? (fun k => k.1 == phTxn h) = some k) :
    s.frameTake fr = (s.keepAs fr.src.toNat (s.keptOf fr.src.toNat)).philOut fr.src.toNat k.2.1 k.2.2 := by
  subst hx hh
  simp only [State.frameTake, hp, Nat.not_lt.mpr hsize, hreq, hkept, if_false]

/-- A request that no kept response answers is authenticated, and then runs. -/
theorem State.frameTake_new (hx : x = fr.payload.val % 2 ^ (8 * fr.payload.len)) (hh : h = bytesOf x 0 24)
    (hp : parseMsg x fr.payload.len = some (l, e)) (hsize : opsSize e ≤ 1362) (hreq : phKind h ≠ 3)
    (hnew : (s.keptOf fr.src.toNat).find? (fun k => k.1 == phTxn h) = none) : s.frameTake fr =
      if s.philAuth x e l = false then (s.count D.PHIL_AUTH_FAIL 0 1).philRespond fr.src.toNat h St.PHIL_AUTH []
      else (if phSigned h then s.wr D.PHIL_SESSION_CTR 0 (phCtr h) else s).odStart (.phil fr.src.toNat (phSigned h)) h l := by
  subst hx hh
  simp only [State.frameTake, hp, Nat.not_lt.mpr hsize, hreq, hnew, if_false, Bool.not_eq_true']

/-- While no key is installed, an acknowledgement clears the events up to its counter. -/
theorem State.eventsAck_open (h : s.anyKey = false) (x e : Nat) :
    s.eventsAck x e = { s with events := s.events.filter (fun v => decide (phCtr (bytesOf x 0 24) < v.seq)) } := by
  simp only [State.eventsAck, h, Bool.false_and, Bool.false_eq_true, if_false]

theorem State.eventsAck_unsigned (h : s.anyKey = true) (hs : phSigned (bytesOf x 0 24) = false) (e : Nat) : s.eventsAck x e = s := by
  simp only [State.eventsAck, h, hs, Bool.false_and, Bool.not_false, Bool.and_self, if_true]

end Taken

/-! ### Events and the link -/

section Upkeep

variable {s : State} {v : EvRec} {r : List EvRec}

theorem exec_philEventResend_waits (hv : s.events = v :: r) (h : s.uttexPause = true ∨ v.sends = 0) : exec .philEventResend s = .next s := by
  have hwait : (s.uttexPause || v.sends == 0) = true := by simpa using h
  show execPhilEventResend s = _
  simp only [execPhilEventResend, hv, hwait, if_true]

/-- The event at the front has been sent before: after its tenth send it goes, and until then it is sent again and goes to the end. -/
theorem exec_philEventResend_sent (hv : s.events = v :: r) (hp : s.uttexPause = false) (h1 : 1 ≤ v.sends) : exec .philEventResend s =
    if 10 ≤ v.sends then .next (({ s with events := r } : State).count D.PHIL_EVENT_DROPPED 0 1)
    else .next (({ s with events := r ++ [{ v with sends := v.sends + 1 }] } : State).sendEvent v) := by
  have hgo : (s.uttexPause || v.sends == 0) = false := by simpa [hp] using Nat.pos_iff_ne_zero.mp h1
  show execPhilEventResend s = _
  simp only [execPhilEventResend, hv, hgo, Bool.false_eq_true, if_false]

/-- The state of the management link as MGMT_LINK_STATE gives it (R348). -/
def linkCode : MgmtLink → Nat
  | .down => 0
  | .negotiating => 1
  | .up => 2

theorem exec_mgmtLinkChange (st : MgmtLink) : exec (.mgmtLinkChange st) s =
    .next (if s.boot.pin || s.boot.down.isSome then s else s.wr D.MGMT_LINK_STATE 0 (linkCode st)) := rfl

end Upkeep

/-- Settles O55: one lemma per way of a frame (`State.frameIn_…` at the port, `State.frameTake_…` at the controller), of an acknowledgement, and of
a resend. -/
theorem managementPort : Obligations.ManagementPort := by
  unfold Obligations.ManagementPort
  refine ⟨fun fr s => ⟨fun h => ?dropped, fun hf hlink hmine hrep => ?taken, fun hup hf hlink hmine hrep => ?behind⟩,
    fun fr x h s hx hh => ⟨State.frameTake_bad hx hh, fun l e hp hsize => ?parsed⟩, fun x e s => ⟨fun hkey => ?ackOpen, fun hkey hs => ?ackUnsigned⟩,
    fun v r s hv => ⟨exec_philEventResend_waits hv, fun hp h1 h10 => ?again, fun hp h10 => ?gone⟩, fun st s => ⟨fun hpin hdown => ?link, fun h => ?held⟩⟩
  case dropped => exact ⟨congrArg _ (State.frameIn_dropped h _), congrArg _ (State.frameIn_dropped h _)⟩
  case taken => exact ⟨congrArg _ (State.frameIn_taken hf hlink hmine hrep _), congrArg _ (State.frameIn_taken hf hlink hmine hrep _)⟩
  case behind =>
    have hin (c : Instr) := State.frameIn_behind hup hf hlink hmine hrep c
    refine ⟨fun hfull => congrArg _ ((hin _).trans (if_pos hfull)), fun hroom => ⟨?_, ?_⟩⟩
    all_goals exact congrArg _ ((hin _).trans (if_neg (Nat.not_le.mpr hroom)))
  case parsed =>
    exact ⟨State.frameTake_ack hx hh hp hsize, fun k => State.frameTake_kept hx hh hp hsize,
      fun hreq hnew hbad => (State.frameTake_new hx hh hp hsize hreq hnew).trans (if_pos hbad),
      fun hreq hnew hgood => (State.frameTake_new hx hh hp hsize hreq hnew).trans (if_neg (ne_false_of_eq_true hgood))⟩
  case ackOpen =>
    refine ⟨_, State.eventsAck_open hkey x e, rfl, fun v => ?_⟩
    rw [List.mem_filter, decide_eq_true_eq]
  case ackUnsigned => exact State.eventsAck_unsigned hkey hs e
  case again => rw [exec_philEventResend_sent hv hp h1, if_neg (Nat.not_le.mpr h10)]
  case gone => rw [exec_philEventResend_sent hv hp (by omega), if_pos h10]
  case link =>
    rw [exec_mgmtLinkChange, hpin, hdown]
    rfl
  case held => rw [exec_mgmtLinkChange, if_pos (by simpa using h)]

end Sys2Proof.Machine
end

section
/-! SUPPORT. Moults, entries of the defect map, and the resets that a write asks for (R394, R395, R398, R402 to R405, R407, R409). -/

namespace Sys2Proof.Machine

/-! ### MOULT_COMMAND (R394) -/

/-- A write of an object other than BOOT_STAGE leaves the controller as free as it was. -/
theorem State.odFree_wr (s : State) {o : Obj} (h : objKey D.BOOT_STAGE ≠ objKey o) (i v : Nat) : (s.wr o i v).odFree = s.odFree := by
  have hstage : (s.wr o i v).rd D.BOOT_STAGE 0 = s.rd D.BOOT_STAGE 0 := s.rd_wr_key h ..
  simp only [State.odFree, State.odUp, hstage]
  rfl

section MoultCommand

variable {s : State} {w : OdWrite}

/-- The moult that command `c` starts, its status kept and no unit in hand yet. -/
def State.newMoult (s : State) (c : Nat) : Moult :=
  { kind := mcKind c, bank := mcBank c, groups := (s.wr D.MOULT_STATUS 0 0).moultGroups c, cur := none, done := 0, reverted := false }

/-- The state in which an accepted moult begins, its three objects written. -/
def State.moultBegins (s : State) : State := ((s.wr D.MOULT_STATUS 0 0).wr D.MOULT_STATE 0 1).wr D.MOULT_UNITS_DONE 0 0

theorem exec_moultCommand (ht : s.takes D.MOULT_COMMAND 0 w = true) : exec (.moultCommand w) s = .next (s.ownMoult w) := State.odCmd_takes ht _ _

theorem State.ownMoult_refused {st : Nat} (hst : s.moultStatus (odNum w) = st) (h : st ≠ 0) :
    s.ownMoult w = (s.wr D.MOULT_STATUS 0 st).odFail st := by
  simp only [State.ownMoult, hst, bne_iff_ne.mpr h, if_true]

theorem State.ownMoult_starts (h : s.moultStatus (odNum w) = 0) : s.ownMoult w =
    s.moultBegins.odDone.moultNext ((s.newMoult (odNum w)).groups.length + 1) (s.newMoult (odNum w)) := by
  simp only [State.ownMoult, h, bne_self_eq_false, Bool.false_eq_true, if_false]
  rfl

theorem exec_moultCommand_refused (ht : s.takes D.MOULT_COMMAND 0 w = true) (h0 : s.moultStatus (odNum w) ≠ 0)
    (h5 : s.moultStatus (odNum w) ≠ St.UNIT_ABSENT) : exec (.moultCommand w) s =
      .next { s.wr D.MOULT_STATUS 0 (s.moultStatus (odNum w)) with out := s.out ++ [.od (s.moultStatus (odNum w)) 0 0] } := by
  have hf : (s.wr D.MOULT_STATUS 0 (s.moultStatus (odNum w))).odFree = true :=
    (s.odFree_wr (by decide) ..).trans (State.takes_idle ht).1
  rw [exec_moultCommand ht, State.ownMoult_refused rfl h0]
  exact congrArg _ (State.odFail_refuses hf h5)

/-- A field that the variant does not have is counted as an absent unit too (R5). -/
theorem exec_moultCommand_absent (ht : s.takes D.MOULT_COMMAND 0 w = true) (h : s.moultStatus (odNum w) = St.UNIT_ABSENT) :
    exec (.moultCommand w) s = .next { (s.wr D.MOULT_STATUS 0 St.UNIT_ABSENT).count D.UNIT_ABSENT_COUNT 0 1 with
      out := s.out ++ [.od St.UNIT_ABSENT 0 0] } := by
  have hf : (s.wr D.MOULT_STATUS 0 St.UNIT_ABSENT).odFree = true := (s.odFree_wr (by decide) ..).trans (State.takes_idle ht).1
  rw [exec_moultCommand ht, State.ownMoult_refused h (by decide), State.odFail_absent hf]
  rfl

theorem exec_moultCommand_starts (ht : s.takes D.MOULT_COMMAND 0 w = true) (h : s.moultStatus (odNum w) = 0) :
    exec (.moultCommand w) s = .next (({ s.moultBegins with out := s.out ++ [.od 0 0 0] } : State).moultNext
      ((s.newMoult (odNum w)).groups.length + 1) (s.newMoult (odNum w))) := by
  rw [exec_moultCommand ht, State.ownMoult_starts h, State.odDone_idle (t := s.moultBegins) (State.takes_idle ht).1 rfl rfl]
  rfl

end MoultCommand

/-! ### The units of a moult (R395) -/

section Units

variable {s : State} {m : Moult} {u : Nat}

/-- Without a moult nothing switches, and no unit is ready or late. -/
theorem exec_moult_none (h : s.boot.moult = none) :
    exec .moultUnitSwitch s = .next s ∧ exec .moultReady s = .next s ∧ exec .moultReadyTimeout s = .next s := by
  show execMoultUnitSwitch s = _ ∧ execMoultReady s = _ ∧ execMoultReadyTimeout s = _
  simp only [execMoultUnitSwitch, execMoultReady, execMoultReadyTimeout, h, and_self]

variable (hm : s.boot.moult = some m)
include hm

theorem exec_moultUnitSwitch_next {g : List Nat} {rest : List (List Nat)} (hc : m.cur = none) (hg : m.groups = (u :: g) :: rest) :
    exec .moultUnitSwitch s = .next { s with boot := { s.boot with moult := some { m with cur := some u } } } := by
  show execMoultUnitSwitch s = _
  simp only [execMoultUnitSwitch, hm, hc, hg]

theorem exec_moultReadyTimeout_unit (hc : m.cur = some u) : exec .moultReadyTimeout s =
    .next ((s.raise Ev.MOULT_REVERTED 0 (evWords [u])).moultStep { m with reverted := true } u) := by
  show execMoultReadyTimeout s = _
  simp only [execMoultReadyTimeout, hm, hc]

/-- Unit 0 is the controller itself, whose version UTTEX_FW_VERSION gives; any other unit leaves that object alone. -/
theorem exec_moultReady_unit (hc : m.cur = some u) (hu : u ≠ 0) : exec .moultReady s =
    .next ((((s.runFrom u m.bank).count D.MOULT_UNITS_DONE 0 1).runningBank).moultStep { m with done := m.done + 1 } u) := by
  show execMoultReady s = _
  simp only [execMoultReady, hm, hc, if_neg hu]

theorem exec_moultReady_idle (hc : m.cur = none) : exec .moultReady s = .next s ∧ exec .moultReadyTimeout s = .next s := by
  show execMoultReady s = _ ∧ execMoultReadyTimeout s = _
  simp only [execMoultReady, execMoultReadyTimeout, hm, hc, and_self]

end Units

/-! ### DEFECT_ADD (R398, R411) -/

section Defects

variable {s : State} {w : OdWrite}

/-- A written defect entry is badly formed: a reserved field, its DEFECT or its unit's type has no meaning (Table 15.8). -/
def badDefect (e : Nat) : Bool := bits e 31 20 != 0 || bits e 63 32 != 0 || 2 < bits e 19 16 || bits e 15 0 / 4096 = 15

theorem badDefect_iff (e : Nat) :
    badDefect e = true ↔ bits e 31 20 ≠ 0 ∨ bits e 63 32 ≠ 0 ∨ 2 < bits e 19 16 ∨ bits e 15 0 / 4096 = 15 := by
  simp only [badDefect, Bool.or_eq_true, bne_iff_ne, decide_eq_true_eq, or_assoc]

theorem badDefect_false {e : Nat} (h20 : bits e 31 20 = 0) (h32 : bits e 63 32 = 0) (hd : bits e 19 16 ≤ 2) (hu : bits e 15 0 / 4096 ≠ 15) :
    badDefect e = false := by
  rw [← Bool.not_eq_true, badDefect_iff]
  omega

theorem exec_defectAdd (ht : s.takes D.DEFECT_ADD 0 w = true) : exec (.defectAdd w) s = .next (s.ownDefectAdd w) := State.odCmd_takes ht _ _

theorem State.ownDefectAdd_eq (s : State) (w : OdWrite) : s.ownDefectAdd w =
    if badDefect (odNum w) then s.odFail St.OD_VALUE
    else if s.unitHere (bits (odNum w) 15 0) then (s.addDefect (bits (odNum w) 15 0) (bits (odNum w) 19 16) 3 (odNum w / 2 ^ 64)).odDone
    else s.odFail St.UNIT_ABSENT := by
  rw [← Bool.cond_eq_ite (s.unitHere _), ← Bool.cond_not, Bool.cond_eq_ite]
  rfl

end Defects

/-! ### RESET_SLICE and RESET_FIELD (R402, R403, R405) -/

section PartialResets

variable {s : State} {w : OdWrite}

theorem exec_resetSlice {n : Fin 1024} (ht : s.takes D.RESET_SLICE n w = true) : exec (.resetSlice n w) s = .next (s.ownResetSlice n) :=
  State.odCmd_takes ht _ _

theorem State.sliceStatus_failed {n : Nat} (h : s.isHole n = true ∨ (s.cache (s.homeKey n)).failed = true) :
    s.sliceStatus n = St.SLICE_FAILED := if_pos (Bool.or_eq_true_iff.mpr h)

theorem State.ownResetSlice_failed {n : Nat} (h : s.sliceStatus n ≠ 0) : s.ownResetSlice n = s.odFail (s.sliceStatus n) :=
  if_pos (bne_iff_ne.mpr h)

/-- A slice that its objects reach: an overlapping reset, a retirement or a migration keeps a reset away, and else it begins. -/
theorem State.ownResetSlice_reached {n : Nat} (h : s.sliceStatus n = 0) : s.ownResetSlice n =
    if s.sliceBusy n then s.odFail St.RESET_BUSY
    else ((({ s with boot := { s.boot with resets := s.boot.resets ++ [.slice n] } } : State).odHold).sweepSliceEnd n St.SWEEP_ABORTED).moultDrop
      (fun x => x == ucSlice (s.homeKey n)) := by
  simp only [State.ownResetSlice, h, bne_self_eq_false, Bool.false_eq_true, if_false]
  rfl

theorem exec_resetField {f : Fin 8} (ht : s.takes D.RESET_FIELD f w = true) : exec (.resetField f w) s = .next (s.ownResetField f w) :=
  State.odCmd_takes ht _ _

theorem State.ownResetField_busy {f : Nat} (h : s.fieldBusy f = true) : s.ownResetField f w = s.odFail St.RESET_BUSY := if_pos h

theorem State.ownResetField_begins {f : Nat} (h : s.fieldBusy f = false) : s.ownResetField f w =
    ((({ s with boot := { s.boot with resets := s.boot.resets ++ [.field f (odNum w)] } } : State).odHold).fieldStop f (odNum w == 1)).moultDrop
      (fun x => unitField x == some f && (x / 4096 != 6 || odNum w == 1)) := if_neg (ne_true_of_eq_false h)

end PartialResets

/-! ### RESET_PARTITION (R404, R405) -/

section PartitionReset

variable {s : State} {w : OdWrite}

theorem exec_resetPartition {p : Fin 16} (ht : s.takes D.RESET_PARTITION p w = true) :
    exec (.resetPartition p w) s = .next (s.ownResetPartition p) := State.odCmd_takes ht _ _

theorem State.ownResetPartition_again {p : Nat} (h : (s.part p).wcmds.any (fun c => c.1 == .reset) = true) :
    s.ownResetPartition p = s.odFail St.RESET_BUSY := if_pos (Bool.or_eq_true_iff.mpr (.inr h))

theorem State.ownResetPartition_first {p : Nat} (hd : (s.part p).drain = none) (hc : (s.part p).wcmds = []) :
    s.ownResetPartition p = ((s.odHold).faultAll p (fun _ => true)).wcmd p .reset .od := by
  simp only [State.ownResetPartition, hd, hc, List.any_nil, Bool.or_self, Bool.false_eq_true, if_false]

end PartitionReset

/-! ### RESET_DEVICE (R405, R407, R409) -/

section DeviceReset

variable {s : State} {w : OdWrite}

/-- A write of RESET_DEVICE has been answered, and the reset it asks for is still to begin. -/
def State.resetAsked (s : State) (v : Nat) : State :=
  { s with boot := { s.boot with ask := some v }, out := s.out ++ [.od 0 0 0] }

theorem State.ownResetDevice_free (hf : s.odFree = true) : s.ownResetDevice w = s.resetAsked (odNum w) := State.odDone_idle hf rfl rfl

/-- A free controller lets the reset begin as soon as its write is answered. -/
theorem State.runAsk_resetAsked (hf : s.odFree = true) (v : Nat) :
    (s.resetAsked v).runAsk = if v = 1 then (s.resetAsked v).deviceReset else (s.resetAsked v).linkHold 3 := by
  have hb : (s.resetAsked v).odBusy = false := State.odBusy_of_free hf
  have hask : (s.resetAsked v).boot.ask = some v := rfl
  simp only [State.runAsk, hb, hask, Bool.false_eq_true, if_false]
  split
  case h_1 h => rw [if_pos (Option.some.inj h)]
  case h_2 hne h => rw [if_neg (Option.some.inj h ▸ hne)]
  case h_3 h => cases h

variable (ht : s.takes D.RESET_DEVICE 0 w = true)
include ht

/-- Either command is a taken write of RESET_DEVICE, and then the reset it asks for. -/
theorem State.odCmd_resetDevice (c : Instr) :
    s.odCmd c (fun t => (t.odWrite D.RESET_DEVICE 0 w (fun u => u.ownResetDevice w)).runAsk) = .next (s.resetAsked (odNum w)).runAsk := by
  obtain ⟨hf, hc, hl⟩ := (s.takes_iff D.RESET_DEVICE 0 w).mp ht
  simp only [State.odCmd_free hf, State.odWrite, State.odWriteAs, hc, hl, Bool.false_eq_true, if_false, State.ownResetDevice_free hf]

theorem exec_deviceReset : exec (.deviceReset w) s = .next (s.resetAsked (odNum w)).runAsk := State.odCmd_resetDevice ht _

theorem exec_linkHoldReset : exec (.linkHoldReset w) s = .next (s.resetAsked (odNum w)).runAsk := State.odCmd_resetDevice ht _

end DeviceReset

/-- Settles O60: each part is the lemmas above about its command. -/
theorem moultsAndResets : Obligations.MoultsAndResets := by
  unfold Obligations.MoultsAndResets
  refine ⟨?command, ?units, fun s => exec_moult_none, ?defect, ?slice, ?field, ?partition, ?device⟩
  case command =>
    refine fun w s ht => ⟨exec_moultCommand_refused ht, fun h => ⟨_, exec_moultCommand_absent ht h, ?status, rfl, ?objs⟩, fun h =>
      ⟨_, s.newMoult (odNum w), rfl, rfl, rfl, rfl, rfl, rfl, exec_moultCommand_starts ht h⟩⟩
    case status =>
      rw [State.rd_out]
      exact (State.rd_wr_key _ (by decide) ..).trans (State.rd_wr_same ..)
    case objs =>
      exact (((ObjsBut.refl s _).wr (List.mem_cons_self ..) _).wr (List.mem_cons_of_mem _ (List.mem_singleton_self _)) _).trans
        (.congr rfl rfl _)
  case units =>
    exact fun m s hm => ⟨fun u g rest => exec_moultUnitSwitch_next hm, fun u => exec_moultReadyTimeout_unit hm,
      fun u => exec_moultReady_unit hm, exec_moultReady_idle hm⟩
  case defect =>
    intro w s ht
    have hexec := (exec_defectAdd ht).trans (congrArg _ (s.ownDefectAdd_eq w))
    refine ⟨fun h => ?bad, fun h20 h32 hd hu hgone => ?absent, fun h20 h32 hd hu hhere => ?added⟩
    case bad => exact takes_refuses ht (hexec.trans (congrArg _ (if_pos ((badDefect_iff _).mpr h)))) (by decide)
    case absent =>
      rw [badDefect_false h20 h32 hd hu, hgone] at hexec
      obtain ⟨u, hfail, hout, hobjs⟩ := takes_absent ht
      exact ⟨u, hexec.trans (congrArg _ hfail), hout, hobjs⟩
    case added => rw [hexec, badDefect_false h20 h32 hd hu, hhere, if_neg Bool.false_ne_true, if_pos rfl]
  case slice =>
    intro n w s ht
    have hexec := exec_resetSlice ht
    refine ⟨fun h => ?failed, fun h hb => ?busy, fun h hb => ⟨_, rfl, ?begins⟩⟩
    case failed =>
      have hst := State.sliceStatus_failed h
      rw [State.ownResetSlice_failed (hst ▸ by decide), hst] at hexec
      exact takes_refuses ht hexec (by decide)
    case busy =>
      rw [State.ownResetSlice_reached h, if_pos hb] at hexec
      exact takes_refuses ht hexec (by decide)
    case begins =>
      rw [hexec, State.ownResetSlice_reached h, if_neg (ne_true_of_eq_false hb)]
      rfl
  case field =>
    exact fun f w s ht => ⟨fun h => takes_refuses ht ((exec_resetField ht).trans (congrArg _ (State.ownResetField_busy h))) (by decide),
      fun h => ⟨_, rfl, (exec_resetField ht).trans (congrArg _ (State.ownResetField_begins h))⟩⟩
  case partition =>
    exact fun p w s ht => ⟨fun h => takes_refuses ht ((exec_resetPartition ht).trans (congrArg _ (State.ownResetPartition_again h))) (by decide),
      fun hd hc => (exec_resetPartition ht).trans (congrArg _ (State.ownResetPartition_first hd hc))⟩
  case device =>
    intro w s ht
    have hrun := State.runAsk_resetAsked (State.takes_idle ht).1 (odNum w)
    refine ⟨s.resetAsked (odNum w), rfl, fun h => ?_, fun h => ?_, fun _ => (exec_linkHoldReset ht).trans (exec_deviceReset ht).symm⟩
    · rw [exec_deviceReset ht, hrun, if_pos h]
      rfl
    · rw [exec_linkHoldReset ht, hrun, if_neg h]

end Sys2Proof.Machine
end
